-- ==== Sys2Proof/Word.lean ====
section
/-! DEFINITION. The words the block is made of: bytes, 32-bit and 64-bit words, and the two other
widths the spec fixes (the 96-bit long-sum cell of R159 and the 128-bit order of R66). -/

namespace Sys2Proof

/-- One byte. -/
abbrev Byte := BitVec 8
/-- A 32-bit word: one lane of a vector register (R179). -/
abbrev W32 := BitVec 32
/-- A 64-bit word: every control-space register and every signal (R76). -/
abbrev W64 := BitVec 64
/-- A 128-bit order (R66). -/
abbrev Order := BitVec 128

/-- An A-die, A0 to A7 (R20). -/
abbrev ADie := Fin 8
/-- Any logic die, by die index (R20). -/
abbrev Die := Fin 14
/-- A vector cluster of one A-die (R20). -/
abbrev Cluster := Fin 8
/-- An engine station of one A-die by the index of R64. -/
abbrev EngineIx := Fin 15
/-- A Bamkan stack, S0 to S31 (R20). -/
abbrev StackIx := Fin 32
/-- An Ommet port, O0 to O15 (R20). -/
abbrev PortIx := Fin 16
/-- An N port, N0 to N3 (R20). -/
abbrev NPortIx := Fin 4
/-- A depot channel, D0 to D31 (R20). -/
abbrev DChanIx := Fin 32
/-- A set slot of a cluster, 0 to 63 (R234). -/
abbrev SlotIx := Fin 64

end Sys2Proof
end

