-- ==== Sys2Proof/Syntax.lean ====
section
/-! DEFINITION. The commands the block takes: one constructor per row of spec/opcode_table.json.
A row's operands are what reaches the block from outside with that event (an address, a value, a flit,
an order's fields) and what the spec leaves to the outside to decide (whether a signature verifies). -/

namespace Sys2Proof

/-- What resets the host port only (R450). -/
inductive PortReset where
  | perst | hot | flr
  deriving DecidableEq, Repr

/-- A function that can be disabled (R513). -/
inductive FunctionId where
  | ommet (p : PortIx)
  | nport (n : NPortIx)
  | depot (c : DChanIx)
  | host
  deriving DecidableEq, Repr

/-- A flit as a port receives it (R374): link word, route header, the payload's plaintext, and whether the FEC decodes
with a matching CRC and the MAC verifies; and the count in 1/256 beat at which its first bit crossed the PMA (R45). -/
structure Flit where
  lseq : BitVec 12
  lack : BitVec 12
  ackKind : BitVec 2
  kind : Byte
  path : Byte
  tag : BitVec 16
  dst : Byte
  src : Byte
  pseq : BitVec 48
  payload : BitVec 1792
  fecOk : Bool
  macOk : Bool
  ts : BitVec 72
  deriving DecidableEq, Repr

/-- Who waits for a signal: an engine, or a set-mode thread (R77, R243). -/
inductive Waiter where
  | engine (e : EngineIx)
  | thread (c : Cluster) (slot : SlotIx) (t : Fin 32)
  deriving DecidableEq, Repr

/-- What a start step found (R545 to R548): step 1 the ROM has started; step 2 whether the NOR offers 8D-8D-8D, its three regions as
read, and whether the firmware signature, the configuration signature, the certificate's CA signature verify, and the key
that the group key record opens to; step 3 the wires that the fuses or the test mark (P-die or A-die, entry, bundle, wire; from 1,024 the
spares) and the bundles with a clock pair both faulty; step 4 whether the parts meet R454, the superblock's layout if
there is one, the LUNs in service by channel times 16 plus LUN, data bytes of a LUN, blocks and spare blocks of a channel,
and which records of R556 have a valid copy, by table row; step 5 what the tests mark, and what training leaves of each
memory channel that it lists: the eyes in the order of BK_SLOT, and the centres of the four axes in the order of AXIS; step 6; step 7 whether the runtime
store's measurement matches, before and after a rebuild; step 8. -/
inductive StepFinding where
  | rom
  | images (octal : Bool) (fw cfg cert : List Byte) (fwSigOk cfgSigOk caOk : Bool) (groupKey : Option (BitVec 256))
  | wires (faulty : List (Fin 12 × Fin 16 × Fin 8 × Fin 1056)) (deadClocks : List (Fin 12 × Fin 16 × Fin 8))
  | depot (partsOk : Bool) (super : Option W32) (luns : BitVec 512) (lunBytes : W64) (blocks spares : W32)
      (records : BitVec 12)
  | tests (cubes : List (ADie × Fin 33 × Fin 33)) (lanes : List (ADie × Cluster × Fin 1056))
      (cores : List (Fin 4 × Fin 40)) (trained : List (StackIx × Fin 296 × W32 × W32))
  | cleared
  | runtime (storeOk rebuiltOk : Bool)
  | ports
  deriving DecidableEq, Repr

/-- How the hardest codeword of a depot read decoded (R460): at ladder step 1 to 5, or not at all (6), and where it
stands. -/
structure LadderRead where
  step : Fin 7
  ch : DChanIx
  lun : Fin 16
  block : BitVec 16
  page : BitVec 24
  cw : Fin 4
  deriving DecidableEq, Repr

/-- What a codeword of the depot belongs to (R466): nothing that is kept, an object or replica by name and rank, or a backed page. -/
inductive CodewordOf where
  | nothing
  | object (name : BitVec 256) (rank : BitVec 20) (replica : Bool)
  | page (key : W64)
  deriving DecidableEq, Repr

/-- The operations of a Bamkan track (R288). -/
inductive BkKind where
  | blockRead | blockWrite | lineRead | sectorRead | partialWrite
  deriving DecidableEq, Repr

/-- An operation on a track (R284, R285, R288, R290): its kind, the address it names, how many bytes a partial write has, the train
whose booked data it moves, if one does, and what the bursts of its row show: corrected and uncorrectable sectors by slot. -/
structure BkOp where
  kind : BkKind
  pa : BitVec 41
  len : BitVec 9
  owner : Option (ADie × Fin 4 × BitVec 24)
  ce : BitVec 9
  ue : BitVec 9
  deriving DecidableEq, Repr

/-- What a die measures for its B message (R530, R531): demands and floors of classes 1 to 3, and its power over the last
period, all in 1/8 W. -/
structure PowerReport where
  dem1 : BitVec 16
  dem2 : BitVec 16
  dem3 : BitVec 16
  floor1 : BitVec 16
  floor2 : BitVec 16
  floor3 : BitVec 16
  measured : BitVec 16
  deriving DecidableEq, Repr

/-- The commands: one constructor per row of spec/opcode_table.json, in its order. -/
inductive Instr where
  /-- TREF_LOST (R40). -/
  | trefLost (t : W64)
  /-- TREF_RETURN (R40). -/
  | trefReturn (t : W64)
  /-- TREF_HOLD_EXPIRY (R40). -/
  | trefHoldExpiry (t : W64)
  /-- TTOD_MESSAGE (R42). -/
  | ttodMessage (t : W64) (msg : BitVec 160)
  /-- TTOD_TIMEOUT (R43). -/
  | ttodTimeout (t : W64)
  /-- TPPS_EDGE (R43). -/
  | tppsEdge (t : W64)
  /-- TPPS_MISSING (R43). -/
  | tppsMissing (t : W64)
  /-- HOLDOVER_EXPIRY (R48). -/
  | holdoverExpiry (t : W64)
  /-- HOLD_ELIGIBLE (R49). -/
  | holdEligible (t : W64)
  /-- TIME_TRANSFER_REQUEST (R45). -/
  | timeTransferRequest (t : W64)
  /-- TIME (R45). -/
  | timeFlit (p : PortIx) (f : Flit)
  /-- MTC_REGISTER_WRITE (R61). -/
  | mtcRegisterWrite (off : BitVec 24) (v same : W64)
  /-- MAIN_RELOCK (R60). -/
  | mainRelock
  /-- REGISTER_WRITE (R13). -/
  | registerWrite (die : Fin 15) (off : BitVec 30) (len : BitVec 4) (v same : W64)
  /-- NOP (R67). -/
  | nop (d : ADie) (e : EngineIx) (issue : BitVec 24)
  /-- SIG_SET (R77). -/
  | sigSet (d : ADie) (e : EngineIx) (issue : BitVec 24) (ops : BitVec 96)
  /-- SIG_ADD (R77). -/
  | sigAdd (d : ADie) (e : EngineIx) (issue : BitVec 24) (ops : BitVec 96)
  /-- SIG_WAIT_GE (R77). -/
  | sigWaitGe (d : ADie) (e : EngineIx) (issue : BitVec 24) (ops : BitVec 96)
  /-- SIG_WAIT_EQ (R77). -/
  | sigWaitEq (d : ADie) (e : EngineIx) (issue : BitVec 24) (ops : BitVec 96)
  /-- SIG_WAIT_MASK (R77). -/
  | sigWaitMask (d : ADie) (e : EngineIx) (issue : BitVec 24) (ops : BitVec 96)
  /-- SIGNAL_OP_ARRIVAL (R585). -/
  | signalOpArrival (d : ADie) (picks : List Nat)
  /-- SIGNAL_WAIT_RELEASE (R77). -/
  | signalWaitRelease (d : ADie) (w : Waiter)
  /-- TRAIN (R85). -/
  | train (d : ADie) (j : Fin 4) (issue : BitVec 24) (ops : BitVec 96)
  /-- TRAIN_TRANSPOSE (R84). -/
  | trainTranspose (d : ADie) (j : Fin 4) (issue : BitVec 24) (ops : BitVec 96)
  /-- TRAIN_ARRIVAL (R85). -/
  | trainArrival (d : ADie) (j : Fin 4) (issue : BitVec 24) (held : BitVec 32)
  /-- ORDER_WRITE_CYCLE (R69). -/
  | orderWriteCycle (d : ADie) (engines : BitVec 15) (grant : Fin 4097)
  /-- ENGINE_ARRIVAL (R87). -/
  | engineArrival (d : ADie) (e : EngineIx) (named : BitVec 256)
  /-- ARRIVAL_MESSAGE (R88). -/
  | arrivalMessage (d src : ADie)
  /-- ARRIVAL (R88). -/
  | arrivalFlit (p : PortIx) (f : Flit)
  /-- DEPARTURE (R89). -/
  | departure (d : ADie) (t : W64)
  /-- STATION_TIMEOUT (R90). -/
  | stationTimeout (d : ADie) (t : W64)
  /-- POSSESSION_FLUSH_DONE (R95). -/
  | possessionFlushDone (d : ADie) (base : W64)
  /-- TT_LOAD (R104). -/
  | ttLoad (d : ADie) (v : W64)
  /-- TT_LOAD_COMPLETE (R105). -/
  | ttLoadComplete (d : ADie)
  /-- SG_VALUE_WRITE (R108). -/
  | sgValueWrite (d : ADie) (k : BitVec 11) (v : W64)
  /-- SG_ADD_WRITE (R108). -/
  | sgAddWrite (d : ADie) (k : BitVec 11) (v : W64)
  /-- SG_WAIT_CFG_WRITE (R108). -/
  | sgWaitCfgWrite (d : ADie) (w : BitVec 6) (v : W64)
  /-- WAIT_SLOT_FIRE (R109). -/
  | waitSlotFire (d : ADie) (w : BitVec 6)
  /-- MA_MMA (R125). -/
  | maMma (d : ADie) (issue : BitVec 24) (ops : BitVec 96) (bad : List (Fin 33 × Fin 33))
  /-- MA_OUTCFG (R127). -/
  | maOutcfg (d : ADie) (issue : BitVec 24) (ops : BitVec 96)
  /-- MA_SCALECFG (R129). -/
  | maScalecfg (d : ADie) (issue : BitVec 24) (ops : BitVec 96)
  /-- MA_ZERO (R130). -/
  | maZero (d : ADie) (issue : BitVec 24) (ops : BitVec 96)
  /-- MA_DRAIN (R131). -/
  | maDrain (d : ADie) (issue : BitVec 24) (ops : BitVec 96)
  /-- MA_LOAD (R132). -/
  | maLoad (d : ADie) (issue : BitVec 24) (ops : BitVec 96)
  /-- PLATFORM_WINDOW_ACCESS (R183). -/
  | platformWindowAccess (hart : Bool) (d : ADie) (off : W32) (len : BitVec 13) (write : Option (List Byte))
  /-- VCFG (R189). -/
  | vcfg (d : ADie) (c : Cluster) (issue : BitVec 24) (ops : BitVec 96)
  /-- VBASE (R189). -/
  | vbase (d : ADie) (c : Cluster) (issue : BitVec 24) (ops : BitVec 96)
  /-- VCVT (R194). -/
  | vcvt (d : ADie) (c : Cluster) (issue : BitVec 24) (ops : BitVec 96) (bad : List (Fin 1056))
  /-- VADD (R193). -/
  | vadd (d : ADie) (c : Cluster) (issue : BitVec 24) (ops : BitVec 96) (bad : List (Fin 1056))
  /-- VSUB (R193). -/
  | vsub (d : ADie) (c : Cluster) (issue : BitVec 24) (ops : BitVec 96) (bad : List (Fin 1056))
  /-- VMUL (R193). -/
  | vmul (d : ADie) (c : Cluster) (issue : BitVec 24) (ops : BitVec 96) (bad : List (Fin 1056))
  /-- VFMA (R193). -/
  | vfma (d : ADie) (c : Cluster) (issue : BitVec 24) (ops : BitVec 96) (bad : List (Fin 1056))
  /-- VMIN (R193). -/
  | vmin (d : ADie) (c : Cluster) (issue : BitVec 24) (ops : BitVec 96) (bad : List (Fin 1056))
  /-- VMAX (R193). -/
  | vmax (d : ADie) (c : Cluster) (issue : BitVec 24) (ops : BitVec 96) (bad : List (Fin 1056))
  /-- VCMP (R193). -/
  | vcmp (d : ADie) (c : Cluster) (issue : BitVec 24) (ops : BitVec 96) (bad : List (Fin 1056))
  /-- VSEL (R193). -/
  | vsel (d : ADie) (c : Cluster) (issue : BitVec 24) (ops : BitVec 96) (bad : List (Fin 1056))
  /-- VLOGIC (R184). -/
  | vlogic (d : ADie) (c : Cluster) (issue : BitVec 24) (ops : BitVec 96) (bad : List (Fin 1056))
  /-- VUNARY (R193). -/
  | vunary (d : ADie) (c : Cluster) (issue : BitVec 24) (ops : BitVec 96) (bad : List (Fin 1056))
  /-- VDIV (R172). -/
  | vdiv (d : ADie) (c : Cluster) (issue : BitVec 24) (ops : BitVec 96) (bad : List (Fin 1056))
  /-- VSQRT (R172). -/
  | vsqrt (d : ADie) (c : Cluster) (issue : BitVec 24) (ops : BitVec 96) (bad : List (Fin 1056))
  /-- VRECIP (R172). -/
  | vrecip (d : ADie) (c : Cluster) (issue : BitVec 24) (ops : BitVec 96) (bad : List (Fin 1056))
  /-- VRSQRT (R172). -/
  | vrsqrt (d : ADie) (c : Cluster) (issue : BitVec 24) (ops : BitVec 96) (bad : List (Fin 1056))
  /-- VFUNC (R172). -/
  | vfunc (d : ADie) (c : Cluster) (issue : BitVec 24) (ops : BitVec 96) (bad : List (Fin 1056))
  /-- VPOW (R172). -/
  | vpow (d : ADie) (c : Cluster) (issue : BitVec 24) (ops : BitVec 96) (bad : List (Fin 1056))
  /-- VRED (R195). -/
  | vred (d : ADie) (c : Cluster) (issue : BitVec 24) (ops : BitVec 96) (bad : List (Fin 1056))
  /-- VDOTL (R196). -/
  | vdotl (d : ADie) (c : Cluster) (issue : BitVec 24) (ops : BitVec 96) (bad : List (Fin 1056))
  /-- VGEMV (R198). -/
  | vgemv (d : ADie) (c : Cluster) (issue : BitVec 24) (ops : BitVec 96) (bad : List (Fin 1056))
  /-- VACC (R203). -/
  | vacc (d : ADie) (c : Cluster) (issue : BitVec 24) (ops : BitVec 96) (bad : List (Fin 1056))
  /-- VLSADD (R201). -/
  | vlsadd (d : ADie) (c : Cluster) (issue : BitVec 24) (ops : BitVec 96) (bad : List (Fin 1056))
  /-- VPERM (R205). -/
  | vperm (d : ADie) (c : Cluster) (issue : BitVec 24) (ops : BitVec 96) (bad : List (Fin 1056))
  /-- VSHUF (R206). -/
  | vshuf (d : ADie) (c : Cluster) (issue : BitVec 24) (ops : BitVec 96) (bad : List (Fin 1056))
  /-- VPACK (R207). -/
  | vpack (d : ADie) (c : Cluster) (issue : BitVec 24) (ops : BitVec 96) (bad : List (Fin 1056))
  /-- VUNPACK (R207). -/
  | vunpack (d : ADie) (c : Cluster) (issue : BitVec 24) (ops : BitVec 96) (bad : List (Fin 1056))
  /-- VSLEXP (R208). -/
  | vslexp (d : ADie) (c : Cluster) (issue : BitVec 24) (ops : BitVec 96) (bad : List (Fin 1056))
  /-- VSLICE (R209). -/
  | vslice (d : ADie) (c : Cluster) (issue : BitVec 24) (ops : BitVec 96) (bad : List (Fin 1056))
  /-- VRECOMB (R210). -/
  | vrecomb (d : ADie) (c : Cluster) (issue : BitVec 24) (ops : BitVec 96) (bad : List (Fin 1056))
  /-- VGATHER (R222). -/
  | vgather (d : ADie) (c : Cluster) (issue : BitVec 24) (ops : BitVec 96) (bad : List (Fin 1056))
  /-- VSCATTER (R222). -/
  | vscatter (d : ADie) (c : Cluster) (issue : BitVec 24) (ops : BitVec 96) (bad : List (Fin 1056))
  /-- VSCOP (R220). -/
  | vscop (d : ADie) (c : Cluster) (issue : BitVec 24) (ops : BitVec 96)
  /-- GATHER_WINDOW_END (R223). -/
  | gatherWindowEnd (d : ADie) (c : Cluster) (finished : Bool)
  /-- GATHER_WORK_DONE (R223). -/
  | gatherWorkDone (d : ADie) (c : Cluster)
  /-- STREAM_CACHE_FILL (R213). -/
  | streamCacheFill (d : ADie) (c : Cluster) (va : W64)
  /-- STREAM_CACHE_WRITEBACK_DONE (R216). -/
  | streamCacheWritebackDone (d : ADie) (c : Cluster) (late : Bool)
  /-- VC_SC_CFG_WRITE (R214). -/
  | vcScCfgWrite (d : ADie) (c : Cluster) (v : W64)
  /-- VC_SC_RANGE_CMD (R220). -/
  | vcScRangeCmd (d : ADie) (c : Cluster) (v : W64)
  /-- RANGE_DONE (R220). -/
  | rangeDone (d : ADie) (c : Cluster)
  /-- SM_CALL (R228). -/
  | smCall (d : ADie) (issue : BitVec 24) (ops : BitVec 96)
  /-- CALL_WINDOW_OPEN (R229). -/
  | callWindowOpen (d : ADie) (c : Cluster) (waited : Bool)
  /-- FIGURE_START (R234). -/
  | figureStart (d : ADie) (c : Cluster) (seat : BitVec 6)
  /-- SET_INSTRUCTION (R239). -/
  | setInstruction (d : ADie) (c : Cluster) (slot : SlotIx) (cycles : W64) (bad : List (Fin 1056))
  /-- SET_MEMORY_ACCESS (R245). -/
  | setMemoryAccess (d : ADie) (c : Cluster) (slot : SlotIx)
  /-- SET_AMO_COMBINE (R248). -/
  | setAmoCombine (d : ADie) (c : Cluster) (slot : SlotIx)
  /-- SET_SERIAL_ATOMIC (R250). -/
  | setSerialAtomic (d : ADie) (c : Cluster) (slot : SlotIx)
  /-- SM_BARRIER (R252). -/
  | smBarrier (d : ADie) (c : Cluster) (slot : SlotIx)
  /-- BARRIER_RELEASE (R252). -/
  | barrierRelease (d : ADie) (c : Cluster) (slot : SlotIx)
  /-- SM_EXIT (R254). -/
  | smExit (d : ADie) (c : Cluster) (slot : SlotIx)
  /-- SM_ACCRD (R242). -/
  | smAccrd (d : ADie) (c : Cluster) (slot : SlotIx)
  /-- SM_PREFETCH (R244). -/
  | smPrefetch (d : ADie) (c : Cluster) (slot : SlotIx)
  /-- SM_SIG_SET (R243). -/
  | smSigSet (d : ADie) (c : Cluster) (slot : SlotIx)
  /-- SM_SIG_ADD (R243). -/
  | smSigAdd (d : ADie) (c : Cluster) (slot : SlotIx)
  /-- SM_SIG_WAIT_GE (R243). -/
  | smSigWaitGe (d : ADie) (c : Cluster) (slot : SlotIx)
  /-- SM_SIG_WAIT_EQ (R243). -/
  | smSigWaitEq (d : ADie) (c : Cluster) (slot : SlotIx)
  /-- SM_SIG_WAIT_MASK (R243). -/
  | smSigWaitMask (d : ADie) (c : Cluster) (slot : SlotIx)
  /-- SM_FADD (R249). -/
  | smFadd (d : ADie) (c : Cluster) (slot : SlotIx)
  /-- SM_CAS (R250). -/
  | smCas (d : ADie) (c : Cluster) (slot : SlotIx)
  /-- CALL_END (R229). -/
  | callEnd (d : ADie) (c : Cluster) (held : Bool)
  /-- CALL_WINDOW_EXPIRY (R229). -/
  | callWindowExpiry (d : ADie) (c : Cluster)
  /-- CALL_GRACE_EXPIRY (R257). -/
  | callGraceExpiry (d : ADie) (c : Cluster)
  /-- UP_ADDR (R270). -/
  | upAddr (d : ADie) (issue : BitVec 24) (ops : BitVec 96)
  /-- UP_SHAPE (R270). -/
  | upShape (d : ADie) (issue : BitVec 24) (ops : BitVec 96)
  /-- UP_RULE (R270). -/
  | upRule (d : ADie) (issue : BitVec 24) (ops : BitVec 96)
  /-- UP_APPLY (R273). -/
  | upApply (d : ADie) (issue : BitVec 24) (ops : BitVec 96)
  /-- UPDATE_WINDOW_OPEN (R273). -/
  | updateWindowOpen (d : ADie) (waited : Bool)
  /-- UPDATE_END (R273). -/
  | updateEnd (d : ADie) (issue : BitVec 24) (held : Bool)
  /-- UPDATE_WINDOW_EXPIRY (R273). -/
  | updateWindowExpiry (d : ADie) (issue : BitVec 24)
  /-- UP_RULE_WRITE (R267). -/
  | upRuleWrite (d : ADie) (j : BitVec 6) (w : BitVec 4) (v : W64)
  /-- BAMKAN_SLOT (R293). -/
  | bamkanSlot (n : StackIx) (t : Fin 32) (granted : Option BkOp) (arrive : List BkOp)
  /-- BAMKAN_REFRESH (R289). -/
  | bamkanRefresh (n : StackIx)
  /-- CHANNEL_NO_ANSWER (R296). -/
  | channelNoAnswer (n : StackIx) (chans : List (Fin 296 × BitVec 23)) (out : List (Bool × BkOp))
  /-- REBUILD_STEP (R299). -/
  | rebuildStep (n : StackIx) (t : Fin 32) (ue ce : BitVec 9)
  /-- MARGIN_SWEEP_START (R305). -/
  | marginSweepStart (n : StackIx) (v : W64)
  /-- MARGIN_SWEEP_DONE (R305). -/
  | marginSweepDone (n : StackIx) (low high : Byte)
  /-- TU_SATP_WRITE (R313). -/
  | tuSatpWrite (d : ADie) (v : W64)
  /-- TRANSLATION_WALK (R314). -/
  | translationWalk (d : ADie) (e : EngineIx) (va : W64) (write : Bool)
  /-- WALK_COMPLETE (R314). -/
  | walkComplete (d : ADie) (e : EngineIx)
  /-- FAULT_KEY_ARRIVAL (R320). -/
  | faultKeyArrival (d sender : ADie) (k : W64) (window : Bool)
  /-- TU_RESOLVE_RETRY (R321). -/
  | tuResolveRetry (d : ADie) (ix : BitVec 10)
  /-- TU_RESOLVE_FATAL (R321). -/
  | tuResolveFatal (d : ADie) (ix : BitVec 10)
  /-- SFENCE_VMA (R318). -/
  | sfenceVma (hart : Fin 144) (va : Option W64) (asid : Option (BitVec 16))
  /-- SINVAL_VMA (R318). -/
  | sinvalVma (hart : Fin 144) (va : Option W64) (asid : Option (BitVec 16))
  /-- SFENCE_INVAL_IR (R318). -/
  | sfenceInvalIr (hart : Fin 144)
  /-- FENCE_ACK (R318). -/
  | fenceAck (d : ADie) (id : Nat)
  /-- OW_WINDOW_WRITE (R327). -/
  | owWindowWrite (d : ADie) (recv : Bool) (w : Byte) (v : W64)
  /-- TU_WINFENCE (R327). -/
  | tuWinfence (d : ADie) (v : W64)
  /-- WINFENCE_DONE (R327). -/
  | winfenceDone
  /-- COHERENT_REQUEST (R339). -/
  | coherentRequest (d : Fin 12) (line : BitVec 35) (write ordered : Bool) (data : BitVec 512) (mask : BitVec 64)
  /-- SNOOP (R334). -/
  | snoop (d : Fin 12) (line : BitVec 35) (invalidate : Bool)
  /-- SNOOP_DEFER_EXPIRY (R334). -/
  | snoopDeferExpiry (d : Fin 12) (line : BitVec 35)
  /-- LINE_EVICTION (R331). -/
  | lineEviction (d : Fin 12) (line : BitVec 35)
  /-- SNPDATA (R337). -/
  | snpdata (line : BitVec 58)
  /-- SNPINV (R337). -/
  | snpinv (line : BitVec 58)
  /-- SNPCUR (R337). -/
  | snpcur (line : BitVec 58)
  /-- CXL_CACHE_DISABLE (R338). -/
  | cxlCacheDisable
  /-- MSI_DELIVERY (R345). -/
  | msiDelivery (sender : Fin 9)
  /-- CHAWEN_SLOT (R354). -/
  | chawenSlot (src dst : Die) (k : Fin 8) (phase : Fin 4) (booked : Option (Option (ADie × Fin 4 × BitVec 24))) (claims : BitVec 9)
  /-- T_MESSAGE_DUE (R354). -/
  | tMessageDue (src dst : Die)
  /-- T (R357). -/
  | tMessage (d : Die)
  /-- B_MESSAGE_DUE (R358). -/
  | bMessageDue (d : Fin 12) (r : PowerReport)
  /-- B (R530). -/
  | bMessage (d : Die) (msg : BitVec 256)
  /-- CHAWEN_PARITY_MISMATCH (R361). -/
  | chawenParityMismatch (d : Fin 12) (e : Fin 16) (b : Fin 8) (g : Fin 32)
  /-- REPLAY_ARRIVAL (R361). -/
  | replayArrival (d : Fin 12) (e : Fin 16) (b : Fin 8) (ok : Bool)
  /-- PROBE_DONE (R361). -/
  | probeDone (d : Fin 12) (e : Fin 16) (b : Fin 8) (wires : List (Fin 1024))
  /-- CHAWEN_CLOCK_FAULT (R350). -/
  | chawenClockFault (d : Fin 12) (e : Fin 16) (b : Fin 8) (p : Fin 4)
  /-- IDCODE (R364). -/
  | idcode
  /-- SAMPLE_PRELOAD (R364). -/
  | samplePreload (levels preload : BitVec 822)
  /-- EXTEST (R366). -/
  | extest
  /-- CLAMP (R366). -/
  | clamp
  /-- HIGHZ (R366). -/
  | highz
  /-- DIECHAIN (R365). -/
  | diechain
  /-- BYPASS (R364). -/
  | bypass (code : Byte)
  /-- PARTNER_DETECT (R380). -/
  | partnerDetect (p : PortIx)
  /-- TRAINING_DONE (R380). -/
  | trainingDone (p : PortIx) (lanes : BitVec 9) (partner : Option (W32 × Fin 16 × Bool))
  /-- LANE_FAILED (R379). -/
  | laneFailed (p : PortIx) (lane : Fin 9) (delay : Byte)
  /-- LANE_CHANGE (R389). -/
  | laneChange (p : PortIx) (f : Flit)
  /-- LANE_ACK (R389). -/
  | laneAck (p : PortIx) (f : Flit)
  /-- LANE_CHANGE_EFFECT (R380). -/
  | laneChangeEffect (p : PortIx) (delay : Byte)
  /-- PORT_DISABLE (R389). -/
  | portDisable (p : PortIx) (f : Flit)
  /-- OMMET_PAYLOAD_SLOT (R398). -/
  | ommetPayloadSlot (p : PortIx) (can : Bool) (ts : BitVec 72) (corr : List (Fin 9 × BitVec 16))
  /-- LINK_NAK (R377). -/
  | linkNak (p : PortIx) (lack : BitVec 12)
  /-- LINK_ACK (R377). -/
  | linkAck (p : PortIx) (lack : BitVec 12)
  /-- BOOKED_WRITE (R385). -/
  | bookedWrite (p : PortIx) (f : Flit)
  /-- READ_REQ (R385). -/
  | readReq (p : PortIx) (f : Flit)
  /-- READ_DATA (R385). -/
  | readData (p : PortIx) (f : Flit)
  /-- BOOKED_SIGNAL_SET (R385). -/
  | bookedSignalSet (p : PortIx) (f : Flit)
  /-- BOOKED_SIGNAL_ADD (R385). -/
  | bookedSignalAdd (p : PortIx) (f : Flit)
  /-- COLL (R386). -/
  | collFlit (p : PortIx) (f : Flit)
  /-- REQ_READ (R387). -/
  | reqRead (p : PortIx) (f : Flit)
  /-- REQ_WRITE (R387). -/
  | reqWrite (p : PortIx) (f : Flit)
  /-- REQ_SIGNAL_SET (R387). -/
  | reqSignalSet (p : PortIx) (f : Flit)
  /-- REQ_SIGNAL_ADD (R387). -/
  | reqSignalAdd (p : PortIx) (f : Flit)
  /-- MESSAGE (R387). -/
  | messageFlit (p : PortIx) (f : Flit)
  /-- REPLICA_WRITE (R473). -/
  | replicaWrite (p : PortIx) (f : Flit)
  /-- REPLICA_COMMIT (R473). -/
  | replicaCommit (p : PortIx) (f : Flit)
  /-- RESP (R387). -/
  | respFlit (p : PortIx) (f : Flit)
  /-- ARMED (R509). -/
  | armedFlit (p : PortIx) (f : Flit)
  /-- TEARDOWN_FLIT (R512). -/
  | teardownFlit (p : PortIx) (f : Flit)
  /-- CLEAR (R512). -/
  | clearFlit (p : PortIx) (f : Flit)
  /-- CE_COLL (R406). -/
  | ceColl (d : ADie) (issue : BitVec 24) (ops : BitVec 96)
  /-- COLLECTIVE_END (R406). -/
  | collectiveEnd (d : ADie) (issue : BitVec 24) (held : Bool)
  /-- COLLECTIVE_WINDOW_EXPIRY (R406). -/
  | collectiveWindowExpiry (d : ADie) (issue : BitVec 24)
  /-- OM_CTRL_DISABLE (R413). -/
  | omCtrlDisable (p : PortIx)
  /-- OM_CTRL_ENABLE (R413). -/
  | omCtrlEnable (p : PortIx)
  /-- OR_ENTRY_WRITE (R393). -/
  | orEntryWrite (d : ADie) (g : Byte) (v : W64)
  /-- NP_PEER_WRITE (R395). -/
  | npPeerWrite (r : BitVec 16) (high : Bool) (v : W64)
  /-- NP_SEAL_REGION_WRITE (R409). -/
  | npSealRegionWrite (size : Bool) (v : W64)
  /-- NP_RING_TAIL_WRITE (R410). -/
  | npRingTailWrite (v : W64)
  /-- SEAL (R411). -/
  | sealFrame
  /-- OPEN (R412). -/
  | openFrame (opened : Option (List Byte))
  /-- NPORT_INBOUND_REQUEST (R409). -/
  | nportInboundRequest (n : NPortIx) (pa : W64) (len : BitVec 13) (write : Option (List Byte))
  /-- FUNCTION_DRAINED (R513). -/
  | functionDrained (f : FunctionId)
  /-- FUNCTION_DRAIN_EXPIRY (R513). -/
  | functionDrainExpiry (f : FunctionId) (t : W64) (nand : W32)
  /-- HP_DOORBELL (R425). -/
  | hpDoorbell (d : W32)
  /-- SLOT_READ (R426). -/
  | slotRead (written : List Byte)
  /-- COMMAND_ACCEPT (R427). -/
  | commandAccept
  /-- COMPLETION (R448). -/
  | completion (seq : W32)
  /-- IDENTIFY (R431). -/
  | identify (seq : W32)
  /-- GET_STATUS (R432). -/
  | getStatus (seq : W32)
  /-- MAP_LANDING (R436). -/
  | mapLanding (seq : W32)
  /-- PUT (R439). -/
  | put (seq : W32) (opened : Option (List Byte))
  /-- GET (R440). -/
  | get (seq : W32)
  /-- ARM_JOB (R505). -/
  | armJob (seq : W32) (sigOk : Bool) (bundle : Option (BitVec 1024))
  /-- RIGHT_AWAY (R508). -/
  | rightAway (seq : W32)
  /-- TEARDOWN (R511). -/
  | teardown (seq : W32)
  /-- SIGNAL_READ (R434). -/
  | signalRead (seq : W32)
  /-- SIGNAL_SET (R434). -/
  | signalSet (seq : W32)
  /-- SIGNAL_ADD (R434). -/
  | signalAdd (seq : W32)
  /-- SET_FUNCTION_DISABLE (R513). -/
  | setFunctionDisable (seq : W32)
  /-- SET_FUNCTION_ENABLE (R513). -/
  | setFunctionEnable (seq : W32)
  /-- STABLE (R539). -/
  | stable (seq : W32)
  /-- MAINTENANCE_ENTER (R498). -/
  | maintenanceEnter (seq : W32) (sigOk : Bool)
  /-- MAINTENANCE_RESTART (R561). -/
  | maintenanceRestart (seq : W32)
  /-- UPDATE_FIRMWARE (R499). -/
  | updateFirmware (seq : W32) (sigOk readBackOk : Bool)
  /-- UPDATE_CONFIGURATION (R499). -/
  | updateConfiguration (seq : W32) (sigOk readBackOk : Bool)
  /-- ATTEST (R488). -/
  | attest (seq : W32)
  /-- LANDING_WRITE (R436). -/
  | landingWrite (off : BitVec 28) (data : List Byte)
  /-- LANDING_DENIED (R436). -/
  | landingDenied (t : W64)
  /-- BAR4_READ (R420). -/
  | bar4Read (off : BitVec 28)
  /-- HP_NOTICE_CTRL_WRITE (R422). -/
  | hpNoticeCtrlWrite (v : W64)
  /-- HP_NOTICE_HEAD_WRITE (R422). -/
  | hpNoticeHeadWrite (v : W64)
  /-- NOTICE_WRITE (R441). -/
  | noticeWrite
  /-- MSIX_MESSAGE (R446). -/
  | msixMessage (t : W64)
  /-- HP_WAKE (R541). -/
  | hpWake (v : W64)
  /-- HP_LAND_WRITE (R435). -/
  | hpLandWrite (size : Bool) (v : W64)
  /-- HP_RT_POST (R435). -/
  | hpRtPost (v : W64)
  /-- HOST_PORT_RESET (R450). -/
  | hostPortReset (kind : PortReset)
  /-- HOST_FUNCTION_DISABLE (R451). -/
  | hostFunctionDisable
  /-- HOST_FUNCTION_ENABLE (R451). -/
  | hostFunctionEnable
  /-- DOE_SESSION (R487). -/
  | doeSession (hostKey : List Byte)
  /-- IDE_KM (R487). -/
  | ideKm (authentic : Bool)
  /-- DP_RING_TAIL_WRITE (R469). -/
  | dpRingTailWrite (v : W64)
  /-- DP_RING_BASE_WRITE (R477). -/
  | dpRingBaseWrite (v : W64)
  /-- OBJ_WRITE (R470). -/
  | objWrite
  /-- OBJ_COMMIT (R473). -/
  | objCommit
  /-- OBJ_READ (R470). -/
  | objRead (x : LadderRead)
  /-- OBJ_STAT (R472). -/
  | objStat
  /-- OBJ_DELETE (R470). -/
  | objDelete
  /-- PAGE_OUT (R470). -/
  | pageOut
  /-- PAGE_IN (R470). -/
  | pageIn (x : LadderRead)
  /-- PAGE_DROP (R470). -/
  | pageDrop
  /-- DEPOT_REQUEST_COMPLETE (R469). -/
  | depotRequestComplete (ix : BitVec 11)
  /-- BUDDY_TIMEOUT (R471). -/
  | buddyTimeout (ix : BitVec 11) (t : W64)
  /-- PATROL_READ (R462). -/
  | patrolRead (x : LadderRead) (strong : Bool) (oldest : W32) (of : CodewordOf)
  /-- BLOCK_REFRESH (R462). -/
  | blockRefresh (ch : DChanIx) (lun : Fin 16) (block : BitVec 16) (step4 : Bool)
  /-- WEAR_LEVEL_MOVE (R463). -/
  | wearLevelMove (ch : DChanIx) (lun : Fin 16) (block dst : BitVec 16)
  /-- NAND_OPERATION_FAILURE (R464). -/
  | nandOperationFailure (ch : DChanIx) (lun : Fin 16) (block : BitVec 16)
  /-- LUN_TIMEOUT (R465). -/
  | lunTimeout (ch : DChanIx) (lun : Fin 16)
  /-- LUN_REBUILD_DONE (R465). -/
  | lunRebuildDone (ch : DChanIx) (lun : Fin 16)
  /-- HEARTBEAT_MISS (R501). -/
  | heartbeatMiss (x1 : Bool)
  /-- HP_JOB_MANIFEST_WRITE (R525). -/
  | hpJobManifestWrite (v : W64)
  /-- ARM_DONE (R507). -/
  | armDone
  /-- FAIL (R506). -/
  | fail
  /-- ARM_LIMIT_EXPIRY (R506). -/
  | armLimitExpiry (t : W64)
  /-- ARMED_ANNOUNCE (R509). -/
  | armedAnnounce (t : W64)
  /-- RIGHT_AWAY_REACHED (R510). -/
  | rightAwayReached (t : W64)
  /-- DEPARTURE_OVERDUE (R506). -/
  | departureOverdue (d : ADie) (t : W64)
  /-- TEARDOWN_WITHDRAW (R511). -/
  | teardownWithdraw (t : W64)
  /-- TEARDOWN_COMPLETE (R511). -/
  | teardownComplete
  /-- TAG_CLEARED (R512). -/
  | tagCleared
  /-- CLEAR_TIMEOUT (R512). -/
  | clearTimeout (t : W64)
  /-- QUARANTINE_EXPIRY (R512). -/
  | quarantineExpiry (tag : BitVec 16) (t : W64)
  /-- BUDGET_PERIOD (R532). -/
  | budgetPeriod (fixed watts : BitVec 16) (energy : BitVec 32)
  /-- GRANT_APPLY (R534). -/
  | grantApply (d : Fin 12) (dutyC dutyM dutyL procMult : BitVec 7) (withheld slots : BitVec 16)
  /-- DROOP (R535). -/
  | droop (d : Fin 12) (cycles : BitVec 16)
  /-- THERMAL_STEP (R536). -/
  | thermalStep (d : Fin 12) (logic stack : Byte) (t : W64)
  /-- THERMAL_TRIP (R537). -/
  | thermalTrip (d : Die)
  /-- LEAKAGE_LEARNED (R533). -/
  | leakageLearned (d : Fin 12) (leak : BitVec 16) (t : W64)
  /-- STABLE_ENTRY_DONE (R540). -/
  | stableEntryDone
  /-- WAKE_STEP (R541). -/
  | wakeStep (ok : Bool) (bad : List (StackIx × Fin 296))
  /-- VAUX_VALID (R567). -/
  | vauxValid (serviceHigh : Bool)
  /-- VIN_VALID (R567). -/
  | vinValid
  /-- RAILS_IN_REGULATION (R567). -/
  | railsInRegulation (t : W64)
  /-- VIN_LOSS (R568). -/
  | vinLoss
  /-- VAUX_LOSS (R568). -/
  | vauxLoss
  /-- MANAGEMENT_READY (R567). -/
  | managementReady
  /-- START_STEP_DONE (R545). -/
  | startStepDone (found : StepFinding) (t : W64)
  /-- START_STEP_TIMEOUT (R546). -/
  | startStepTimeout (format : Bool) (t : W64)
  /-- ENTDAA (R575). -/
  | entdaa (addr : BitVec 7)
  /-- SETDASA (R575). -/
  | setdasa (target addr : BitVec 7)
  /-- RSTDAA (R575). -/
  | rstdaa
  /-- GETPID (R575). -/
  | getpid
  /-- GETBCR (R575). -/
  | getbcr
  /-- GETDCR (R575). -/
  | getdcr
  /-- GETSTATUS (R575). -/
  | getstatus
  /-- ENEC (R575). -/
  | enec
  /-- DISEC (R575). -/
  | disec
  /-- MANAGEMENT_INDEX_WRITE (R576). -/
  | managementIndexWrite (bytes : List Byte)
  /-- MANAGEMENT_PRIVATE_READ (R576). -/
  | managementPrivateRead
  /-- CXL_CACHE_ENABLE (R338). -/
  | cxlCacheEnable
  /-- FLIT_FEC_FAILURE (R377). -/
  | flitFecFailure (p : PortIx) (lseq : BitVec 12)
  /-- RESERVED_KIND_FLIT (R375). -/
  | reservedKindFlit (p : PortIx) (f : Flit)
  /-- NPORT_LINK_UP (R409). -/
  | nportLinkUp (n : NPortIx) (ide flit : Bool)
  /-- NPORT_LINK_DOWN (R434). -/
  | nportLinkDown (n : NPortIx)
  /-- STRIPE_REWRITE_DONE (R476). -/
  | stripeRewriteDone (ch : DChanIx)
  /-- RAIL_RECOVERY (R535). -/
  | railRecovery (d : Fin 12)
  /-- RESTART (R561). -/
  | restart
  /-- CORE_FAULT (R516). -/
  | coreFault (p : Fin 4) (site : Fin 40)
  /-- TAP_RESET (R364). -/
  | tapReset
  deriving DecidableEq, Repr

end Sys2Proof
end

