-- ==== Sys2Proof/Config.lean ====
section
/-! DEFINITION. What an implementation fixes and the spec leaves open: opaque constants without a body, so
that every statement holds whatever they are. -/

namespace Sys2Proof.Config

/-- Free values, one by one, in the order the machine draws them (entry 15). -/
opaque freeWord : Nat → W64
/-- Free bytes: random draws of the Guard (R490, R492, R497). -/
opaque freeByte : Nat → Byte

/-- SHA-256 of the Frebirus firmware key, held in ROM (R481). -/
opaque romFwKeyHash : List Byte
/-- SLH-DSA-SHA2-128f (R10): the public key of SK.seed and SK.prf with PK.seed, and byte i of the signature that this key makes of a
byte string. -/
opaque slhPk : List Byte → List Byte → List Byte
opaque slhSign : List Byte → List Byte → List Byte → Nat → Byte
/-- ML-KEM-768 (R10): the encapsulation key of d and z. -/
opaque kemEk : List Byte → List Byte → List Byte
/-- AES-256-GCM output byte i of sealing a payload under a key and an IV (R411, R438): ciphertext, then MAC. -/
opaque gcm : BitVec 256 → BitVec 96 → List Byte → List Byte → Nat → Byte

/-- Which encoding within the bound of R172 a division or root returns, against the correctly rounded one: operation,
format code, operands (0 the one below, 1 itself, otherwise the one above). -/
opaque rootChoice : Nat → Nat → Nat → Nat → Nat
/-- Which encoding within the bound of R172 a function returns for arguments with no special result: function, format code,
arguments (modulo 5: 2 the nearest one, below it one of the two below, above it one of the two above). -/
opaque funcChoice : Nat → Nat → Nat → Nat → Nat

/-- Which entry a full set of TLB entries, and which line a full cache, gives up of those it holds, by their place among them (R17,
R315, R337). -/
opaque tlbVictim : Nat → List Nat → Nat
opaque cacheVictim : Nat → List Nat → Nat

/-- AES-256-XTS of a data unit of `n` bits under a key and a tweak (R294, R458). -/
opaque xts (n : Nat) : BitVec 512 → BitVec 128 → BitVec n → BitVec n
/-- The LDPC parity of a codeword, by byte, and the metadata that names its object and number (R456). -/
opaque ldpcParity : List Byte → Nat → Byte
opaque codewordMeta : List Byte → Nat → Nat → Byte

/-- Upper 16 bits of the I3C provisioned identifier, BCR and DCR of the management target (R575). -/
opaque i3cPidHigh : BitVec 16
opaque i3cBcr : Byte
opaque i3cDcr : Byte

end Sys2Proof.Config
end

