-- ==== Sys2Proof/Machine/Bits.lean ====
section
/-! DEFINITION. Bit fields and byte order: R12 (bit 0 is the least significant bit; multi-byte fields are
little-endian) and the field notation NAME[hi:lo]. -/

namespace Sys2Proof.Machine

/-- Field [lo + len - 1 : lo] of a number. -/
def natField (x lo len : Nat) : Nat := (x >>> lo) % 2 ^ len

/-- Field [lo + len - 1 : lo] of a word, as a number. -/
def fld {n : Nat} (w : BitVec n) (lo len : Nat) : Nat := natField w.toNat lo len

/-- Bit `i` of a word. -/
def bitOf {n : Nat} (w : BitVec n) (i : Nat) : Bool := w.getLsbD i

/-- A mask of `len` ones from bit `lo`. -/
def ones (n lo len : Nat) : BitVec n := BitVec.ofNat n (2 ^ len - 1) <<< lo

/-- Replace field [lo + len - 1 : lo] by `v`. -/
def putFld {n : Nat} (w : BitVec n) (lo len v : Nat) : BitVec n :=
  (w &&& ~~~(ones n lo len)) ||| ((BitVec.ofNat n v &&& ones n 0 len) <<< lo)

/-- Replace bit `i` by `b`. -/
def putBit {n : Nat} (w : BitVec n) (i : Nat) (b : Bool) : BitVec n :=
  putFld w i 1 (if b then 1 else 0)

/-- 1 for true. -/
def b2n (b : Bool) : Nat := if b then 1 else 0

/-- A `len`-bit two's complement number read as a signed integer. -/
def signedOf (len x : Nat) : Int :=
  if 2 * (x % 2 ^ len) < 2 ^ len then ((x % 2 ^ len : Nat) : Int) else ((x % 2 ^ len : Nat) : Int) - (2 ^ len : Nat)

/-- A signed integer as a `len`-bit two's complement number. -/
def toSigned (len : Nat) (x : Int) : Nat := (x % ((2 ^ len : Nat) : Int)).toNat

/-- A signed field of a word. -/
def sfld {n : Nat} (w : BitVec n) (lo len : Nat) : Int := signedOf len (fld w lo len)

/-- Add 1 and stay at the top (the saturating counters of the register tables). -/
def satInc (w : W64) : W64 := if w = BitVec.allOnes 64 then w else w + 1

/-- Add `k` and stay at the top. -/
def satAdd (w : W64) (k : Nat) : W64 := BitVec.ofNat 64 (min (w.toNat + k) (2 ^ 64 - 1))

/-- Add 1 to a field of a register and stay at the field's top. -/
def satIncFld (w : W64) (lo len : Nat) : W64 := putFld w lo len (min (fld w lo len + 1) (2 ^ len - 1))

/-- Add `k` to a field and stay at the field's top. -/
def satAddFld (w : W64) (lo len k : Nat) : W64 := putFld w lo len (min (fld w lo len + k) (2 ^ len - 1))

/-- The number a little-endian byte string spells (R12). -/
def leNat : List Byte → Nat
  | [] => 0
  | b :: t => b.toNat + 256 * leNat t

/-- `n` bytes of a number, little-endian (R12). -/
def leBytes : Nat → Nat → List Byte
  | 0, _ => []
  | n + 1, x => BitVec.ofNat 8 x :: leBytes n (x / 256)

/-- The `len` bytes at offset `off` of a byte string; bytes past its end read 0. -/
def slice (l : List Byte) (off len : Nat) : List Byte :=
  let t := (l.drop off).take len
  t ++ List.replicate (len - t.length) 0

/-- The little-endian number in bytes `off` to `off + len - 1` of a byte string. -/
def leAt (l : List Byte) (off len : Nat) : Nat := leNat (slice l off len)

/-- ceil(a / b). -/
def ceilDiv (a b : Nat) : Nat := (a + b - 1) / b

/-- The least number of bits `x` fits in. -/
def bitLen (x : Nat) : Nat := if x = 0 then 0 else Nat.log2 x + 1

/-- 0 to n - 1. -/
def upTo (n : Nat) : List Nat := List.range n

end Sys2Proof.Machine
end

