-- ==== Sys2Proof/Machine/Routes.lean ====
section
/-! DEFINITION. Chawen links, routes and hops (R352, R353) and the tree of the T channel (R357). -/

namespace Sys2Proof.Machine

/-- Column of a die; columns run from -1 (X0) to 4 (X1). -/
def dieCol (d : Nat) : Int := if d < 8 then ((d % 4 : Nat) : Int) else if d < 12 then ((d - 8 : Nat) : Int) else if d = 12 then -1 else 4

/-- Row of a die: 0 north, 1 centre, 2 south. -/
def dieRow (d : Nat) : Nat := if d < 4 then 0 else if d < 8 then 2 else 1

/-- The die at a place, if one stands there. -/
def dieAt (row : Nat) (col : Int) : Option Nat := (List.range 14).find? (fun d => decide (dieRow d = row) && decide (dieCol d = col))

/-- Bundle pairs of the link between two dies; 0 where there is none (R352). -/
def linkWidth (a b : Nat) : Nat :=
  let dc := (dieCol a - dieCol b).natAbs
  if 13 < a ∨ 13 < b ∨ a = b then 0
  else if dieRow a = dieRow b then
    if dc = 1 then (if 12 ≤ a ∨ 12 ≤ b then 4 else 8) else 0
  else if dieRow a = 1 ∨ dieRow b = 1 then (if dc = 0 then 4 else if dc = 1 then 2 else 0)
  else 0

/-- `x` held between -1 and 1. -/
def clamp1 (x : Int) : Int := max (-1) (min 1 x)

/-- Columns from `a` to `b`, both included. -/
def colsTo (a b : Int) : List Int :=
  if a ≤ b then (upTo ((b - a).toNat + 1)).map (fun i => a + (i : Int)) else (upTo ((a - b).toNat + 1)).map (fun i => a - (i : Int))

/-- The dies of the route from `a` to `b`, both included (R353). -/
def route (a b : Nat) : List Nat :=
  let cs := dieCol a
  let ct := dieCol b
  if a = b then [a]
  else if dieRow a = dieRow b then (colsTo cs ct).filterMap (dieAt (dieRow a))
  else
    let ms := if dieRow a = 1 then cs else cs + clamp1 (ct - cs)
    let mt := if dieRow b = 1 then ct else ct + clamp1 (ms - ct)
    (if dieRow a = 1 then [] else [a]) ++ (colsTo ms mt).filterMap (dieAt 1) ++ (if dieRow b = 1 then [] else [b])

/-- Hops of the route. -/
def hops (a b : Nat) : Nat := (route a b).length - 1

/-- The links of a route, as pairs of dies. -/
def routeLinks (a b : Nat) : List (Nat × Nat) := let r := route a b; r.zip (r.drop 1)

/-- The die from which `d` receives T messages: the one before it on its route from X0 (R357). -/
def tParent (d : Nat) : Option Nat := ((route 12 d).dropLast).getLast?

end Sys2Proof.Machine
end

