-- ==== Sys2Proof/Machine/Regs.lean ====
section
/-! DEFINITION. Where registers stand (R308, R310, R421) and what they hold at reset. A register's key is the
die index times 2^30 plus its offset in that die's control space; BAR0 takes index 14. -/

namespace Sys2Proof.Machine

/-- The key of offset `off` on die `d`. -/
def key (d off : Nat) : Nat := d * 2 ^ 30 + off

/-- BAR0 (R421). -/
def bar0 (off : Nat) : Nat := key 14 off
/-- The host-port block of X0 (R435, R525, R562). -/
def hp (off : Nat) : Nat := key 12 off
/-- The MTC and reference block of X0 (R61). -/
def mtc (off : Nat) : Nat := key 12 (0x4000000 + off)
/-- The depot block of X0 (R477). -/
def dp (off : Nat) : Nat := key 12 (0x2000000 + off)
/-- The Guard mailbox of X0 (R502). -/
def gd (off : Nat) : Nat := key 12 (0x3000000 + off)
/-- The signal box and timetable port of A-die `d` (R106). -/
def tt (d off : Nat) : Nat := key d off
/-- The main array block (R144). -/
def ma (d off : Nat) : Nat := key d (0x1000000 + off)
/-- The block of cluster `c` (R225). -/
def vc (d c off : Nat) : Nat := key d (0x2000000 + c * 0x100000 + off)
/-- The set-mode registers of cluster `c` (R258). -/
def sm (d c off : Nat) : Nat := vc d c (0x1000 + off)
/-- The block of train engine `j` (R110). -/
def tr (d j off : Nat) : Nat := key d (0x3000000 + j * 0x100000 + off)
/-- The junction and directory block (R348). -/
def jn (d off : Nat) : Nat := key d (0x4000000 + off)
/-- The translation unit block (R346). -/
def tu (d off : Nat) : Nat := key d (0x5000000 + off)
/-- The controller of stack 4d + j (R306). -/
def bk (d j off : Nat) : Nat := key d (0x6000000 + j * 0x400000 + off)
/-- The controller of stack `n`. -/
def bkS (n off : Nat) : Nat := bk (n / 4) (n % 4) off
/-- The block of Ommet port O(2d + j) (R414). -/
def om (d j off : Nat) : Nat := key d (0x7000000 + j * 0x100000 + off)
/-- The block of port `p`. -/
def omP (p off : Nat) : Nat := om (p / 2) (p % 2) off
/-- The collective engine block (R415). -/
def ce (d off : Nat) : Nat := key d (0x8000000 + off)
/-- The power and thermal block (R543). -/
def pw (d off : Nat) : Nat := key d (0x9000000 + off)
/-- The Chawen block (R367). -/
def cw (d off : Nat) : Nat := key d (0xA000000 + off)
/-- The update sequencer block (R278). -/
def up (d off : Nat) : Nat := key d (0xB000000 + off)
/-- The N-port block of X0 (R416). -/
def np (off : Nat) : Nat := key 12 (0x1000000 + off)
/-- The interrupt controller block of P-die `d` (R343). -/
def ic (d off : Nat) : Nat := key d (0xD000000 + off)

/-- Reset values of the power and thermal block (R543). -/
def pwReset (o : Nat) : Nat :=
  if o = 0 then 64 + 64 * 2 ^ 7 + 2 ^ 15 else if o = 0x1000 then 5000 + 2 ^ 32 * (1 + 4 * 2 + 16 * 3) else 0

/-- Reset values of the Chawen block of die `d` (R367). -/
def cwReset (d o : Nat) : Nat :=
  if o = 0 then 32
  else if 0x100 ≤ o ∧ o < 0x170 ∧ o % 8 = 0 then
    let e := (o - 0x100) / 8
    linkWidth d e + 16 * hops d e
  else 0

/-- Reset values of a Bamkan controller (R306). -/
def bkReset (o : Nat) : Nat :=
  if o = 0 then 8 * 4 else if 0x1000 ≤ o ∧ o < 0x1000 + 8 * 288 ∧ o % 8 = 0 then (o - 0x1000) / 8 else 0

/-- Reset values of a cluster's block: VC_OUT_LANES_i lists the lanes 1,024 + 4i + n (R225). -/
def vcReset (o : Nat) : Nat :=
  if 0x100 ≤ o ∧ o < 0x100 + 64 ∧ o % 8 = 0 then
    ((upTo 4).map (fun n => (1024 + 4 * ((o - 0x100) / 8) + n + 2 ^ 15) * 2 ^ (16 * n))).sum
  else 0

/-- Reset values other than 0 that the spec states for an A-die's control space, by offset (0 where it states
0 or nothing). -/
def aReset (d o : Nat) : Nat :=
  if o = 0x1000010 then 32 + 32 * 2 ^ 8
  else if 0x2000000 ≤ o ∧ o < 0x2800000 then vcReset ((o - 0x2000000) % 0x100000)
  else if 0x6000000 ≤ o ∧ o < 0x7000000 then bkReset ((o - 0x6000000) % 0x400000)
  else if 0x9000000 ≤ o ∧ o < 0xA000000 then pwReset (o - 0x9000000)
  else if 0xA000000 ≤ o ∧ o < 0xB000000 then cwReset d (o - 0xA000000)
  else 0

/-- The same for a P-die; the APLIC on P0 delivers in MSI mode only (R344). -/
def pReset (d o : Nat) : Nat :=
  if d = 8 ∧ (o = 0xD800000 ∨ o = 0xD840000) then 0x80000004
  else if 0x9000000 ≤ o ∧ o < 0xA000000 then pwReset (o - 0x9000000)
  else if 0xA000000 ≤ o ∧ o < 0xB000000 then cwReset d (o - 0xA000000)
  else 0

/-- The same for X0. -/
def xReset (o : Nat) : Nat :=
  if o = 0x200 then 1
  else if o = 0x4000008 then 0xFFFF * 2 ^ 16
  else if o = 0x4000038 then 86400
  else if o = 0x4000070 then 20
  else 0

/-- What the register with key `k` reads before anything has written it: the reset values of the register
tables, and 0 where the spec states none (entry 2). -/
def regReset (k : Nat) : W64 :=
  let d := k / 2 ^ 30
  let o := k % 2 ^ 30
  BitVec.ofNat 64 (if d < 8 then aReset d o else if d < 12 then pReset d o else if d = 12 then xReset o
    else if d = 14 ∧ o = 0x8008 then 2 ^ 32 else 0)

end Sys2Proof.Machine
end

