-- ==== Sys2Proof/Machine/Float.lean ====
section
/-! DEFINITION. Arithmetic of chapter 05: the number formats (R148 to R150), rounding and its flags (R151, R153),
exact sums rounded once (R156), fused multiply-add, comparison, division and square root rounded once (R171). -/

namespace Sys2Proof.Machine

/-- Flags by the bits of MA_FLAGS (R146): 0 INVALID, 1 OVERFLOW, 2 UNDERFLOW, 3 INEXACT, 4 WINDOW_SAT. -/
abbrev Flags := BitVec 5

/-- The single flags. -/
def flInvalid : Flags := 1
def flOverflow : Flags := 2
def flUnderflow : Flags := 4
def flInexact : Flags := 8
def flSat : Flags := 16

/-- Number formats (R148, R187). -/
inductive Fmt where
  | fp4 | e4m3 | e5m2 | bf16 | fp16 | fp32 | fp64 | int8 | int32 | u32 | ls
  deriving DecidableEq, Repr

/-- Exponent bits of a floating-point format. -/
def Fmt.eb : Fmt → Nat
  | .fp4 => 2 | .e4m3 => 4 | .e5m2 => 5 | .bf16 => 8 | .fp16 => 5 | .fp32 => 8 | .fp64 => 11 | _ => 0

/-- Mantissa bits. -/
def Fmt.mb : Fmt → Nat
  | .fp4 => 1 | .e4m3 => 3 | .e5m2 => 2 | .bf16 => 7 | .fp16 => 10 | .fp32 => 23 | .fp64 => 52 | _ => 0

/-- Bits of an element in memory (an LS entry takes 128, R116). -/
def Fmt.bits : Fmt → Nat
  | .fp4 => 4 | .e4m3 => 8 | .e5m2 => 8 | .bf16 => 16 | .fp16 => 16 | .fp32 => 32 | .fp64 => 64 | .int8 => 8
  | .int32 => 32 | .u32 => 32 | .ls => 128

/-- Exponent bias. -/
def Fmt.bias (f : Fmt) : Nat := 2 ^ (f.eb - 1) - 1

/-- Least exponent of a normal number. -/
def Fmt.emin (f : Fmt) : Int := 1 - (f.bias : Int)

/-- Weight of the last mantissa bit of a subnormal. -/
def Fmt.qmin (f : Fmt) : Int := f.emin - (f.mb : Int)

/-- Magnitude bits of the largest finite value. -/
def Fmt.maxFin (f : Fmt) : Nat :=
  match f with
  | .fp4 => 7
  | .e4m3 => 0x7E
  | _ => (2 ^ f.eb - 1) * 2 ^ f.mb - 1

/-- Magnitude bits of infinity, in the formats that have one. -/
def Fmt.infBits (f : Fmt) : Nat := (2 ^ f.eb - 1) * 2 ^ f.mb

/-- The canonical quiet NaN (R150). -/
def Fmt.nan (f : Fmt) : Nat :=
  match f with
  | .fp16 => 0x7E00
  | .bf16 => 0x7FC0
  | .fp32 => 0x7FC00000
  | .fp64 => 0x7FF8000000000000
  | .e4m3 => 0x7F
  | .e5m2 => 0x7E
  | _ => 0

/-- The sign bit's place. -/
def Fmt.signBit (f : Fmt) : Nat := f.eb + f.mb

/-- A decoded number: a NaN (signalling or not), an infinity, or (-1)^neg m 2^e. -/
inductive FVal where
  | nan (signalling : Bool)
  | inf (neg : Bool)
  | fin (neg : Bool) (m : Nat) (e : Int)
  deriving DecidableEq, Repr

/-- An integer as a value; zero is positive. -/
def FVal.ofInt (x : Int) : FVal := .fin (decide (x < 0)) x.natAbs 0

/-- The value of an encoding (R148, R150). -/
def decodeF (f : Fmt) (w : Nat) : FVal :=
  match f with
  | .int8 => .ofInt (signedOf 8 w)
  | .int32 => .ofInt (signedOf 32 w)
  | .u32 => .fin false (w % 2 ^ 32) 0
  | .ls => .nan false
  | _ =>
    let neg := Nat.testBit w f.signBit
    let e := natField w f.mb f.eb
    let m := w % 2 ^ f.mb
    let top := 2 ^ f.eb - 1
    if f = .e4m3 ∧ e = top ∧ m = 7 then .nan false
    else if f ≠ .fp4 ∧ f ≠ .e4m3 ∧ e = top then
      if m = 0 then .inf neg else .nan (!Nat.testBit m (f.mb - 1))
    else if e = 0 then .fin neg m f.qmin
    else .fin neg (2 ^ f.mb + m) (f.qmin + ((e : Int) - 1))

/-- Rounding modes: the one of R151, and the others that set mode takes from RISC-V (frm encodings). -/
inductive Rm where
  | rne | rtz | rdn | rup | rmm
  deriving DecidableEq, Repr

/-- Whether to round a magnitude up: `odd` is the last kept bit, `r` the part cut off of a whole `d`. -/
def roundUp (rm : Rm) (neg odd : Bool) (r d : Nat) : Bool :=
  match rm with
  | .rne => decide (d < 2 * r) || (decide (2 * r = d) && odd)
  | .rtz => false
  | .rdn => neg && decide (0 < r)
  | .rup => !neg && decide (0 < r)
  | .rmm => decide (d ≤ 2 * r) && decide (0 < r)

/-- m 2^e as a multiple of 2^q: the rounded multiple and whether it differs. -/
def quantize (rm : Rm) (neg : Bool) (m : Nat) (e q : Int) : Nat × Bool :=
  if q ≤ e then (m * 2 ^ (e - q).toNat, false)
  else
    let d := 2 ^ (q - e).toNat
    let k := m / d
    let r := m % d
    (if roundUp rm neg (decide (k % 2 = 1)) r d then k + 1 else k, decide (r ≠ 0))

/-- RNint (R167): the nearest integer to x 2^e, ties to even. -/
def rnInt (x : Int) (e : Int) : Int :=
  let k := (quantize .rne (decide (x < 0)) x.natAbs e 0).1
  if x < 0 then -(k : Int) else k

/-- Put the sign on magnitude bits. -/
def withSign (f : Fmt) (neg : Bool) (mag : Nat) : Nat := if neg then mag + 2 ^ f.signBit else mag

/-- Overflow (R151, R153, and the RISC-V directed modes): FP8 saturates, the others give infinity. -/
def overflowTo (f : Fmt) (rm : Rm) (neg : Bool) : Nat :=
  let sat := f = .e4m3 || f = .e5m2 || f = .fp4 || rm = .rtz || (rm = .rdn && !neg) || (rm = .rup && neg)
  withSign f neg (if sat then f.maxFin else f.infBits)

/-- Round a nonzero m 2^e once to format `f` (R151). -/
def roundFin (f : Fmt) (rm : Rm) (neg : Bool) (m : Nat) (e : Int) : Nat × Flags :=
  let top : Int := e + (bitLen m : Int) - 1
  let q := max top f.emin - (f.mb : Int)
  let (k, inex) := quantize rm neg m e q
  let mag := (q - f.qmin).toNat * 2 ^ f.mb + k
  if f.maxFin < mag then (overflowTo f rm neg, flOverflow ||| flInexact)
  else
    let free := quantize rm neg m e (top - (f.mb : Int))
    let tiny := decide (top < f.emin) && decide (((free.1 : Int) < 2 ^ (f.mb + 1)) ∨ top + 1 < f.emin)
    (withSign f neg mag, (if inex then flInexact else 0) ||| (if tiny && inex then flUnderflow else 0))

/-- Deliver a value in format `f`: one rounding, and the special values of R153. A signalling NaN is the
caller's to flag. -/
def roundV (f : Fmt) (rm : Rm) (v : FVal) : Nat × Flags :=
  match v with
  | .nan _ => (f.nan, 0)
  | .inf neg => if f = .e4m3 then (f.nan, flInvalid) else (withSign f neg f.infBits, 0)
  | .fin neg m e => if m = 0 then (withSign f neg 0, 0) else roundFin f rm neg m e

/-- The value is a signalling NaN. -/
def FVal.snan : FVal → Bool
  | .nan b => b
  | _ => false

/-- The value is a NaN. -/
def FVal.isNan : FVal → Bool
  | .nan _ => true
  | _ => false

/-- The value is finite. -/
def FVal.isFin : FVal → Bool
  | .fin _ _ _ => true
  | _ => false

/-- The value is zero. -/
def FVal.isZero : FVal → Bool
  | .fin _ m _ => decide (m = 0)
  | _ => false

/-- The sign. -/
def FVal.neg? : FVal → Bool
  | .nan _ => false
  | .inf n => n
  | .fin n _ _ => n

/-- Negation. -/
def FVal.negate : FVal → FVal
  | .nan b => .nan b
  | .inf n => .inf (!n)
  | .fin n m e => .fin (!n) m e

/-- Multiply by 2^k. -/
def FVal.scale (k : Int) : FVal → FVal
  | .fin n m e => .fin n m (e + k)
  | v => v

/-- The exact product; the second part says that it is invalid: 0 times infinity, or a signalling operand
(R156). A zero product has the sign of IEEE 754 for integer operands too (entry 112: R156 states no sign of an integer zero). -/
def mulV (a b : FVal) : FVal × Bool :=
  let bad := a.snan || b.snan
  match a, b with
  | .nan _, _ => (.nan false, bad)
  | _, .nan _ => (.nan false, bad)
  | .inf s, .inf t => (.inf (s != t), false)
  | .inf s, .fin t m _ => if m = 0 then (.nan false, true) else (.inf (s != t), false)
  | .fin s m _, .inf t => if m = 0 then (.nan false, true) else (.inf (s != t), false)
  | .fin s m e, .fin t n g => (.fin (s != t) (m * n) (e + g), false)

/-- The signed integer of a finite value at weight 2^q, for q at or below its exponent. -/
def atWeight (q : Int) (v : FVal) : Int :=
  match v with
  | .fin n m e => let x : Int := m * 2 ^ (e - q).toNat; if n then -x else x
  | _ => 0

/-- The least exponent among finite nonzero values. -/
def minExp (vs : List FVal) : Int :=
  vs.foldl (fun q v => match v with
    | .fin _ m e => if m = 0 then q else min q e
    | _ => q) 100000

/-- The exact sum of values (R156): infinities of both signs and invalid parts are flagged by the second part; a
zero sum is negative only when every part is a negative zero. -/
def sumV (vs : List (FVal × Bool)) : FVal × Bool :=
  let xs := vs.map Prod.fst
  let bad := vs.any (fun v => v.2 || v.1.snan)
  let pinf := xs.any (fun v => decide (v = .inf false))
  let ninf := xs.any (fun v => decide (v = .inf true))
  if bad || (pinf && ninf) then (.nan false, true)
  else if xs.any FVal.isNan then (.nan false, false)
  else if pinf then (.inf false, false)
  else if ninf then (.inf true, false)
  else
    let q := minExp xs
    let t : Int := xs.foldl (fun t v => if v.isZero then t else t + atWeight q v) 0
    if t = 0 then (.fin (!xs.isEmpty && xs.all (fun v => v.isZero && v.neg?)) 0 0, false)
    else (.fin (decide (t < 0)) t.natAbs q, false)

/-- Deliver an exact value, INVALID alone where it is invalid (R151). -/
def deliver (f : Fmt) (rm : Rm) (r : FVal × Bool) : Nat × Flags :=
  if r.2 then (f.nan, flInvalid) else roundV f rm r.1

/-- One CHAIN group: the accumulator and the products, rounded once (R156). -/
def chainGroup (f : Fmt) (acc : Nat) (ps : List (FVal × Bool)) : Nat × Flags :=
  deliver f .rne (sumV ((decodeF f acc, false) :: ps))

/-- a + b. -/
def addV (a b : FVal) : FVal × Bool := sumV [(a, false), (b, false)]

/-- a b + c (R156). -/
def fmaV (a b c : FVal) : FVal × Bool := sumV [mulV a b, (c, false)]

/-- Order of two numbers, none when one is a NaN; zeros of both signs are equal. -/
def cmpV (a b : FVal) : Option Ordering :=
  match a, b with
  | .nan _, _ => none
  | _, .nan _ => none
  | .inf s, .inf t => some (if s = t then .eq else if s then .lt else .gt)
  | .inf s, _ => some (if s then .lt else .gt)
  | _, .inf t => some (if t then .gt else .lt)
  | _, _ =>
    let q := minExp [a, b]
    let x := if a.isZero then 0 else atWeight q a
    let y := if b.isZero then 0 else atWeight q b
    some (compare x y)

/-- A conversion between floating-point formats: one rounding; a signalling operand raises INVALID (R150). -/
def convV (f : Fmt) (rm : Rm) (v : FVal) : Nat × Flags :=
  if v.snan then (f.nan, flInvalid) else roundV f rm v

/-- A value with a sticky last bit: the exact quotient of two nonzero magnitudes to at least `p` bits. -/
def quotient (p : Nat) (m : Nat) (e : Int) (n : Nat) (g : Int) : Nat × Int :=
  let sh := p + 3 + bitLen n
  let a := m * 2 ^ sh
  (2 * (a / n) + (if a % n = 0 then 0 else 1), e - g - (sh : Int) - 1)

/-- The exact square root of a nonzero magnitude to at least `p` bits, with a sticky last bit. -/
def rootOf (p : Nat) (m : Nat) (e : Int) : Nat × Int :=
  let sh := 2 * (p + 3) + (e % 2).toNat
  let a := m * 2 ^ sh
  let r := Nat.sqrt a
  (2 * r + (if r * r = a then 0 else 1), (e - (sh : Int)) / 2 - 1)

/-- a / b as an exact value with a sticky bit; the second part is INVALID (0/0, infinity/infinity, and division
by zero, which the G9 reports as INVALID with an infinite result, R173). -/
def divV (f : Fmt) (a b : FVal) : FVal × Bool :=
  let bad := a.snan || b.snan
  match a, b with
  | .nan _, _ => (.nan false, bad)
  | _, .nan _ => (.nan false, bad)
  | .inf _, .inf _ => (.nan false, true)
  | .inf s, .fin t _ _ => (.inf (s != t), false)
  | .fin s _ _, .inf t => (.fin (s != t) 0 0, false)
  | .fin s m e, .fin t n g =>
    if n = 0 then (if m = 0 then (.nan false, true) else (.inf (s != t), true))
    else if m = 0 then (.fin (s != t) 0 0, false)
    else
      let (k, x) := quotient (f.mb + 1) m e n g
      (.fin (s != t) k x, false)

/-- The square root (R171). -/
def sqrtV (f : Fmt) (a : FVal) : FVal × Bool :=
  match a with
  | .nan b => (.nan false, b)
  | .inf s => if s then (.nan false, true) else (.inf false, false)
  | .fin s m e =>
    if m = 0 then (.fin s 0 0, false)
    else if s then (.nan false, true)
    else
      let (k, x) := rootOf (f.mb + 1) m e
      (.fin false k x, false)

/-- Deliver a quotient or a function value: an infinity from a pole keeps its sign and raises INVALID (R173). -/
def deliverPole (f : Fmt) (rm : Rm) (r : FVal × Bool) : Nat × Flags :=
  match r with
  | (.inf s, true) => (withSign f s f.infBits, flInvalid)
  | r => deliver f rm r

/-- The encodings of a format in the order of the values they stand for. -/
def ordKey (f : Fmt) (w : Nat) : Int :=
  let mag := w % 2 ^ f.signBit
  if Nat.testBit w f.signBit then -(mag : Int) else mag

/-- The encoding with a given key. -/
def ofOrdKey (f : Fmt) (k : Int) : Nat := withSign f (decide (k < 0)) k.natAbs

/-! ### Long sums (R159 to R165) -/

/-- An accumulator entry: a 96-bit cell and SAT (R114). -/
structure Cell where
  l : BitVec 96
  sat : Bool
  deriving DecidableEq, Repr

/-- The zero entry. -/
def Cell.zero : Cell := { l := 0, sat := false }

/-- The non-finite cell (R159). -/
def nfCell : BitVec 96 := BitVec.ofNat 96 (2 ^ 95)

/-- Add one contribution to a cell of anchor `a` (R161). -/
def contribute (a : Int) (c : Cell) (v : FVal) : Cell × Flags :=
  if c.l = nfCell then ({ c with sat := true }, flInvalid ||| flSat)
  else
    match v with
    | .fin neg m e =>
      if m = 0 then (c, 0)
      else
        let top : Int := e + (bitLen m : Int)
        let sgn (x : Nat) : Int := if neg then -(x : Int) else x
        if a + 64 < top then ({ l := c.l + BitVec.ofInt 96 (sgn (2 ^ 64 - 1)), sat := true }, flSat)
        else
          let (k, inex) := quantize .rtz neg m e a
          let l := c.l + BitVec.ofInt 96 (sgn k)
          if inex then ({ l := l, sat := true }, flSat) else ({ l := l, sat := c.sat }, 0)
    | _ => ({ l := nfCell, sat := true }, flInvalid ||| flSat)

/-- The sum of two long sums of equal anchor (R163). -/
def lsAdd (x y : Cell) : Cell :=
  let sat := x.sat || y.sat
  if x.l = nfCell ∨ y.l = nfCell then { l := nfCell, sat := sat }
  else
    let t := x.l.toInt + y.l.toInt
    let lim : Int := 2 ^ 95 - 1
    if lim < t then { l := BitVec.ofInt 96 lim, sat := true }
    else if t < -lim then { l := BitVec.ofInt 96 (-lim), sat := true }
    else { l := BitVec.ofInt 96 t, sat := sat }

/-- The value of a cell of anchor `a`, `none` for the non-finite cell. -/
def cellVal (a : Int) (c : Cell) : Option FVal :=
  if c.l = nfCell then none else some (FVal.scale a (.ofInt c.l.toInt))

/-- Convert a cell to a floating-point format (R164). -/
def cellTo (f : Fmt) (a : Int) (c : Cell) : Nat × Flags :=
  let sat := if c.sat then flSat else 0
  match cellVal a c with
  | none => (f.nan, flInvalid ||| sat)
  | some v =>
    let (w, fl) := roundV f .rne v
    (w, fl ||| sat)

/-- The 16 bytes of an entry (R116) as a number, and back. -/
def cellBits (c : Cell) : Nat := c.l.toNat + 2 ^ 96 * b2n c.sat
def bitsCell (w : Nat) : Cell := { l := BitVec.ofNat 96 w, sat := Nat.testBit w 96 }

/-- An LS element loaded into a plane (R165). -/
def lsLoad (c : Cell) : Cell :=
  if c.l = nfCell then c
  else if 2 ^ 94 ≤ c.l.toInt.natAbs then
    { l := BitVec.ofInt 96 (if c.l.toInt < 0 then -(2 ^ 94 - 1) else 2 ^ 94 - 1), sat := true }
  else c

end Sys2Proof.Machine
end

