-- ==== Sys2Proof/Machine/Store.lean ====
section
/-! DEFINITION. The sparse store: the one shape in which the model keeps everything that is found by a
number (bytes by address, registers by key, lanes, signals, table entries). A store is a list of
(key, value) pairs with strictly rising keys, and no pair holds what an unlisted key reads as. -/

namespace Sys2Proof.Machine

/-- A sparse store: (key, value) pairs; an unlisted key reads as the default its reader names. -/
abbrev Store (α : Type) := List (Nat × α)

/-- The value at key `k`; `d k` where no pair lists `k`. -/
def Store.get {α : Type} (d : Nat → α) : Store α → Nat → α
  | [], k => d k
  | (j, v) :: t, k => if k = j then v else Store.get d t k

/-- Put a pair in its place by key. -/
def Store.insert {α : Type} (k : Nat) (v : α) : Store α → Store α
  | [] => [(k, v)]
  | (j, w) :: t => if k < j then (k, v) :: (j, w) :: t else (j, w) :: Store.insert k v t

/-- Remove every pair of key `k`. -/
def Store.erase {α : Type} (k : Nat) (st : Store α) : Store α :=
  st.filter (fun p => !decide (p.1 = k))

/-- Write `v` at `k`, keeping the canonical form: writing the default removes the pair. -/
def Store.set {α : Type} [DecidableEq α] (d : Nat → α) (st : Store α) (k : Nat) (v : α) : Store α :=
  if v = d k then Store.erase k st else Store.insert k v (Store.erase k st)

/-- Make every key from `lo` up to but not `hi` read its default again. -/
def Store.eraseRange {α : Type} (st : Store α) (lo hi : Nat) : Store α :=
  st.filter (fun p => decide (p.1 < lo) || decide (hi ≤ p.1))

/-- The canonical form: keys strictly rising, no pair at its default. -/
def Store.wf {α : Type} [DecidableEq α] (d : Nat → α) (st : Store α) : Bool :=
  decide (st.Pairwise (fun a b => a.1 < b.1)) && st.all (fun p => !decide (p.2 = d p.1))

/-- The keys listed from `lo` up to but not `hi`. -/
def Store.keysIn {α : Type} (st : Store α) (lo hi : Nat) : List Nat :=
  (st.filter (fun p => decide (lo ≤ p.1) && decide (p.1 < hi))).map Prod.fst

end Sys2Proof.Machine
end

