-- ==== Sys2Proof/Machine/State.lean ====
section
/-! DEFINITION. The state of the block: plain data, holding every piece of state the spec names.
Registers of the control space and of BAR0 stand in one sparse store (key: die index times 2^30 plus offset,
R308, R310, BAR0 as index 14); what the spec gives the block beside its registers has a field of its own. -/

namespace Sys2Proof.Machine

/-- Why the machine stops with a fault: never. The block answers every command with a next state, so this
type has no constructor, and nothing raises it. Safe. -/
inductive Fault where
  deriving DecidableEq, Repr

/-- Why a command has no meaning here. -/
inductive Refusal where
  /-- Raised by the dispatch for a command whose meaning is not written yet. Safe. -/
  | notModelled (mnemonic : String)
  deriving DecidableEq, Repr

/-- Device states (R421, R559). -/
inductive DeviceState where
  | cold | starting | ready | stabled | maintenance | failed
  deriving DecidableEq, Repr

/-- Job states (R421, R506). -/
inductive JobState where
  | idle | arming | armed | departed | held | tearingDown | clear | failed
  deriving DecidableEq, Repr

/-- Function states (R443, R513). -/
inductive FuncState where
  | enabled | draining | disabled
  deriving DecidableEq, Repr

/-- A notice without its PHASE bit, which the ring write adds (R442). -/
structure Notice where
  nseq : W32
  typ : Nat
  status : Nat
  mtc : W64
  source : W32
  code : Nat
  d0 : W64
  d1 : W64
  d2 : W64
  d3 : W64
  deriving DecidableEq, Repr

/-- Where a host command stands between acceptance and its COMPLETION (R427 to R429, R448). -/
inductive CmdPhase where
  | waiting | running | done
  deriving DecidableEq, Repr

/-- An accepted host command (R427): its slot as copied, and what its COMPLETION will carry. -/
structure Cmd where
  seq : W32
  slot : List Byte
  phase : CmdPhase
  /-- A host-port reset came after it started: its notices are discarded (R450). -/
  muted : Bool
  status : Nat
  detail : Nat
  value : W64
  /-- Bytes it writes at RESULT_ADDR. -/
  result : List Byte
  deriving DecidableEq, Repr

/-- The host port beside its BAR0 registers (R418 to R452). -/
structure HostPort where
  /-- Accepted tail T (R425). -/
  tail : W32
  /-- Re-reads already made of slot EXP (R426). -/
  rereads : Nat
  /-- Accepted commands not yet completed, in sequence order (R427). -/
  cmds : List Cmd
  /-- Landing page p leads to piece (value - 1) of the landing area; 0 is unmapped (R436). -/
  pages : Store Nat
  /-- Next NSEQ (R442). -/
  nseq : W32
  /-- Notices queued, oldest first (R445). -/
  noticeQ : List Notice
  /-- Notices dropped since the last NOTICE_OVERFLOW: how many, NSEQ of the first (R445). -/
  dropped : Nat
  firstDropped : W32
  /-- Notices written since the last MSI-X message (R446). -/
  msixDue : Bool
  /-- MSI-X messages sent. -/
  msixSent : Nat
  /-- Landing writes discarded since the last LANDING_DENIED: how many, first offset, reason (R436). -/
  deniedCount : Nat
  deniedFirst : W32
  deniedReason : Nat
  /-- Counts of the last LANDING_DENIED and of the last MSI-X message (R436, R446). -/
  deniedAt : Option W64
  msixAt : Option W64
  /-- The outbound function (R451). -/
  func : FuncState
  /-- Link IDE stream active (R419). -/
  ide : Bool
  /-- CXL.cache enabled by the host (R338). -/
  cxlCache : Bool
  /-- Shared secret identifier of the DOE session, and its message counter (R487). -/
  doe : Option (Nat × Nat)
  /-- The last DOE answer: ciphertext, certificate, identity signature (R487). -/
  doeAnswer : List Byte
  deriving DecidableEq, Repr

/-- One line of the host-line cache of X0 (R337). -/
structure HostLine where
  dirty : Bool
  shared : Bool
  data : BitVec 512
  deriving DecidableEq, Repr

/-- What the MTC keeps beside its registers (R41 to R53). -/
structure MtcX where
  /-- Beats into the next second of discipline. -/
  discFrac : Nat
  /-- Fraction of a beat carried by the rate correction, in 2^-40 beat. -/
  rateFrac : Int
  /-- Corrected time of the last accepted TPPS edge, in 1/256 beat (R43, R44). -/
  lastEdge : Option Int
  /-- The second last accepted or found missing, from which the next edge is expected, in 1/256 beat (R43). -/
  edgeBase : Option Int
  /-- Second the last valid TTOD message names, until an edge uses it. -/
  pendingSec : Option W64
  /-- Count at the end of the last valid TTOD message. -/
  lastTod : Option W64
  /-- Second of the last valid message less the one that the count expected, where they disagreed (R42). -/
  mismatch : Option Int
  /-- Consecutive missing edges (R43). -/
  missing : Nat
  /-- Consecutive good seconds in ACQUIRING, and consecutive bad ones in DISCIPLINED (R48). -/
  good : Nat
  bad : Nat
  /-- Count at the start of the present run of good in-band exchanges. -/
  goodSince : Option W64
  /-- Count at the first in-band measurement of the present run of bad ones. -/
  badSince : Option W64
  holdSince : W64
  /-- Count at which TREF was found absent (R40). -/
  trefLostAt : Option W64
  /-- Reference value minus count at the last measurement that left a step due, in 1/256 beat, and the count at that
  measurement (R53). -/
  stepDue : Option (Int × W64)
  /-- Count of the last in-band request and of the last in-band measurement (R45, R48). -/
  ibLast : Option W64
  ibMeasured : Option W64
  /-- One-way delay of the last exchange, in 1/256 beat (R45). -/
  ibDelay : Option Int
  /-- In-band exchange open at this requester: T1, in 1/256 beat. -/
  ibT1 : Option Nat
  /-- Last in-band exchange waiting for its T3: T1, T2, T4, in 1/256 beat. -/
  ibPrev : Option (Nat × Nat × Nat)
  /-- T3 of the last response sent to each requester, in 1/256 beat, key port*256 + position (R45). -/
  ibT3 : Store Nat
  deriving DecidableEq, Repr

/-- A job as armed (R504), and what the job keeps beside its registers. -/
structure JobX where
  state : JobState
  tag : BitVec 16
  /-- Sequence of the ARM_JOB in progress. -/
  armSeq : Option W32
  tdSeq : Option W32
  /-- Job state when TEARDOWN started (R433). -/
  lastState : Nat
  armedAt : W64
  tempo : Nat
  privTrains : Bool
  rank : Nat
  groupPos : Nat
  groupSize : Nat
  stationTimeout : Nat
  armLimit : Nat
  /-- Granule ranges: base, granules. -/
  ranges : List (Nat × Nat)
  ttMeasure : List Byte
  ownerHash : List Byte
  measure : List Byte
  linkKey : BitVec 256
  sealKey : BitVec 256
  ckKey : BitVec 512
  /-- The job memory key (R294, R494). -/
  memKey : BitVec 512
  /-- Tags in quarantine with their entry counts, oldest first (R512). -/
  quarantine : List (BitVec 16 × W64)
  /-- Last LINE_NOT_CLEAR posted: position and reason (R510). -/
  notClear : Option (Nat × Nat)
  /-- Counts at which TEARDOWN began, or CLEAR after it (R511, R512), and of the last ARMED flits (R509). -/
  tdAt : W64
  announcedAt : W64
  /-- The package's host-frame counter, its counter of sealed frames, and the counters accepted from each rank (key
  rank; 2^20 is the owner's counter space) (R411, R412, R438). -/
  hostFrames : Nat
  sealTx : Nat
  sealRx : Store (List Nat)
  deriving DecidableEq, Repr

/-- The Guard beside its mailbox registers (R479 to R503). -/
structure GuardX where
  deviceSeed : BitVec 256
  gpid : W32
  /-- 0 THG9-2048-A30, 1 THG9-2048-A27 (R421). -/
  ordering : Nat
  /-- Fused SHA-256 of the operator key; none while blank (R482). -/
  operatorHash : Option (List Byte)
  challenge : List Byte
  /-- Current arm encapsulation key; none before the first READY (R492). -/
  armEk : Option (List Byte)
  /-- NOR contents as the package last read or wrote them: firmware, configuration, certificate. -/
  norFw : Option (List Byte)
  norCfg : Option (List Byte)
  norCert : Option (List Byte)
  fwMeasure : List Byte
  cfgMeasure : List Byte
  /-- Permissions of the maintenance authorisation in force (R498). -/
  perms : BitVec 16
  /-- The memory runtime key, while the Bamkan controllers hold it (R490, R500). -/
  memKey : Option (BitVec 512)
  groupKey : Option (BitVec 256)
  /-- Each of the two Guards is alive (R501). -/
  aliveX0 : Bool
  aliveX1 : Bool
  deriving DecidableEq, Repr

/-- Values in force from the configuration image (R552, R555). -/
structure CfgImage where
  valid : Bool
  cap : Nat
  prio1 : Nat
  prio2 : Nat
  prio3 : Nat
  package : Bool
  portMask : BitVec 16
  nportMask : BitVec 4
  groupPos : Nat
  overprov : Nat
  format : Bool
  layoutId : W32
  tempos : BitVec 8
  i3cAddr : BitVec 7
  scDefault : Nat
  operator : List (Nat × List Byte)
  deriving DecidableEq, Repr

/-- The device beside its registers: supplies, start, stabled state, pins (R539 to R573). -/
structure DevX where
  state : DeviceState
  vaux : Bool
  vin : Bool
  rails : Bool
  /-- SERVICE_N was low when VAUX came (R573). -/
  service : Bool
  everReady : Bool
  /-- Stabled entry in progress, and a WAKE held until it completes (R540). -/
  entering : Bool
  wakePending : Bool
  /-- Count at which the wake began, and its next event (R541). -/
  wakeAt : Option W64
  wakeStep : Nat
  stableSeq : Option W32
  /-- Counts at which the steps of this start began, latest first (R545). -/
  steps : List W64
  /-- Physical core site of each hart (R342). -/
  cores : Store Nat
  /-- A restart waits for its notices (R561). -/
  restarting : Bool
  /-- Core sites stopped or marked faulty: bit site of P-die p (R342, R516). -/
  badSites : Store Bool
  /-- The four NPERST_N outputs (1 is high); THERMTRIP_N is low (R571). -/
  npRst : BitVec 4
  thermTrip : Bool
  /-- Gates of R366 and R500 are open. -/
  testOpen : Bool
  /-- Count at which each DRAINING function began to drain, key 256 * KIND + INDEX (R513). -/
  drainAt : Store Nat
  deriving DecidableEq, Repr

/-- The I3C management target (R575 to R577). -/
structure Mgmt where
  ready : Bool
  dynAddr : Option (BitVec 7)
  ibiOn : Bool
  index : Option Byte
  lastReason : Nat
  /-- In-band interrupts raised, oldest first. -/
  raised : List Nat
  /-- Reasons of R572 that hold now. -/
  active : List Nat
  /-- Bytes of the last read or command answer. -/
  answer : List Byte
  deriving DecidableEq, Repr

/-- Power control of one die beside its registers (R530 to R536). -/
structure PowerDie where
  /-- Class floors of its last report, in 1/8 W (R531). -/
  floor1 : Nat
  floor2 : Nat
  floor3 : Nat
  /-- Demands of its last B message as the controller has them. -/
  dem1 : Nat
  dem2 : Nat
  dem3 : Nat
  /-- Grant computed for it, and the grant that has reached it. -/
  grant : Option (Nat × Nat × Nat)
  arrived : Option (Nat × Nat × Nat)
  /-- Budget period in which that grant arrived (R532). -/
  arrivedIn : Nat
  /-- Last B message that the die sent, and the last that answers it (R530). -/
  sent : BitVec 256
  answer : BitVec 256
  /-- Duties that meet the grant (R534) and thermal duties (R536), and when a thermal duty last moved. -/
  grantC : Nat
  grantM : Nat
  grantL : Nat
  thermC : Nat
  thermM : Nat
  thermAt : Option W64
  /-- PROC multiple of a P-die (R55, R534). -/
  procMult : Nat
  drooping : Bool
  /-- A droop stretch occurred since its last B message (R530). -/
  drooped : Bool
  leak : Option (BitVec 16)
  /-- CAP_LIMIT and THERMAL already signalled since ARM_JOB. -/
  capSeen : Bool
  thermSeen : Bool
  deriving DecidableEq, Repr

/-- The power controller on X0 (R532). -/
structure PowerX where
  period : Nat
  dies : Store PowerDie
  deriving DecidableEq, Repr

/-- An object or replica in the depot (R472). -/
structure DepotObj where
  name : List Byte
  rank : Nat
  replica : Bool
  state : Nat
  flags : Nat
  gpid : W32
  groupPos : Nat
  buddy : Nat
  tag : BitVec 16
  created : W64
  committed : W64
  length : Nat
  digest : List Byte
  measure : List Byte
  ckKey : BitVec 512
  /-- Whether its writes named a buddy. -/
  buddied : Option Bool
  data : Store Byte
  deriving DecidableEq, Repr

/-- A depot request that has started (R469, R471): its ring index, its descriptor, its status once it has one, the
bytes it read from MEM, and the REQs to the buddy that no RESP has answered. -/
structure DepotReq where
  index : Nat
  desc : List Byte
  status : Option Nat
  data : List Byte
  ids : List Nat
  startedAt : W64
  deriving DecidableEq, Repr

/-- Block state of the NAND (R461 to R464): its erases, refresh flag, whether it is retired, whether a retry offset is
known, the count of its last refresh that needed step 4. -/
structure NandBlock where
  erases : Nat
  refresh : Bool
  retired : Bool
  offset : Bool
  step4At : Option W64
  deriving DecidableEq, Repr

/-- A fresh block. -/
def NandBlock.fresh : Nat → NandBlock := fun _ =>
  { erases := 0, refresh := false, retired := false, offset := false, step4At := none }

/-- The depot beside its registers (R453 to R478). -/
structure DepotX where
  objects : List DepotObj
  /-- Blocks of a channel, and data bytes of a LUN (R454). -/
  chanBlocks : Nat
  lunBytes : Nat
  /-- Counts at which blocks of a LUN were retired, key channel*16 + lun (R465). -/
  retiredAt : Store (List Nat)
  /-- Backed pages: key, bytes, granules of the page read by PAGE_OUT. -/
  pages : List (W64 × Nat × List Byte)
  reqs : List DepotReq
  /-- Key channel*2^24 + lun*2^16 + block. -/
  blocks : Store NandBlock
  /-- LUNs under rebuild, as channel*16 + lun. -/
  rebuilds : List Nat
  /-- Channels whose stripes are being rewritten (R476). -/
  rewriting : List Nat
  deriving DecidableEq, Repr

/-- The start-up history beside its marks and its margin log (R556): leakage by die, ports whose equaliser settings are
known, whether the runtime store matches the firmware, the sequence number of the unit map record, and the last 16
starts (HP_START_STATUS and step durations). -/
structure HistX where
  leak : Store (BitVec 16)
  omEq : BitVec 16
  runtime : Bool
  unitSeq : Nat
  starts : List (W64 × List Nat)
  /-- By key stack*512 + channel, the eyes and centres of the last training and whether it swept every axis in full (R304); by
  key stack*8 + i, STATE, TRACK and SLOT of spare i (R301). -/
  trained : Store (W32 × W32 × Bool)
  bkSpares : Store Nat
  deriving DecidableEq, Repr

/-- A line in a junction cache (R330): MOESI code of R330, the line's bytes, and the count at which its data
arrived (R334). -/
structure JLine where
  moesi : Nat
  data : BitVec 512
  arrived : W64
  deriving DecidableEq, Repr

/-- A directory entry (R332): the line's state (R330: 4 M, 3 O, 2 E, 1 S, 0 with no holder), owner and sharers as die indexes 0
to 11, and its place in allocation order. -/
structure DirEntry where
  state : Nat
  owner : Option Nat
  sharers : BitVec 12
  age : Nat
  deriving DecidableEq, Repr

/-- A junction cache's own read or write that waits for a deferred snoop (R334): the asking die, the bytes it writes. -/
structure CohReq where
  die : Nat
  write : Bool
  ordered : Bool
  data : BitVec 512
  mask : BitVec 64
  deriving DecidableEq, Repr

/-- A snoop deferred under R334 by the cache of `die`, and the request that it serves, if it is one of this package's junction
caches. -/
structure Deferred where
  die : Nat
  line : Nat
  invalidate : Bool
  req : Option CohReq
  deriving DecidableEq, Repr

/-- A page walk in progress (R314): die, waiting engine index, virtual address, whether it writes, the PTE
level it reads next and that table's address. -/
structure Walk where
  die : Nat
  engine : Nat
  va : W64
  write : Bool
  deriving DecidableEq, Repr

/-- A TLB entry (R315): die, the engine whose own entry it is (none: one of the unit's shared ones), virtual page base, page bytes, physical base, R and W, G bit. -/
structure TlbEntry where
  die : Nat
  holder : Option Nat
  base : Nat
  size : Nat
  pa : Nat
  readable : Bool
  writable : Bool
  global : Bool
  deriving DecidableEq, Repr

/-- A broadcast fence (R317, R318): its hart, its number, the units yet to acknowledge it, and whether the
hart waits for it. -/
structure Fence where
  id : Nat
  hart : Nat
  va : Option W64
  asid : Option (BitVec 16)
  pendingDies : BitVec 8
  /-- Pages that leave the TLBs by it: die, base, bytes. -/
  removed : List (Nat × Nat × Nat)
  deriving DecidableEq, Repr

/-- A unit held because every fault record of its die is valid (R323). -/
structure FullHold where
  die : Nat
  engine : Nat
  key : W64
  window : Bool
  cause : Nat
  write : Bool
  va : W64
  deriving DecidableEq, Repr

/-- Fences and walks (R312 to R323). -/
structure TransX where
  tlb : List TlbEntry
  walks : List Walk
  fences : List Fence
  nextFence : Nat
  /-- Harts whose SFENCE.VMA or SFENCE.INVAL.IR has not retired, with the fences they wait for. -/
  waiting : List (Nat × List Nat)
  /-- Cached window-table entries: key die*2^28 + window*2^20 + granule (R327). -/
  winCache : List (Nat × W64)
  fullHolds : List FullHold
  /-- FAULT_FIRST already signalled since ARM_JOB, per die. -/
  seenFirst : BitVec 8
  /-- Fault keys on the C channel: receiving die, sending die, key, window (R320). -/
  keysSent : List (Nat × Nat × W64 × Bool)
  deriving DecidableEq, Repr

/-! ### Engines -/

/-- One location that an order writes at its write cycle (R69). -/
inductive Put where
  /-- A byte by physical address. -/
  | byte (pa : Nat) (v : Byte)
  /-- Half of a byte: FP4 shares bytes (R118). -/
  | nib (pa : Nat) (high : Bool) (v : Nat)
  /-- Bits of a vector register lane (R179). -/
  | lane (k lo len v : Nat)
  /-- An accumulator entry of plane q of a die (R114). -/
  | cell (d q ix : Nat) (c : Cell)
  /-- Terms of one step for an accumulator entry: accumulation mode 1 FP32, 2 FP64, 3 LS (R155). -/
  | terms (d q ix mode : Nat) (ts : List (FVal × Bool))
  /-- A whole plane set to a mode, its entries zero (R115, R125, R130). -/
  | plane (d q mode : Nat) (anchor : BitVec 16)
  | maFlags (d : Nat) (f : Flags)
  | vcFlags (d c g : Nat) (f : Flags)
  /-- A configuration field of the engine (R127, R129, R189, R270). -/
  | cfg (ix : Nat) (v : Nat)
  /-- A register. -/
  | reg (k : Nat) (v : W64)
  /-- Count in a saturating register. -/
  | count (k n : Nat)
  deriving DecidableEq, Repr

/-- A write in flight: the engine cycle it happens at, its order's ISSUE, and what it writes. -/
structure WriteOp where
  time : Nat
  issue : Nat
  put : Put
  deriving DecidableEq, Repr

/-- A read in flight: the engine cycle at which the order reads next, the order, the configuration as it stood at
ISSUE, which part of its operands comes next, and what it has read. -/
structure ReadOp where
  time : Nat
  issue : Nat
  order : Order
  cfg : List Nat
  part : Nat
  got : List Nat
  deriving DecidableEq, Repr

/-- Cycles lo to hi in which an order occupies a path (R135, R192): path 0 step, 1 drain, 2 lane, 3 accumulator
port; and its pass period. -/
structure Span where
  path : Nat
  issue : Nat
  lo : Nat
  hi : Nat
  period : Nat
  deriving DecidableEq, Repr

/-- Why an engine is held (R68, R77, R223, R230, R273). -/
inductive Hold where
  /-- A signal wait: operation 0 GE, 1 EQ, 2 MASK; the signal; the operand; whether the condition has held. -/
  | wait (op sig : Nat) (operand : W64) (met : Bool)
  /-- A gather, scatter or range operation has outlived its window. -/
  | overrun
  /-- The update sequencer waits for a window to open. -/
  | opening
  deriving DecidableEq, Repr

/-- A gather, scatter or range window of a cluster (R223). -/
structure GatherWin where
  issue : Nat
  stop : Nat
  order : Order
  cfg : List Nat
  /-- INDEX and DATA as they stood at ISSUE. -/
  got : List Nat
  /-- Key of the fault record it waits for (R319). -/
  wait : Option W64
  deriving DecidableEq, Repr

/-- An engine station (R64 to R72): the engine cycles it has reached, the least cycle of its next order, what is in
flight, its configuration, its hold, and whether it has arrived. -/
structure Engine where
  cycle : Nat
  next : Nat
  reads : List ReadOp
  writes : List WriteOp
  spans : List Span
  cfg : Store Nat
  hold : Option Hold
  win : Option GatherWin
  arrived : Bool
  /-- A flag bit has been set since the load (R145, R212, R408); for a train engine, a translation hold has been
  recorded since the load (R110). -/
  flagged : Bool
  /-- A residue mismatch has been recorded since ARM_JOB (R588, R589); for a train engine, a missed grant has been
  recorded since the load (R110). -/
  mismatched : Bool
  deriving DecidableEq, Repr

/-- An engine with nothing issued. -/
def Engine.idle : Nat → Engine := fun _ =>
  { cycle := 0, next := 0, reads := [], writes := [], spans := [], cfg := [], hold := none, win := none
    arrived := false, flagged := false, mismatched := false }

/-! ### Signals (R76 to R80) -/

/-- A signal operation on its way to the hosting die: whether it adds, its value, whether an order made it with
the engine and die of R79 (engine 15 where another package sent it), and who waits for the old value. -/
structure SigOp where
  sig : Nat
  add : Bool
  value : W64
  /-- Engine and die index of an order; none for control space, host and set mode. -/
  order : Option (Nat × Nat)
  /-- 0 nobody; 1 a host command (sequence); 2 an unbooked REQ (tag word); 3 a set-mode thread (its key times 32, and the
  register). -/
  asker : Nat
  askId : Nat
  /-- Made by a set-mode thread (R243). -/
  setMode : Bool
  deriving DecidableEq, Repr

/-! ### Timetables (R102 to R107) -/

/-- A station entry (R102). -/
structure Station where
  depart : W64
  segLen : Nat
  dieMask : Byte
  pkgMask : BitVec 256
  deriving DecidableEq, Repr

/-- What a die's signal box has loaded (R102), and its station's progress. -/
structure DieTT where
  stations : List Station
  /-- Train descriptors of T0 to T3 and booking entries. -/
  descs : List (List (BitVec 512))
  books : List (BitVec 128)
  /-- Orders of each engine by segment order, in stream order with STATION markers. -/
  orders : List (Nat × List Order)
  /-- Station it runs toward, 0 before right-away. -/
  next : Nat
  /-- Arrivals that have reached it, as (station, die). -/
  seen : List (Nat × Nat)
  /-- The first hold since the load has been recorded (R586). -/
  late : Bool
  /-- What its copy of the MTC showed when it arrived at its next station. -/
  arrivedAt : Option W64
  /-- What its copy showed when the last arrival or flush that station k waits for reached it, key k (R89). -/
  remoteAt : Store W64
  deriving DecidableEq, Repr

/-- A die with nothing loaded. -/
def DieTT.none : Nat → DieTT := fun _ =>
  { stations := [], descs := [], books := [], orders := [], next := 0, seen := [], late := false
    arrivedAt := Option.none, remoteAt := [] }

/-- A possession entry of the loaded image (R93), and where it stands: whether it has begun, the homes whose flush
is still in progress (R95), and whether it has ended. -/
structure Poss where
  base : Nat
  granules : Nat
  start : Nat
  stop : Nat
  begun : Bool
  flushing : BitVec 8
  ended : Bool
  /-- Dies that have departed from station END. -/
  left : BitVec 8
  deriving DecidableEq, Repr

/-- The package's timetable: arrival messages on Chawen (to, from, station), arrivals of dies of other packages by
(station, position, die), the packages that have arrived by (station, position), possessions. -/
structure TTX where
  msgs : List (Nat × Nat × Nat)
  pkgDies : List (Nat × Nat × Nat)
  pkgSeen : List (Nat × Nat)
  poss : List Poss
  /-- Booking entries of the package image itself (R102). -/
  pkgBooks : List (BitVec 128)
  /-- PKG_MASK(1) of the package image (R510). -/
  lineMask : BitVec 256
  deriving DecidableEq, Repr

/-! ### Trains (R81 to R86) -/

/-- A train in flight (R81, R82): its engine Tj by j, its order's fields, the descriptor, and how far it is. -/
structure Train where
  die : Nat
  engine : Nat
  issue : Nat
  desc : BitVec 512
  index : Nat
  transpose : Bool
  arriveSig : Nat
  arrive : Bool
  book : Nat
  /-- Key of the fault record that its translation waits for, and whether it is a WINDOW fault (R86, R319). -/
  wait : Option (W64 × Bool)
  /-- Engine cycle at which it reached the page that it holds on (R316). -/
  heldAt : Option Nat
  /-- It has held on translation. -/
  faulted : Bool
  /-- Bytes read of the source, in the order of R582. -/
  data : List Byte
  /-- How many bytes of its stream stand at a destination in this package. -/
  landed : Nat
  /-- READ_REQs of its rows have been sent (R385). -/
  asked : Bool
  /-- Its BOOKED WRITE flits have been sent to their port (R385). -/
  sent : Bool
  /-- A refused remote-form access: it never arrives (R329). -/
  dead : Bool
  deriving DecidableEq, Repr

/-! ### Stream caches (R213 to R220) -/

/-- An entry of a stream cache: virtual and physical page number, valid and dirty sectors, bytes, last use. -/
structure SCEntry where
  page : Nat
  ppage : Nat
  valid : BitVec 128
  dirty : BitVec 128
  data : Store Byte
  used : Nat
  deriving DecidableEq, Repr

/-- An entry that holds nothing. -/
def SCEntry.none : Nat → SCEntry := fun _ => { page := 0, ppage := 0, valid := 0, dirty := 0, data := [], used := 0 }

/-- A stream's detectors (R218, R219): the run of sequential stores, the previous miss, its stride, trained. -/
structure SCStream where
  runFrom : Nat
  runTo : Option Nat
  lastMiss : Option Nat
  stride : Option Int
  trained : Bool
  deriving DecidableEq, Repr

/-- Detectors at rest. -/
def SCStream.none : Nat → SCStream := fun _ =>
  { runFrom := 0, runTo := Option.none, lastMiss := Option.none, stride := Option.none, trained := false }

/-- A range operation (R220): cluster index d*8 + c, OP, start, length, and whether a VSCOP made it. -/
structure RangeOp where
  cl : Nat
  op : Nat
  base : Nat
  len : Nat
  order : Bool
  deriving DecidableEq, Repr

/-! ### Set mode (R227 to R257) -/

/-- What a thread waits at. -/
inductive Block where
  | none
  | barrier (id : Nat)
  /-- A signal wait: operation, signal, operand, destination register, the value that satisfied it. -/
  | signal (op sig : Nat) (operand : W64) (rd : Nat) (met : Option W64)
  deriving DecidableEq, Repr

/-- A thread (R227, R235, R237). -/
structure Thread where
  live : Bool
  pc : W64
  x : Store W64
  f : Store W64
  fcsr : Byte
  instret : W64
  block : Block
  /-- Registers that wait for the value before a signal SET or ADD: an instruction that names one waits with them (R239, R243). -/
  awaits : List Nat
  deriving DecidableEq, Repr

/-- A thread that is not there. -/
def Thread.none : Nat → Thread := fun _ =>
  { live := false, pc := 0, x := [], f := [], fcsr := 0, instret := 0, block := Block.none, awaits := [] }

/-- A seat of a call (R234): the figure that has it or had it last, and whether that figure has ended. -/
structure Seat where
  seat : Nat
  fig : Nat
  ended : Bool
  deriving DecidableEq, Repr

/-- A set-mode call (R228 to R233). -/
structure Call where
  die : Nat
  cluster : Nat
  issue : Nat
  desc : Nat
  win : Nat
  endSig : Nat
  endEn : Bool
  opened : Bool
  /-- Start-of-call and end-of-call write-backs done. -/
  ready : Bool
  flushed : Bool
  expired : Bool
  ended : Bool
  killed : Bool
  entry : W64
  grid : Nat
  fsets : Nat
  fgrp : Nat
  grace : Nat
  arg0 : W64
  arg1 : W64
  stack : W64
  stackBytes : Nat
  seats : List Seat
  figDone : Nat
  /-- fflags accrued by its threads (R240). -/
  fflags : BitVec 5
  /-- Last ordered operation by word or signal: key (physical address div 8, or 2^62 and the signal), the set that
  made it (figure * 32 + set + 1, 0 for another agent), and its kind where it may combine, else 0 (R251). -/
  lastOps : List (Nat × Nat × Nat)
  /-- Slots held on translation: the key of their record, the thread that faulted (by key) and its address (R256). -/
  heldSlots : List (Nat × W64 × Nat × W64)
  deriving DecidableEq, Repr

/-! ### Updates (R261 to R276) -/

/-- An update: the order, the rule row and configuration as they stood at ISSUE, and its window: when it opened, in beats, and where
its phases end, in nominal engine cycles from then (R275, R277): phase 1, the start of mixing's first iteration, the length of an
iteration, mixing. -/
structure Upd where
  die : Nat
  issue : Nat
  order : Order
  rule : List Byte
  cfg : List Nat
  opened : Bool
  openedAt : Nat
  marks : List Nat
  expired : Bool
  ended : Bool
  bad : Bool
  deriving DecidableEq, Repr

/-! ### Ommet (R369 to R417) -/

/-- A flit at its sender (R374): what it carries, its numbers once sent, whether it is delayed under R100 or to be
resent, how often it was NAKed, and the train it belongs to (0 for none). -/
structure TxFlit where
  kind : Nat
  path : Nat
  tag : BitVec 16
  dst : Nat
  src : Nat
  pseq : Nat
  payload : BitVec 1792
  lseq : Nat
  delayed : Bool
  resend : Bool
  naks : Nat
  owner : Nat
  deriving DecidableEq, Repr

/-- A port beside its registers (R377, R389): sequence numbers, flits held behind a gap, unacknowledged and waiting
flits, what the next link word carries, the last flit sent, and a lane change agreed on (logical lane, physical lane,
whether this end asked for it). -/
structure OmPort where
  nextTx : Nat
  nextRx : Nat
  held : List Flit
  unacked : List TxFlit
  queue : List TxFlit
  ackDue : Bool
  nakDue : List Nat
  last : Option Flit
  /-- The 256 bytes of that flit as they cross the link (R374, R382). -/
  wire : List Byte
  /-- A flit has been discarded by its tag since ARM_JOB (R376). -/
  tagSeen : Bool
  change : Option (Nat × Nat × Bool)
  /-- Lane change scheduled by its LANE_ACK. -/
  agreed : Bool
  /-- Payload slots since the segment began (R396). -/
  slot : Nat
  /-- Symbols that FEC corrected in the last millisecond (R379): count, physical lane, symbols. -/
  fec : List (Nat × Nat × Nat)
  deriving DecidableEq, Repr

/-- A port that has sent and received nothing. -/
def OmPort.idle : Nat → OmPort := fun _ =>
  { nextTx := 0, nextRx := 0, held := [], unacked := [], queue := [], ackDue := false, nakDue := [], last := none, wire := [], tagSeen := false
    change := none, agreed := false, slot := 0, fec := [] }

/-- An outstanding REQ (R387): identifier, agent, die, position it went to, what it belongs to, the port it left by. -/
structure OutReq where
  id : Nat
  agent : Nat
  die : Nat
  dst : Nat
  owner : Nat
  port : Nat
  deriving DecidableEq, Repr

/-- Counters of R382, R383 and R388, and outstanding REQs. -/
structure OmX where
  ports : Store OmPort
  pairTx : Store Nat
  pairRx : Store Nat
  ctlTx : Store Nat
  ctlRx : Store Nat
  localTx : Nat
  reqs : List OutReq
  nextId : Nat
  /-- Booked WRITEs of (sender, path), key sender*256 + path, of which a block was refused since the last LAST flit
  (R326, R591). -/
  refused : Store Bool
  /-- MESSAGE payloads delivered to the runtime, oldest first: sender, payload (R387). -/
  messages : List (Nat × List Byte)
  deriving DecidableEq, Repr

/-! ### Collectives (R401 to R408) -/

/-- A collective: its order, its descriptor as read at ISSUE, and its window. -/
structure Coll where
  die : Nat
  issue : Nat
  order : Order
  desc : List Byte
  /-- The source as read at ISSUE. -/
  own : List Byte
  bad : Bool
  /-- Result shards of SCATTER_GATHER are sent. -/
  shared : Bool
  expired : Bool
  ended : Bool
  deriving DecidableEq, Repr

/-! ### Chawen and the test port (R349 to R368) -/

/-- Chawen beside its registers: T messages due on links (from, to) and on their way (from, to, count that they hold, the
master's count at their launch), each die's copy of the MTC as its value when it was last corrected and the master's count at
that moment (R357), all in 1/256 beat; replays and probes
in progress by bundle key, erased positions and faulty spares by bundle key, and the dies that have seen a transient
(R361). -/
structure CwX where
  due : List (Nat × Nat)
  fly : List (Nat × Nat × Nat × Nat)
  copies : Store (Nat × Nat)
  replays : List Nat
  probes : List Nat
  /-- Booked data that missed its slot, oldest first, by link from*16 + to: the train it belongs to (R100, R354). -/
  delayed : Store (List Nat)
  erased : Store (List Nat)
  badSpares : Store (BitVec 32)
  transient : BitVec 12
  deriving DecidableEq, Repr

/-- What the test port selects (R364). -/
inductive TapAct where
  | idcode | sample | extest | clamp | highz | diechain | bypass
  deriving DecidableEq, Repr

/-- How the digital lands are driven: by the package, from the boundary register, held, or not at all (R364). -/
inductive LandDrive where
  | normal | boundary | held | highZ
  deriving DecidableEq, Repr

/-- The test port: its instruction register, the instruction that acts, the lands, the length of the chain of die wrappers, and the
boundary register with what it last captured (R364, R365, R564). -/
structure Tap where
  ir : Byte
  act : TapAct
  lands : LandDrive
  chain : Nat
  boundary : BitVec 822
  sampled : BitVec 822
  deriving DecidableEq, Repr

/-- Slots that operations in progress on a Bamkan track still hold, by the claim under which they began (R288, R293): a granted
operation, with whether it restores data (R298), one that R100 delayed, an unbooked one. -/
structure BkBusy where
  granted : Nat
  repair : Bool
  late : Nat
  unbooked : Nat
  deriving DecidableEq, Repr

/-- A track with no operation in progress. -/
def BkBusy.none : Nat → BkBusy := fun _ => { granted := 0, repair := false, late := 0, unbooked := 0 }

/-- The state of the block. -/
structure State where
  /-- Commands waiting, first in first out. -/
  pending : List Instr
  /-- Registers of the control space and BAR0 by key. -/
  regs : Store W64
  /-- Bytes by physical address: unified memory and the platform windows (R308). -/
  mem : Store Byte
  /-- Host memory, memory of endpoints below the N ports (key port*2^64 + address), and BAR2 (R420, R440). -/
  hostMem : Store Byte
  nportMem : Store Byte
  bar2 : Store Byte
  /-- Blocks of unified memory marked poisoned, by PA div 256 (R302). -/
  poisoned : Store Bool
  /-- Possession maps, key home*2^20 + granule (R339). -/
  possMap : Store Bool
  /-- Lines in junction caches, key die*2^35 + line; directory entries by line (R330 to R332). -/
  jlines : Store JLine
  dir : Store DirEntry
  dirAge : Nat
  deferred : List Deferred
  hostLines : Store HostLine
  /-- IMSIC interrupt files: bit n of the file at that page offset of P-die d, key d*2^30 + offset (R343). -/
  imsic : Store (BitVec 256)
  /-- MSI writes on their way, oldest first: sender (A-die, or 8 for the APLIC), address, data (R345). -/
  msis : List (Nat × W64 × W32)
  /-- APLIC sources whose rectified input was high when last seen (R344). -/
  aplicIn : Store Bool
  trans : TransX
  mtcx : MtcX
  port : HostPort
  job : JobX
  guard : GuardX
  img : CfgImage
  dev : DevX
  mgmt : Mgmt
  power : PowerX
  depot : DepotX
  hist : HistX
  /-- Function states of the N ports: 0 ENABLED, 1 DRAINING, 2 DISABLED (R513, R515). -/
  npFunc : Store Nat
  /-- Engines, key die*15 + engine (R64). -/
  engines : Store Engine
  /-- Vector registers: lane words, key ((die*8 + cluster)*64 + register)*1024 + lane (R179). -/
  vregs : Store W32
  /-- Accumulator entries, key (die*4 + plane)*16384 + row*128 + column (R114). -/
  cells : Store Cell
  /-- Signals of the package by number, operations on their way, last operations, wait slots of die d whose
  condition has held (key d*64 + w) (R76 to R80, R109). -/
  signals : Store W64
  sigOps : List SigOp
  slotsDue : Store Bool
  /-- What each die's signal box has loaded. -/
  dies : Store DieTT
  /-- Stream caches: entries (key cluster index*48 + entry), streams (key cluster index*16 + stream), prefetches in
  flight as (cluster index, sector address), the use clock, range operations; cluster index is die*8 + cluster. -/
  scEntries : Store SCEntry
  scStreams : Store SCStream
  scPre : List (Nat × Nat)
  scClock : Nat
  scRange : List RangeOp
  /-- Calls, threads (key (cluster index*64 + slot)*32 + thread), updates. -/
  calls : List Call
  threads : Store Thread
  /-- Reservations that LR has set and nothing has lost: thread key, physical address div 8 (R250). -/
  resv : List (Nat × Nat)
  upds : List Upd
  ttx : TTX
  /-- The last arrival and the last departure that each station's timetable port reports, as (station, MTC in beats), key
unit*2 + (0 arrival, 1 departure); units are engine d*15 + e, die 120 + d and the package, 128 (R21). -/
  reports : Store (Nat × W64)
  trains : List Train
  om : OmX
  /-- Collectives, and COLL payloads received and not yet used, key die*256 + sender (R386). -/
  colls : List Coll
  collRx : Store (List (BitVec 1792))
  /-- Units that the start-up history marks, by key (R140, R176, R556). -/
  marks : Store Bool
  /-- Causes of late running that arose on A-die d and no hold has recorded yet (R92). -/
  lateFlags : Store (BitVec 16)
  /-- Chawen, and the package's test port. -/
  cw : CwX
  tap : Tap
  /-- Which claimant took the last memory, Chawen or payload slot (the model's own field, not the spec's). -/
  slotWinner : Nat
  /-- Bamkan tracks, key stack*32 + track: slots that operations in progress still hold, booked operations that R100
  delayed, the unbooked queue and what a full queue holds back, oldest first (R29, R288, R293), memory slots since the rebuild
  began, and rebuild steps that have won a slot and not restored their row (R299). -/
  bkBusy : Store BkBusy
  bkLate : Store (List BkOp)
  bkQueue : Store (List BkOp)
  bkFeed : Store (List BkOp)
  rebuildSlots : Store Nat
  rebuildWon : Store Nat
  /-- Grants used in a memory slot of the segment, key home die: the slot's index plus 1, how many (R290). -/
  bkGranted : Store (Nat × Nat)
  /-- Counts of uncorrectable sectors by channel, key stack*512 + channel (R296); next storage part that each channel refreshes,
  by the same key (R289); the margin log: stack, BK_MARGIN_CTRL, BK_MARGIN_RESULT (R305, R556). -/
  ueTimes : Store (List Nat)
  refreshAt : Store Nat
  sweeps : List (Nat × W64 × W64)
  /-- Bytes that the last read of a platform window answered (the model's own field, not the spec's). -/
  answer : List Byte
  /-- How many free values have been drawn (the model's own field, not the spec's). -/
  freeIx : Nat
  deriving DecidableEq, Repr

/-- The state right after reset: start step 1 in progress with the supplies up (R421, R545, R562), every
register at its reset value, nothing else listed. What the spec states no reset value for is named in the
assumption log (entries 2 and 13). -/
def State.reset : State where
  pending := []
  regs := []
  mem := []
  hostMem := []
  nportMem := []
  bar2 := []
  poisoned := []
  possMap := []
  jlines := []
  dir := []
  dirAge := 0
  deferred := []
  hostLines := []
  imsic := []
  msis := []
  aplicIn := []
  trans := { tlb := [], walks := [], fences := [], nextFence := 0, waiting := [], winCache := [], fullHolds := []
             seenFirst := 0, keysSent := [] }
  mtcx := { discFrac := 0, rateFrac := 0, lastEdge := none, edgeBase := none, pendingSec := none, lastTod := none, mismatch := none
            missing := 0, good := 0, bad := 0, goodSince := none, badSince := none, holdSince := 0
            trefLostAt := none, stepDue := none, ibLast := none, ibMeasured := none, ibDelay := none, ibT1 := none, ibPrev := none, ibT3 := [] }
  port := { tail := 0, rereads := 0, cmds := [], pages := [], nseq := 0, noticeQ := [], dropped := 0
            firstDropped := 0, msixDue := false, msixSent := 0, deniedCount := 0, deniedFirst := 0
            deniedReason := 0, deniedAt := none, msixAt := none, func := .enabled, ide := false, cxlCache := false, doe := none
            doeAnswer := [] }
  job := { state := .idle, tag := 0, armSeq := none, tdSeq := none, lastState := 0, armedAt := 0, tempo := 0
           privTrains := false, rank := 0, groupPos := 0, groupSize := 0, stationTimeout := 0, armLimit := 0
           ranges := [], ttMeasure := [], ownerHash := [], measure := [], linkKey := 0, sealKey := 0, ckKey := 0, memKey := 0
           quarantine := [], notClear := none, tdAt := 0, announcedAt := 0, hostFrames := 0, sealTx := 0, sealRx := [] }
  guard := { deviceSeed := 0, gpid := 0, ordering := 0, operatorHash := none, challenge := [], armEk := none
             norFw := none, norCfg := none, norCert := none, fwMeasure := [], cfgMeasure := [], perms := 0
             memKey := none, groupKey := none, aliveX0 := true, aliveX1 := true }
  img := { valid := false, cap := 5000, prio1 := 1, prio2 := 2, prio3 := 3, package := false, portMask := 0xFFFF
           nportMask := 0xF, groupPos := 0, overprov := 70, format := false, layoutId := 0, tempos := 0xFF
           i3cAddr := 0x4C, scDefault := 0, operator := [] }
  dev := { state := .starting, vaux := true, vin := true, rails := true, service := false, everReady := false
           entering := false, wakePending := false, wakeAt := none, wakeStep := 0, stableSeq := none
           steps := [], cores := [], restarting := false, badSites := [], npRst := 0, thermTrip := false, testOpen := false
           drainAt := [] }
  mgmt := { ready := false, dynAddr := none, ibiOn := false, index := none, lastReason := 0, raised := [], active := []
            answer := [] }
  power := { period := 0, dies := [] }
  depot := { objects := [], chanBlocks := 0, lunBytes := 0, retiredAt := [], pages := [], reqs := [], blocks := [], rebuilds := []
             rewriting := [] }
  hist := { leak := [], omEq := 0, runtime := false, unitSeq := 0, starts := [], trained := [], bkSpares := [] }
  npFunc := []
  engines := []
  vregs := []
  cells := []
  signals := []
  sigOps := []
  slotsDue := []
  dies := []
  scEntries := []
  scStreams := []
  scPre := []
  scClock := 0
  scRange := []
  calls := []
  threads := []
  resv := []
  upds := []
  ttx := { msgs := [], pkgDies := [], pkgSeen := [], poss := [], pkgBooks := [], lineMask := 0 }
  reports := []
  cw := { due := [], fly := [], copies := [], replays := [], probes := [], delayed := [], erased := [], badSpares := []
          transient := 0 }
  tap := { ir := 1, act := .idcode, lands := .normal, chain := 46, boundary := 0, sampled := 0 }
  slotWinner := 0
  bkBusy := []
  bkLate := []
  bkQueue := []
  bkFeed := []
  rebuildSlots := []
  rebuildWon := []
  bkGranted := []
  ueTimes := []
  refreshAt := []
  sweeps := []
  trains := []
  om := { ports := [], pairTx := [], pairRx := [], ctlTx := [], ctlRx := [], localTx := 0, reqs := [], nextId := 0, refused := []
          messages := [] }
  colls := []
  collRx := []
  marks := []
  lateFlags := []
  answer := []
  freeIx := 0

end Sys2Proof.Machine
end

