-- ==== Sys2Proof/Machine/Ops.lean ====
section
/-! DEFINITION. The shared operations: registers (R13), events and notices (R441 to R445), the job's and the
device's states (R506, R559), failing a job or the device (R517, R548), destroying keys (R495). -/

namespace Sys2Proof.Machine

/-! ### Registers -/

/-- The stored value of the register with key `k`. -/
def rd (s : State) (k : Nat) : W64 := Store.get regReset s.regs k

/-- Set the register with key `k`. -/
def wr (s : State) (k : Nat) (v : W64) : State := { s with regs := Store.set regReset s.regs k v }

/-- Change the register with key `k` by `f`. -/
def upd (s : State) (k : Nat) (f : W64 → W64) : State := wr s k (f (rd s k))

/-- Field [lo + len - 1 : lo] of a register. -/
def rdF (s : State) (k lo len : Nat) : Nat := fld (rd s k) lo len

/-- Bit `i` of a register. -/
def rdB (s : State) (k i : Nat) : Bool := bitOf (rd s k) i

/-- Write a field of a register. -/
def wrF (s : State) (k lo len v : Nat) : State := upd s k (fun w => putFld w lo len v)

/-- Write a bit of a register. -/
def wrB (s : State) (k i : Nat) (b : Bool) : State := upd s k (fun w => putBit w i b)

/-- Count one in a saturating counter. -/
def inc (s : State) (k : Nat) : State := upd s k satInc

/-- Count `n` in a saturating counter. -/
def incBy (s : State) (k n : Nat) : State := upd s k (fun w => satAdd w n)

/-- The master's count (R34). -/
def now (s : State) : W64 := rd s (mtc 0)

/-- `n` beats have passed since `last`, if it ever was. -/
def sinceOk (s : State) (last : Option W64) (n : Nat) : Bool := last.all (fun x => decide (x.toNat + n ≤ (now s).toNat))

/-- A die's copy of the MTC in 1/256 beat (R37, R357): X0 has the master's count; any other die counts on, with the master,
from the value of its last correction. -/
def copyOf (s : State) (d : Nat) : Nat :=
  if d = 12 then 256 * (now s).toNat
  else
    let x := Store.get (fun _ => (0, 0)) s.cw.copies d
    x.1 + (256 * (now s).toNat - x.2)

/-- The beat that a die's copy of the MTC shows. -/
def dieNow (s : State) (d : Nat) : Nat := copyOf s d / 256

/-- Draw a free value. -/
def drawWord (s : State) : W64 × State := (Config.freeWord s.freeIx, { s with freeIx := s.freeIx + 1 })

/-- Draw `n` random bytes. -/
def drawBytes (s : State) (n : Nat) : List Byte × State :=
  ((upTo n).map (fun i => Config.freeByte (s.freeIx + i)), { s with freeIx := s.freeIx + n })

/-! ### States by their encodings (R421) -/

/-- HP_STATE.DEVICE. -/
def deviceCode : DeviceState → Nat
  | .cold => 0 | .starting => 1 | .ready => 2 | .stabled => 3 | .maintenance => 4 | .failed => 5

/-- HP_STATE.JOB. -/
def jobCode : JobState → Nat
  | .idle => 0 | .arming => 1 | .armed => 2 | .departed => 3 | .held => 4 | .tearingDown => 5 | .clear => 6
  | .failed => 7

/-- FUNCTION notice states (R443). -/
def funcCode : FuncState → Nat
  | .enabled => 0 | .draining => 1 | .disabled => 2

/-- The job is ARMED, DEPARTED or HELD. -/
def jobLive (s : State) : Bool := s.job.state = .armed || s.job.state = .departed || s.job.state = .held

/-- MTC_STATUS.STATE. -/
def mtcState (s : State) : Nat := rdF s (mtc 8) 0 2

/-- HP_STATE as it reads (R421). -/
def hpState (s : State) : W64 :=
  BitVec.ofNat 64 (deviceCode s.dev.state + 2 ^ 3 * jobCode s.job.state + 2 ^ 6 * mtcState s
    + 2 ^ 8 * s.job.tag.toNat + 2 ^ 24 * b2n s.port.ide + 2 ^ 25 * b2n s.port.cxlCache
    + 2 ^ 26 * funcCode s.port.func)

/-- HP_CMD_STATUS as it reads (R421): EXP and STOPPED are stored, IN_FLIGHT is the count of commands. -/
def hpCmdStatus (s : State) : W64 := putFld (rd s (bar0 0x20)) 32 7 s.port.cmds.length

/-- OM_STATUS.LINK: 0 DOWN, 1 TRAINING, 2 UP, 3 DEGRADED. -/
def linkState (s : State) (p : Nat) : Nat := rdF s (omP p 0) 0 2

/-- OM_STATUS.FUNC. -/
def portFunc (s : State) (p : Nat) : Nat := rdF s (omP p 0) 2 2

/-- The port is UP or DEGRADED. -/
def linkUp (s : State) (p : Nat) : Bool := decide (2 ≤ linkState s p)

/-- OR_ENTRY_g as A-die `d` reads it (R391, R393). -/
def orEntry (s : State) (g : Nat) : W64 := rd s (key 0 (0x7200000 + 8 * g))

/-- The package's own group position, GPID and rank in force (OR_SELF, R390). -/
def selfReg : Nat := key 0 0x7210000
def ownPos (s : State) : Nat := rdF s selfReg 32 8
def ownRank (s : State) : Nat := rdF s selfReg 40 20

/-- Positions that the line-clear check covers: PKG_MASK(1) of the package image but for this package's own (R510). -/
def linePositions (s : State) : List Nat := (upTo 256).filter (fun g => decide (g ≠ ownPos s) && bitOf s.ttx.lineMask g)

/-- Reason 1 of R510 holds toward position `g`: a port of PORT_MASK(g) is UP or DEGRADED and ENABLED. -/
def linkClear (s : State) (g : Nat) : Bool :=
  (upTo 16).any (fun p => bitOf (orEntry s g) p && linkUp s p && decide (portFunc s p = 0))

/-- Bit g of HP_JOB_ARMED. -/
def peerArmed (s : State) (g : Nat) : Bool := rdB s (hp (0x140 + 8 * (g / 64))) (g % 64)

/-- Reason 3: OM_PARTNER of a port toward `g`, or its ARMED flit, names the GPID of its routing entry. -/
def peerNamed (s : State) (g : Nat) : Bool :=
  peerArmed s g || (upTo 16).any (fun p => bitOf (orEntry s g) p && linkUp s p && rdB s (omP p 0x10) 63
    && decide (rdF s (omP p 0x10) 0 32 = fld (orEntry s g) 32 32))

/-- The reason that line clear fails toward `g`, in the order of R510; 0 for none. -/
def lineReason (s : State) (g : Nat) : Nat :=
  if !linkClear s g then 1 else if !peerNamed s g then 3 else if !peerArmed s g then 2 else 0

/-- The lowest position that is not clear, with its reason. -/
def lineFailing (s : State) : Option (Nat × Nat) :=
  (linePositions s).findSome? (fun g => if lineReason s g = 0 then none else some (g, lineReason s g))

/-- A timetable image is loaded on some die. -/
def imageLoaded (s : State) : Bool := s.dies.any (fun x => !x.2.stations.isEmpty)

/-- HP_JOB_STATUS as it reads (R525): state, line clear, tag and quarantine are views; line clear reads 0 while no image
names the positions to check. -/
def jobStatus (s : State) : W64 :=
  let w := putFld (putFld (putFld (rd s (hp 0x100)) 0 3 (jobCode s.job.state)) 8 16 s.job.tag.toNat) 24 9 s.job.quarantine.length
  putBit (putBit w 3 (imageLoaded s && (linePositions s).all (linkClear s)))
    4 (imageLoaded s && (linePositions s).all (fun g => peerArmed s g && peerNamed s g))

/-- The choice counter (R520): the choices of every cluster, and the raced signals. -/
def choices (s : State) : Nat := (rd s (hp 0x120)).toNat

/-- The last ordered operation that a call knows of on a word or signal (R251). -/
def Call.noteOp (k : Call) (key who kind : Nat) : Call :=
  { k with lastOps := (key, who, kind) :: k.lastOps.filter (fun o => !decide (o.1 = key)) }

/-- Every open call but `mine` sees an ordered operation of another agent (R251). -/
def otherOp (s : State) (mine : Call → Bool) (key kind : Nat) : State :=
  { s with calls := s.calls.map (fun k => if k.opened && !k.ended && !mine k then k.noteOp key 0 kind else k) }

/-- HP_VERSION (R421). -/
def hpVersion (s : State) : W64 := BitVec.ofNat 64 (1 + 2 ^ 16 * 0xB0 + 2 ^ 32 * s.guard.ordering)

/-- The span of path `p` that an engine's cycle lies in (R135, R192). -/
def spanNow (s : State) (d e p : Nat) : Option Span :=
  let x := Store.get Engine.idle s.engines (d * 15 + e)
  x.spans.find? (fun q => decide (q.path = p) && decide (q.lo ≤ x.cycle) && decide (x.cycle ≤ q.hi))

/-- MA_STATUS as it reads (R146): the plane modes are stored, the paths are views. -/
def maStatus (s : State) (d : Nat) : W64 :=
  let w := putBit (rd s (ma d 0)) 1 (spanNow s d 0 1).isSome
  match spanNow s d 0 0 with
  | some q =>
    let pass := ((Store.get Engine.idle s.engines (d * 15)).cycle - q.lo) / max 1 q.period
    putFld (putFld (putBit w 0 true) 10 6 pass) 16 24 q.issue
  | none => w

/-- VC_STATUS as it reads (R225). -/
def vcStatus (s : State) (d c : Nat) : W64 :=
  let opened := s.calls.any (fun k => decide (k.die = d) && decide (k.cluster = c) && k.opened && !k.ended)
    || (Store.get Engine.idle s.engines (d * 15 + 1 + c)).win.isSome
  let w := putBit (putBit (0 : W64) 1 (spanNow s d (1 + c) 3).isSome) 2 opened
  match spanNow s d (1 + c) 2 with
  | some q => putFld (putBit w 0 true) 4 24 q.issue
  | none => w

/-- The train that a booked flit belongs to, as its flits name it; 0 is none. -/
def trainOwner (d j issue : Nat) : Nat := (d * 16 + j) * 2 ^ 24 + issue + 1

/-- The train whose booked data a Bamkan operation moves; 0 for none. -/
def opTrain (o : BkOp) : Nat := match o.owner with
  | some x => trainOwner x.1 x.2.1 x.2.2.toNat
  | none => 0

/-- Data of a train that missed its slot waits at a Bamkan track, on a Chawen link or at an Ommet port (R100, R110). -/
def delayWaits (s : State) (owner : Nat) : Bool :=
  s.bkLate.any (fun p => p.2.any (fun o => decide (opTrain o = owner)))
    || s.cw.delayed.any (fun p => p.2.contains owner)
    || s.om.ports.any (fun p => p.2.queue.any (fun f => f.delayed && decide (f.owner = owner)))

/-- TR_STATUS as it reads (R110). -/
def trStatus (s : State) (d j : Nat) : W64 :=
  let ts := s.trains.filter (fun t => decide (t.die = d) && decide (t.engine = j))
  let late (t : Train) : Bool := delayWaits s (trainOwner d j t.issue)
  let remote (t : Train) : Bool := t.asked && decide (t.data.length < fld t.desc 128 32 * fld t.desc 160 32)
  match ts with
  | [] => 0
  | t :: _ => BitVec.ofNat 64 (b2n (ts.any (fun t => t.heldAt.isNone && !t.dead)) + 2 * b2n (ts.any (fun t => t.heldAt.isSome))
      + 4 * b2n (ts.any late) + 8 * b2n (ts.any remote) + 2 ^ 4 * min 63 ts.length + 2 ^ 16 * t.issue + 2 ^ 40 * t.index)

/-- The home A-die of an address (R311). -/
def homeOf (s : State) (pa : Nat) : Nat :=
  if s.img.package then natField pa 15 3 else natField pa 38 3

/-- The die block of an address (R311). -/
def blockOf (s : State) (pa : Nat) : Nat :=
  if s.img.package then natField pa 18 23 * 128 + natField pa 8 7 else natField pa 8 30

/-- Track index u of a die block (R284). -/
def trackOf (b : Nat) : Nat := Nat.xor (Nat.xor (b % 128) (b / 128 % 128)) (b / 128 / 128 % 128)

/-- Row of a die block (R284). -/
def rowOf (b : Nat) : Nat := b / 128

/-- BK_STATUS as it reads (R306): POISONED counts the marked blocks of the stack. -/
def bkStatus (s : State) (n : Nat) : W64 :=
  putFld (rd s (bkS n 0)) 18 13 (s.poisoned.filter (fun p => p.2 && decide (homeOf s (p.1 * 256) = n / 4)
    && decide (trackOf (blockOf s (p.1 * 256)) / 32 = n % 4))).length

/-- UP_STATUS as it reads (R279): the clusters of the open windows, and the phase and iteration of the first of them by the nominal
times of R275 and R277 (entry 125). -/
def upStatus (s : State) (d : Nat) : W64 :=
  let us := s.upds.filter (fun u => decide (u.die = d) && u.opened && !u.ended)
  match us with
  | [] => 0
  | u :: _ =>
    let n := (dieNow s d - u.openedAt) * s.job.tempo / 10
    let m (i : Nat) : Nat := u.marks.getD i 0
    let phase := if n < m 0 then 1 else if n < m 3 then 2 else 3
    let iter := if phase = 2 then (n - m 1) / max 1 (m 2) else 0
    let mask := us.foldl (fun a v => a ||| BitVec.ofNat 8 (fld v.order 38 8)) (0 : Byte)
    BitVec.ofNat 64 (1 + 2 * phase + 2 ^ 3 * mask.toNat + 2 ^ 11 * (iter % 8))

/-- What a register of A-die `d` reads where it is a view of the engines' or the signals' state. -/
def readView (s : State) (d o : Nat) : Option W64 :=
  if o = 0x1000000 then some (maStatus s d)
  else if 0x2000000 ≤ o ∧ o < 0x2800000 ∧ o % 0x100000 = 0 then some (vcStatus s d ((o - 0x2000000) / 0x100000))
  else if 0x3000000 ≤ o ∧ o < 0x3400000 ∧ o % 0x100000 = 0 then some (trStatus s d ((o - 0x3000000) / 0x100000))
  else if 0x6000000 ≤ o ∧ o < 0x7000000 ∧ o % 0x400000 = 0 then some (bkStatus s (4 * d + (o - 0x6000000) / 0x400000))
  else if o = 0xB000000 then some (upStatus s d)
  else if o = 0x4000000 then
    some (BitVec.ofNat 64 (b2n (s.ttx.poss.any (fun p => bitOf p.flushing d))
      + 2 * (s.possMap.filter (fun p => p.2 && decide (p.1 / 2 ^ 20 = d))).length))
  else if 0xC000000 ≤ o ∧ o < 0xC004000 then some (Store.get (fun _ => 0) s.signals (d * 2048 + (o - 0xC000000) / 8))
  else none

/-- What a register reads: the stored value, or the view of state kept elsewhere (the package registers of R543
read the same in every block; X1's N-port, depot and Guard blocks read X0's, R416, R477, R502). -/
def readReg (s : State) (k : Nat) : W64 :=
  if k = bar0 0 then hpVersion s
  else if k = bar0 8 then BitVec.setWidth 64 s.guard.gpid
  else if k = bar0 0x10 then hpState s
  else if k = bar0 0x20 then hpCmdStatus s
  else if k = hp 0x100 then jobStatus s
  else if k = hp 0x200 ∧ s.dev.state = .starting ∧ rdF s (hp 0x200) 4 4 = 0 then
    putFld (rd s (hp 0x200)) 32 32 ((now s - rd s (hp 0x208) : W64).toNat / 1000000)
  else if k = hp 0x120 then BitVec.ofNat 64 (choices s)
  else
    let d := k / 2 ^ 30
    let o := k % 2 ^ 30
    if d < 8 ∧ (readView s d o).isSome then (readView s d o).getD 0
    else if 0 < d ∧ d < 12 ∧ 0x9001000 ≤ o ∧ o < 0x9001020 then rd s (pw 0 (o - 0x9000000))
    else if 0 < d ∧ d < 8 ∧ 0x7200000 ≤ o ∧ o < 0x7200800 then rd s (key 0 o)
    else if d = 13 ∧ 0x1000000 ≤ o ∧ o < 0x4000000 then rd s (key 12 o)
    else rd s k

/-! ### Notices (R441 to R445) -/

/-- SOURCE of a notice: die and event register (R442); die 15 for the package. -/
def sourceOf (die evOff : Nat) : W32 := BitVec.ofNat 32 (die % 16 + 16 * (evOff / 8))

/-- Entries of the queue that notices other than COMPLETION take or displace: 448 entries are theirs, and
COMPLETIONs beyond their 64 reserved entries take from these (R445). -/
def queueUsed (q : List Notice) : Nat :=
  let c := (q.filter (fun n => n.typ = 1)).length
  (q.length - c) + (c - 64)

/-- A queued notice other than COMPLETION finds a free entry. -/
def queueRoom (s : State) : Bool := queueUsed s.port.noticeQ < 448

/-- Put a notice with the next NSEQ at the end of the queue. -/
def pushNotice (s : State) (typ status : Nat) (src : W32) (code : Nat) (d0 d1 d2 d3 : W64) : State :=
  let n : Notice := { nseq := s.port.nseq, typ := typ, status := status, mtc := now s, source := src,
                      code := code, d0 := d0, d1 := d1, d2 := d2, d3 := d3 }
  { s with port := { s.port with nseq := s.port.nseq + 1, noticeQ := s.port.noticeQ ++ [n] } }

/-- HP_EVENT bit `i` is set. -/
def hpEvent (s : State) (i : Nat) : State := wrB s (bar0 0x78) i true

/-- Queue NOTICE_OVERFLOW when notices were dropped and room has returned (R445, R422). -/
def overflowNotice (s : State) : State :=
  if s.port.dropped = 0 || !queueRoom s then s
  else
    let t := pushNotice s 0xD 0 (sourceOf 15 0) 0
      (BitVec.ofNat 64 (s.port.dropped % 2 ^ 32 + 2 ^ 32 * s.port.firstDropped.toNat)) 0 0 0
    hpEvent { t with port := { t.port with dropped := 0 } } 4

/-- Post a notice other than COMPLETION: queued, or dropped and counted when no entry is free (R445). -/
def post (s : State) (typ status : Nat) (src : W32) (code : Nat) (d0 d1 d2 d3 : W64) : State :=
  let s := overflowNotice s
  if s.port.dropped = 0 && queueRoom s then pushNotice s typ status src code d0 d1 d2 d3
  else
    let p := s.port
    let s := { s with port := { p with nseq := p.nseq + 1, dropped := p.dropped + 1
                                       firstDropped := if p.dropped = 0 then p.nseq else p.firstDropped } }
    hpEvent (inc s (bar0 0x70)) 4

/-- Set bit `i` of the event register at `off` of die `d` and post its BLOCK_EVENT with the four registers
that R444 names. -/
def raise (s : State) (d off i : Nat) (w0 w1 w2 w3 : State → W64) : State :=
  let s := wrB s (key d off) i true
  post s 8 0 (sourceOf d off) i (w0 s) (w1 s) (w2 s) (w3 s)

/-- A register as a notice word. -/
def reg (k : Nat) (s : State) : W64 := readReg s k

/-! ### The MTC's events (R62, R444) -/

/-- Set an MTC_EVENT bit and post its notice: MTC_STATE for STATE_CHANGED (0) and TREF_LOST (3). -/
def mtcEvent (s : State) (i : Nat) : State :=
  if i = 0 || i = 3 then
    let s := wrB s (mtc 0x68) i true
    post s 6 0 (sourceOf 12 0x4000068) 0 (rd s (mtc 8)) (rd s (mtc 0x68)) (rd s (mtc 0x20)) (rd s (mtc 0x58))
  else raise s 12 0x4000068 i (reg (mtc 8)) (reg (mtc 0x20)) (reg (mtc 0x50)) (reg (mtc 0))

/-- Move the MTC to state `st` with the actions of R48 to R50; nothing when it is there already. -/
def mtcMove (s : State) (st : Nat) : State :=
  if mtcState s = st then s
  else
    let s := wrF s (mtc 8) 0 2 st
    let s := { s with mtcx := { s.mtcx with good := 0, bad := 0, goodSince := none, badSince := none
                                            missing := 0, holdSince := now s } }
    let s :=
      if st = 0 then
        let s := wr (wr s (mtc 0x58) 0) (mtc 0x18) 0
        let s := wr (wrF (wrB (wrB s (mtc 8) 6 false) (mtc 8) 7 false) (mtc 8) 16 16 0xFFFF) (mtc 0x60) 0
        { s with mtcx := { s.mtcx with discFrac := 0, rateFrac := 0, stepDue := none, pendingSec := none } }
      else if st = 1 then wr s (mtc 0x60) 0
      else s
    mtcEvent s 0

/-! ### Keys, job and device (R495, R506, R559) -/

/-- GD_EVENT bit `i` with its notice (R503). -/
def gdEvent (s : State) (i : Nat) : State :=
  raise s 12 0x3000008 i (reg (gd 0)) (reg (gd 0x10)) (reg (gd 0x40)) (reg (gd 0x48))

/-- Bytes of unified memory from `base` over `n` granules read as never written (R295, R496). -/
def forgetGranules (s : State) (base n : Nat) : State :=
  { s with mem := Store.eraseRange s.mem base (base + n * 0x200000) }

/-- The key that encrypts the granule of an address (R295). -/
def keyOf (s : State) (pa : Nat) : BitVec 512 :=
  if rdB s (gd 0) 4 && s.job.ranges.any (fun r => decide (r.1 ≤ pa) && decide (pa < r.1 + r.2 * 0x200000)) then s.job.memKey
  else s.guard.memKey.getD 0

/-- Destroy the job memory, link, sealing and checkpoint keys (R495): every copy becomes zero, and the job's
granules read as data unrelated to the job (R496). The depot engine forgets the page keys whose PAGE_OUT
read a granule of the job. -/
def destroyKeys (s : State) : State :=
  if rdB s (gd 0) 4 then
    let rs := s.job.ranges
    let hit (pa len : Nat) : Bool := rs.any (fun r => decide (r.1 < pa + len) && decide (pa < r.1 + r.2 * 0x200000))
    let s := rs.foldl (fun s r => forgetGranules s r.1 r.2) s
    let s := { s with job := { s.job with linkKey := 0, sealKey := 0, ckKey := 0, memKey := 0 }
                      depot := { s.depot with pages := s.depot.pages.filter (fun p => !hit p.2.1 p.2.2.length) } }
    gdEvent (wr (wrB s (gd 0) 4 false) (gd 0x48) (now s)) 2
  else s

/-- Move the job to `st`: JOB_STATE notice with its status and HP_JOB_EVENT.STATE_CHANGED (R506, R526). -/
def setJob (s : State) (st : JobState) (status : Nat) : State :=
  if s.job.state = st then s
  else
    let old := jobCode s.job.state
    let s := { s with job := { s.job with state := st } }
    let s := wrB s (hp 0x130) 0 true
    post s 4 status (sourceOf 12 0x130) 0
      (BitVec.ofNat 64 (old + 2 ^ 8 * jobCode st + 2 ^ 16 * s.job.tag.toNat)) 0 0 0

/-- Move the device to `st`: DEVICE_STATE notice (R443, R559). -/
def setDevice (s : State) (st : DeviceState) (status : Nat) : State :=
  if s.dev.state = st then s
  else
    let old := deviceCode s.dev.state
    let s := { s with dev := { s.dev with state := st } }
    post s 3 status (sourceOf 15 0) 0 (BitVec.ofNat 64 (old + 2 ^ 8 * deviceCode st)) 0 0 0

/-- The reasons of R572 and R577 that hold, in ascending value. -/
def alertReasons (s : State) : List Nat :=
  (if s.dev.state = .failed then [1] else [])
    ++ (if (upTo 12).any (fun d => rdB s (pw d 0) 14) then [2] else [])
    ++ (if s.dev.thermTrip then [3] else [])
    ++ (if s.job.state = .failed then [4] else [])
    ++ (if rdF s (dp 0) 0 2 = 2 then [5] else [])

/-- ALERT_N is low (R572). -/
def alertLow (s : State) : Bool := (alertReasons s).any (fun r => decide (r ≠ 3))

/-- Raise one in-band interrupt per new reason, in ascending value, when the controller enabled them (R577). -/
def refreshAlerts (s : State) : State :=
  let cur := alertReasons s
  let fresh := cur.filter (fun r => !s.mgmt.active.contains r)
  let m := { s.mgmt with active := cur }
  { s with mgmt :=
      if m.ibiOn then { m with raised := m.raised ++ fresh, lastReason := (fresh.getLast?).getD m.lastReason }
      else m }

/-- A change of the unit map (R26) joins the start-up history as a record with the next sequence number (R556). -/
def unitChanged (s : State) : State := { s with hist := { s.hist with unitSeq := s.hist.unitSeq + 1 } }

/-! ### Status codes (R447) -/

/-- ST_BAD_OPCODE and the other codes of R447. -/
def stBadOpcode : Nat := 0x101
def stBadField : Nat := 0x102
def stBadLength : Nat := 0x103
def stBadSeq : Nat := 0x104
def stRange : Nat := 0x201
def stAlign : Nat := 0x202
def stState : Nat := 0x301
def stBusy : Nat := 0x302
def stConflict : Nat := 0x303
def stExhausted : Nat := 0x401
def stDenied : Nat := 0x501
def stSignature : Nat := 0x502
def stFault : Nat := 0x601
def stWithdrawn : Nat := 0x602

/-! ### Host commands in flight -/

/-- Change the accepted command with sequence `q`. -/
def updCmd (s : State) (q : W32) (f : Cmd → Cmd) : State :=
  { s with port := { s.port with cmds := s.port.cmds.map (fun c => if c.seq = q then f c else c) } }

/-- The accepted command with sequence `q` has its effect complete, with this outcome (R448). -/
def doneCmd (s : State) (q : W32) (status detail : Nat) (value : W64) (result : List Byte) : State :=
  updCmd s q (fun c => { c with phase := .done, status := status, detail := detail, value := value
                                result := result })

/-- Done with a status and nothing else. -/
def failCmd (s : State) (q : W32) (status : Nat) : State := doneCmd s q status 0 0 []

/-- The ARM_JOB and the TEARDOWN in progress complete with a status (R506, R516). -/
def endJobCmds (s : State) (status : Nat) : State :=
  let s := match s.job.armSeq with
    | some q => failCmd s q status
    | none => s
  let s := match s.job.tdSeq with
    | some q => failCmd s q status
    | none => s
  { s with job := { s.job with armSeq := none, tdSeq := none } }

/-- Every die that has an image loaded shows FAILED in TT_STATUS (R106). -/
def ttFailed (s : State) : State :=
  (upTo 8).foldl (fun s d => if rdF s (tt d 0) 0 4 = 0 then s else wrF s (tt d 0) 0 4 7) s

/-- A fault fails the job on the package (R506, R517): every engine stops issuing, and the keys stay. -/
def failJob (s : State) (status : Nat) : State :=
  if jobLive s then refreshAlerts (ttFailed (setJob s .failed status)) else s

/-- The Guard opens the test gates (R500): platform SRAM, stream caches, junction caches, vector registers and planes are
zero, and the memory runtime key has left the Bamkan controllers, so memory reads as data unrelated to what it held. -/
def openGates (s : State) : State :=
  let s := { s with mem := [], scEntries := [], scStreams := [], jlines := [], dir := [], deferred := [], vregs := [], cells := []
                    guard := { s.guard with memKey := none }, dev := { s.dev with testOpen := true } }
  let s := (upTo 8).foldl (fun s d =>
    let s := (upTo 4).foldl (fun s q => wr s (ma d (0x18 + 8 * q)) 0) (wr (wrF s (ma d 0) 2 8 0) (jn d 8) 0)
    (upTo 8).foldl (fun s c => wrF (wrF s (vc d c 0x38) 1 12 0) (vc d c 0x38) 16 16 0) s) s
  gdEvent (wrB s (gd 0) 5 true) 4

/-- The device enters FAILED (R559): the MTC goes to FREE (R48), the job to FAILED (R506), and the Guard
destroys the job keys (R495) and opens the test gates (R500). -/
def failDevice (s : State) : State :=
  let s := ttFailed (setJob s .failed stFault)
  let s := endJobCmds s stFault
  let s := setDevice s .failed stFault
  let s := destroyKeys (mtcMove s 0)
  refreshAlerts (if s.guard.aliveX0 || s.guard.aliveX1 then openGates s else s)

end Sys2Proof.Machine
end

