-- ==== Sys2Proof/Machine/Aplic.lean ====
section
/-! DEFINITION. The APLIC on P0 (R344), and the write of W1C registers, whose clearing lets its sources fall. The layout and the
rules of an APLIC domain are the Advanced Interrupt Architecture's, to which R343 and R344 refer (entry 8). -/

namespace Sys2Proof.Machine

/-- Domain 0 is the M-level domain, 1 the S-level domain. -/
def apBase (m : Nat) : Nat := ic 8 (0x800000 + 0x40000 * m)

/-- A 32-bit register of a domain. -/
def apReg (s : State) (m off : Nat) : Nat := (rd s (apBase m + off)).toNat

/-- Bit `i` of an array of 32-bit words. -/
def apBit (s : State) (m off i : Nat) : Bool := rdB s (apBase m + off + 4 * (i / 32)) (i % 32)

/-- Set bit `i` of an array of 32-bit words. -/
def apPut (s : State) (m off i : Nat) (b : Bool) : State := wrB s (apBase m + off + 4 * (i / 32)) (i % 32) b

/-- The domain a source is delegated to (sourcecfg.D). -/
def apDomain (s : State) (i : Nat) : Nat := b2n (Nat.testBit (apReg s 0 (4 * i)) 10)

/-- Source mode: 0 inactive, 1 detached, 4 and 5 edges, 6 and 7 levels. -/
def apMode (s : State) (i : Nat) : Nat := apReg s (apDomain s i) (4 * i) % 8

/-- Event registers that assert source `i` (R344). -/
def apEvents (i : Nat) : List Nat :=
  let d := (i - 1) / 64
  let b := (i - 1) % 64
  if d < 8 then
    if 16 ≤ b ∧ b < 24 then [vc d (b - 16) 0x68, sm d (b - 16) 0x50]
    else if 24 ≤ b ∧ b < 28 then [bk d (b - 24) 8]
    else if 28 ≤ b ∧ b < 30 then [om d (b - 28) 0x68]
    else if 30 ≤ b ∧ b < 34 then [tr d (b - 30) 0x30]
    else match b with
      | 0 => [tt d 0x48]
      | 1 => [ma d 0x60]
      | 5 => [tu d 0x60]
      | 8 => [ce d 0x28]
      | 9 => [pw d 8]
      | 10 => [cw d 8]
      | 11 => [up d 0x38]
      | _ => []
  else if d < 12 then (if b = 9 then [pw d 8] else if b = 10 then [cw d 8] else [])
  else if d = 12 then [[hp 0x130], [np 0x40], [dp 8], [gd 8], [mtc 0x68]].getD b []
  else []

/-- The rectified input of a source. -/
def apHigh (s : State) (i : Nat) : Bool :=
  let l := (apEvents i).any (fun k => decide (rd s k ≠ 0))
  let m := apMode s i
  if m = 4 ∨ m = 6 then l else if m = 5 ∨ m = 7 then !l else false

/-- Sources that a domain has configured. -/
def apSources (s : State) : List Nat :=
  ((Store.keysIn s.regs (apBase 0 + 4) (apBase 0 + 4096)).map (fun k => (k - apBase 0) / 4)
    ++ (Store.keysIn s.regs (apBase 1 + 4) (apBase 1 + 4096)).map (fun k => (k - apBase 1) / 4)).dedup.filter (fun i =>
      decide (apMode s i ≠ 0))

/-- Pending bits follow the inputs: a rise makes a source pending, a fall ends the pendency of a level. -/
def aplicSync (s : State) : State :=
  (apSources s).foldl (fun s i =>
    let h := apHigh s i
    if h = Store.get (fun _ => false) s.aplicIn i then s
    else
      let s := { s with aplicIn := Store.set (fun _ => false) s.aplicIn i h }
      if h then apPut s (apDomain s i) 0x1C00 i true
      else if 6 ≤ apMode s i then apPut s (apDomain s i) 0x1C00 i false
      else s) s

/-- The file that a hart index and guest index of a domain name. -/
def apAddress (s : State) (m hart guest : Nat) : Nat :=
  let c := apReg s 0 0x1BC4
  let lw := natField c 12 4
  let g := hart / 2 ^ lw % 2 ^ natField c 16 3
  let h := hart % 2 ^ lw
  let grp := g * 2 ^ (natField c 24 5 + 12)
  if m = 0 then (Nat.lor (Nat.lor (apReg s 0 0x1BC0 + 2 ^ 32 * natField c 0 12) grp) (h * 2 ^ natField c 20 3)) * 4096
  else
    let e := apReg s 0 0x1BCC
    Nat.lor (Nat.lor (apReg s 0 0x1BC8 + 2 ^ 32 * natField e 0 12) grp) (Nat.lor (h * 2 ^ natField e 20 3) guest) * 4096

/-- Send the MSI that a target word names. -/
def apSend (s : State) (m w : Nat) : State :=
  let a : W64 := BitVec.ofNat 64 (apAddress s m (natField w 18 14) (if m = 1 then natField w 12 6 else 0))
  { s with msis := s.msis ++ [(8, a, BitVec.ofNat 32 (natField w 0 11))] }

/-- The lowest pending and enabled source of a domain with IE is forwarded, and is no longer pending. -/
def aplicForward (s : State) : State :=
  if s.msis.any (fun x => decide (x.1 = 8)) then s
  else
    let next (m : Nat) : Option (Nat × Nat) :=
      if rdB s (apBase m) 8 then ((apSources s).mergeSort (fun a b => decide (a ≤ b))).findSome? (fun i =>
        if decide (apDomain s i = m) && apBit s m 0x1C00 i && apBit s m 0x1E00 i then some (m, i) else none)
      else none
    match (next 0).or (next 1) with
    | some (m, i) => apSend (apPut s m 0x1C00 i false) m (apReg s m (0x3000 + 4 * i))
    | none => s

/-- Make source `i` of domain `m` pending by a write: a level only while its input is high. -/
def apSetPending (s : State) (m i : Nat) : State :=
  if i = 0 ∨ 1024 ≤ i ∨ apDomain s i ≠ m ∨ apMode s i = 0 then s
  else if 6 ≤ apMode s i ∧ !apHigh s i then s
  else apPut s m 0x1C00 i true

/-- Act on a source that a domain owns. -/
def apSource (s : State) (m off i : Nat) (b : Bool) : State :=
  if i = 0 ∨ 1024 ≤ i ∨ apDomain s i ≠ m ∨ apMode s i = 0 then s else apPut s m off i b

/-- Bits of a 32-bit word that are set. -/
def bits32 (w : Nat) : List Nat := (upTo 32).filter (Nat.testBit w)

/-- The other byte order. -/
def swap32 (w : Nat) : Nat := leNat (leBytes 4 w).reverse

/-- sourcecfg of a source. -/
def apSourceCfg (s : State) (m i w : Nat) : State :=
  let sm := if [1, 4, 5, 6, 7].contains (w % 8) then w % 8 else 0
  let quiet (s : State) : State :=
    let s := apPut (apPut (apPut (apPut s 0 0x1C00 i false) 0 0x1E00 i false) 1 0x1C00 i false) 1 0x1E00 i false
    { s with aplicIn := Store.set (fun _ => false) s.aplicIn i false }
  if m = 0 then
    if Nat.testBit w 10 then
      if apDomain s i = 1 then s else wr (quiet s) (apBase 0 + 4 * i) 0x400
    else
      let s := if sm = 0 ∨ apDomain s i = 1 then wr (quiet s) (apBase 1 + 4 * i) 0 else s
      wr s (apBase 0 + 4 * i) (BitVec.ofNat 64 sm)
  else if apDomain s i = 1 then wr (if sm = 0 then quiet s else s) (apBase 1 + 4 * i) (BitVec.ofNat 64 sm)
  else s

/-- A 32-bit write at offset `o` of a domain. -/
def aplicWrite (s : State) (m o w : Nat) : State :=
  let s := aplicSync s
  let k := o % 256 / 4
  let at_ := apBase m + o
  let locked := rdB s (apBase 0 + 0x1BC4) 31
  aplicSync
    (if o = 0 then wrB s at_ 8 (Nat.testBit w 8)
    else if o < 0x1000 then apSourceCfg s m (o / 4) w
    else if 0x1BC0 ≤ o ∧ o ≤ 0x1BCC then
      if m = 1 ∨ locked then s
      else if o = 0x1BC4 then wr s at_ (BitVec.ofNat 64 w &&& 0x9F77FFFF)
      else if o = 0x1BCC then wr s at_ (BitVec.ofNat 64 w &&& 0x700FFF)
      else wr s at_ (BitVec.ofNat 64 w)
    else if 0x1C00 ≤ o ∧ o < 0x1C80 then (bits32 w).foldl (fun s i => apSetPending s m (32 * k + i)) s
    else if o = 0x1CDC ∨ o = 0x2000 then apSetPending s m w
    else if o = 0x2004 then apSetPending s m (swap32 w)
    else if 0x1D00 ≤ o ∧ o < 0x1D80 then (bits32 w).foldl (fun s i => apSource s m 0x1C00 (32 * k + i) false) s
    else if o = 0x1DDC then apSource s m 0x1C00 w false
    else if 0x1E00 ≤ o ∧ o < 0x1E80 then (bits32 w).foldl (fun s i => apSource s m 0x1E00 (32 * k + i) true) s
    else if o = 0x1EDC then apSource s m 0x1E00 w true
    else if 0x1F00 ≤ o ∧ o < 0x1F80 then (bits32 w).foldl (fun s i => apSource s m 0x1E00 (32 * k + i) false) s
    else if o = 0x1FDC then apSource s m 0x1E00 w false
    else if o = 0x3000 then apSend s m w
    else if 0x3000 < o ∧ o < 0x4000 then
      let i := (o - 0x3000) / 4
      if apDomain s i = m ∧ apMode s i ≠ 0 then wr s at_ (BitVec.ofNat 64 w &&& (if m = 0 then 0xFFFC07FF else 0xFFFFF7FF)) else s
    else s)

/-- The write of a W1C register (R13). -/
def w1c (s : State) (k : Nat) (v same : W64) : State := aplicSync (upd (aplicSync s) k (fun w => w &&& ~~~(v &&& ~~~same)))

end Sys2Proof.Machine
end

