-- ==== Sys2Proof/Machine/Crc.lean ====
section
/-! DEFINITION. The two checks the spec computes over byte strings: CRC-32C (R41, R423) and SHA-256
(FIPS 180-4, R10). -/

namespace Sys2Proof.Machine

/-- One bit of the reflected CRC-32C division (polynomial 0x1EDC6F41, reflected 0x82F63B78). -/
def crcBit (c : W32) : W32 := if c.getLsbD 0 then (c >>> 1) ^^^ 0x82F63B78#32 else c >>> 1

/-- One byte of it. -/
def crcByte (c : W32) (b : Byte) : W32 :=
  crcBit (crcBit (crcBit (crcBit (crcBit (crcBit (crcBit (crcBit (c ^^^ BitVec.setWidth 32 b))))))))

/-- CRC-32C of a byte string. -/
def crc32c (l : List Byte) : W32 := ~~~(l.foldl crcByte 0xFFFFFFFF#32)

/-! ### SHA-256 -/

/-- The primes that FIPS 180-4 takes its constants from: the first 64. -/
def shaPrimes : List Nat :=
  [2, 3, 5, 7, 11, 13, 17, 19] ++ [23, 29, 31, 37, 41, 43, 47, 53] ++ [59, 61, 67, 71, 73, 79, 83, 89]
  ++ [97, 101, 103, 107, 109, 113, 127, 131] ++ [137, 139, 149, 151, 157, 163, 167, 173]
  ++ [179, 181, 191, 193, 197, 199, 211, 223] ++ [227, 229, 233, 239, 241, 251, 257, 263]
  ++ [269, 271, 277, 281, 283, 293, 307, 311]

/-- The largest `r` below `a + 2 ^ bits` whose power `k` is at most `n`, from a start `a` that is one. -/
def rootUp (k n : Nat) : Nat → Nat → Nat
  | 0, a => a
  | b + 1, a => rootUp k n b (if (a + 2 ^ b) ^ k ≤ n then a + 2 ^ b else a)

/-- The first 32 bits of the fraction of the `k`-th root of a prime. -/
def rootFraction (k p : Nat) : W32 := BitVec.ofNat 32 (rootUp k (p * 2 ^ (32 * k)) 37 0)

/-- The hash as it stands, and the words that the next rounds take from the message schedule. -/
structure ShaHash where
  a : W32
  b : W32
  c : W32
  d : W32
  e : W32
  f : W32
  g : W32
  h : W32

/-- The eight words in order. -/
def ShaHash.words (x : ShaHash) : List W32 := [x.a, x.b, x.c, x.d, x.e, x.f, x.g, x.h]

/-- A hash from its words. -/
def ShaHash.ofWords (l : List W32) : ShaHash :=
  let w (i : Nat) : W32 := l.getD i 0
  { a := w 0, b := w 1, c := w 2, d := w 3, e := w 4, f := w 5, g := w 6, h := w 7 }

/-- The initial hash: from the square roots of the first eight primes. -/
def shaStart : ShaHash := .ofWords ((shaPrimes.take 8).map (rootFraction 2))

/-- The exclusive or of a word rotated right by each amount of a list. -/
def rotations (x : W32) (l : List Nat) : W32 := l.foldl (fun y n => y ^^^ x.rotateRight n) 0

/-- One round, with the sum `kw` of its constant and its schedule word. -/
def ShaHash.turn (x : ShaHash) (kw : W32) : ShaHash :=
  let choice := x.g ^^^ (x.e &&& (x.f ^^^ x.g))
  let most := (x.a &&& (x.b ||| x.c)) ||| (x.b &&& x.c)
  let fresh := kw + x.h + choice + rotations x.e [6, 11, 25]
  { a := fresh + most + rotations x.a [2, 13, 22], b := x.a, c := x.b, d := x.c, e := x.d + fresh, f := x.e, g := x.f, h := x.g }

/-- The word that follows a window of 16 schedule words. -/
def shaNext (win : List W32) : W32 :=
  let old := win.getD 1 0
  let new := win.getD 14 0
  win.getD 0 0 + win.getD 9 0 + (rotations old [7, 18] ^^^ old >>> 3) + (rotations new [17, 19] ^^^ new >>> 10)

/-- Every round of a block: a round takes the first word of the window, which then moves on by one. -/
def shaRounds (x : ShaHash) (win : List W32) : List W32 → ShaHash
  | [] => x
  | k :: ks => shaRounds (x.turn (k + win.getD 0 0)) (win.drop 1 ++ [shaNext win]) ks

/-- A big-endian number of a byte string. -/
def beNat (l : List Byte) : Nat := leNat l.reverse

/-- Compress one 64-byte block into the hash. -/
def shaCompress (x : ShaHash) (block : List Byte) : ShaHash :=
  let win := (upTo 16).map (fun i => BitVec.ofNat 32 (beNat (slice block (4 * i) 4)))
  let y := shaRounds x win (shaPrimes.map (rootFraction 3))
  .ofWords (List.zipWith (fun p q => p + q) x.words y.words)

/-- The bytes that end a message of `n` bytes: a one bit, zeros up to 56 modulo 64, the length in bits. -/
def shaTail (n : Nat) : List Byte := 0x80 :: (List.replicate ((64 - (n + 9) % 64) % 64) 0 ++ (leBytes 8 (8 * n)).reverse)

/-- SHA-256 of a byte string: 32 bytes in the order of FIPS 180-4. -/
def sha256 (l : List Byte) : List Byte :=
  let whole := l ++ shaTail l.length
  let x := (upTo (whole.length / 64)).foldl (fun x i => shaCompress x (slice whole (64 * i) 64)) shaStart
  (x.words.map (fun w => (leBytes 4 w.toNat).reverse)).flatten

/-- An ASCII label by its codes (R485). -/
def label (l : List Nat) : List Byte := l.map (BitVec.ofNat 8)

end Sys2Proof.Machine
end

