-- ==== Sys2Proof/Machine/Mtc.lean ====
section
/-! DEFINITION. Machine time (chapter "Machine time, beats and tempo"): the count and its states, the wired
reference, the in-band reference, TREF, and the MTC registers. A command's time operand `t` is the count at
which its event happens; the count moves up to it first (entry 4). -/

namespace Sys2Proof.Machine

/-- Beats of a second. -/
def sec : Nat := 1000000000

/-- Let the count reach `t` (never back, R35, and only on VAUX, R36): seconds of discipline (R49), HOLD_ELIGIBLE and TTOD_OK
follow. -/
def advance (s : State) (t : W64) : State :=
  if t.toNat ≤ (now s).toNat ∨ s.dev.vaux = false then s
  else
    let dt := t.toNat - (now s).toNat
    let s := wr s (mtc 0) t
    let s :=
      if mtcState s = 2 then
        let fr := s.mtcx.discFrac + dt
        let s := incBy { s with mtcx := { s.mtcx with discFrac := fr % sec } } (mtc 0x58) (fr / sec)
        wrB s (mtc 8) 6 (decide (600 ≤ (rd s (mtc 0x58)).toNat))
      else s
    match s.mtcx.lastTod with
    | some a => if 2 * sec < t.toNat - a.toNat then wrB s (mtc 8) 4 false else s
    | none => s

/-- One MTC-domain cycle without a command (entry 5): one beat, and the rate correction in force (R50, R57). -/
def mtcTick (s : State) : State :=
  if s.dev.vaux then
    let f := s.mtcx.rateFrac + toSignedInt (rd s (mtc 0x18))
    let s' := { s with mtcx := { s.mtcx with rateFrac := f % (2 ^ 40 : Int) } }
    advance s' (BitVec.ofInt 64 ((now s).toNat + 1 + f / (2 ^ 40 : Int)))
  else s
where
  /-- A register as a signed number. -/
  toSignedInt (w : W64) : Int := w.toInt

/-- MTC_CTRL.SOURCE. -/
def mtcSource (s : State) : Nat := rdF s (mtc 0x10) 0 2

/-- The source is lost (R43, R46, R48). -/
def sourceLost (s : State) : State :=
  let st := mtcState s
  if st = 1 then mtcMove s 0
  else if st = 2 then (if rdB s (mtc 0x10) 6 && rdB s (mtc 8) 6 then mtcMove s 3 else mtcMove s 0)
  else s

/-- Move the counts that the parts beside the MTC block keep by `f`. -/
def shiftParts (s : State) (f : W64 → W64) : State :=
  let n (x : Nat) : Nat := (f (BitVec.ofNat 64 x)).toNat
  { s with
    port := { s.port with deniedAt := s.port.deniedAt.map f, msixAt := s.port.msixAt.map f }
    job := { s.job with armedAt := f s.job.armedAt, tdAt := f s.job.tdAt, announcedAt := f s.job.announcedAt
                        quarantine := s.job.quarantine.map (fun q => (q.1, f q.2)) }
    dev := { s.dev with wakeAt := s.dev.wakeAt.map f, steps := s.dev.steps.map f
                        drainAt := s.dev.drainAt.map (fun p => (p.1, n p.2)) }
    power := { s.power with dies := s.power.dies.map (fun p => (p.1, { p.2 with thermAt := p.2.thermAt.map f })) }
    depot := { s.depot with reqs := s.depot.reqs.map (fun r => { r with startedAt := f r.startedAt })
                            retiredAt := s.depot.retiredAt.map (fun p => (p.1, p.2.map n))
                            blocks := s.depot.blocks.map (fun p => (p.1, { p.2 with step4At := p.2.step4At.map f })) }
    ueTimes := s.ueTimes.map (fun p => (p.1, p.2.map n)) }

/-- Move every count the model keeps by `d` beats: a step changes the count, not the moments (R52). The dies' copies move with
the master's count (R37). -/
def shiftTimers (s : State) (d : Int) : State :=
  let f (w : W64) : W64 := BitVec.ofInt 64 (w.toNat + d)
  let g (n : Nat) : Nat := (((n : Int) + 256 * d) % (2 ^ 72 : Int)).toNat
  let x := s.mtcx
  let s := shiftParts s f
  { s with mtcx := { x with lastEdge := x.lastEdge.map (· + 256 * d), edgeBase := x.edgeBase.map (· + 256 * d)
                            lastTod := x.lastTod.map f, holdSince := f x.holdSince
                            goodSince := x.goodSince.map f, badSince := x.badSince.map f
                            trefLostAt := x.trefLostAt.map f, ibLast := x.ibLast.map f, ibMeasured := x.ibMeasured.map f
                            ibT1 := x.ibT1.map g, ibPrev := x.ibPrev.map (fun e => (g e.1, e.2.1, g e.2.2)) }
           cw := { s.cw with fly := s.cw.fly.map (fun m => (m.1, m.2.1, g m.2.2.1, g m.2.2.2))
                             copies := (upTo 14).foldl (fun c i =>
                               let v := Store.get (fun _ => (0, 0)) s.cw.copies i
                               if v = (0, 0) then c else Store.set (fun _ => (0, 0)) c i (g v.1, g v.2)) [] } }

/-- Step the count by an offset in 1/256 beat (R52). -/
def mtcStep (s : State) (off : Int) : State :=
  let d := off / 256
  let s := shiftTimers s d
  let s := wr s (mtc 0) (BitVec.ofInt 64 ((now s).toNat + d))
  mtcEvent (wrB { s with mtcx := { s.mtcx with stepDue := none } } (mtc 8) 7 false) 2

/-- What is left of an offset that was measured at count `since` and slewed since: free within 100 ppm of the beats that have
passed, and never past zero (R52, entry 16). -/
def slewed (s : State) (off : Int) (since : W64) : Int × State :=
  let (w, s) := drawWord s
  let most := min off.natAbs (256 * ((now s).toNat - since.toNat) / 10000)
  let by_ : Int := (w.toNat % (most + 1) : Nat)
  (if 0 ≤ off then off - by_ else off + by_, s)

/-- Apply the step that STEP_PENDING announces (R53): the count becomes the reference value. An offset that slewing has brought
within 1,000,000 beats is stepped no more (R52). -/
def applyStep (s : State) : State :=
  match s.mtcx.stepDue with
  | some e =>
    let (off, s) := slewed s e.1 e.2
    if 256 * 1000000 < off.natAbs then mtcStep s off
    else wrB { s with mtcx := { s.mtcx with stepDue := none } } (mtc 8) 7 false
  | none => s

/-- MTC_TREF_PPB's measurement of e (R57): 1 - e beats is what the count advances in one MTC cycle, so e is the rate correction
in force with its sign turned; the measurement's own error is free within 1 ppb (R50, entry 16). -/
def trefPpb (rate : Int) (free : Nat) : Int := (2 * (-rate) * 1000000000 + 2 ^ 40) / 2 ^ 41 + (free % 3 : Nat) - 1

/-- TREF is within 50 ppm of its frequency, as far as it is measured (R39). -/
def trefNear (s : State) : Bool := decide ((rd s (mtc 0x60)).toInt.natAbs ≤ 50000)

/-- The learned values a measurement leaves, which the spec bounds and does not fix (entry 16): MTC_RATE within 100 ppm,
MTC_STATUS.ERR_EST, and, while DISCIPLINED or HOLDOVER, MTC_TREF_PPB and with it TREF_OK (R39). -/
def learn (s : State) : State :=
  let (a, s) := drawWord s
  let (b, s) := drawWord s
  let (c, s) := drawWord s
  let rate : Int := (a.toNat % 219902325 : Nat) - 109951162
  let s := wr s (mtc 0x18) (BitVec.ofInt 64 rate)
  let s := wrF s (mtc 8) 16 16 b.toNat
  if mtcState s = 2 || mtcState s = 3 then
    let s := wr s (mtc 0x60) (BitVec.ofInt 64 (trefPpb rate c.toNat))
    wrB s (mtc 8) 2 (s.mtcx.trefLostAt.isNone && trefNear s)
  else s

/-- The runs of R48 start again. -/
def runsReset (s : State) : State :=
  { s with mtcx := { s.mtcx with good := 0, goodSince := none, bad := 0, badSince := none } }

/-- Use one measured offset of the reference from the count, in 1/256 beat (R48, R52, R53). `goodRun` and
`badRun` say whether this measurement completes the run that R48 asks for. -/
def measure (s : State) (off : Int) (goodRun badRun : State → Bool) : State :=
  let s := if mtcState s = 0 || mtcState s = 3 then mtcMove s 1 else s
  let s := learn (wr s (mtc 0x20) (BitVec.ofInt 64 off))
  if mtcState s = 1 then
    if 256 * 1000000 < off.natAbs then
      let s := runsReset s
      if jobLive s then wrB { s with mtcx := { s.mtcx with stepDue := some (off, now s) } } (mtc 8) 7 true
      else mtcStep s off
    else
      let s := wrB { s with mtcx := { s.mtcx with stepDue := none } } (mtc 8) 7 false
      if off.natAbs ≤ 512 then
        let x := s.mtcx
        let s := { s with mtcx := { x with good := x.good + 1
                                           goodSince := some (x.goodSince.getD (now s)) } }
        if goodRun s then mtcMove s 2 else s
      else runsReset s
  else if 64 * 256 < off.natAbs then
    let x := s.mtcx
    let s := { s with mtcx := { x with bad := x.bad + 1, badSince := some (x.badSince.getD (now s)) } }
    if badRun s then mtcMove s 1 else s
  else runsReset s

/-- Count an edge of the second at `base` (1/256 beat) as missing (R43): a second has at most one missing edge, and it is no
second of a run (R48). -/
def missEdge (s : State) (base : Int) : State :=
  let s := wrB (upd s (mtc 0x50) (fun w => satIncFld w 32 16)) (mtc 8) 3 false
  let first := decide (s.mtcx.edgeBase ≠ some base)
  let n := if first then s.mtcx.missing + 1 else s.mtcx.missing
  let s := runsReset { s with mtcx := { s.mtcx with missing := n, edgeBase := some base } }
  if first && decide (2 ≤ n) then sourceLost s else s

/-- TTOD_MESSAGE (R41, R42); without the wired source the message is not looked at (entry 100), and entry 105 says which
messages agree. -/
def ttodMessage (s : State) (t : W64) (msg : BitVec 160) : State :=
  let s := advance s t
  if mtcSource s ≠ 1 then s
  else
    let b := leBytes 20 msg.toNat
    let inWindow := match s.mtcx.lastEdge with
      | some e => decide (e + 256 * 100000000 ≤ 256 * (t.toNat : Int)) && decide (256 * (t.toNat : Int) ≤ e + 256 * 900000000)
      | none => false
    let ok := decide (leAt b 0 3 = 0x015AA5) && decide (leAt b 15 1 = 0)
      && decide (crc32c (b.take 16) = BitVec.ofNat 32 (leAt b 16 4)) && inWindow
    if !ok then upd s (mtc 0x50) (fun w => satIncFld w 0 16)
    else
      let sc : W64 := BitVec.ofNat 64 (leAt b 4 8)
      let s := wr s (mtc 0x40) sc
      let s := wr s (mtc 0x48) (BitVec.ofNat 64 (leAt b 3 1 + 2 ^ 8 * leAt b 12 2 + 2 ^ 24 * leAt b 14 1))
      let s := wrB s (mtc 8) 4 true
      let s := { s with mtcx := { s.mtcx with lastTod := some t, pendingSec := some sc } }
      let diff : Int := (sc.toNat : Int) - (t.toNat / sec + 1 : Nat)
      if diff = 0 then { s with mtcx := { s.mtcx with mismatch := none } }
      else
        let s := upd s (mtc 0x50) (fun w => satIncFld w 16 16)
        if s.mtcx.mismatch = some diff then
          let s := mtcEvent s 1
          if mtcState s = 2 then mtcMove s 1 else s
        else
          let held := mtcState s = 2 || mtcState s = 3
          { s with mtcx := { s.mtcx with mismatch := some diff, pendingSec := if held then none else some sc } }

/-- Distance from the nearest whole second, in 1/256 beat. -/
def secondOffset (x : Int) : Nat :=
  let u : Int := 256 * sec
  let r := x % u
  (min r (u - r)).toNat

/-- The whole second nearest to a time, both in 1/256 beat. -/
def nearestSecond (x : Int) : Int := (x + 128 * sec) / (256 * sec) * (256 * sec)

/-- A TPPS timestamp as it is used (R44). -/
def ppsTime (s : State) (t : W64) : Int := 256 * (t.toNat : Int) - (rdF s (mtc 0x28) 0 24 : Int)

/-- TPPS_EDGE (R43, R44, R48); without the wired source the edge is not looked at (entry 100). -/
def tppsEdge (s : State) (t : W64) : State :=
  let s := advance s t
  if mtcSource s ≠ 1 then s
  else
    let ts := ppsTime s t
    if (mtcState s = 2 || mtcState s = 3) && decide (256 * 100000 < secondOffset ts) then missEdge s (nearestSecond ts)
    else
      let s := wrB (wr s (mtc 0x78) t) (mtc 8) 3 true
      let sc := s.mtcx.pendingSec
      let base := if mtcState s = 2 || mtcState s = 3 then nearestSecond ts else ts
      let s := { s with mtcx := { s.mtcx with missing := 0, pendingSec := none, lastEdge := some ts, edgeBase := some base } }
      match sc with
      | some n => measure s (256 * (sec * n.toNat : Nat) - ts) (fun s => decide (4 ≤ s.mtcx.good))
                    (fun s => decide (2 ≤ s.mtcx.bad))
      | none => runsReset s

/-- The second whose edge is missing at count `t`: its window of 100 us has passed and nothing accepted or counted it (R43). In
DISCIPLINED and HOLDOVER it is a whole second, in ACQUIRING one second after the edge before; in FREE none is expected (entry
104). -/
def edgeMissing (s : State) (t : W64) : Option Int :=
  let w := ppsTime s t - 256 * 100000
  let next : Option Int :=
    if mtcState s = 2 ∨ mtcState s = 3 then
      match s.mtcx.edgeBase with
      | some b => some (nearestSecond b + 256 * sec)
      | none => some (w / (256 * sec) * (256 * sec))
    else if mtcState s = 1 then s.mtcx.edgeBase.map (· + 256 * sec)
    else none
  match next with
  | some n => if n < w then some n else none
  | none => none

/-- An in-band measurement of `off` in 1/256 beat (R45, R48): a gap of more than a second starts the runs again. -/
def ibMeasure (s : State) (off : Int) : State :=
  let run (a : Option W64) (n : Nat) (s : State) : Bool := match a with
    | some g => decide (g.toNat + n * sec ≤ (now s).toNat)
    | none => false
  let gap := match s.mtcx.ibMeasured with
    | some a => decide (a.toNat + sec < (now s).toNat)
    | none => true
  let s := if gap then runsReset s else s
  let s := { s with mtcx := { s.mtcx with ibMeasured := some (now s) } }
  measure s off (fun s => run s.mtcx.goodSince 4 s) (fun s => run s.mtcx.badSince 1 s)

/-- Record a cause of late running on every A-die for the holds that it brings (R92). -/
def noteCause (s : State) (d bit : Nat) : State :=
  let w := putBit (Store.get (fun _ => 0) s.lateFlags d) bit true
  { s with lateFlags := Store.set (fun _ => 0) s.lateFlags d w }

/-! ### The commands of this chapter -/

/-- TREF_LOST (R40). -/
def execTrefLost (t : W64) (s : State) : Host.Outcome State Fault Refusal :=
  let s := advance s t
  .next (if s.dev.vaux && s.mtcx.trefLostAt.isNone then
    mtcEvent (wrB { s with mtcx := { s.mtcx with trefLostAt := some t } } (mtc 8) 2 false) 3 else s)

/-- TREF has been absent for its second (R40). -/
def trefOver (s : State) (t : W64) : Bool := match s.mtcx.trefLostAt with
  | some a => decide (a.toNat + sec ≤ t.toNat)
  | none => false

/-- TREF_RETURN (R40): a return after the second finds the device failed. -/
def execTrefReturn (t : W64) (s : State) : Host.Outcome State Fault Refusal :=
  let s := advance s t
  .next (if s.dev.vaux then
    let s := if trefOver s t && s.dev.state ≠ .failed then failDevice s else s
    let s := if s.mtcx.trefLostAt.isSome && s.dev.state ≠ .failed then (upTo 8).foldl (fun s d => noteCause s d 8) s else s
    wrB { s with mtcx := { s.mtcx with trefLostAt := none } } (mtc 8) 2 (trefNear s) else s)

/-- TREF_HOLD_EXPIRY (R40). -/
def execTrefHoldExpiry (t : W64) (s : State) : Host.Outcome State Fault Refusal :=
  let s := advance s t
  .next (if trefOver s t then failDevice s else s)

/-- TTOD_MESSAGE (R42). -/
def execTtodMessage (t : W64) (msg : BitVec 160) (s : State) : Host.Outcome State Fault Refusal :=
  .next (ttodMessage s t msg)

/-- TTOD_TIMEOUT (R43). -/
def execTtodTimeout (t : W64) (s : State) : Host.Outcome State Fault Refusal :=
  let s := advance s t
  let silent := match s.mtcx.lastTod with
    | some a => decide (a.toNat + 16 * sec ≤ (now s).toNat)
    | none => true
  .next (if mtcSource s = 1 && silent then sourceLost s else s)

/-- TPPS_EDGE (R43). -/
def execTppsEdge (t : W64) (s : State) : Host.Outcome State Fault Refusal := .next (tppsEdge s t)

/-- TPPS_MISSING (R43). -/
def execTppsMissing (t : W64) (s : State) : Host.Outcome State Fault Refusal :=
  let s := advance s t
  .next (match edgeMissing s t with
    | some base => if mtcSource s = 1 then missEdge s base else s
    | none => s)

/-- HOLDOVER_EXPIRY (R48). -/
def execHoldoverExpiry (t : W64) (s : State) : Host.Outcome State Fault Refusal :=
  let s := advance s t
  .next (if mtcState s = 3 && decide (s.mtcx.holdSince.toNat + rdF s (mtc 0x38) 0 32 * sec ≤ (now s).toNat)
    then mtcMove s 0 else s)

/-- HOLD_ELIGIBLE (R49). -/
def execHoldEligible (t : W64) (s : State) : Host.Outcome State Fault Refusal :=
  let s := advance s t
  .next (if 600 ≤ (rd s (mtc 0x58)).toNat then wrB s (mtc 8) 6 true else s)

/-- What follows a change of MTC_CTRL.SOURCE or IB_PORT from `old` (R61): the source before it is lost (entry 101), and
MTC_STATUS and OM_STATUS show nothing of it any more. -/
def sourceChanged (s : State) (old : W64) : State :=
  if fld (rd s (mtc 0x10)) 0 6 = fld old 0 6 then s
  else
    let s := sourceLost s
    let s := wrF (wrF (wrB (wrB s (mtc 8) 3 false) (mtc 8) 5 false) (mtc 8) 8 4 0) (mtc 8) 12 3 0
    let s := { s with mtcx := { s.mtcx with lastEdge := none, edgeBase := none, pendingSec := none, mismatch := none
                                            ibLast := none, ibMeasured := none, ibDelay := none, ibT1 := none, ibPrev := none } }
    (upTo 16).foldl (fun s p => wrB s (omP p 0) 13 (decide (mtcSource s = 2) && decide (rdF s (mtc 0x10) 2 4 = p))) s

/-- MTC_REGISTER_WRITE (R61); the G9 sets the bits of `same` in the CTL cycle of the write (R14). -/
def execMtcRegisterWrite (off : BitVec 24) (v same : W64) (s : State) : Host.Outcome State Fault Refusal :=
  let o := off.toNat
  .next (if o = 0x10 || o = 0x28 || o = 0x30 || o = 0x38 then
      if s.dev.state ≠ .maintenance then mtcEvent s 4
      else if o = 0x10 then
        if fld v 0 2 = 3 then mtcEvent s 4
        else sourceChanged (wr s (mtc 0x10) (v &&& 0x7F)) (rd s (mtc 0x10))
      else if o = 0x28 then wr s (mtc 0x28) (v &&& 0xFFFFFF)
      else if o = 0x30 then wr s (mtc 0x30) (v &&& 0xFFFF)
      else wr s (mtc 0x38) (v &&& 0xFFFFFFFF)
    else if o = 0x68 then w1c s (mtc 0x68) v same
    else s)

end Sys2Proof.Machine
end

