-- ==== Sys2Proof/Machine/Memory.lean ====
section
/-! DEFINITION. Memory as the package reaches it: bytes by physical address, interleave (R311), the Bamkan
block map (R284), poisoned blocks (R302), possession maps (R339, R340), coherent accesses at the home (R330 to
R336), and host memory (R337, R338). -/

namespace Sys2Proof.Machine

/-! ### Bytes -/

/-- What a byte reads that nothing has written (R295 leaves it open; entry 1). -/
def memDefault (_a : Nat) : Byte := 0

/-- One byte of memory. -/
def rdByte (s : State) (a : Nat) : Byte := Store.get memDefault s.mem a

/-- `n` bytes from `a`. -/
def rdBytes (s : State) (a n : Nat) : List Byte := (upTo n).map (fun i => rdByte s (a + i))

/-- Write bytes into a byte store from key `a`. -/
def putBytes (m : Store Byte) (a : Nat) : List Byte → Store Byte
  | [] => m
  | b :: t => putBytes (Store.set memDefault m a b) (a + 1) t

/-- Unified memory ends here (R308). -/
def unifiedEnd : Nat := 2 ^ 41

/-- Blocks of 256 bytes that [a, a + n) covers whole. -/
def wholeBlocks (a n : Nat) : List Nat :=
  let lo := ceilDiv a 256
  (upTo ((a + n) / 256 - lo)).map (fun i => lo + i)

/-- The reservations that a write to [a, a + n) leaves (R250). -/
def keepResv (r : List (Nat × Nat)) (a n : Nat) : List (Nat × Nat) :=
  if r.isEmpty then r else r.filter (fun x => !(decide (a < 8 * x.2 + 8) && decide (8 * x.2 < a + n)))

/-- Write bytes at `a`; a write that covers a whole block ends its poison (R302), and one that reaches a reserved
word loses the reservation (R250). -/
def wrBytes (s : State) (a : Nat) (l : List Byte) : State :=
  let p := if s.poisoned.isEmpty then s.poisoned
    else (wholeBlocks a l.length).foldl (fun p b => Store.erase b p) s.poisoned
  { s with mem := putBytes s.mem a l, poisoned := p, resv := keepResv s.resv a l.length }

/-- The little-endian number at `a`. -/
def rdNat (s : State) (a n : Nat) : Nat := leNat (rdBytes s a n)

/-- [a, a + n) lies inside unified memory. -/
def inUnified (a n : Nat) : Bool := decide (a + n ≤ unifiedEnd)

/-- A block of [a, a + n) is poisoned (R302). -/
def poisonedRange (s : State) (a n : Nat) : Bool :=
  s.poisoned.any (fun p => decide (a < (p.1 + 1) * 256) && decide (p.1 * 256 < a + n))

/-! ### Possession maps -/

/-- Key of the bit of granule `g` in the map of home `d`. -/
def possKey (d g : Nat) : Nat := d * 2 ^ 20 + g

/-- Some home marks a granule of [a, a + n) as possessed (R339). -/
def possessed (s : State) (a n : Nat) : Bool :=
  s.possMap.any (fun p => p.2 && decide (a < (p.1 % 2 ^ 20 + 1) * 0x200000)
    && decide (p.1 % 2 ^ 20 * 0x200000 < a + n))

/-- TT_EVENT bit `i` of A-die `d` with its BLOCK_EVENT (R444). -/
def ttEvent (s : State) (d i : Nat) : State :=
  raise s d 0x48 i (reg (tt d 0)) (reg (tt d 0x18)) (reg (tt d 0x20)) (reg (tt d 0x30))

/-- A request that A-die `h` refuses for possession (R96, R340): its TT_EVENT.POSS_DENIED, JN_POSS_DENIED and JN_DENY_LOG. Kind
0 processor, 1 host landing, 2 window or remote form, 3 page walk or depot engine. -/
def denyAt (s : State) (h pa die kind : Nat) : State :=
  let s := inc s (jn h 0x20)
  let s := wr s (jn h 0x28)
    (BitVec.ofNat 64 (pa / 64 * 64 % 2 ^ 41 + 2 ^ 41 * (die % 16) + 2 ^ 45 * (kind % 4) + 2 ^ 63))
  ttEvent s h 4

/-- A coherent request that the home of its line refuses. -/
def deny (s : State) (pa die kind : Nat) : State := denyAt s (homeOf s pa) pa die kind

/-! ### Junction caches and directories -/

/-- A line not held. -/
def jNone : Nat → JLine := fun _ => { moesi := 0, data := 0, arrived := 0 }

/-- Key of line `l` in the junction cache of die `d`. -/
def jKey (d l : Nat) : Nat := d * 2 ^ 35 + l

/-- Line `l` in the junction cache of die `d`. -/
def jGet (s : State) (d l : Nat) : JLine := Store.get jNone s.jlines (jKey d l)

/-- Put a line into the junction cache of die `d`. -/
def jPut (s : State) (d l : Nat) (v : JLine) : State :=
  { s with jlines := Store.set jNone s.jlines (jKey d l) v }

/-- Line `l` as memory holds it. -/
def memLine (s : State) (l : Nat) : BitVec 512 := BitVec.ofNat 512 (rdNat s (64 * l) 64)

/-- Write a whole line to memory. -/
def putLine (s : State) (l : Nat) (v : BitVec 512) : State :=
  { s with mem := putBytes s.mem (64 * l) (leBytes 64 v.toNat) }

/-- The die that holds the line in M or O. -/
def ownerOf (s : State) (l : Nat) : Option Nat := (upTo 12).find? (fun d => decide (3 ≤ (jGet s d l).moesi))

/-- The dies that hold the line. -/
def holders (s : State) (l : Nat) : List Nat := (upTo 12).filter (fun d => !decide ((jGet s d l).moesi = 0))

/-- The coherent value of a line: the owner's data, else memory's. -/
def lineValue (s : State) (l : Nat) : BitVec 512 :=
  match ownerOf s l with
  | some d => (jGet s d l).data
  | none => memLine s l

/-- No entry. -/
def dirNone : Nat → Option DirEntry := fun _ => none

/-- The home A-die of a line. -/
def lineHome (s : State) (l : Nat) : Nat := homeOf s (64 * l)

/-- The directory set a line falls in: home, and die-local line number mod 262,144 (R332; entry 17). -/
def dirSet (s : State) (l : Nat) : Nat := lineHome s l * 262144 + (blockOf s (64 * l) * 4 + l % 4) % 262144

/-- The directory entry of a line. -/
def dirGet (s : State) (l : Nat) : Option DirEntry := (s.dir.find? (fun p => decide (p.1 = l))).map Prod.snd

/-- Drop a line's directory entry. -/
def dirDrop (s : State) (l : Nat) : State :=
  if (dirGet s l).isSome then
    upd { s with dir := Store.erase l s.dir } (jn (lineHome s l) 8) (fun w => w - 1)
  else s

/-- A line's state as its home knows it (R332): that of its owner, else that of its clean holders. -/
def dirState (s : State) (l : Nat) : Nat :=
  ((holders s l).map (fun d => (jGet s d l).moesi)).foldl max 0

/-- The directory entry of a line as the caches now stand, keeping its place in allocation order; no holder,
no change of the entry. -/
def dirRefresh (s : State) (l : Nat) : State :=
  let hs := holders s l
  match dirGet s l with
  | some e =>
    let v : DirEntry := { e with state := dirState s l, owner := ownerOf s l, sharers := BitVec.ofNat 12 ((hs.map (fun d => 2 ^ d)).sum) }
    { s with dir := Store.insert l v (Store.erase l s.dir) }
  | none =>
    if hs.isEmpty then s
    else
      let v : DirEntry := { state := dirState s l, owner := ownerOf s l
                            sharers := BitVec.ofNat 12 ((hs.map (fun d => 2 ^ d)).sum), age := s.dirAge }
      upd { s with dir := Store.insert l v s.dir, dirAge := s.dirAge + 1 } (jn (lineHome s l) 8) (fun w => w + 1)

/-- Invalidate a line in every holder; an owner's data goes back to memory when `keep` (R331, R333). -/
def invalidateLine (s : State) (l : Nat) (keep : Bool) : State :=
  let s := match ownerOf s l with
    | some d => if keep then putLine s l (jGet s d l).data else s
    | none => s
  let s := (holders s l).foldl (fun s d => jPut s d l (jNone 0)) s
  dirDrop s l

/-- A snoop for read by an agent without a cache: M becomes O, E becomes S (R331). -/
def snoopReadLine (s : State) (l : Nat) : State :=
  let hs := (holders s l).filter (fun d => decide ((jGet s d l).moesi = 4) || decide ((jGet s d l).moesi = 2))
  if hs.isEmpty then s
  else dirRefresh (hs.foldl (fun s d =>
    let v := jGet s d l
    jPut s d l { v with moesi := if v.moesi = 4 then 3 else 1 }) s) l

/-- The lines of [a, a + n). -/
def linesOf (a n : Nat) : List Nat :=
  if n = 0 then [] else (upTo ((a + n - 1) / 64 + 1 - a / 64)).map (fun i => a / 64 + i)

/-- The coherent bytes of [a, a + n). -/
def cohBytes (s : State) (a n : Nat) : List Byte :=
  (upTo n).map (fun i => BitVec.ofNat 8 ((lineValue s ((a + i) / 64)).toNat / 256 ^ ((a + i) % 64)))

/-- A coherent read by an agent without a cache: what it leaves. -/
def cohTouch (s : State) (a n : Nat) : State := (linesOf a n).foldl snoopReadLine s

/-- A coherent write at the home (R336): a line written whole loses every copy; a smaller write is merged into
the line at the home. -/
def cohWrite (s : State) (a : Nat) (l : List Byte) : State :=
  let n := l.length
  let s := (linesOf a n).foldl (fun s x =>
    invalidateLine s x (!(decide (a ≤ 64 * x) && decide (64 * x + 64 ≤ a + n)))) s
  wrBytes s a l

/-! ### Host memory (R337, R338) -/

/-- Bytes of host memory. -/
def hostBytes (s : State) (a n : Nat) : List Byte :=
  (upTo n).map (fun i => Store.get memDefault s.hostMem (a + i))

/-- No host line. -/
def hNone : Nat → HostLine := fun _ => { dirty := false, shared := false, data := 0 }

/-- A held host line. -/
def hostLine? (s : State) (l : Nat) : Option HostLine := (s.hostLines.find? (fun p => decide (p.1 = l))).map Prod.snd

/-- Write one line back with DirtyEvict and drop it (R337). -/
def dirtyEvict (s : State) (l : Nat) : State :=
  match hostLine? s l with
  | some v =>
    let m := if v.dirty then putBytes s.hostMem (64 * l) (leBytes 64 v.data.toNat) else s.hostMem
    { s with hostMem := m, hostLines := Store.erase l s.hostLines }
  | none => s

/-- Merge bytes [a, a + |l|) that fall into line `x` into its 64 bytes. -/
def mergeLine (old : List Byte) (x a : Nat) (l : List Byte) : List Byte :=
  (upTo 64).map (fun i =>
    let p := 64 * x + i
    if a ≤ p then ((l[p - a]?).getD (old.getD i 0)) else old.getD i 0)

/-- Keep host line `x`: the cache has 4,096 sets of 16 ways, and a full set gives up a line that is free (R337). -/
def hostPut (s : State) (x : Nat) (v : HostLine) : State :=
  let mine := (s.hostLines.map Prod.fst).filter (fun y => decide (y % 4096 = x % 4096))
  let s := if mine.length < 16 || mine.contains x then s
    else dirtyEvict s (mine.getD (Config.cacheVictim 12 mine % mine.length) 0)
  { s with hostLines := Store.insert x v (Store.erase x s.hostLines) }

/-- A posted write to host memory: a line of it that the host-line cache holds leaves the cache first. -/
def hostPosted (s : State) (a : Nat) (l : List Byte) : State :=
  let s := (linesOf a l.length).foldl dirtyEvict s
  { s with hostMem := putBytes s.hostMem a l }

/-- A write of the host-port engine to host memory: into the host-line cache (RdOwn, or RdOwnNoData for a whole line, then M) while
the host has enabled CXL.cache, else by posted writes (R337, R338). -/
def hostWrite (s : State) (a : Nat) (l : List Byte) : State :=
  if s.port.cxlCache then
    (linesOf a l.length).foldl (fun s x =>
      let old := match hostLine? s x with
        | some v => leBytes 64 v.data.toNat
        | none => hostBytes s (64 * x) 64
      hostPut s x { dirty := true, shared := false, data := BitVec.ofNat 512 (leNat (mergeLine old x a l)) }) s
  else hostPosted s a l

/-- Write back every dirty line of [a, a + n) (R448). -/
def hostFlush (s : State) (a n : Nat) : State := (linesOf a n).foldl dirtyEvict s

end Sys2Proof.Machine
end

