-- ==== Sys2Proof/Machine/Pipe.lean ====
section
/-! DEFINITION. What engines share: the writes of orders (R69, R72), holds and late running (R91, R92, R586),
signals as an order leaves them (R78). -/

namespace Sys2Proof.Machine

/-! ### Engines -/

/-- Key of engine `e` on A-die `d`. -/
def engKey (d e : Nat) : Nat := d * 15 + e

/-- Engine `e` of A-die `d`. -/
def eng (s : State) (d e : Nat) : Engine := Store.get Engine.idle s.engines (engKey d e)

/-- Change an engine. -/
def setEng (s : State) (d e : Nat) (f : Engine → Engine) : State :=
  { s with engines := Store.set Engine.idle s.engines (engKey d e) (f (eng s d e)) }

/-- A configuration field of an engine. -/
def engCfg (s : State) (d e ix : Nat) : Nat := Store.get (fun _ => 0) (eng s d e).cfg ix

/-- TT_STATUS.STATE of A-die `d` (R106). -/
def ttState (s : State) (d : Nat) : Nat := rdF s (tt d 0) 0 4

/-- Base address of the window of cluster `c` on A-die `d` (R181). -/
def winBase (d c : Nat) : Nat := 0x4000000000000 + d * 0x100000000 + c * 0x2000000

/-- Entries of a cluster's stream cache that are memory: 8 MEM_STEPS (R214). -/
def memEntries (s : State) (d c : Nat) : Nat := 8 * min 5 (rdF s (vc d c 0x18) 0 3)

/-- Offset `off` of the window exists: platform SRAM or a converted entry (R181). -/
def inWindow (s : State) (d c off : Nat) : Bool := decide (off < 0x1800000 + 4096 * memEntries s d c)

/-! ### Vector registers and planes -/

/-- Key of a lane word. -/
def laneKey (d c v i : Nat) : Nat := ((d * 8 + c) * 64 + v % 64) * 1024 + i % 1024

/-- The word of lane `i` of register `v`. -/
def lane (s : State) (d c v i : Nat) : W32 := Store.get (fun _ => 0) s.vregs (laneKey d c v i)

/-- Key of an accumulator entry. -/
def cellKey (d q ix : Nat) : Nat := (d * 4 + q % 4) * 16384 + ix % 16384

/-- An accumulator entry; a plane that no order has initialised reads zero (R114). -/
def cellAt (s : State) (d q ix : Nat) : Cell := Store.get (fun _ => Cell.zero) s.cells (cellKey d q ix)

/-- MA_PLANE_INFO of a plane. -/
def planeInfo (d q : Nat) : Nat := ma d (0x18 + 8 * (q % 4))

/-- Mode and anchor of a plane (R114). -/
def planeMode (s : State) (d q : Nat) : Nat := rdF s (planeInfo d q) 0 2
def planeAnchor (s : State) (d q : Nat) : Int := signedOf 16 (rdF s (planeInfo d q) 16 16)

/-- Set a plane to a mode with every entry zero (R115, R125, R130). -/
def setPlane (s : State) (d q mode : Nat) (anchor : BitVec 16) : State :=
  let lo := (d * 4 + q % 4) * 16384
  let s := { s with cells := Store.eraseRange s.cells lo (lo + 16384) }
  let s := wr s (planeInfo d q) (BitVec.ofNat 64 (mode + 2 ^ 16 * (if mode = 3 then anchor.toNat else 0)))
  wrF s (ma d 0) (2 + 2 * (q % 4)) 2 mode

/-- Write an accumulator entry; SAT_ANY follows. -/
def setCell (s : State) (d q ix : Nat) (c : Cell) : State :=
  let s := { s with cells := Store.set (fun _ => Cell.zero) s.cells (cellKey d q ix) c }
  if c.sat then wrB s (planeInfo d q) 32 true else s

/-- Add the terms of one group to an entry value (R155, R156, R161). -/
def addTerms (mode : Nat) (anchor : Int) (c : Cell) (ts : List (FVal × Bool)) : Cell × Flags :=
  if mode = 3 then
    ts.foldl (fun a t => let (x, f) := contribute anchor a.1 t.1; (x, a.2 ||| f)) (c, 0)
  else
    let (w, f) := chainGroup (if mode = 2 then .fp64 else .fp32) c.l.toNat ts
    ({ l := BitVec.ofNat 96 w, sat := false }, f)

/-! ### Flags -/

/-- VC_EVENT bit `i` of a cluster (R226, R444). -/
def vcEvent (s : State) (d c i : Nat) : State :=
  raise s d (0x2000068 + c * 0x100000) i (reg (vc d c 0x60)) (reg (vc d c 8)) (reg (vc d c 0x38)) (reg (vc d c 0))

/-- MA_EVENT bit `i` (R147, R444). -/
def maEvent (s : State) (d i : Nat) : State :=
  raise s d 0x1000060 i (reg (ma d 0x50)) (reg (ma d 8)) (reg (ma d 0)) (reg (ma d 0x10))

/-- OR flags into MA_FLAGS; the first one after a load is an event (R145). -/
def orMaFlags (s : State) (d : Nat) (f : Flags) : State :=
  if f = 0 then s
  else
    let s := upd s (ma d 8) (fun w => w ||| BitVec.setWidth 64 f)
    if (eng s d 0).flagged then s else maEvent (setEng s d 0 (fun e => { e with flagged := true })) d 1

/-- OR flags into a flag group of a cluster and into VC_FLAGS (R211, R212). -/
def orVcFlags (s : State) (d c g : Nat) (f : Flags) : State :=
  if f = 0 then s
  else
    let s := upd s (vc d c (0x80 + 8 * (g % 16))) (fun w => w ||| BitVec.setWidth 64 f)
    let s := upd s (vc d c 8) (fun w => w ||| BitVec.setWidth 64 f)
    if (eng s d (1 + c)).flagged then s
    else vcEvent (setEng s d (1 + c) (fun e => { e with flagged := true })) d c 1

/-! ### Writes -/

/-- Make one write of an engine. -/
def applyPut (s : State) (d e : Nat) (p : Put) : State :=
  match p with
  | .byte pa v => wrBytes s pa [v]
  | .nib pa high v =>
    let b := (rdByte s pa).toNat
    wrBytes s pa [BitVec.ofNat 8 (if high then b % 16 + 16 * (v % 16) else b / 16 * 16 + v % 16)]
  | .lane k lo len v =>
    let w := Store.get (fun _ => 0) s.vregs k
    { s with vregs := Store.set (fun _ => 0) s.vregs k (putFld w lo len v) }
  | .cell d q ix c => setCell s d q ix c
  | .terms d q ix mode ts =>
    let (c, f) := addTerms mode (planeAnchor s d q) (cellAt s d q ix) ts
    orMaFlags (setCell s d q ix c) d f
  | .plane d q mode a => setPlane s d q mode a
  | .maFlags d f => orMaFlags s d f
  | .vcFlags d c g f => orVcFlags s d c g f
  | .cfg ix v => setEng s d e (fun x => { x with cfg := Store.set (fun _ => 0) x.cfg ix v })
  | .reg k v => wr s k v
  | .count k n => incBy s k n

/-- Put a write in order of ISSUE: of two at one cycle the later ISSUE takes effect last (R72). -/
def insertWrite (w : WriteOp) : List WriteOp → List WriteOp
  | [] => [w]
  | x :: t => if w.issue ≤ x.issue then w :: x :: t else x :: insertWrite w t

/-- The writes of an engine due at cycle `t`. -/
def dueWrites (s : State) (d e t : Nat) : List WriteOp :=
  ((eng s d e).writes.filter (fun w => decide (w.time ≤ t))).foldr insertWrite []

/-- Perform them. -/
def doWrites (s : State) (d e t : Nat) : State :=
  let due := dueWrites s d e t
  let s := setEng s d e (fun x => { x with writes := x.writes.filter (fun w => !decide (w.time ≤ t)) })
  due.foldl (fun s w => applyPut s d e w.put) s

/-! ### Late running (R91, R92, R107, R586) -/

/-- The die's progress and image. -/
def dieTT (s : State) (d : Nat) : DieTT := Store.get DieTT.none s.dies d

/-- Change it. -/
def setDie (s : State) (d : Nat) (f : DieTT → DieTT) : State :=
  { s with dies := Store.set DieTT.none s.dies d (f (dieTT s d)) }

/-- Fields of a booking entry (R99). -/
def bkKind (x : BitVec 128) : Nat := fld x 0 16
def bkRes (x : BitVec 128) : Nat := fld x 16 16
def bkPeriod (x : BitVec 128) : Nat := fld x 32 32
def bkOffset (x : BitVec 128) : Nat := fld x 64 32
def bkCount (x : BitVec 128) : Nat := fld x 96 32

/-- SEG_LEN of the segment that A-die `d` runs (R63, R102). -/
def segLen (s : State) (d : Nat) : Nat :=
  match (dieTT s d).stations[(dieTT s d).next - 1]? with
  | some x => x.segLen
  | none => 0

/-- Beats since A-die `d` departed from the station before the segment that it runs (R89, R290, R355). -/
def sinceDeparture (s : State) (d : Nat) : Option Nat :=
  if ttState s d = 4 ∨ ttState s d = 5 then
    some (dieNow s d - (Store.get (fun _ => (0, 0)) s.reports (2 * (120 + d) + 1)).2.toNat)
  else none

/-- The orders of segment `k` of a stream with its STATION markers (R102). -/
def segOrders : Nat → List Order → List Order
  | _, [] => []
  | k, o :: t => if fld o 24 8 = 1 then segOrders (k - 1) t else if k = 1 then o :: segOrders k t else segOrders k t

/-- The orders of engine `e` in segment `k` of the image loaded on A-die `d`. -/
def ordersIn (s : State) (d e k : Nat) : List Order :=
  match (dieTT s d).orders.find? (fun x => decide (x.1 = e)) with
  | some x => segOrders k x.2
  | none => []

/-- The orders of engine `e` in the segment that A-die `d` runs. -/
def curOrders (s : State) (d e : Nat) : List Order := ordersIn s d e (dieTT s d).next

/-- Record the causes of a hold, those noted for the die among them, and FIRST_LATE with its LATE_RUNNING notice on
the die's first hold since the load. -/
def lateCauses (s : State) (d : Nat) (causes : BitVec 16) : State :=
  let noted := Store.get (fun _ => 0) s.lateFlags d
  let s := { s with lateFlags := Store.erase d s.lateFlags }
  let s := upd s (tt d 0) (fun w => w ||| (BitVec.setWidth 64 ((noted ||| causes) &&& 0x3FF) <<< 48))
  if (dieTT s d).late then s
  else
    let s := setDie s d (fun x => { x with late := true })
    let s := wrB s (tt d 0x48) 2 true
    post s 7 0 (sourceOf d 0x48) 0 (rd s (tt d 0)) (rd s (tt d 0x30)) (rd s (tt d 0x38)) (rd s (tt d 0x40))

/-- Cause bits of R92, less 48. -/
def causeRetry : BitVec 16 := 1
def causeReconstruct : BitVec 16 := 2
def causeThrottle : BitVec 16 := 8
def causeTrainFault : BitVec 16 := 16
def causeClockDrift : BitVec 16 := 32
def causeOverrun : BitVec 16 := 128
def causeRemote : BitVec 16 := 512

/-- An in-segment hold of an engine of A-die `d` has ended (R91). -/
def countHold (s : State) (d : Nat) (causes : BitVec 16) : State :=
  lateCauses (upd s (tt d 0x38) (fun w => satIncFld w 0 32)) d causes

/-- A late departure from station `k`, by `beats` (R91). -/
def countLate (s : State) (d k beats : Nat) (causes : BitVec 16) : State :=
  let s := upd s (tt d 0x38) (fun w => satIncFld w 32 32)
  let s := incBy s (tt d 0x30) beats
  let s := if rdF s (tt d 0x40) 16 48 < beats then wr s (tt d 0x40) (BitVec.ofNat 64 (k + 2 ^ 16 * beats)) else s
  lateCauses s d causes

/-- Put an engine on hold, or let it go; TT_STATUS.HELD shows signal waits (R106). -/
def setHold (s : State) (d e : Nat) (h : Option Hold) : State :=
  let w := match h with
    | some (.wait _ _ _ _) => true
    | _ => false
  wrB (setEng s d e (fun x => { x with hold := h })) (tt d 0) (5 + e) w

/-! ### Signals -/

/-- The die that hosts a signal: d hosts 2,048 d upward (R21). -/
def sigHost (n : Nat) : Nat := n / 2048

/-- A signal's value. -/
def sigVal (s : State) (n : Nat) : W64 := Store.get (fun _ => 0) s.signals n

/-- Whether a wait's condition holds of a value (R77): operation 0 GE, 1 EQ, 2 MASK. -/
def waitHolds (op : Nat) (v operand : W64) : Bool :=
  if op = 0 then decide (operand.toNat ≤ v.toNat) else if op = 1 then decide (v = operand)
  else decide (v &&& operand = operand)

/-- Send a signal operation toward its host. -/
def sendSig (s : State) (o : SigOp) : State := { s with sigOps := s.sigOps ++ [o] }

/-- The addition of 1 that a train, a call, an update or a collective makes on die `d` by engine `e`. -/
def sendAdd1 (s : State) (d e sig : Nat) : State :=
  sendSig s { sig := sig, add := true, value := 1, order := some (e, d), asker := 0, askId := 0, setMode := false }

/-- Processors and the host may operate on signals: the job is ARMED, DEPARTED or HELD (R80). -/
def sigOpen (s : State) : Bool := jobLive s

end Sys2Proof.Machine
end

