-- ==== Sys2Proof/Machine/Links.lean ====
section
/-! DEFINITION. Ommet ports as senders: payload layouts (R385, R387, R388, R389), which port a flit leaves by (R392,
R396), the queues of R398. -/

namespace Sys2Proof.Machine

/-- Port `p`. -/
def omPort (s : State) (p : Nat) : OmPort := Store.get OmPort.idle s.om.ports p

/-- OM_STATUS.UNACKED follows the port (R414). -/
def setPort (s : State) (p : Nat) (f : OmPort → OmPort) : State :=
  let v := f (omPort s p)
  let s := { s with om := { s.om with ports := Store.set OmPort.idle s.om.ports p v } }
  wrF s (omP p 0) 14 11 v.unacked.length

/-- OM_EVENT bit `i` of port `p` (R417, R444). -/
def omEvent (s : State) (p i : Nat) : State :=
  raise s (p / 2) (0x7000068 + (p % 2) * 0x100000) i (reg (omP p 0)) (reg (omP p 0x18)) (reg (omP p 0x10))
    (reg (omP p 0x30))

/-- CE_EVENT bit `i` of A-die `d`. -/
def ceEvent (s : State) (d i : Nat) : State :=
  raise s d 0x8000028 i (reg (ce d 0)) (reg (ce d 8)) (reg (ce d 0x10)) (fun _ => 0)

/-- OR_SELF of every A-die. -/
def setSelf (s : State) (gpid : W32) (pos rank : Nat) (inJob : Bool) : State :=
  (upTo 8).foldl (fun s d => wr s (key d 0x7210000)
    (BitVec.ofNat 64 (gpid.toNat + 2 ^ 32 * (pos % 256) + 2 ^ 40 * (rank % 2 ^ 20) + 2 ^ 63 * b2n inJob))) s

/-! ### Payloads -/

/-- A payload from its bytes; the rest is zero. -/
def payloadOf (l : List Byte) : BitVec 1792 := BitVec.ofNat 1792 (leNat l)

/-- Field of `n` bytes at byte `off` of a payload. -/
def payNat (p : BitVec 1792) (off n : Nat) : Nat := fld p (8 * off) (8 * n)

/-- Bytes of a payload. -/
def payBytes (p : BitVec 1792) (off n : Nat) : List Byte := leBytes n (payNat p off n)

/-- A BOOKED payload (R385). -/
def bookedPayload (op flags window len sig addr ret value : Nat) (data : List Byte) : BitVec 1792 :=
  payloadOf (leBytes 1 op ++ leBytes 1 flags ++ leBytes 2 window ++ leBytes 2 len ++ leBytes 2 sig ++ leBytes 8 addr
    ++ leBytes 1 ret ++ leBytes 7 0 ++ leBytes 8 value ++ data)

/-- A REQ or RESP payload (R387). -/
def reqPayload (op flags wstat len addr id agent operand : Nat) (name data : List Byte) : BitVec 1792 :=
  payloadOf (leBytes 1 op ++ leBytes 1 flags ++ leBytes 2 wstat ++ leBytes 4 len ++ leBytes 8 addr ++ leBytes 4 id
    ++ leBytes 1 agent ++ leBytes 3 0 ++ leBytes 8 operand ++ slice name 0 32 ++ data)

/-- A CTRL payload (R388). -/
def ctrlPayload (ctrl scope : Nat) (tag : BitVec 16) (gpid : W32) (port : Nat) (rightAway : W64) : BitVec 1792 :=
  payloadOf (leBytes 1 ctrl ++ leBytes 1 scope ++ leBytes 2 tag.toNat ++ leBytes 4 gpid.toNat ++ leBytes 1 port
    ++ leBytes 7 0 ++ leBytes 8 rightAway.toNat)

/-- A LINK payload (R389). -/
def linkPayload (link logical phys delay : Nat) : BitVec 1792 :=
  payloadOf (leBytes 1 link ++ leBytes 1 logical ++ leBytes 1 phys ++ leBytes 1 delay)

/-! ### Flits on the link (R374, R382, R383) -/

/-- A link-local flit: kind 8, or CTRL to the sender's own position (R388, R389). -/
def localKind (kind dst src : Nat) : Bool := decide (kind = 8) || (decide (kind = 7) && decide (dst = src))

/-- The key that seals a flit: the job's link key for kinds 1 to 5, the group control key for kinds 6 and 7. -/
def flitKey (s : State) (kind : Nat) : BitVec 256 := if 6 ≤ kind then s.guard.groupKey.getD 0 else s.job.linkKey

/-- Route header of a flit (R374). -/
def routeHeader (f : Flit) : List Byte :=
  leBytes 1 f.kind.toNat ++ leBytes 1 f.path.toNat ++ leBytes 2 f.tag.toNat ++ leBytes 1 f.dst.toNat ++ leBytes 1 f.src.toNat
    ++ leBytes 6 f.pseq.toNat

/-- IV of a flit (R382, R388): positions, whether it is link-local, and its 64-bit counter. -/
def flitIv (f : Flit) (counter : Nat) : BitVec 96 :=
  BitVec.ofNat 96 (leNat (leBytes 1 f.src.toNat ++ leBytes 1 f.dst.toNat
    ++ leBytes 2 (b2n (localKind f.kind.toNat f.dst.toNat f.src.toNat)) ++ leBytes 8 counter))

/-- Payload and MAC of a flit as they cross the link: in clear with a MAC of zero bytes for IDLE and kind 8, else sealed with the
route header as additional data; the MAC is 96 bits. -/
def flitSealed (s : State) (f : Flit) (counter : Nat) : List Byte :=
  let pl := leBytes 224 f.payload.toNat
  if f.kind = 0 ∨ f.kind = 8 then pl ++ List.replicate 12 0
  else (upTo 236).map (Config.gcm (flitKey s f.kind.toNat) (flitIv f counter) (routeHeader f) pl)

/-- The 256 bytes of a flit: link word, route header, payload, MAC, and the CRC-32C of all before it. -/
def flitWire (s : State) (f : Flit) (counter : Nat) : List Byte :=
  let b := leBytes 2 f.lseq.toNat ++ leBytes 2 (f.lack.toNat + 2 ^ 12 * f.ackKind.toNat) ++ routeHeader f ++ flitSealed s f counter
  b ++ leBytes 4 (crc32c b).toNat

/-! ### Queues -/

/-- A waiting flit. -/
def txFlit (s : State) (kind path : Nat) (tag : BitVec 16) (dst : Nat) (owner : Nat) (pl : BitVec 1792) : TxFlit :=
  { kind := kind, path := path, tag := tag, dst := dst, src := ownPos s, pseq := 0, payload := pl, lseq := 0
    delayed := false, resend := false, naks := 0, owner := owner }

/-- Put a flit into a port's queue. -/
def enqueue (s : State) (p : Nat) (f : TxFlit) : State := setPort s p (fun x => { x with queue := x.queue ++ [f] })

/-- The port of a booked path toward `dst`: the lowest-numbered port of its die in PORT_MASK of a valid routing entry (R328,
R396). -/
def pathPort (s : State) (path dst : Nat) : Option Nat :=
  let d := path / 32
  [2 * d, 2 * d + 1].find? (fun p => bitOf (orEntry s dst) 19 && bitOf (orEntry s dst) p)

/-- The booking that grants `path` (R396). -/
def pathBook (s : State) (path : Nat) : Option (BitVec 128) :=
  (dieTT s (path / 32)).books.find? (fun b => decide (fld b 0 16 = 3) && decide (fld b 16 8 = path))

/-- A booked flit joins its path's queue; `kind` is 1 BOOKED or 2 COLL. -/
def sendBooked (s : State) (kind path dst owner : Nat) (pl : BitVec 1792) : State :=
  match pathPort s path dst with
  | some p => enqueue s p (txFlit s kind path s.job.tag dst owner pl)
  | none => s

/-- The port an unbooked flit from die `d` toward `dst` leaves by (R392). -/
def routePort (s : State) (d dst : Nat) : Option Nat :=
  let e := orEntry s dst
  let ok (p : Nat) : Bool := bitOf e p && linkUp s p && decide (portFunc s p = 0)
  if bitOf e 19 then
    match [2 * d, 2 * d + 1].find? (fun p => decide (d < 8) && ok p) with
    | some p => some p
    | none => (upTo 16).find? ok
  else none

/-- Send an unbooked flit; false in the second part when no port leads there. -/
def sendUnbooked (s : State) (d kind : Nat) (tag : BitVec 16) (dst : Nat) (pl : BitVec 1792) : State × Bool :=
  match routePort s d dst with
  | some p => (enqueue s p (txFlit s kind 0 tag dst 0 pl), true)
  | none => (s, false)

/-- Cut data into pieces of at most `n` bytes, with the offset of each. -/
def chunksOf (n : Nat) : Nat → Nat → List Byte → List (Nat × List Byte)
  | 0, _, _ => []
  | fuel + 1, off, l => if l.length ≤ n then [(off, l)] else (off, l.take n) :: chunksOf n fuel (off + n) (l.drop n)

/-- Pieces of a byte string; one empty piece for none. -/
def piecesOf (n : Nat) (l : List Byte) : List (Nat × List Byte) := chunksOf n (l.length + 1) 0 l

/-- Arrival of this package at station `k` for each package that names it (R88): the payload names the station, the die, and how many dies
the package runs (DESIGN CHOICE, entry 21). -/
def arrivalPayload (station die dies : Nat) : BitVec 1792 := payloadOf (leBytes 4 station ++ leBytes 1 die ++ leBytes 1 dies)

end Sys2Proof.Machine
end

