-- ==== Sys2Proof/Machine/Signals.lean ====
section
/-! DEFINITION. Signals where they are hosted (R79, R585), the waits they satisfy (R77), and the signal block of the
control space (R108, R109). -/

namespace Sys2Proof.Machine

/-! ### Threads, as far as signals reach them (R243) -/

/-- Key of thread `t` of slot `slot` of a cluster index. -/
def thKey (cl slot t : Nat) : Nat := (cl * 64 + slot) * 32 + t

/-- A thread by key. -/
def thread (s : State) (k : Nat) : Thread := Store.get Thread.none s.threads k

/-- Change a thread. -/
def setThread (s : State) (k : Nat) (f : Thread → Thread) : State :=
  { s with threads := Store.set Thread.none s.threads k (f (thread s k)) }

/-- Register x`r` of a thread; x0 reads zero. -/
def Thread.rx (h : Thread) (r : Nat) : W64 := Store.get (fun _ => 0) h.x r

/-- Write register x`r`; x0 discards it. -/
def Thread.wx (h : Thread) (r : Nat) (v : W64) : Thread :=
  if r = 0 then h else { h with x := Store.set (fun _ => 0) h.x r v }

/-! ### Signals at their host -/

/-- A register of the signal block of A-die `d` (R108). -/
def sg (d off : Nat) : Nat := key d (0xC000000 + off)

/-- Answer whoever asked for the value before an operation: a host command, a REQ, a thread. -/
def answerSig (s : State) (o : SigOp) (old : W64) : State :=
  if o.asker = 1 then doneCmd s (BitVec.ofNat 32 o.askId) 0 0 old []
  else if o.asker = 2 then
    -- askId packs SRC_GPOS, REQ_ID, AGENT, OP
    let src := natField o.askId 0 8
    let pl := reqPayload (natField o.askId 48 8) 2 0 0 o.sig (natField o.askId 8 32) (natField o.askId 40 8) old.toNat [] []
    (sendUnbooked s (sigHost o.sig) 5 s.job.tag src pl).1
  else if o.asker = 3 then
    let rd := o.askId % 32
    setThread s (o.askId / 32) (fun h =>
      if h.awaits.contains rd then { h.wx rd old with awaits := h.awaits.erase rd } else h)
  else s

/-- Apply one operation to its signal. -/
def applySig (s : State) (o : SigOp) : State :=
  let old := sigVal s o.sig
  let v := if o.add then old + o.value else o.value
  let s := if o.setMode then s else otherOp s (fun _ => false) (2 ^ 62 + o.sig) 0
  answerSig { s with signals := Store.set (fun _ => 0) s.signals o.sig v } o old

/-- The order of R79 within one cycle: rank 0 SETs of orders, 1 ADDs of orders, 2 operations of agents; SETs by
engine index, then die index. -/
def sigRank (o : SigOp) : Nat :=
  match o.order with
  | some (e, d) => if o.add then 2 ^ 20 else e * 64 + d
  | none => 2 ^ 21

/-- Put an operation in its place, after those of equal rank that arrived earlier. -/
def insertSig (o : SigOp) : List SigOp → List SigOp
  | [] => [o]
  | x :: t => if sigRank o < sigRank x then o :: x :: t else x :: insertSig o t

/-- An operation from the control space or from a host command (R520). -/
def SigOp.outside (o : SigOp) : Bool := o.order.isNone && !o.setMode && decide (o.asker ≠ 2)

/-- Signals that receive an operation from the control space or a host command together with any other in one cycle
(R520). -/
def racedSignals (ops : List SigOp) : Nat :=
  (((ops.filter SigOp.outside).map SigOp.sig).dedup.filter (fun n =>
    decide (2 ≤ (ops.filter (fun o => decide (o.sig = n))).length))).length

/-- The condition of wait slot `w` holds now and it is armed (R109). -/
def slotHolds (s : State) (d w : Nat) : Bool :=
  let c := rd s (sg d (0x8000 + 32 * w))
  bitOf c 13 && waitHolds (fld c 11 2) (sigVal s (d * 2048 + fld c 0 11)) (rd s (sg d (0x8008 + 32 * w)))

/-- Every wait on A-die `d` sees the signals as they now stand (R79, R585). -/
def seeWaits (s : State) (d : Nat) : State :=
  let s := (upTo 15).foldl (fun s e =>
    match (eng s d e).hold with
    | some (.wait op n x false) =>
      if waitHolds op (sigVal s n) x then setHold s d e (some (.wait op n x true)) else s
    | _ => s) s
  let s := (Store.keysIn s.threads (thKey (d * 8) 0 0) (thKey (d * 8 + 8) 0 0)).foldl (fun s k =>
    match (thread s k).block with
    | .signal op n x rd none =>
      let v := sigVal s n
      if waitHolds op v x then setThread s k (fun h => { h with block := .signal op n x rd (some v) }) else s
    | _ => s) s
  (upTo 64).foldl (fun s w =>
    if slotHolds s d w then { s with slotsDue := Store.set (fun _ => false) s.slotsDue (d * 64 + w) true } else s) s

/-- SIGNAL_OP_ARRIVAL (R79, R585): the operations on their way to A-die `d` that `picks` names, as positions in
order of arrival, reach one MAIN cycle of that die. -/
def execSignalOpArrival (d : ADie) (picks : List Nat) (s : State) : Host.Outcome State Fault Refusal :=
  let mine := picks.filterMap (fun i => s.sigOps[i]?) |>.filter (fun o => decide (sigHost o.sig = d.val))
  let rest := ((upTo s.sigOps.length).filter (fun i =>
    match s.sigOps[i]? with
    | some o => !(picks.contains i && decide (sigHost o.sig = d.val))
    | none => false)).filterMap (fun i => s.sigOps[i]?)
  let s := { s with sigOps := rest }
  let s := (mine.foldl (fun l o => insertSig o l) []).foldl applySig s
  let s := incBy s (hp 0x120) (racedSignals mine)
  .next (seeWaits s d)

/-- An operation from the control space (R108): while R80 admits it, else ignored and counted. -/
def sgWrite (s : State) (d k : Nat) (v : W64) (add : Bool) : State :=
  if sigOpen s then
    sendSig s { sig := d * 2048 + k, add := add, value := v, order := none, asker := 0, askId := 0, setMode := false }
  else inc s (sg d 0x8808)

/-- SG_VALUE_k. -/
def execSgValueWrite (d : ADie) (k : BitVec 11) (v : W64) (s : State) : Host.Outcome State Fault Refusal :=
  .next (sgWrite s d k.toNat v false)

/-- SG_ADD_k. -/
def execSgAddWrite (d : ADie) (k : BitVec 11) (v : W64) (s : State) : Host.Outcome State Fault Refusal :=
  .next (sgWrite s d k.toNat v true)

/-- SG_WAIT_CFG_w (R108): OP 3 is ignored whole and counted; else the slot is configured, and a condition that
already holds is due at once (R109). -/
def execSgWaitCfgWrite (d : ADie) (w : BitVec 6) (v : W64) (s : State) : Host.Outcome State Fault Refusal :=
  .next (if fld v 11 2 = 3 then inc s (sg d 0x8808)
  else
    let s := wr s (sg d (0x8000 + 32 * w.toNat)) (v &&& 0x3FFF)
    { s with slotsDue := Store.set (fun _ => false) s.slotsDue (d * 64 + w.toNat) (slotHolds s d w.toNat) })

/-- WAIT_SLOT_FIRE (R109). -/
def execWaitSlotFire (d : ADie) (w : BitVec 6) (s : State) : Host.Outcome State Fault Refusal :=
  let cfg := sg d (0x8000 + 32 * w.toNat)
  .next (if rdB s cfg 13 && (Store.get (fun _ => false) s.slotsDue (d * 64 + w.toNat) || slotHolds s d w.toNat) then
    let s := wrB (wrB s cfg 13 false) (sg d 0x8800) w.toNat true
    { s with slotsDue := Store.erase (d * 64 + w.toNat) s.slotsDue
             msis := s.msis ++ [(d.val, rd s (sg d (0x8010 + 32 * w.toNat)),
                                 BitVec.setWidth 32 (rd s (sg d (0x8018 + 32 * w.toNat))))] }
  else s)

end Sys2Proof.Machine
end

