-- ==== Sys2Proof/Machine/Translate.lean ====
section
/-! DEFINITION. Translation (R312 to R323), Ommet windows and the remote form (R324 to R329). -/

namespace Sys2Proof.Machine

/-- TU_EVENT bit `i` of A-die `d` (R347). -/
def tuEvent (s : State) (d i : Nat) : State :=
  raise s d 0x5000060 i (reg (tu d 8)) (reg (tu d 0x58)) (reg (tu d 0x48)) (reg (tu d 0x38))

/-- Causes of R314. -/
def causeInvalid : Nat := 1
def causePermission : Nat := 2
def causeAccessedDirty : Nat := 3
def causeAccess : Nat := 4
def causePossessed : Nat := 5
def causeWindow : Nat := 6

/-- A leaf translation: physical base, page bytes, R, W with D, G. -/
structure Leaf where
  base : Nat
  size : Nat
  readable : Bool
  writable : Bool
  global : Bool
  deriving DecidableEq, Repr

/-- A leaf PTE at level `lvl`, tested in the order of R314 for an access at `va`. -/
def leafCheck (pte lvl va : Nat) (write : Bool) : Except Nat Leaf :=
  let b (i : Nat) : Bool := Nat.testBit pte i
  let ppn := natField pte 10 44
  let napot := b 63
  if lvl = 4 || (lvl ≠ 0 && decide (ppn % 2 ^ (9 * lvl) ≠ 0)) then .error causeInvalid
  else if napot && (decide (lvl ≠ 0) || decide (ppn % 16 ≠ 8)) then .error causeInvalid
  else if !b 4 || (if write then !b 2 else !b 1) then .error causePermission
  else if !b 6 || (write && !b 7) then .error causeAccessedDirty
  else
    let size := if napot then 0x10000 else 2 ^ (12 + 9 * lvl)
    let base := (if napot then ppn / 16 * 16 else ppn) * 4096
    if unifiedEnd < base + va % size + 1 then .error causeAccess
    else .ok { base := base, size := size, readable := b 1, writable := b 2 && b 7, global := b 5 }

/-- A walk (R314): the PTEs it reads, in order; the PTE whose home refuses it for possession; its leaf or cause. -/
structure WalkOut where
  reads : List Nat
  refused : Option Nat
  leaf : Except Nat Leaf

/-- The walk from the table at `tab`, over the levels still to read (R314): it stops at the first cause. -/
def walkFrom (s : State) (va : Nat) (write : Bool) : List Nat → Nat → WalkOut
  | [], _ => { reads := [], refused := none, leaf := .error causeInvalid }
  | lvl :: rest, tab =>
    let pa := tab + 8 * natField va (12 + 9 * lvl) 9
    if possessed s pa 8 then { reads := [], refused := some pa, leaf := .error causePossessed }
    else if !inUnified pa 8 || poisonedRange s pa 8 then { reads := [], refused := none, leaf := .error causeAccess }
    else
      let pte := leNat (cohBytes s pa 8)
      let b (i : Nat) : Bool := Nat.testBit pte i
      if !b 0 || (b 2 && !b 1) || decide (natField pte 54 7 ≠ 0) then
        { reads := [pa], refused := none, leaf := .error causeInvalid }
      else if b 1 || b 3 then { reads := [pa], refused := none, leaf := leafCheck pte lvl va write }
      else if b 63 || decide (natField pte 61 2 ≠ 0) || b 4 || b 6 || b 7 then
        { reads := [pa], refused := none, leaf := .error causeInvalid }
      else
        let w := walkFrom s va write rest (natField pte 10 44 * 4096)
        { w with reads := pa :: w.reads }

/-- Levels of the mode in TU_SATP: Sv48 or Sv57 (R312). -/
def satpLevels (satp : W64) : List Nat := if fld satp 60 4 = 10 then [4, 3, 2, 1, 0] else [3, 2, 1, 0]

/-- The virtual address is canonical for the mode (R314). -/
def canonical (satp : W64) (va : W64) : Bool :=
  let top := if fld satp 60 4 = 10 then 57 else 48
  decide (va.toNat / 2 ^ (top - 1) = 0) || decide (va.toNat / 2 ^ (top - 1) = 2 ^ (65 - top) - 1)

/-- A walk of A-die `d`'s translation unit, and its leaf or cause (R314). -/
def walkOut (s : State) (d : Nat) (va : W64) (write : Bool) : WalkOut :=
  let satp := rd s (tu d 0)
  if !canonical satp va then { reads := [], refused := none, leaf := .error causeInvalid }
  else walkFrom s va.toNat write (satpLevels satp) (fld satp 0 44 * 4096)
def walk (s : State) (d : Nat) (va : W64) (write : Bool) : Except Nat Leaf := (walkOut s d va write).leaf

/-- Engine index by which the engines of the X-dies use A0's unit: it has no entries of its own (entry 23). -/
def noEngine : Nat := 15

/-- A TLB entry that serves an access of engine `e` of die `d`: one of the unit's shared entries, or its own (R315). -/
def tlbHit (s : State) (d e : Nat) (va : W64) (write : Bool) : Option TlbEntry :=
  s.trans.tlb.find? (fun x => decide (x.die = d) && (x.holder.isNone || decide (x.holder = some e))
    && decide (x.base ≤ va.toNat) && decide (va.toNat < x.base + x.size) && (if write then x.writable else x.readable))

/-- Physical address of `va` as engine `e` of die `d` reaches it: by a TLB entry, else by a walk. -/
def translate (s : State) (d e : Nat) (va : W64) (write : Bool) : Except Nat Nat :=
  match tlbHit s d e va write with
  | some x => .ok (x.pa + (va.toNat - x.base))
  | none => match walk s d va write with
    | .ok l => .ok (l.base + va.toNat % l.size)
    | .error c => .error c

/-- The entries of a TLB after a leaf entered it, in order of entry: 16,384 shared by a unit, 64 of an engine; which one of a
full set leaves is free (R315). -/
def tlbPut (l : List TlbEntry) (x : TlbEntry) : List TlbEntry :=
  let l := l.filter (fun y => !(decide (y.die = x.die) && decide (y.holder = x.holder) && decide (y.base = x.base)))
  let mine := l.filter (fun y => decide (y.die = x.die) && decide (y.holder = x.holder))
  let cap := if x.holder.isNone then 16384 else 64
  let l := if mine.length < cap then l
    else match mine[Config.tlbVictim (16 * x.die + x.holder.getD 15) (mine.map TlbEntry.base) % mine.length]? with
      | some v => l.erase v
      | none => l
  l ++ [x]

/-- What a translation leaves: on a TLB miss the PTE reads touch their homes, TU_WALKS counts, a possessed PTE
is a refused request of its home (R340), and a leaf that permitted the access enters the shared entries and the engine's own
(R315; entry 122). -/
def afterTranslate (s : State) (d e : Nat) (va : W64) (write : Bool) : State :=
  if (tlbHit s d e va write).isSome then s
  else
    let r := walkOut s d va write
    let s := inc (r.reads.foldl (fun s a => cohTouch s a 8) s) (tu d 0x30)
    match r.leaf with
    | .ok l =>
      let x : TlbEntry := { die := d, holder := none, base := va.toNat / l.size * l.size, size := l.size, pa := l.base
                            readable := l.readable, writable := l.writable, global := l.global }
      let q := tlbPut s.trans.tlb x
      let q := if e < noEngine then tlbPut q { x with holder := some e } else q
      { s with trans := { s.trans with tlb := q } }
    | .error _ =>
      match r.refused with
      | some a => deny s a d 3
      | none => s

/-- Pieces of [va, va + n) that share a 4 KiB page. -/
def pieces : Nat → Nat → Nat → List (Nat × Nat)
  | 0, _, _ => []
  | fuel + 1, va, n =>
    if n = 0 then []
    else
      let k := min n (4096 - va % 4096)
      (va, k) :: pieces fuel (va + k) (n - k)

/-- Physical pieces of [va, va + n), all translated first (R439); or the first cause, with the address in its page. -/
def virtPieces (s : State) (d e : Nat) (va n : Nat) (write : Bool) : Except (Nat × Nat) (List (Nat × Nat)) :=
  (pieces (n / 4096 + 2) va n).mapM (fun p =>
    match translate s d e (BitVec.ofNat 64 p.1) write with
    | .ok pa => .ok (pa, p.2)
    | .error c => .error (c, p.1))

/-- What translating some pieces leaves: it stops at the first that faults. -/
def afterPieces (d e : Nat) (write : Bool) : State → List (Nat × Nat) → State
  | s, [] => s
  | s, p :: t =>
    let va := BitVec.ofNat 64 p.1
    match translate s d e va write with
    | .ok _ => afterPieces d e write (afterTranslate s d e va write) t
    | .error _ => afterTranslate s d e va write

/-- What translating [va, va + n) leaves. -/
def afterVirt (s : State) (d e : Nat) (va n : Nat) (write : Bool) : State :=
  afterPieces d e write s (pieces (n / 4096 + 2) va n)

/-! ### Fault records -/

/-- Word `w` of record `i` of A-die `d`. -/
def recKey (d i w : Nat) : Nat := tu d (0x10000 + 32 * i + 8 * w)

/-- Record `i` of A-die `d` is valid. -/
def recValid (s : State) (d i : Nat) : Bool := rdB s (recKey d i 1) 63

/-- The key of a translation fault (R319). -/
def faultKey (s : State) (d : Nat) (va : W64) : W64 :=
  BitVec.ofNat 64 (natField va.toNat 12 45 + 2 ^ 48 * rdF s (tu d 0) 44 16)

/-- The key of a WINDOW fault (R319). -/
def windowKey (s : State) (d w : Nat) (a : Nat) : W64 :=
  BitVec.ofNat 64 ((w * 2 ^ 29 + natField a 12 29) % 2 ^ 45 + 2 ^ 48 * rdF s (tu d 0) 44 16)

/-- The valid record of die `d` with this key. -/
def findRec (s : State) (d : Nat) (k : W64) (window : Bool) : Option Nat :=
  (upTo 1024).find? (fun i => recValid s d i && decide (rd s (recKey d i 0) = k)
    && decide (rdB s (recKey d i 1) 7 = window))

/-- A fault of engine `e` on A-die `d` (R319, R323): it joins the record with its key, fills the lowest free
record and sends its MSI and key, or holds until a record is free. -/
def faultRecord (s : State) (d e : Nat) (k : W64) (window : Bool) (cause : Nat) (write : Bool) (va : W64) : State :=
  match findRec s d k window with
  | some i =>
    let s := upd s (recKey d i 1) (fun w => putBit (putBit w (8 + e) true) (if write then 5 else 4) true)
    inc s (tu d 0x40)
  | none =>
    match (upTo 1024).find? (fun i => !recValid s d i) with
    | none =>
      let h : FullHold := { die := d, engine := e, key := k, window := window, cause := cause, write := write, va := va }
      tuEvent (inc { s with trans := { s.trans with fullHolds := s.trans.fullHolds ++ [h] } } (tu d 0x48)) d 1
    | some i =>
      let sib := (upTo 8).any (fun x => decide (x ≠ d) && (findRec s x k window).isSome
        && !s.trans.keysSent.any (fun q => decide (q.1 = d) && decide (q.2.1 = x) && decide (q.2.2.1 = k)))
      let info : W64 := BitVec.ofNat 64 (cause + (if write then 2 ^ 5 else 2 ^ 4) + 2 ^ 6 * b2n sib
        + 2 ^ 7 * b2n window + 2 ^ (8 + e) + 2 ^ 63)
      let s := wr (wr (wr (wr s (recKey d i 0) k) (recKey d i 1) info) (recKey d i 2) (now s)) (recKey d i 3) va
      let s := inc (wrB (wrF s (tu d 8) 0 11 (rdF s (tu d 8) 0 11 + 1)) (tu d (0x80 + 8 * (i / 64))) (i % 64) true)
        (tu d 0x38)
      let sends := ((upTo 8).filter (fun x => decide (x ≠ d))).map (fun x => (x, d, k, window))
      let s := { s with msis := s.msis ++ [(d, rd s (tu d 0x10), BitVec.setWidth 32 (rd s (tu d 0x18)))]
                        trans := { s.trans with keysSent := s.trans.keysSent ++ sends } }
      if s.trans.seenFirst.getLsbD d then s
      else tuEvent { s with trans := { s.trans with seenFirst := putBit s.trans.seenFirst d true } } d 0

/-- Free record `i` (R321); a unit that waited for a free record then takes one (R323). -/
def freeRec (s : State) (d i : Nat) : State :=
  let s := wr (wr (wr (wr s (recKey d i 0) 0) (recKey d i 1) 0) (recKey d i 2) 0) (recKey d i 3) 0
  let s := wrB (wrF s (tu d 8) 0 11 (rdF s (tu d 8) 0 11 - 1)) (tu d (0x80 + 8 * (i / 64))) (i % 64) false
  match s.trans.fullHolds.find? (fun h => decide (h.die = d)) with
  | some h =>
    let s := { s with trans := { s.trans with fullHolds := s.trans.fullHolds.erase h } }
    faultRecord s d h.engine h.key h.window h.cause h.write h.va
  | none => s

/-- Free every record of every die without resolving it (R323). -/
def freeAllRecs (s : State) : State :=
  let s := { s with trans := { s.trans with fullHolds := [], keysSent := [], seenFirst := 0 } }
  (upTo 8).foldl (fun s d =>
    let s := ((upTo 1024).filter (recValid s d)).foldl (fun s i => freeRec s d i) s
    s) s

/-! ### Windows at the receiver (R325 to R327) -/

/-- The entry of granule `g` of window `v` as A-die `d` sees it: cached, else from memory. -/
def winEntry (s : State) (d v g : Nat) : W64 :=
  let k := d * 2 ^ 28 + v * 2 ^ 20 + g
  match s.trans.winCache.find? (fun p => decide (p.1 = k)) with
  | some p => p.2
  | none => BitVec.ofNat 64 (leNat (cohBytes s (rdF s (tu 0 (0x1800 + 8 * v)) 20 29 * 4096 + 8 * g) 8))

/-- Keep a window-table entry in the die's cache of 4,096 (R327). -/
def winCacheFill (s : State) (d v g : Nat) : State :=
  let k := d * 2 ^ 28 + v * 2 ^ 20 + g
  let c := s.trans.winCache
  if c.any (fun p => decide (p.1 = k)) then s
  else
    let mine := c.filter (fun p => decide (p.1 / 2 ^ 28 = d))
    let c := if 4096 ≤ mine.length then c.erase (mine.headD (0, 0#64)) else c
    { s with trans := { s.trans with winCache := c ++ [(k, winEntry s d v g)] } }

/-- The local address a window access reaches, checked in the order of R326, and whether booked traffic serves it; `none`
refuses. Second part: the address whose home refused for possession (R340). -/
def winCheck (s : State) (d v a : Nat) (write : Bool) (tag : BitVec 16) : Option (Nat × Bool) × Option Nat :=
  let ow := rd s (tu 0 (0x1800 + 8 * v))
  let g := a / 0x200000
  let ea := fld ow 20 29 * 4096 + 8 * g
  if !bitOf ow 63 || decide (fld ow 0 20 < g) then (none, none)
  else if possessed s ea 8 then (none, some ea)
  else
    let e := winEntry s d v g
    let pa := fld e 32 20 * 0x200000 + a % 0x200000
    if !bitOf e 0 || decide (fld e 4 12 ≠ 0) || decide (fld e 52 12 ≠ 0) then (none, none)
    else if (if write then !bitOf e 2 else !bitOf e 1) then (none, none)
    else if decide (fld e 16 16 ≠ tag.toNat) || decide (tag ≠ s.job.tag) then (none, none)
    else if bitOf e 3 then
      if possessed s pa 1 then (some (pa, true), none) else (none, none)
    else if possessed s pa 1 then (none, some pa) else (some (pa, false), none)

/-- The check of a remote-form access (R329): booked accesses lie inside a possession, unbooked ones in none. -/
def remoteCheck (s : State) (a : Nat) (n : Nat) (booked : Bool) (tag : BitVec 16) : Option Nat × Option Nat :=
  if decide (tag ≠ s.job.tag) || !inUnified a n then (none, none)
  else if booked then (if possessed s a n then (some a, none) else (none, none))
  else if possessed s a n then (none, some a) else (some a, none)

/-- A refused window or remote-form access at receiving A-die `d` (R326); one that is refused for possession, at address `refused`,
is recorded there too (R96, R340). -/
def denyRemote (s : State) (d : Nat) (refused : Option Nat) : State :=
  let s := tuEvent (inc s (tu d 0x58)) d 4
  match refused with
  | some pa => denyAt s d pa d 2
  | none => s

/-! ### The commands of this chapter that touch translation registers -/

/-- TU_SATP_WRITE (R313). -/
def execTuSatpWrite (d : ADie) (v : W64) (s : State) : Host.Outcome State Fault Refusal :=
  .next (if s.job.state = .arming then wr s (tu d 0) v else tuEvent s d 3)

/-- TRANSLATION_WALK (R314). -/
def execTranslationWalk (d : ADie) (e : EngineIx) (va : W64) (write : Bool) (s : State) :
    Host.Outcome State Fault Refusal :=
  .next (if jobLive s && (tlbHit s d e va write).isNone then
    let w : Walk := { die := d, engine := e, va := va, write := write }
    inc { s with trans := { s.trans with walks := s.trans.walks ++ [w] } } (tu d 0x30)
  else s)

/-- The end of a walk in progress: its leaf enters the TLB, or its fault fills or joins a record, for which an open gather
or scatter window of the engine waits (R223). -/
def walkComplete (s : State) (d e : Nat) : State :=
  match s.trans.walks.find? (fun w => decide (w.die = d) && decide (w.engine = e)) with
  | none => s
  | some w =>
    let s := { s with trans := { s.trans with walks := s.trans.walks.erase w } }
    let r := walk s d w.va w.write
    let n := rd s (tu d 0x30)
    let s := wr (afterTranslate s d e w.va w.write) (tu d 0x30) n
    match r with
    | .ok _ => s
    | .error c =>
      let k := faultKey s d w.va
      setEng (faultRecord s d e k false c w.write w.va) d e (fun x =>
        { x with win := x.win.map (fun g => if g.wait.isNone ∧ fld g.order 24 8 ≠ 0xB2 then { g with wait := some k } else g) })

/-- WALK_COMPLETE (R314). -/
def execWalkComplete (d : ADie) (e : EngineIx) (s : State) : Host.Outcome State Fault Refusal :=
  .next (walkComplete s d e)

/-- FAULT_KEY_ARRIVAL (R320). -/
def execFaultKeyArrival (d sender : ADie) (k : W64) (window : Bool) (s : State) :
    Host.Outcome State Fault Refusal :=
  let q := (d.val, sender.val, k, window)
  .next (if s.trans.keysSent.contains q then
    let s := { s with trans := { s.trans with keysSent := s.trans.keysSent.erase q } }
    match findRec s d k window, findRec s sender k window with
    | some i, some j => wrB (wrB s (recKey d i 1) 6 true) (recKey sender j 1) 6 true
    | _, _ => s
  else s)

/-- Bits of OW_SEND_w and OW_RECV_w that hold (R346). -/
def owMask (recv : Bool) : W64 := if recv then 0x8001FFFFFFFFFFFF else 0x8000000FFFFFFFFF

/-- OW_WINDOW_WRITE (R327). -/
def execOwWindowWrite (d : ADie) (recv : Bool) (w : Byte) (v : W64) (s : State) :
    Host.Outcome State Fault Refusal :=
  let off := (if recv then 0x1800 else 0x1000) + 8 * w.toNat
  .next (if decide (d.val = 0) && (s.job.state = .idle || s.job.state = .arming) then
    (upTo 8).foldl (fun s x => wr s (tu x off) (v &&& owMask recv)) s
  else tuEvent s d 3)

/-- TU_WINFENCE (R327). -/
def execTuWinfence (d : ADie) (v : W64) (s : State) : Host.Outcome State Fault Refusal :=
  .next (if bitOf v 0 then
    let s := wrB { s with trans := { s.trans with winCache := [] } } (tu d 0x28) 0 true
    (upTo 8).foldl (fun s x => wrB s (tu x 8) 12 true) s
  else s)

/-- WINFENCE_DONE (R327). -/
def execWinfenceDone (s : State) : Host.Outcome State Fault Refusal :=
  .next ((upTo 8).foldl (fun s x => wrB (wrB s (tu x 0x28) 0 false) (tu x 8) 12 false) s)

end Sys2Proof.Machine
end

