-- ==== Sys2Proof/Machine/ArrayOps.lean ====
section
/-! DEFINITION. What main array orders read and write, part by part (chapter 04): operand layouts (R117 to R121),
steps and passes (R125, R134), drains (R128, R131), loads (R132) and conversions (R133). -/

namespace Sys2Proof.Machine

/-- Operand format by AFMT code (R123). -/
def aFmt (x : Nat) : Fmt :=
  if x = 0 then .fp4 else if x = 1 then .e4m3 else if x = 2 then .e5m2 else if x = 3 then .int8
  else if x = 4 then .bf16 else if x = 5 then .fp16 else if x = 6 then .fp32 else .fp64

/-- Output format by CFMT code (R127). -/
def cFmt (x : Nat) : Fmt :=
  if x = 0 then .fp32 else if x = 1 then .bf16 else if x = 2 then .fp16 else if x = 3 then .e4m3
  else if x = 4 then .e5m2 else if x = 5 then .fp64 else .ls

/-- Step depth k and cycles per step (R112). -/
def stepDepth (x : Nat) : Nat := if x = 0 then 16 else if x ≤ 3 then 8 else if x ≤ 5 then 4 else 1
def stepCycles (x : Nat) : Nat := if x = 6 then 2 else if x = 7 then 8 else 1

/-- Plane mode of a format (R112, R114). -/
def fmtMode (x : Nat) : Nat := if x ≤ 3 then 3 else if x = 7 then 2 else 1

/-- Panel depth of an output format (R127). -/
def panelDepth (x : Nat) : Nat := if x = 1 ∨ x = 2 then 4 else if x = 3 ∨ x = 4 then 8 else 1

/-- Physical address of a 22-bit field in 64-byte units (R117). -/
def maAddr (d field : Nat) : Nat := winBase d (natField field 19 3) + field % 2 ^ 19 * 64

/-- Bit offset of element (r, c) of a matrix of `cols` columns in panel form of depth k, elements of `bits` bits
(R118). -/
def panelBit (cols k bits r c : Nat) : Nat :=
  ((r / 128) * ceilDiv cols k + c / k) * (128 * k * bits) + ((r % 128) * k + c % k) * bits

/-- The element of `bits` bits at a bit offset from a byte address: FP4 takes a nibble, low first. -/
def elemAt (s : State) (base bitOff bits : Nat) : Nat :=
  if bits = 4 then
    let b := (rdByte s (base + bitOff / 8)).toNat
    if bitOff % 8 = 0 then b % 16 else b / 16
  else rdNat s (base + bitOff / 8) (bits / 8)

/-- Puts of an element of `bits` bits at a bit offset. -/
def putElem (base bitOff bits v : Nat) : List Put :=
  if bits = 4 then [.nib (base + bitOff / 8) (decide (bitOff % 8 ≠ 0)) v]
  else (upTo (bits / 8)).map (fun i => .byte (base + bitOff / 8 + i) (BitVec.ofNat 8 (v / 256 ^ i)))

/-- Block size of a code (R129). -/
def blockSize (x : Nat) : Nat := 8 * 2 ^ x

/-- Byte offset of the scale of row r and index kk (R121). -/
def scaleOff (sd bs rmax K r kk : Nat) : Nat :=
  if sd = 0 then ((r / 128) * ceilDiv K bs + kk / bs) * 128 + r % 128 else kk * ceilDiv rmax bs + r / bs

/-- A scale byte applied to a value: 0xFF makes a quiet NaN, as R156 counts it. -/
def scaled (e : Nat) (v : FVal × Bool) : FVal × Bool :=
  if e = 255 then (.nan false, v.2) else (v.1.scale ((e : Int) - 127), v.2)

/-! ### Configuration fields of the array (R127, R129): index in the engine's configuration -/

/-- CADDR, CLAYOUT, CFMT, CPITCH, ANCHOR, PSHIFT, ASADDR, BSADDR, ABS, ASD, BBS, BSD. -/
def maCfgFields : List (Nat × Nat) :=
  [(32, 22), (54, 2), (56, 4), (60, 20), (80, 16), (96, 8), (32, 22), (54, 22), (76, 3), (79, 1), (80, 3), (83, 1)]

/-- The configuration as it stands. -/
def maCfg (s : State) (d : Nat) : List Nat := (upTo 12).map (engCfg s d 0)

/-- A field of a snapshot. -/
def cfgOf (c : List Nat) (i : Nat) : Nat := c.getD i 0

/-! ### MA_MMA (R124, R125, R134) -/

/-- The shape of an MA_MMA. -/
structure Mma where
  m : Nat
  n : Nat
  k : Nat
  fmt : Nat
  bl : Nat
  dst : Nat
  plane : Nat
  init : Nat
  sc : Nat
  deriving DecidableEq, Repr

/-- Its fields (R124). -/
def mmaOf (o : Order) : Mma :=
  { m := fld o 32 10 + 1, n := fld o 42 10 + 1, k := fld o 52 16 + 1, fmt := fld o 68 3, bl := fld o 74 1
    dst := fld o 119 1, plane := fld o 120 2, init := fld o 122 1, sc := fld o 123 1 }

/-- Depth, cycles per step, steps, step time. -/
def Mma.depth (q : Mma) : Nat := stepDepth q.fmt
def Mma.cps (q : Mma) : Nat := stepCycles q.fmt * (if q.bl = 1 then 2 else 1)
def Mma.steps (q : Mma) : Nat := ceilDiv q.k q.depth
def Mma.time (q : Mma) : Nat := q.steps * q.cps
/-- Column blocks and passes. -/
def Mma.nb (q : Mma) : Nat := ceilDiv q.n 128
def Mma.passes (q : Mma) : Nat := ceilDiv q.m 128 * q.nb
/-- Logical extent of pass p. -/
def Mma.mp (q : Mma) (p : Nat) : Nat := min 128 (q.m - 128 * (p / q.nb))
def Mma.np (q : Mma) (p : Nat) : Nat := min 128 (q.n - 128 * (p % q.nb))
/-- Drain time of pass p, and the pass period (R134). -/
def Mma.drain (q : Mma) (cfmt p : Nat) : Nat :=
  if q.dst = 1 then ceilDiv (q.mp p * q.np p * (cFmt cfmt).bits) 4096 else 0
def Mma.period (q : Mma) (cfmt : Nat) : Nat := max q.time (q.drain cfmt 0)
/-- Plane of pass p (R125). -/
def Mma.planeOf (q : Mma) (p : Nat) : Nat := if q.dst = 1 then Nat.xor q.plane (p % 2) else (q.plane + p) % 4

/-- A's element (r, kk) with its scale, and B's (kk, c), as values (R119, R121, R154). -/
def mmaA (s : State) (d : Nat) (o : Order) (cfg : List Nat) (r kk : Nat) : FVal × Bool :=
  let q := mmaOf o
  let f := aFmt q.fmt
  let v := decodeF f (elemAt s (maAddr d (fld o 75 22)) (panelBit q.k q.depth f.bits r kk) f.bits)
  if q.sc = 1 then
    scaled (rdByte s (maAddr d (cfgOf cfg 6) + scaleOff (cfgOf cfg 9) (blockSize (cfgOf cfg 8)) q.m q.k r kk)).toNat (v, false)
  else (v, false)

/-- B's element. -/
def mmaB (s : State) (d : Nat) (o : Order) (cfg : List Nat) (kk c : Nat) : FVal × Bool :=
  let q := mmaOf o
  let f := aFmt q.fmt
  let off := if q.bl = 1 then panelBit q.n q.depth f.bits kk c else panelBit q.k q.depth f.bits c kk
  let v := decodeF f (elemAt s (maAddr d (fld o 97 22)) off f.bits)
  if q.sc = 1 then
    scaled (rdByte s (maAddr d (cfgOf cfg 7) + scaleOff (cfgOf cfg 11) (blockSize (cfgOf cfg 10)) q.n q.k c kk)).toNat (v, false)
  else (v, false)

/-- The raw encodings decide 0 times infinity and signalling operands; a scale that is NaN makes the product a NaN
without a flag of its own (R156). `pshift` is 0 outside long sums (R127). -/
def mmaTerm (s : State) (d : Nat) (o : Order) (cfg : List Nat) (r c kk : Nat) : FVal × Bool :=
  let q := mmaOf o
  let f := aFmt q.fmt
  let rawA := decodeF f (elemAt s (maAddr d (fld o 75 22)) (panelBit q.k q.depth f.bits r kk) f.bits)
  let offB := if q.bl = 1 then panelBit q.n q.depth f.bits kk c else panelBit q.k q.depth f.bits c kk
  let rawB := decodeF f (elemAt s (maAddr d (fld o 97 22)) offB f.bits)
  let bad := (mulV rawA rawB).2
  let (p, _) := mulV (mmaA s d o cfg r kk).1 (mmaB s d o cfg kk c).1
  (p.scale (if fmtMode q.fmt = 3 then signedOf 8 (cfgOf cfg 5) else 0), bad)

/-- The terms of step j of pass p for local entry (i, l). -/
def mmaGroup (s : State) (d : Nat) (o : Order) (cfg : List Nat) (p j i l : Nat) : List (FVal × Bool) :=
  let q := mmaOf o
  let r := 128 * (p / q.nb) + i
  let c := 128 * (p % q.nb) + l
  (upTo (min q.depth (q.k - j * q.depth))).map (fun t => mmaTerm s d o cfg r c (j * q.depth + t))

/-- Step j of pass p, read at cycle `t` (R134): its contributions with the cycles they are written at, and the
counters; the step path stays occupied through its cycles and the gap before the next pass (R146). -/
def mmaStep (s : State) (d : Nat) (o : Order) (cfg : List Nat) (t p j : Nat) : List (Nat × Put) :=
  let q := mmaOf o
  let pl := q.planeOf p
  let fp := t - j * q.cps + 6
  let w := if j + 1 = q.steps then fp + q.time + 63 else fp + 64 + j * q.cps
  let first : List (Nat × Put) :=
    if j = 0 ∧ q.init = 1 then [(fp + 64, .plane d pl (fmtMode q.fmt) (BitVec.ofNat 16 (cfgOf cfg 4)))] else []
  let gap := if j + 1 = q.steps ∧ p + 1 < q.passes then q.period (cfgOf cfg 2) - q.time else 0
  let counts : List (Nat × Put) :=
    (t + 6, .count (ma d 0x38) 1) :: (upTo (q.cps + gap)).map (fun i => (t + 6 + i, .count (ma d 0x48) 1))
      ++ (if j + 1 = q.steps then [(w, .count (ma d 0x40) 1)] else [])
  let entries := (upTo (q.mp p)).flatMap (fun i => (upTo (q.np p)).map (fun l =>
    (w, Put.terms d pl (i * 128 + l) (fmtMode q.fmt) (mmaGroup s d o cfg p j i l))))
  counts ++ first ++ entries

/-! ### Drains and loads -/

/-- Convert an entry of a plane in `mode` to an output format (R133, R164); an entry of an UNDEFINED plane is zero. -/
def drainVal (mode : Nat) (anchor : Int) (cf : Nat) (c : Cell) : Nat × Flags :=
  let f := cFmt cf
  if mode = 3 then
    if f = .ls then (cellBits c, if c.sat then flSat else 0) else cellTo f anchor c
  else if f = .ls then (cellBits c, 0)
  else convV f .rne (decodeF (if mode = 2 then .fp64 else .fp32) c.l.toNat)

/-- Puts of a drained block: entries (i, l) below m, n of plane `pl`, as elements (r0 + i, c0 + l) of an output of
`M` by `N` (R128), with their flags. -/
def drainPuts (s : State) (d pl : Nat) (cfg : List Nat) (m n r0 c0 M N : Nat) : List Put :=
  let cf := cfgOf cfg 2
  let bits := (cFmt cf).bits
  let base := maAddr d (cfgOf cfg 0)
  let mode := planeMode s d pl
  let a := planeAnchor s d pl
  let one (i l : Nat) : List Put × Flags :=
    let (v, fl) := drainVal mode a cf (cellAt s d pl (i * 128 + l))
    let r := r0 + i
    let c := c0 + l
    let off :=
      if cfgOf cfg 1 = 1 then panelBit N (panelDepth cf) bits r c
      else if cfgOf cfg 1 = 2 then panelBit M (panelDepth cf) bits c r
      else r * cfgOf cfg 3 * 512 + c * bits
    (putElem base off bits v, fl)
  let all := (upTo m).flatMap (fun i => (upTo n).map (one i))
  all.flatMap Prod.fst ++ [.maFlags d (all.foldl (fun f x => f ||| x.2) 0)]

/-- Convert a source element into a plane entry (R133, R165); the flags of the conversion. -/
def loadVal (mode : Nat) (anchor : Int) (sf : Nat) (w : Nat) : Cell × Flags :=
  let f := cFmt sf
  if mode = 3 then
    if f = .ls then let c := lsLoad (bitsCell w); (c, if c.sat then flSat else 0)
    else contribute anchor Cell.zero (decodeF f w)
  else
    let (x, fl) := convV (if mode = 2 then .fp64 else .fp32) .rne (decodeF f w)
    ({ l := BitVec.ofNat 96 x, sat := false }, fl)

/-- Elements of chunk `i` of an MA_LOAD, 512 bytes at a time (R135), as they stand. -/
def loadChunk (s : State) (d : Nat) (o : Order) (i : Nat) : List Nat :=
  let m := fld o 36 7 + 1
  let n := fld o 43 7 + 1
  let bits := (cFmt (fld o 50 4)).bits
  let per := 4096 / bits
  let base := maAddr d (fld o 54 22)
  (upTo (min per (m * n - i * per))).map (fun t =>
    let x := i * per + t
    elemAt s base (x / n * fld o 76 20 * 512 + x % n * bits) bits)

/-- Puts of a finished MA_LOAD (R132). -/
def loadPuts (d : Nat) (o : Order) (cfg : List Nat) (els : List Nat) : List Put :=
  let mode := fld o 34 2
  let pl := fld o 32 2
  let n := fld o 43 7 + 1
  let anchor := signedOf 16 (cfgOf cfg 4)
  let vs := els.map (loadVal mode anchor (fld o 50 4))
  .plane d pl mode (BitVec.ofNat 16 (cfgOf cfg 4))
    :: (vs.zip (upTo vs.length)).map (fun x => Put.cell d pl (x.2 / n * 128 + x.2 % n) x.1.1)
    ++ [.maFlags d (vs.foldl (fun f x => f ||| x.2) 0)]

/-! ### The parts of main array orders -/

/-- What part `r.part` of a main array order in flight does when it is read (R134, R135): its writes, and the part
that follows. An MA_MMA has its steps in order and one part per drain from part 2^32 on. -/
def maPart (s : State) (d : Nat) (r : ReadOp) : List (Nat × Put) × Option ReadOp :=
  let o := r.order
  let op := fld o 24 8
  if op = 0x40 then
    let q := mmaOf o
    if 2 ^ 32 ≤ r.part then
      let p := r.part - 2 ^ 32
      let dp := q.drain (cfgOf r.cfg 2) p
      let puts := drainPuts s d (q.planeOf p) r.cfg (q.mp p) (q.np p) (128 * (p / q.nb)) (128 * (p % q.nb)) q.m q.n
      (puts.map (fun x => (r.time - 1 + dp + 4, x)), none)
    else
      let p := r.part / q.steps
      let j := r.part % q.steps
      let nextTime := if j + 1 = q.steps then r.time - j * q.cps + q.period (cfgOf r.cfg 2) else r.time + q.cps
      (mmaStep s d o r.cfg r.time p j,
       if r.part + 1 < q.passes * q.steps then some { r with part := r.part + 1, time := nextTime } else none)
  else if op = 0x44 then
    let m := fld o 34 7 + 1
    let n := fld o 41 7 + 1
    let dd := ceilDiv (m * n * (cFmt (cfgOf r.cfg 2)).bits) 4096
    ((drainPuts s d (fld o 32 2) r.cfg m n 0 0 m n).map (fun x => (r.time - 1 + dd + 4, x)), none)
  else if op = 0x45 then
    let m := fld o 36 7 + 1
    let n := fld o 43 7 + 1
    let dd := ceilDiv (m * n * (cFmt (fld o 50 4)).bits) 4096
    let els := r.got ++ loadChunk s d o r.part
    if r.part + 1 < dd then ([], some { r with part := r.part + 1, time := r.time + 1, got := els })
    else ((loadPuts d o r.cfg els).map (fun x => (r.time - r.part + dd + 6, x)), none)
  else ([], none)

/-- The reads an order of the main array starts with, its writes without reads, and the paths it occupies (R135). -/
def maStart (s : State) (d : Nat) (o : Order) : List ReadOp × List (Nat × Put) × List Span :=
  let c := fld o 0 24
  let op := fld o 24 8
  let cfg := maCfg s d
  let rd (t part : Nat) : ReadOp := { time := t, issue := c, order := o, cfg := cfg, part := part, got := [] }
  if op = 0x40 then
    let q := mmaOf o
    let P := q.period (cfgOf cfg 2)
    let drains := if q.dst = 1 then (upTo q.passes).map (fun p => rd (c + 6 + p * P + q.time + 64) (2 ^ 32 + p)) else []
    let dspans : List Span := drains.zip (upTo q.passes) |>.map (fun x =>
      { path := 1, issue := c, lo := x.1.time, hi := x.1.time + q.drain (cfgOf cfg 2) x.2 - 1, period := 1 })
    (rd c 0 :: drains, [],
     { path := 0, issue := c, lo := c + 6, hi := c + 6 + (q.passes - 1) * P + q.time - 1, period := P } :: dspans)
  else if op = 0x41 then
    ([], ((maCfgFields.take 6).zip (upTo 6)).map (fun x => (c + 1, Put.cfg x.2 (fld o x.1.1 x.1.2))), [])
  else if op = 0x42 then
    ([], ((maCfgFields.drop 6).zip (upTo 6)).map (fun x => (c + 1, Put.cfg (6 + x.2) (fld o x.1.1 x.1.2))), [])
  else if op = 0x43 then
    ([], ((upTo 4).filter (fun q => bitOf o (32 + q))).map (fun q =>
      (c + 2, Put.plane d q (fld o 36 2) (BitVec.ofNat 16 (fld o 38 16)))), [])
  else if op = 0x44 then
    let dd := ceilDiv ((fld o 34 7 + 1) * (fld o 41 7 + 1) * (cFmt (cfgOf cfg 2)).bits) 4096
    ([rd (c + 1) 0], [], [{ path := 1, issue := c, lo := c + 1, hi := c + dd, period := 1 }])
  else
    let dd := ceilDiv ((fld o 36 7 + 1) * (fld o 43 7 + 1) * (cFmt (fld o 50 4)).bits) 4096
    ([rd c 0], [], [{ path := 1, issue := c, lo := c, hi := c + dd - 1, period := 1 }])

end Sys2Proof.Machine
end

