-- ==== Sys2Proof/Machine/Transcend.lean ====
section
/-! DEFINITION. The functions of R172 to more bits than any format has, in fixed point, and the delivery of a result within
the bound of R172 of them. -/

namespace Sys2Proof.Machine

/-- Fraction bits that a format's functions are worked out to: the least subnormal keeps over 150 of them. -/
def workBits (f : Fmt) : Nat := f.mb + (-f.emin).toNat + 160

/-- One, with `p` fraction bits. -/
def fxOne (p : Nat) : Int := 2 ^ p

/-- x 2^e for a whole x, with `p` fraction bits. -/
def fxShift (p : Nat) (x e : Int) : Int := if 0 ≤ e + p then x * 2 ^ (e + p).toNat else x / 2 ^ (-(e + p)).toNat

/-- 1 + z a(k)/b(k) (1 + z a(k+1)/b(k+1) (...)), to `n` factors. -/
def fxSeries (p : Nat) (z : Int) (a b : Nat → Int) : Nat → Nat → Int
  | 0, _ => fxOne p
  | n + 1, k => fxOne p + z * a k * fxSeries p z a b n (k + 1) / (b k * fxOne p)

/-- Artanh of t, |t| at most 1/3. -/
def fxArtanh (p : Nat) (t : Int) : Int :=
  t * fxSeries p (t * t / fxOne p) (fun k => 2 * k - 1) (fun k => 2 * k + 1) (p / 3 + 20) 1 / fxOne p

/-- Log of 2. -/
def fxLn2 (p : Nat) : Int := 2 * fxArtanh p (fxOne p / 3)

/-- Arctan of 1/n. -/
def fxArctan (p : Nat) (n : Int) : Int :=
  fxSeries p (-(fxOne p) / (n * n)) (fun k => 2 * k - 1) (fun k => 2 * k + 1) (p / 4 + 20) 1 / n

/-- Pi, by Machin's formula. -/
def fxPi (p : Nat) : Int := 16 * fxArctan p 5 - 4 * fxArctan p 239

/-- Log of m 2^e, m not 0: the part of it below 2^k with k a whole number, and k. -/
def fxLogParts (p m : Nat) (e : Int) : Int × Int :=
  let n := bitLen m - 1
  let up := decide (4 * 2 ^ n ≤ 3 * m)
  let d : Int := 2 ^ (if up then n + 1 else n)
  (2 * fxArtanh p (((m : Int) - d) * fxOne p / (m + d)), e + n + (if up then 1 else 0))

/-- Log of m 2^e. -/
def fxLog (p m : Nat) (e : Int) : Int :=
  let (l, k) := fxLogParts p m e
  k * fxLn2 p + l

/-- Exp of v for v of `p` fraction bits: a whole number with `p` fraction bits and a power of two. -/
def fxExp (p : Nat) (v : Int) : Int × Int :=
  let n := v / fxLn2 p
  (fxSeries p (v - n * fxLn2 p) (fun _ => 1) (fun k => k) (p / 6 + 40) 1, n)

/-- The same in fixed point. -/
def fxExpFix (p : Nat) (v : Int) : Int :=
  let (x, n) := fxExp p v
  fxShift p x (n - p)

/-- Sine and cosine of v, |v| at most pi/4. -/
def fxSin (p : Nat) (v : Int) : Int :=
  v * fxSeries p (-(v * v / fxOne p)) (fun _ => 1) (fun k => 2 * k * (2 * k + 1)) (p / 10 + 40) 1 / fxOne p
def fxCos (p : Nat) (v : Int) : Int :=
  fxSeries p (-(v * v / fxOne p)) (fun _ => 1) (fun k => (2 * k - 1) * (2 * k)) (p / 10 + 40) 1

/-- Error function of v, |v| below 8. -/
def fxErf (p : Nat) (v : Int) : Int :=
  let c : Int := Nat.sqrt (4 * 2 ^ (3 * p) / (fxPi p).toNat)
  let s := fxSeries p (-(v * v / fxOne p)) (fun k => 2 * k - 1) (fun k => k * (2 * k + 1)) (p / 2 + 300) 1
  v * s / fxOne p * c / fxOne p

/-- A value worked out: sign, and magnitude m 2^e with a relative error below 2^-100. -/
abbrev Near := Bool × Nat × Int

/-- Fixed point as a value. -/
def nearOf (p : Nat) (x : Int) : Near := (decide (x < 0), x.natAbs, -(p : Int))

/-- Exp of v; beyond every format's range one power of two stands for it. -/
def nearExp (p : Nat) (v : Int) : Near :=
  if 16384 * fxOne p ≤ v then (false, 1, 16384)
  else if v ≤ -16384 * fxOne p then (false, 1, -16384)
  else
    let (x, n) := fxExp p v
    (false, x.natAbs, n - p)

/-- The whole number nearest to v, and what is left of v. -/
def fxSplit (p : Nat) (v : Int) : Int × Int :=
  let n := (2 * v + fxOne p) / (2 * fxOne p)
  (n, v - n * fxOne p)

/-- Sine, or cosine, with full argument reduction. -/
def nearSin (p : Nat) (cos neg : Bool) (m : Nat) (e : Int) : Near :=
  let g := p + 10 + (max 0 (e + (bitLen m : Int))).toNat
  let h := fxPi g / 2
  let v := fxShift g (if neg then -(m : Int) else m) e
  let n := (2 * v + h) / (2 * h)
  let r := fxShift p (v - n * h) (-(g : Int))
  let q := ((if cos then n + 1 else n) % 4).toNat
  let y := if q % 2 = 0 then fxSin p r else fxCos p r
  nearOf p (if 2 ≤ q then -y else y)

/-- Function `fn` of VFUNC (R184) at (-1)^neg m 2^e, where R173 gives no special result. -/
def nearFunc (p fn : Nat) (neg : Bool) (m : Nat) (e : Int) : Near :=
  let x : Int := if neg then -(m : Int) else m
  let huge := decide (14 ≤ e + (bitLen m : Int) - 1)
  let v := if huge then (if neg then -16384 * fxOne p else 16384 * fxOne p) else fxShift p x e
  let w : Int := if v < 0 then v else -v
  if fn = 0 then nearExp p v
  else if fn = 1 then
    let (n, r) := fxSplit p v
    let (_, y, g) := nearExp p (r * fxLn2 p / fxOne p)
    (false, y, g + n)
  else if fn = 2 then nearOf p (fxLog p m e)
  else if fn = 3 then
    let (l, k) := fxLogParts p m e
    nearOf p (k * fxOne p + l * fxOne p / fxLn2 p)
  else if fn = 4 then
    if e + (bitLen m : Int) ≤ -2 then nearOf p (2 * fxArtanh p (v * fxOne p / (2 * fxOne p + v)))
    else if e < 0 then nearOf p (fxLog p (2 ^ (-e).toNat + x).toNat e)
    else nearOf p (fxLog p (1 + x * 2 ^ e.toNat).toNat 0)
  else if fn = 5 then
    if huge && !neg then (false, 1, 16384) else nearOf p (fxExpFix p v - fxOne p)
  else if fn = 6 then nearSin p false neg m e
  else if fn = 7 then nearSin p true neg m e
  else if fn = 8 then
    let u := fxExpFix p (2 * w)
    let y := (fxOne p - u) * fxOne p / (fxOne p + u)
    nearOf p (if neg then -y else y)
  else if fn = 9 then
    if 3 ≤ e + (bitLen m : Int) - 1 then nearOf p (if neg then 1 - fxOne p else fxOne p - 1) else nearOf p (fxErf p v)
  else if fn = 10 then
    if neg then
      let (_, y, g) := nearExp p v
      (false, (y * fxOne p / (fxOne p + fxShift p y g)).toNat, g)
    else nearOf p (fxOne p * fxOne p / (fxOne p + fxExpFix p w))
  else
    let u := fxExpFix p w
    let l := 2 * fxArtanh p (u * fxOne p / (2 * fxOne p + u))
    nearOf p (if neg then l else l + fxShift p x e)

/-- The power of m 2^e to (-1)^t n 2^g. -/
def nearPow (p m : Nat) (e : Int) (t : Bool) (n : Nat) (g : Int) : Near :=
  let (l, k) := fxLogParts p m e
  let l2 := k * fxOne p + l * fxOne p / fxLn2 p
  let y : Int := if t then -(n : Int) else n
  let v := if 0 ≤ g then l2 * y * 2 ^ g.toNat else l2 * y / 2 ^ (-g).toNat
  if 16384 * fxOne p ≤ v then (false, 1, 16384)
  else if v ≤ -16384 * fxOne p then (false, 1, -16384)
  else
    let (n, r) := fxSplit p v
    let (_, y, g) := nearExp p (r * fxLn2 p / fxOne p)
    (false, y, g + n)

/-- Weight 2^q of one ulp of the value (R152). -/
def ulpOf (f : Fmt) (m : Nat) (e : Int) : Int := max (e + (bitLen m : Int) - 1) f.emin - (f.mb : Int)

/-- An encoding of (-1)^neg times the format's magnitudes counted from 0 lies within 2 ulp of m 2^e. -/
def within2 (f : Fmt) (m : Nat) (e : Int) (cand : Int) : Bool :=
  match decodeF f cand.natAbs with
  | .fin _ k g =>
    let q := ulpOf f m e
    let lo := min (min g e) (q - 40)
    let y : Int := m * 2 ^ (e - lo).toNat
    let c : Int := k * 2 ^ (g - lo).toNat
    let d := (if cand < 0 then -c else c) - y
    decide (cand.natAbs ≤ f.maxFin) && decide ((d.natAbs : Int) + 2 ^ (q - 40 - lo).toNat ≤ 2 * 2 ^ (q - lo).toNat)
  | _ => false

/-- The magnitude `w` is the value m 2^e itself, as far as the working precision tells. -/
def isExact (f : Fmt) (w m : Nat) (e : Int) : Bool :=
  match decodeF f w with
  | .fin _ k g =>
    let lo := min g e
    let d := (k : Int) * 2 ^ (g - lo).toNat - m * 2 ^ (e - lo).toNat
    decide (d.natAbs * 2 ^ (workBits f - 90) ≤ m * 2 ^ (e - lo).toNat)
  | _ => false

/-- Deliver a value within 2 ulp (R172): `choice` picks among the nearest encoding and the two to each side of it, where the
bound allows the one it picks. Where the value cannot be an encoding (`never`) the result is inexact. -/
def deliverNear (f : Fmt) (never : Bool) (v : Near) (choice : Nat) : Nat × Flags :=
  let (neg, m, e) := v
  let (w, fl) := roundFin f .rne false (2 * m + 1) (e - 1)
  if w = f.infBits then (withSign f neg w, fl)
  else
    let exact := !never && isExact f w m e
    let cand : Int := (w : Int) + (choice % 5 : Nat) - 2
    let r : Int := if within2 f m e cand then cand else w
    let fl := if exact && decide (r = w) then 0
      else flInexact ||| (if r.natAbs < 2 ^ f.mb ∨ (!exact ∧ fl &&& flUnderflow ≠ 0) then flUnderflow else 0)
    (withSign f (neg != decide (r < 0)) r.natAbs, fl)

end Sys2Proof.Machine
end

