-- ==== Sys2Proof/Machine/VectorArith.lean ====
section
/-! DEFINITION. Element arithmetic of the vector clusters: elementwise operations (R193), conversions (R194),
reductions (R195), bounded operations and functions (R172, R173), slices (R167, R169, R208 to R210). -/

namespace Sys2Proof.Machine

/-- Element format by FMT code (R187). -/
def vFmt (x : Nat) : Fmt :=
  match x with
  | 0 => .fp32 | 1 => .fp64 | 2 => .bf16 | 3 => .fp16 | 4 => .e4m3 | 5 => .e5m2 | 6 => .fp4 | 7 => .int8
  | 8 => .int32 | 9 => .u32 | _ => .ls

/-- Integer formats. -/
def Fmt.isInt (f : Fmt) : Bool := f = .int32 || f = .u32 || f = .int8

/-! ### Elementwise (R193) -/

/-- A 32-bit integer result. -/
def int32 (x : Int) : Nat := (BitVec.ofInt 32 x).toNat

/-- A + B, A - B, A B. -/
def arith2 (op : Nat) (f : Fmt) (a b : Nat) : Nat × Flags :=
  if f.isInt then
    let x : Int := a
    let y : Int := b
    (int32 (if op = 0x83 then x + y else if op = 0x84 then x - y else x * y), 0)
  else
    let x := decodeF f a
    let y := decodeF f b
    deliver f .rne (if op = 0x83 then addV x y else if op = 0x84 then addV x y.negate else mulV x y)

/-- A B + D. -/
def fma3 (f : Fmt) (a b d : Nat) : Nat × Flags :=
  if f.isInt then (int32 ((a : Int) * b + d), 0)
  else deliver f .rne (fmaV (decodeF f a) (decodeF f b) (decodeF f d))

/-- Whether `a` orders below `b`, with -0 below +0 (R193). -/
def belowV (f : Fmt) (a b : Nat) : Bool :=
  if f = .int32 then decide (signedOf 32 a < signedOf 32 b)
  else if f = .u32 then decide (a < b)
  else match cmpV (decodeF f a) (decodeF f b) with
    | some .lt => true
    | some .eq => Nat.testBit a f.signBit && !Nat.testBit b f.signBit
    | _ => false

/-- Minimum (0x87) or maximum (R193). -/
def minMax (isMax : Bool) (f : Fmt) (a b : Nat) : Nat × Flags :=
  let x := decodeF f a
  let y := decodeF f b
  if !f.isInt && (x.isNan || y.isNan) then (f.nan, if x.snan || y.snan then flInvalid else 0)
  else (if isMax then (if belowV f a b then b else a) else (if belowV f b a then b else a), 0)

/-- Comparison: 0 EQ, 1 NE, 2 LT, 3 LE (R193). -/
def compare2 (mod : Nat) (f : Fmt) (a b : Nat) : Nat × Flags :=
  if f.isInt then
    let lt := belowV f a b
    let r := if mod = 0 then decide (a = b) else if mod = 1 then decide (a ≠ b) else if mod = 2 then lt
      else lt || decide (a = b)
    (b2n r, 0)
  else
    let x := decodeF f a
    let y := decodeF f b
    match cmpV x y with
    | none => (b2n (decide (mod = 1)), if 2 ≤ mod || x.snan || y.snan then flInvalid else 0)
    | some o =>
      let r := if mod = 0 then decide (o = .eq) else if mod = 1 then decide (o ≠ .eq) else if mod = 2 then decide (o = .lt)
        else decide (o ≠ .gt)
      (b2n r, 0)

/-- Logic and shifts on 32-bit words (R184). -/
def logic2 (mod a b : Nat) : Nat :=
  let x : BitVec 32 := BitVec.ofNat 32 a
  let y : BitVec 32 := BitVec.ofNat 32 b
  let n := b % 32
  (match mod with
   | 0 => x &&& y | 1 => x ||| y | 2 => x ^^^ y | 3 => x &&& ~~~y | 4 => x <<< n | 5 => x >>> n
   | _ => x.sshiftRight n).toNat

/-- COPY, NEG, ABS (R193). -/
def unary1 (mod : Nat) (f : Fmt) (a : Nat) : Nat :=
  if mod = 0 then a
  else if f = .int32 then
    let x := signedOf 32 a
    int32 (if mod = 1 then -x else if x < 0 then -x else x)
  else
    let m := a % 2 ^ f.signBit
    if mod = 1 then (if Nat.testBit a f.signBit then m else m + 2 ^ f.signBit) else m

/-! ### Conversions (R194) -/

/-- To INT32: nearest, ties to even. -/
def toInt32 (f : Fmt) (a : Nat) : Nat × Flags :=
  match decodeF f a with
  | .nan _ => (0, flInvalid)
  | .inf n => (if n then 0x80000000 else 0x7FFFFFFF, flInvalid)
  | .fin n m e =>
    let (k, inex) := quantize .rne n m e 0
    let x : Int := if n then -(k : Int) else k
    if x < -2147483648 then (0x80000000, flInvalid)
    else if 2147483647 < x then (0x7FFFFFFF, flInvalid)
    else (int32 x, if inex then flInexact else 0)

/-- VCVT from `f` to `g` at an anchor. -/
def convert (f g : Fmt) (anchor : Int) (a : Nat) : Nat × Flags :=
  if f = .ls then cellTo g anchor (bitsCell a)
  else if g = .ls then
    let (c, fl) := contribute anchor Cell.zero (decodeF f a)
    (cellBits c, fl)
  else if g = .int32 then toInt32 f a
  else convV g .rne (decodeF f a)

/-! ### Division, roots and functions (R172, R173) -/

/-- Compare k 2^w with a positive value given by a test on magnitudes: for division m 2^e / (n 2^g), for the
square root of m 2^e, for its reciprocal. -/
def cmpDiv (m : Nat) (e : Int) (n : Nat) (g : Int) (k : Int) (w : Int) : Ordering :=
  if k < 0 then .lt
  else
    let x := minExp [.fin false (k.toNat * n) (w + g), .fin false m e]
    compare (atWeight x (.fin false (k.toNat * n) (w + g))) (atWeight x (.fin false m e))

/-- Square root: compare (k 2^w)^2 with m 2^e. -/
def cmpRoot (m : Nat) (e : Int) (k : Int) (w : Int) : Ordering := if k < 0 then .lt else cmpDiv m e 1 0 (k * k) (2 * w)

/-- Reciprocal root: compare (k 2^w)^2 m 2^e with 1. -/
def cmpRRoot (m : Nat) (e : Int) (k : Int) (w : Int) : Ordering :=
  if k < 0 then .lt else cmpDiv 1 0 m e (k * k) (2 * w)

/-- Magnitude `mag` of format `f` lies within 1 ulp of the positive value with leading exponent `top` that `cmp`
compares with (R152). -/
def within1 (f : Fmt) (top : Int) (cmp : Int → Int → Ordering) (mag : Nat) : Bool :=
  match decodeF f mag with
  | .fin _ m e =>
    let q := max top f.emin - (f.mb : Int)
    let w := min e q
    let k : Int := (m : Int) * 2 ^ (e - w).toNat
    let u : Int := 2 ^ (q - w).toNat
    decide (cmp (k - u) w ≠ .gt) && decide (cmp (k + u) w ≠ .lt)
  | _ => false

/-- Deliver a positive magnitude k 2^x (sticky last bit) within 1 ulp: the neighbour that `choice` names where the
bound allows it, else the nearest. -/
def bounded (f : Fmt) (neg : Bool) (k : Nat) (x : Int) (cmp : Int → Int → Ordering) (choice : Nat) : Nat × Flags :=
  let (w, fl) := roundFin f .rne false k x
  if w = f.infBits then (withSign f neg w, fl)
  else
    let cand := if choice = 0 then w - 1 else if choice = 1 then w else w + 1
    let top : Int := x + (bitLen k : Int) - 1
    let mag := if cand ≤ f.maxFin ∧ within1 f top cmp cand then cand else w
    match decodeF f mag with
    | .fin _ m e =>
      let exact := decide (cmp m e = .eq)
      (withSign f neg mag,
        if exact then 0 else flInexact ||| (if mag < 2 ^ f.mb ∨ fl &&& flUnderflow ≠ 0 then flUnderflow else 0))
    | _ => (withSign f neg mag, fl)

/-- The exact reciprocal square root of a nonzero magnitude with a sticky last bit. -/
def rrootOf (p m : Nat) (e : Int) : Nat × Int :=
  let odd := (e % 2).toNat
  let m2 := m * 2 ^ odd
  let n := p + 3 + bitLen m2
  let r := Nat.sqrt (2 ^ (2 * n) / m2)
  (2 * r + (if r * r * m2 = 2 ^ (2 * n) then 0 else 1), -((e - (odd : Int)) / 2) - (n : Int) - 1)

/-- VDIV 0x90, VSQRT 0x91, VRECIP 0x92, VRSQRT 0x93 in FP32 or FP64. -/
def rootOp (op code : Nat) (f : Fmt) (a b : Nat) : Nat × Flags :=
  let choice := Config.rootChoice op code a b
  let x := decodeF f a
  if op = 0x91 then
    match x with
    | .fin s m e => if m = 0 ∨ s then deliverPole f .rne (sqrtV f x)
        else let (k, y) := rootOf (f.mb + 1) m e; bounded f false k y (cmpRoot m e) choice
    | _ => deliverPole f .rne (sqrtV f x)
  else if op = 0x93 then
    match x with
    | .nan sn => deliver f .rne (.nan false, sn)
    | .inf s => if s then (f.nan, flInvalid) else (0, 0)
    | .fin s m e =>
      if m = 0 then (withSign f s f.infBits, flInvalid)
      else if s then (f.nan, flInvalid)
      else let (k, y) := rrootOf (f.mb + 1) m e; bounded f false k y (cmpRRoot m e) choice
  else
    let n := if op = 0x92 then FVal.fin false 1 0 else x
    let dv := if op = 0x92 then x else decodeF f b
    match n, dv with
    | .fin s m e, .fin t k g =>
      if m = 0 ∨ k = 0 then deliverPole f .rne (divV f n dv)
      else let (z, y) := quotient (f.mb + 1) m e k g; bounded f (s != t) z y (cmpDiv m e k g) choice
    | _, _ => deliverPole f .rne (divV f n dv)

/-- The value 1 in a format. -/
def oneOf (f : Fmt) : Nat := f.bias * 2 ^ f.mb

/-- Special arguments of VFUNC function `fn` (R173): the result where the function has one. -/
def funcSpecial (fn : Nat) (f : Fmt) (a : Nat) : Option (Nat × Flags) :=
  let inv : Option (Nat × Flags) := some (f.nan, flInvalid)
  let negInf := withSign f true f.infBits
  match decodeF f a with
  | .nan sn => some (f.nan, if sn then flInvalid else 0)
  | .inf s =>
    if fn = 0 ∨ fn = 1 then some (if s then 0 else f.infBits, 0)
    else if fn = 2 ∨ fn = 3 ∨ fn = 4 then (if s then inv else some (f.infBits, 0))
    else if fn = 5 then some (if s then withSign f true (oneOf f) else f.infBits, 0)
    else if fn = 6 ∨ fn = 7 then inv
    else if fn = 8 ∨ fn = 9 then some (withSign f s (oneOf f), 0)
    else if fn = 10 then some (if s then 0 else oneOf f, 0)
    else some (if s then 0 else f.infBits, 0)
  | .fin s m e =>
    if m = 0 then
      if fn = 0 ∨ fn = 1 ∨ fn = 7 then some (oneOf f, 0)
      else if fn = 2 ∨ fn = 3 then some (negInf, flInvalid)
      else if fn = 4 ∨ fn = 5 ∨ fn = 6 ∨ fn = 8 ∨ fn = 9 then some (withSign f s 0, 0)
      else none
    else if (fn = 2 ∨ fn = 3) ∧ s then inv
    else if (fn = 2 ∨ fn = 3) ∧ a = oneOf f then some (0, 0)
    else if fn = 4 ∧ s then
      match cmpV (.fin false m e) (.fin false 1 0) with
      | some .eq => some (negInf, flInvalid)
      | some .gt => inv
      | _ => none
    else none

/-- A finite value is an integer, and an odd one. -/
def isIntV (m : Nat) (e : Int) : Bool := decide (0 ≤ e) || decide (m % 2 ^ (-e).toNat = 0)
def isOddV (m : Nat) (e : Int) : Bool := isIntV m e && (if 0 < e then false else decide (m / 2 ^ (-e).toNat % 2 = 1))

/-- Special arguments of VPOW, as IEEE 754 recommends for pow (R173). -/
def powSpecial (f : Fmt) (a b : Nat) : Option (Nat × Flags) :=
  let x := decodeF f a
  let y := decodeF f b
  let zero (s : Bool) : Option (Nat × Flags) := some (withSign f s 0, 0)
  let inf (s : Bool) : Option (Nat × Flags) := some (withSign f s f.infBits, 0)
  let one : Option (Nat × Flags) := some (oneOf f, 0)
  if x.snan || y.snan then some (f.nan, flInvalid)
  else if y.isZero then one
  else if a = oneOf f then one
  else if x.isNan || y.isNan then some (f.nan, 0)
  else
    match x, y with
    | .fin s m _, .fin t n g =>
      if m = 0 then
        (if t then some (withSign f (s && isOddV n g) f.infBits, flInvalid) else zero (s && isOddV n g))
      else if s && !isIntV n g then some (f.nan, flInvalid)
      else none
    | .fin _ m e, .inf t =>
      match cmpV (.fin false m e) (.fin false 1 0) with
      | some .eq => one
      | some .gt => if t then zero false else inf false
      | _ => if t then (if m = 0 then some (f.infBits, 0) else inf false) else zero false
    | .inf s, .fin t n g => if t then zero (s && isOddV n g) else inf (s && isOddV n g)
    | .inf _, .inf t => if t then zero false else inf false
    | _, _ => some (f.nan, 0)

/-- VFUNC and VPOW in FP32 or FP64: special results, else an encoding within 2 ulp that the part picks (R172, entry 20). A
function at an argument other than 0 takes a value that the format has only where it is exp2, log2 or pow. -/
def funcOp (fn code : Nat) (f : Fmt) (pow : Bool) (a b : Nat) : Nat × Flags :=
  match if pow then powSpecial f a b else funcSpecial fn f a with
  | some r => r
  | none =>
    let p := workBits f
    let choice := Config.funcChoice fn code a b
    match decodeF f a, decodeF f b with
    | .fin s m e, .fin t n g =>
      if pow then
        let (_, y, x) := nearPow p m e t n g
        deliverNear f false (s && isOddV n g, y, x) choice
      else deliverNear f (decide (fn ≠ 1) && decide (fn ≠ 3) && decide (m ≠ 0)) (nearFunc p fn s m e) choice
    | .fin s m e, _ => deliverNear f (decide (fn ≠ 1) && decide (fn ≠ 3) && decide (m ≠ 0)) (nearFunc p fn s m e) choice
    | _, _ => (f.nan, 0)

/-- The operations of R172 in any of their formats: BF16 and FP16 compute in FP32 and round once. -/
def bounded172 (op mod code : Nat) (a b : Nat) : Nat × Flags :=
  let f := vFmt code
  let run (c : Nat) (g : Fmt) (x y : Nat) : Nat × Flags :=
    if op = 0x94 then funcOp mod c g false x y
    else if op = 0x95 then funcOp 12 c g true x y
    else rootOp op c g x y
  if f = .bf16 ∨ f = .fp16 then
    let (w, fl) := run 0 .fp32 (convV .fp32 .rne (decodeF f a)).1 (convV .fp32 .rne (decodeF f b)).1
    let sn := (decodeF f a).snan || (op = 0x90 || op = 0x95) && (decodeF f b).snan
    if sn then (f.nan, flInvalid)
    else
      let (v, fl2) := convV f .rne (decodeF .fp32 w)
      (v, if fl &&& flInvalid = 0 then fl ||| fl2 else flInvalid)
  else run code f a b

/-! ### Reductions (R195) -/

/-- Combine neighbours of one level; a child without a sibling passes. -/
def pairUp {α : Type} (node : α → α → α × Flags) : List α → List α × Flags
  | x :: y :: t => let (z, f) := node x y; let (r, g) := pairUp node t; (z :: r, f ||| g)
  | l => (l, 0)

/-- The binary tree by element index; the root has its own rounding. -/
def tree {α : Type} (node root : α → α → α × Flags) : Nat → List α → Option α × Flags
  | 0, l => (l.head?, 0)
  | fuel + 1, l =>
    match l with
    | [] => (none, 0)
    | [x] => (some x, 0)
    | [x, y] => let (z, f) := root x y; (some z, f)
    | l => let (r, f) := pairUp node l; let (z, g) := tree node root fuel r; (z, f ||| g)

/-- lsAdd with WINDOW_SAT where the addition itself sets SAT (R163, R211). -/
def lsAddF (x y : Cell) : Cell × Flags :=
  let z := lsAdd x y
  let lim : Int := 2 ^ 95 - 1
  let t := x.l.toInt + y.l.toInt
  (z, if z.l ≠ nfCell ∧ (lim < t ∨ t < -lim) then flSat else 0)

/-- VRED of encodings: 0 SUM, 1 MIN, 2 MAX. -/
def reduce (mod : Nat) (f : Fmt) (xs : List Nat) : Nat × Flags :=
  if mod ≠ 0 then
    match xs with
    | [] => (0, 0)
    | x :: t => t.foldl (fun a y => let (z, g) := minMax (decide (mod = 2)) f a.1 y; (z, a.2 ||| g)) (minMax (decide (mod = 2)) f x x)
  else if f = .ls then
    let (c, g) := tree lsAddF lsAddF 32 (xs.map bitsCell)
    (cellBits (c.getD Cell.zero), g)
  else if f.isInt then (int32 (xs.foldl (fun (a : Int) (x : Nat) => a + x) 0), 0)
  else if f = .fp64 then
    let (c, g) := tree (arith2 0x83 .fp64) (arith2 0x83 .fp64) 32 xs
    (c.getD 0, g)
  else
    match xs with
    | [x] => (x, 0)
    | _ =>
      -- FP32 node values; the leaves of BF16 and FP16 are exact in FP32
      let leaf (x : Nat) : Nat := if f = .fp32 then x else (convV .fp32 .rne (decodeF f x)).1
      let sn := if xs.any (fun x => (decodeF f x).snan) then flInvalid else 0
      let root (x y : Nat) : Nat × Flags := deliver f .rne (addV (decodeF .fp32 x) (decodeF .fp32 y))
      let (c, g) := tree (arith2 0x83 .fp32) root 32 (xs.map leaf)
      (c.getD 0, g ||| sn)

/-! ### Slices (R167, R169, R208 to R210) -/

/-- The exponent of a line of FP64 encodings; none when it is non-finite (R167). -/
def sliceExp (xs : List Nat) : Option Int :=
  let vs := xs.map (decodeF .fp64)
  if vs.any (fun v => !v.isFin) then none
  else
    some (vs.foldl (fun a v => match v with
      | .fin _ m e =>
        if m = 0 then a
        else
          let t : Int := e + (bitLen m : Int)
          let x := if m * 128 ≤ 127 * 2 ^ bitLen m then t else t + 1
          match a with
          | none => some x
          | some y => some (max x y)
      | _ => a) (none : Option Int) |>.getD 0)

/-- The marker of a non-finite line (R208). -/
def lineMarker : Int := -1048576

/-- Slice digit `i` of an element under exponent `e` (R167). -/
def sliceDigit (x : Nat) (e : Int) (i : Nat) : Int :=
  if e = lineMarker then 0
  else
    match decodeF .fp64 x with
    | .fin n m q =>
      let w := min q (e - 7 * ((i : Int) + 1)) - 1
      let v : Int := (if n then -(m : Int) else m) * 2 ^ (q - w).toNat
      let step (r : Int) (j : Nat) : Int × Int :=
        let u : Int := e - 7 * ((j : Int) + 1)
        let a := rnInt r (w - u)
        (r - a * 2 ^ (u - w).toNat, a)
      ((upTo (i + 1)).foldl (fun (p : Int × Int) j => step p.1 j) (v, 0)).2
    | _ => 0

/-- VRECOMB of one element (R169, R210). -/
def recombine (anchor : Int) (c : Cell) (b : Int) : Nat × Flags :=
  let sat := if c.sat then flSat else 0
  if b < -4096 then (Fmt.fp64.nan, flInvalid ||| sat)
  else
    let (w, fl) := cellTo .fp64 (anchor + b) { c with sat := false }
    (w, fl ||| sat)

end Sys2Proof.Machine
end

