-- ==== Sys2Proof/Machine/VectorOps.lean ====
section
/-! DEFINITION. What vector orders read and write, part by part (chapter 06): operands (R179, R182, R186), chunks and
their cycles (R188, R190, R191), dots (R196 to R200), accumulator reads (R203, R204), moves (R205 to R207), slices. -/

namespace Sys2Proof.Machine

/-! ### Operands -/

/-- KIND and LOC of an operand field (R186). -/
def opKind (x : Nat) : Nat := natField x 20 2
def opLoc (x : Nat) : Nat := natField x 0 20

/-- Element `i` of an operand in format `f`; `packed` selects the packed form of a register (R179); a KIND 2 operand
is element 0 for every lane. -/
def readEl (s : State) (d c : Nat) (f : Fmt) (packed : Bool) (x i : Nat) : Nat :=
  if opKind x = 0 then
    let r := opLoc x % 64
    let w (v j : Nat) : Nat := (lane s d c v j).toNat
    if packed then
      let g := 32 / f.bits
      natField (w r (i / g)) (i % g * f.bits) f.bits
    else if f = .ls then w r i + 2 ^ 32 * w (r + 1) i + 2 ^ 64 * w (r + 2) i + 2 ^ 96 * (w (r + 3) i % 2)
    else if f = .fp64 then w r i + 2 ^ 32 * w (r + 1) i
    else w r i % 2 ^ f.bits
  else
    let j := if opKind x = 2 then 0 else i
    elemAt s (winBase d c + opLoc x * 32) (j * f.bits) f.bits

/-- Puts of element `i` of a destination (R179: wide form has its high bits zero, INT8 is sign-extended). -/
def writeEl (d c : Nat) (f : Fmt) (packed : Bool) (x i v : Nat) : List Put :=
  if opKind x = 0 then
    let r := opLoc x % 64
    if packed then
      let g := 32 / f.bits
      [.lane (laneKey d c r (i / g)) (i % g * f.bits) f.bits v]
    else if f = .ls then
      (upTo 4).map (fun k => .lane (laneKey d c (r + k) i) 0 32 (if k = 3 then v / 2 ^ 96 % 2 else v / 2 ^ (32 * k)))
    else if f = .fp64 then (upTo 2).map (fun k => .lane (laneKey d c (r + k) i) 0 32 (v / 2 ^ (32 * k)))
    else [.lane (laneKey d c r i) 0 32 (if f = .int8 then toSigned 32 (signedOf 8 v) else v % 2 ^ f.bits)]
  else putElem (winBase d c + opLoc x * 32) (i * f.bits) f.bits v

/-- Every bit of element `i` of D as it stands in D's form (R193, VSEL). -/
def rawEl (s : State) (d c : Nat) (f : Fmt) (x i : Nat) : Nat :=
  if opKind x = 0 then
    let n := if f = .ls then 4 else if f = .fp64 then 2 else 1
    (upTo n).foldl (fun a k => a + (lane s d c (opLoc x % 64 + k) i).toNat) 0
  else readEl s d c f false x i

/-! ### The general layout (R185) -/

/-- Fields of the general layout. -/
def vN (o : Order) : Nat := fld o 32 14 + 1
def vFgrp (o : Order) : Nat := fld o 46 4
def vCode (o : Order) : Nat := fld o 50 4
def vDst (o : Order) : Nat := fld o 54 22
def vA (o : Order) : Nat := fld o 76 22
def vB (o : Order) : Nat := fld o 98 22
def vMod (o : Order) : Nat := fld o 120 8

/-- The operands an order has: format and packing of A, of B, of D as a source, of the destination. -/
structure Shape where
  a : Fmt × Bool
  b : Option (Fmt × Bool)
  dsrc : Option (Fmt × Bool)
  dst : Fmt × Bool
  deriving DecidableEq, Repr

/-- Operand shapes by opcode. -/
def vShape (o : Order) : Shape :=
  let op := fld o 24 8
  let f := vFmt (vCode o)
  let w (x : Fmt) : Fmt × Bool := (x, false)
  if op = 0x82 then { a := w f, b := none, dsrc := none, dst := w (vFmt (vMod o % 16)) }
  else if op = 0xA0 then { a := w .u32, b := some (w .u32), dsrc := some (w .fp32), dst := w .fp32 }
  else if op = 0xAE then { a := w .ls, b := some (w .int32), dsrc := none, dst := w .fp64 }
  else if op = 0xAA then { a := w f, b := none, dsrc := none, dst := (f, true) }
  else if op = 0xAB then { a := (f, true), b := none, dsrc := none, dst := w f }
  else if op = 0xA8 then { a := w f, b := some (w .u32), dsrc := none, dst := w f }
  else
    let two := [0x83, 0x84, 0x85, 0x86, 0x87, 0x88, 0x89, 0x8A, 0x8B, 0x90, 0x95, 0xA3].contains op
      || (op = 0xA9 && decide (4 ≤ vMod o % 8))
    { a := w f, b := if two then some (w f) else none
      dsrc := if op = 0x86 ∨ op = 0x8A then some (w f) else none
      dst := if op = 0x89 then w .int32 else w f }

/-- Class rate and latency (R191); for VRED the latency is 24 after its last chunk. -/
def vClass (o : Order) : Nat × Nat :=
  let op := fld o 24 8
  let f64 := vCode o = 1 || (op = 0x82 && vMod o % 16 = 1)
  if [0x83, 0x84, 0x85, 0x86].contains op then (if f64 then (2, 6) else (1, 4))
  else if op = 0xA8 then (if f64 then 2 else 1, 4)
  else if [0x90, 0x91, 0x92, 0x93].contains op then (if f64 then (16, 24) else (4, 12))
  else if op = 0x94 ∨ op = 0x95 then (if f64 then (32, 40) else (8, 16))
  else if op = 0xA0 then (1, 6)
  else if op = 0xAE then (2, 6)
  else if op = 0x98 then (if vCode o = 10 then 4 else if f64 then 2 else 1, 24)
  else (if f64 then 2 else 1, 2)

/-- Cycles per chunk q (R190). -/
def vQ (o : Order) : Nat :=
  let sh := vShape o
  let src (x : Nat) (p : Option (Fmt × Bool)) : Nat :=
    match p with
    | some (f, _) => if opKind x = 1 then 128 * f.bits else 0
    | none => 0
  let sr := src (vA o) (some sh.a) + src (vB o) sh.b + src (vDst o) sh.dsrc
  let sw := src (vDst o) (some sh.dst)
  max (vClass o).1 (max (ceilDiv sr 4096) (ceilDiv sw 4096))

/-- Chunks m (R188). -/
def vM (o : Order) : Nat := ceilDiv (vN o) 1024

/-- Offset of a chunk's write cycle from its read (R190). -/
def vLat (o : Order) : Nat :=
  let sh := vShape o
  let mem (x : Nat) (p : Option (Fmt × Bool)) : Bool := p.isSome && (opKind x = 1 || opKind x = 2)
  let st := mem (vA o) (some sh.a) || mem (vB o) sh.b || mem (vDst o) sh.dsrc
  (vClass o).2 + (if st then 6 else 0) + (if opKind (vDst o) = 1 then 2 else 0)

/-- The result of one element of an elementwise order (R193 to R196, R201, R210). -/
def vElem (o : Order) (anchor : Int) (a b dd raw : Nat) : Nat × Flags :=
  let op := fld o 24 8
  let f := vFmt (vCode o)
  let mod := vMod o
  if op = 0x82 then convert f (vFmt (mod % 16)) anchor a
  else if op = 0x83 ∨ op = 0x84 ∨ op = 0x85 then arith2 op f a b
  else if op = 0x86 then fma3 f a b dd
  else if op = 0x87 then minMax false f a b
  else if op = 0x88 then minMax true f a b
  else if op = 0x89 then compare2 mod f a b
  else if op = 0x8A then (if raw = 0 then b else a, 0)
  else if op = 0x8B then (logic2 mod a b, 0)
  else if op = 0x8C then (unary1 mod f a, 0)
  else if 0x90 ≤ op ∧ op ≤ 0x95 then bounded172 op mod (vCode o) a b
  else if op = 0xA0 then
    let w := f.bits
    chainGroup .fp32 dd ((upTo (32 / w)).map (fun t =>
      mulV (decodeF f (natField a (t * w) w)) (decodeF f (natField b (t * w) w))))
  else if op = 0xA3 then let (c, g) := lsAddF (bitsCell a) (bitsCell b); (cellBits c, g)
  else if op = 0xAE then recombine anchor (bitsCell a) (signedOf 32 b)
  else (a, 0)

/-- Source index of VSHUF within a chunk: which source (false A), and the index (R206). -/
def shuffle (mod i : Nat) : Bool × Nat :=
  let p := mod / 8
  match mod % 8 with
  | 0 => (false, Nat.xor i (2 ^ p))
  | 1 => (false, i / 2 ^ p * 2 ^ p)
  | 2 => (false, (i + 2 ^ p) % 1024)
  | 3 => (false, 1023 - i)
  | 4 => (decide (i % 2 = 1), i / 2)
  | 5 => (decide (i % 2 = 1), 512 + i / 2)
  | 6 => if i < 512 then (false, 2 * i) else (true, 2 * i - 1024)
  | _ => if i < 512 then (false, 2 * i + 1) else (true, 2 * i - 1023)

/-- One element of chunk `j`, at index `i` of the order, with its flags. -/
def vResult (s : State) (d c : Nat) (o : Order) (cfg : List Nat) (i : Nat) : Nat × Flags :=
  let op := fld o 24 8
  let sh := vShape o
  let rd (x : Nat) (p : Fmt × Bool) (k : Nat) : Nat := readEl s d c p.1 p.2 x k
  if op = 0xA8 then
    let b := rd (vB o) (.u32, false) i
    (if Nat.testBit b 31 then 0 else rd (vA o) sh.a (b % 1024), 0)
  else if op = 0xA9 then
    let (other, k) := shuffle (vMod o) (i % 1024)
    let x := if other then vB o else vA o
    let j := i / 1024 * 1024 + k
    (if opKind x = 1 ∧ vN o ≤ j then 0 else rd x sh.a j, 0)
  else
    let b := match sh.b with
      | some p => rd (vB o) p i
      | none => 0
    let dd := match sh.dsrc with
      | some p => rd (vDst o) p i
      | none => 0
    vElem o (signedOf 16 (cfgOf cfg 0)) (rd (vA o) sh.a i) b dd
      (if op = 0x8A then rawEl s d c sh.dst.1 (vDst o) i else 0)

/-- Chunk `j` of an order of the general layout: its puts (R188, R211). -/
def vChunk (s : State) (d c : Nat) (o : Order) (cfg : List Nat) (j : Nat) : List Put :=
  let sh := vShape o
  let rs := (upTo (min 1024 (vN o - 1024 * j))).map (fun k => (1024 * j + k, vResult s d c o cfg (1024 * j + k)))
  rs.flatMap (fun r => writeEl d c sh.dst.1 sh.dst.2 (vDst o) r.1 r.2.1)
    ++ [.vcFlags d c (vFgrp o) (rs.foldl (fun a r => a ||| r.2.2) 0)]

/-! ### Line orders (R197 to R200, R208, R209) -/

/-- Fields of the line layout. -/
def lK (o : Order) : Nat := fld o 32 14 + 1
def lLines (o : Order) : Nat := fld o 46 10 + 1
def lFmt (o : Order) : Fmt := aFmt (fld o 56 3)
def lFgrp (o : Order) : Nat := fld o 59 4
def lMode (o : Order) : Nat := fld o 63 1
def lDst (o : Order) : Nat := fld o 64 22
def lSrc (o : Order) : Nat := fld o 86 20
def lAux (o : Order) : Nat := fld o 106 20
def lAcc (o : Order) : Nat := fld o 126 1
def lSc (o : Order) : Nat := fld o 127 1

/-- Terms per cycle and cycles of VGEMV (R200). -/
def gemvP (o : Order) : Nat := if lFmt o = .bf16 ∨ lFmt o = .fp16 then 2 else 4
def gemvT (o : Order) : Nat := ceilDiv (lK o) (gemvP o)

/-- Format of VGEMV's D. -/
def gemvD (o : Order) : Fmt := if lMode o = 0 then .ls else .fp32

/-- What VGEMV reads for term `k`: X, its scale, then W and its scale for each line (R198). -/
def gemvTerm (s : State) (d c : Nat) (o : Order) (cfg : List Nat) (k : Nat) : List Nat :=
  let f := lFmt o
  let g := 32 / f.bits
  let L := lLines o
  let at' (units off bits : Nat) : Nat := elemAt s (winBase d c + units * 32) off bits
  let b := k / blockSize (cfgOf cfg 1)
  let sc (units off : Nat) : Nat := if lSc o = 1 then at' units (8 * off) 8 else 127
  [at' (lAux o) (k * f.bits) f.bits, sc (cfgOf cfg 3) b]
    ++ (upTo L).flatMap (fun r => [at' (lSrc o) ((k / g * L + r) * 32 + k % g * f.bits) f.bits, sc (cfgOf cfg 2) (b * L + r)])

/-- The terms of line `r` from what was read (R154, R156). -/
def gemvLine (o : Order) (got : List Nat) (r : Nat) : List (FVal × Bool) :=
  let f := lFmt o
  let L := lLines o
  let stride := 2 + 2 * L
  (upTo (lK o)).map (fun k =>
    let x (i : Nat) : Nat := got.getD (k * stride + i) 0
    let raw := mulV (decodeF f (x (2 + 2 * r))) (decodeF f (x 0))
    let p := scaled (x 1) (scaled (x (2 + 2 * r + 1)) raw)
    p)

/-- Split into consecutive groups of `n`. -/
def groups {α : Type} (n : Nat) : Nat → List α → List (List α)
  | 0, _ => []
  | fuel + 1, l => if l.isEmpty then [] else l.take n :: groups n fuel (l.drop n)

/-- y of one line (R199). -/
def gemvOut (o : Order) (cfg : List Nat) (d0 : Nat) (ts : List (FVal × Bool)) : Nat × Flags :=
  if lMode o = 1 then
    (groups 4 (lK o) ts).foldl (fun a g => let (w, f) := chainGroup .fp32 a.1 g; (w, a.2 ||| f)) (d0, 0)
  else
    let (c, f) := ts.foldl (fun a t => let (x, g) := contribute (signedOf 16 (cfgOf cfg 0)) a.1 t.1; (x, a.2 ||| g))
      (bitsCell d0, 0)
    (cellBits c, f)

/-- Puts of a finished VGEMV. -/
def gemvPuts (d c : Nat) (o : Order) (cfg : List Nat) (got : List Nat) : List Put :=
  let L := lLines o
  let d0 := if lAcc o = 1 then got.take L else []
  let terms := if lAcc o = 1 then got.drop L else got
  let ys := (upTo L).map (fun r => gemvOut o cfg (d0.getD r 0) (gemvLine o terms r))
  ((upTo L).zip ys).flatMap (fun x => writeEl d c (gemvD o) false (lDst o) x.1 x.2.1)
    ++ [.vcFlags d c (lFgrp o) (ys.foldl (fun a y => a ||| y.2) 0)]

/-- Element (r, k) of the FP64 source of VSLEXP and VSLICE (R208). -/
def sliceSrc (s : State) (d c : Nat) (o : Order) (k : Nat) : List Nat :=
  (upTo (lLines o)).map (fun r => elemAt s (winBase d c + lSrc o * 32) ((k * lLines o + r) * 64) 64)

/-- Elements of line `r` from the columns read. -/
def sliceLine (o : Order) (cols : List Nat) (r : Nat) : List Nat :=
  (upTo (lK o)).map (fun k => cols.getD (k * lLines o + r) 0)

/-- The flags of the FP64 elements that VSLEXP and VSLICE read: INVALID for a signalling NaN (R150, R211). -/
def slicePut (d c : Nat) (o : Order) (cols : List Nat) : Put :=
  .vcFlags d c (lFgrp o) (if (cols.take (lK o * lLines o)).any (fun x => (decodeF .fp64 x).snan) then flInvalid else 0)

/-- Puts of a finished VSLEXP: the exponents as INT32. -/
def slexpPuts (d c : Nat) (o : Order) (cols : List Nat) : List Put :=
  (upTo (lLines o)).flatMap (fun r =>
    writeEl d c .int32 false (opLoc (lDst o) % 64) r (int32 ((sliceExp (sliceLine o cols r)).getD lineMarker)))
    ++ [slicePut d c o cols]

/-- Puts of a finished VSLICE: INT8 in panel form of depth 8 (R209). -/
def slicePuts (d c : Nat) (o : Order) (exps cols : List Nat) : List Put :=
  (upTo (lLines o)).flatMap (fun r => ((upTo (lK o)).zip (sliceLine o cols r)).flatMap (fun x =>
    putElem (winBase d c + opLoc (lDst o) * 32) (panelBit (lK o) 8 8 r x.1) 8
      (toSigned 8 (sliceDigit x.2 (signedOf 32 (exps.getD r 0)) (natField (lAux o) 6 3)))))
    ++ [slicePut d c o cols]

/-! ### VACC (R202 to R204) -/

/-- One plane entry in a register format; UNDEFINED gives zero, a pair that R133 does not permit a NaN. -/
def accVal (mode : Nat) (anchor : Int) (code : Nat) (cl : Cell) : Nat × Flags :=
  let f := vFmt code
  if mode = 0 then (0, 0)
  else if mode = 3 then
    if f = .ls then (cellBits cl, if cl.sat then flSat else 0)
    else if code ≤ 5 then cellTo f anchor cl
    else (f.nan, flInvalid)
  else if mode = 1 ∧ (code = 0 ∨ (2 ≤ code ∧ code ≤ 5)) ∨ mode = 2 ∧ code ≤ 1 then
    convV f .rne (decodeF (if mode = 2 then .fp64 else .fp32) cl.l.toNat)
  else if f = .ls then (nfCell.toNat, flInvalid)
  else (f.nan, flInvalid)

/-- Puts of entries 256 j to 256 j + 255. -/
def vaccChunk (s : State) (d c : Nat) (o : Order) (j : Nat) : List Put :=
  let q := fld o 76 2
  let start := fld o 78 14
  let rs := (upTo (min 256 (vN o - 256 * j))).map (fun k =>
    (256 * j + k, accVal (planeMode s d q) (planeAnchor s d q) (vCode o) (cellAt s d q (start + 256 * j + k))))
  rs.flatMap (fun r => writeEl d c (vFmt (vCode o)) false (vDst o) r.1 r.2.1)
    ++ [.vcFlags d c (vFgrp o) (rs.foldl (fun a r => a ||| r.2.2) 0)]

/-! ### Configuration (R189) -/

/-- ANCHOR, BS, WSADDR, XSADDR, then SPACE and BASE of G0 to G7. -/
def vcCfg (s : State) (d c : Nat) : List Nat := (upTo 20).map (engCfg s d (1 + c))

/-! ### The parts of vector orders -/

/-- What the next part of a vector order in flight does when it is read: its writes and the part that follows. -/
def vcPart (s : State) (d c : Nat) (r : ReadOp) : List (Nat × Put) × Option ReadOp :=
  let o := r.order
  let op := fld o 24 8
  if op = 0xA1 then
    let first := if r.part = 0 ∧ lAcc o = 1 then (upTo (lLines o)).map (readEl s d c (gemvD o) false (lDst o)) else []
    let ks := (upTo (min (gemvP o) (lK o - r.part * gemvP o))).map (fun t => r.part * gemvP o + t)
    let got := r.got ++ first ++ ks.flatMap (gemvTerm s d c o r.cfg)
    if r.part + 1 < gemvT o then ([], some { r with part := r.part + 1, time := r.time + 1, got := got })
    else
      let w := r.time - r.part + gemvT o + (if opKind (lDst o) = 0 then 12 else
        13 + ceilDiv (lLines o * (gemvD o).bits) 32768)
      ((gemvPuts d c o r.cfg got).map (fun p => (w, p)), none)
  else if op = 0xAC ∨ op = 0xAD then
    let first := if r.part = 0 ∧ op = 0xAD then (upTo (lLines o)).map (readEl s d c .int32 false (lAux o % 64)) else []
    let got := r.got ++ first ++ sliceSrc s d c o r.part
    if r.part + 1 < lK o then ([], some { r with part := r.part + 1, time := r.time + 2, got := got })
    else
      let c0 := r.time - 2 * r.part
      if op = 0xAC then ((slexpPuts d c o got).map (fun p => (c0 + 2 * lK o + 12, p)), none)
      else
        ((slicePuts d c o (got.take (lLines o)) (got.drop (lLines o))).map (fun p => (c0 + 2 * lK o + 14, p)), none)
  else if op = 0xA2 then
    ((vaccChunk s d c o r.part).map (fun p => (r.time + (if opKind (vDst o) = 1 then 6 else 4), p)),
     if r.part + 1 < ceilDiv (vN o) 256 then some { r with part := r.part + 1, time := r.time + 1 } else none)
  else if op = 0x98 then
    let f := vFmt (vCode o)
    let els := (upTo (min 1024 (vN o - 1024 * r.part))).map (fun k => readEl s d c f false (vA o) (1024 * r.part + k))
    let got := r.got ++ els
    if r.part + 1 < vM o then ([], some { r with part := r.part + 1, time := r.time + vQ o, got := got })
    else
      let (v, fl) := reduce (vMod o) f got
      let puts : List Put := writeEl d c f false (vDst o) 0 v ++ [.vcFlags d c (vFgrp o) fl]
      let w := r.time + vQ o + 24
      (puts.map (fun p => (w, p)), none)
  else
    ((vChunk s d c o r.cfg r.part).map (fun p => (r.time + vLat o, p)),
     if r.part + 1 < vM o then some { r with part := r.part + 1, time := r.time + vQ o } else none)

/-- Cycles in which a vector order occupies the lane path (R192). -/
def vBusy (o : Order) : Nat :=
  let op := fld o 24 8
  if op = 0x80 ∨ op = 0x81 then 1
  else if op = 0xA1 then gemvT o
  else if op = 0xAC ∨ op = 0xAD then 2 * lK o
  else if op = 0xA2 then ceilDiv (vN o) 256
  else vM o * vQ o

/-- The reads a vector order starts with, its writes without reads, and the paths it occupies. -/
def vcStart (s : State) (d c : Nat) (o : Order) : List ReadOp × List (Nat × Put) × List Span :=
  let t := fld o 0 24
  let op := fld o 24 8
  let span (p : Nat) : Span := { path := p, issue := t, lo := t, hi := t + vBusy o - 1, period := 1 }
  if op = 0x80 then
    ([], [(t + 1, .cfg 0 (fld o 32 16)), (t + 1, .cfg 1 (fld o 48 3)), (t + 1, .cfg 2 (fld o 52 20)),
          (t + 1, .cfg 3 (fld o 72 20))], [span 2])
  else if op = 0x81 then
    ([], [(t + 1, .cfg (4 + 2 * fld o 32 3) (fld o 35 1)), (t + 1, .cfg (5 + 2 * fld o 32 3) (fld o 64 64))], [span 2])
  else
    ([{ time := t, issue := t, order := o, cfg := vcCfg s d c, part := 0, got := [] }], [],
     if op = 0xA2 then [span 2, span 3] else [span 2])

end Sys2Proof.Machine
end

