-- ==== Sys2Proof/Machine/StreamCache.lean ====
section
/-! DEFINITION. The stream caches (R213 to R220) and indexed access through them (R222). Fills and write-backs are
not coherent requests (R96, R215): they reach memory itself. -/

namespace Sys2Proof.Machine

/-- Cluster index. -/
def clIx (d c : Nat) : Nat := d * 8 + c

/-- Entry `i` of a stream cache. -/
def scGet (s : State) (cl i : Nat) : SCEntry := Store.get SCEntry.none s.scEntries (cl * 48 + i)

/-- Put an entry. -/
def scPut (s : State) (cl i : Nat) (e : SCEntry) : State :=
  { s with scEntries := Store.set SCEntry.none s.scEntries (cl * 48 + i) e }

/-- Entries that serve as cache: all but those that are memory, which are taken from 47 downward (R214). -/
def scSize (s : State) (cl : Nat) : Nat := 48 - memEntries s (cl / 8) (cl % 8)

/-- Stream `n` of a cluster. -/
def scStream (s : State) (cl n : Nat) : SCStream := Store.get SCStream.none s.scStreams (cl * 16 + n % 16)

/-- Change a stream's detectors. -/
def setStream (s : State) (cl n : Nat) (f : SCStream → SCStream) : State :=
  { s with scStreams := Store.set SCStream.none s.scStreams (cl * 16 + n % 16) (f (scStream s cl n)) }

/-- A stream whose stores do not allocate: four whole entries written in its present run (R218). -/
def noAlloc (st : SCStream) : Bool :=
  match st.runTo with
  | some t => decide (4 ≤ t / 4096 - ceilDiv st.runFrom 4096)
  | none => false

/-- VC_SC_STATUS follows the cache (R225). -/
def scRefresh (s : State) (cl : Nat) : State :=
  let es := (upTo 48).map (scGet s cl)
  let k := vc (cl / 8) (cl % 8) 0x38
  let s := wrF s k 1 6 (es.filter (fun e => !decide (e.valid = 0))).length
  let s := wrF s k 7 6 (es.filter (fun e => !decide (e.dirty = 0))).length
  let s := wrF s k 13 3 (min 5 (rdF s (vc (cl / 8) (cl % 8) 0x18) 0 3))
  wrF s k 16 16 ((upTo 16).foldl (fun a n => if noAlloc (scStream s cl n) then a + 2 ^ n else a) 0)

/-- The entry that holds a virtual page. -/
def scFind (s : State) (cl page : Nat) : Option Nat :=
  (upTo 48).find? (fun i => decide ((scGet s cl i).page = page) && !decide ((scGet s cl i).valid = 0))

/-- The bytes of sector `k` of an entry. -/
def sectorBytes (e : SCEntry) (k : Nat) : List Byte := (upTo 32).map (fun j => Store.get memDefault e.data (32 * k + j))

/-- Write the dirty sectors of an entry that `which` selects back to memory. -/
def scWriteBack (s : State) (cl i : Nat) (which : Nat → Bool) : State :=
  let e := scGet s cl i
  let ks := (upTo 128).filter (fun k => bitOf e.dirty k && which k)
  let s := ks.foldl (fun s k => wrBytes s (e.ppage * 4096 + 32 * k) (sectorBytes e k)) s
  scPut s cl i { e with dirty := ks.foldl (fun w k => putBit w k false) e.dirty }

/-- Drop the sectors of an entry that `which` selects. -/
def scDrop (s : State) (cl i : Nat) (which : Nat → Bool) : State :=
  let e := scGet s cl i
  let v := ((upTo 128).filter which).foldl (fun w k => putBit w k false) e.valid
  if v = 0 then { s with scEntries := Store.erase (cl * 48 + i) s.scEntries }
  else scPut s cl i { e with valid := v, dirty := e.dirty &&& v }

/-- Write back and drop every entry of a cluster, and reset its detectors (R216). -/
def scFlush (s : State) (cl : Nat) : State :=
  let s := (upTo 48).foldl (fun s i => scDrop (scWriteBack s cl i (fun _ => true)) cl i (fun _ => true)) s
  scRefresh { s with scStreams := Store.eraseRange s.scStreams (cl * 16) (cl * 16 + 16)
                     scPre := s.scPre.filter (fun p => !decide (p.1 = cl)) } cl

/-- Every entry of a cluster is invalid. -/
def scEmpty (s : State) (cl : Nat) : Bool := (Store.keysIn s.scEntries (cl * 48) (cl * 48 + 48)).isEmpty

/-- An entry for a page: the one it has, a free one, or the least recently used one, written back first (R213). -/
def scAlloc (s : State) (cl page ppage : Nat) : State × Nat :=
  match scFind s cl page with
  | some i => (s, i)
  | none =>
    let n := scSize s cl
    let free := (upTo n).find? (fun i => decide ((scGet s cl i).valid = 0))
    let lru := (upTo n).foldl (fun a i => if (scGet s cl i).used < (scGet s cl a).used then i else a) 0
    let i := free.getD lru
    let s := scWriteBack s cl i (fun _ => true)
    (scPut s cl i { page := page, ppage := ppage, valid := 0, dirty := 0, data := [], used := s.scClock }, i)

/-- Fill sector `k` of entry `i` from memory. -/
def scFill (s : State) (cl i k : Nat) : State :=
  let e := scGet s cl i
  scPut s cl i { e with valid := putBit e.valid k true
                        data := putBytes e.data (32 * k) (rdBytes s (e.ppage * 4096 + 32 * k) 32) }

/-- Mark an entry as used now. -/
def scTouch (s : State) (cl i : Nat) : State :=
  let e := scGet s cl i
  scPut { s with scClock := s.scClock + 1 } cl i { e with used := s.scClock + 1 }

/-- Sector address `a` is present. -/
def scHas (s : State) (cl a : Nat) : Bool :=
  match scFind s cl (a / 4096) with
  | some i => bitOf (scGet s cl i).valid (a % 4096 / 32)
  | none => false

/-- A miss at `x` reaches the stride detector (R219). -/
def strideMiss (s : State) (cl n x : Nat) : State :=
  setStream s cl n (fun st =>
    match st.lastMiss with
    | none => { st with lastMiss := some x }
    | some p =>
      let d : Int := (x : Int) - p
      if st.stride = some d then { st with lastMiss := some x, trained := true }
      else { st with lastMiss := some x, stride := some d, trained := false })

/-- Request a sector that is not present. -/
def prefetch (s : State) (cl a : Nat) : State :=
  let a := a / 32 * 32
  if scHas s cl a || s.scPre.contains (cl, a) then s
  else
    let d := cl / 8
    let e := 1 + cl % 8
    let va : W64 := BitVec.ofNat 64 a
    let ok := match translate s d e va false with
      | .ok _ => true
      | .error _ => false
    let s := afterTranslate s d e va false
    if ok then { s with scPre := s.scPre ++ [(cl, a)] } else s

/-- What a trained detector requests at an access to `x` (R219). -/
def stridePrefetch (s : State) (cl n x : Nat) : State :=
  let st := scStream s cl n
  match st.trained, st.stride with
  | true, some d =>
    if d.natAbs ≤ 32 then
      (upTo 256).foldl (fun s k => prefetch s cl ((x / 4096 + 1) * 4096 + 32 * k)) s
    else
      (upTo 4).foldl (fun s k => let a : Int := (x : Int) + d * ((k : Int) + 1); if a < 0 then s else prefetch s cl a.toNat) s
  | _, _ => s

/-- Sectors that [a, a + n) touches, as addresses. -/
def sectors (a n : Nat) : List Nat :=
  if n = 0 then [] else (upTo ((a + n - 1) / 32 + 1 - a / 32)).map (fun i => (a / 32 + i) * 32)

/-- The sector at `a` is present, or its prefetch is in flight (R219). -/
def scComing (s : State) (cl a : Nat) : Bool := scHas s cl a || s.scPre.contains (cl, a)

/-- An access of stream `n` at `x` to sectors, of which its order has fetched `got` already: a hit where every sector is present
or coming, else a miss, which the stride detector sees (R219). One access counts once, however many sectors it touches (entry
120). -/
def scCount (s : State) (cl n x : Nat) (as got : List Nat) : State :=
  let reg (o : Nat) := vc (cl / 8) (cl % 8) o
  if as.all (fun a => got.contains a || scComing s cl a) then inc s (reg 0x40) else strideMiss (inc s (reg 0x48)) cl n x

/-- Bring the sector at `a`, whose physical page is `pp`, into the cache (R213); a prefetch in flight arrives (R219). -/
def scNeed (s : State) (cl a pp : Nat) : State :=
  let s :=
    if scHas s cl a then s
    else
      let s := if s.scPre.contains (cl, a) then inc { s with scPre := s.scPre.erase (cl, a) } (vc (cl / 8) (cl % 8) 0x50) else s
      let (s, i) := scAlloc s cl (a / 4096) pp
      scFill s cl i (a % 4096 / 32)
  match scFind s cl (a / 4096) with
  | some i => scTouch s cl i
  | none => s

/-- Physical page of a virtual address, 0 where it does not translate. -/
def ppageOf (s : State) (d c a : Nat) (write : Bool) : Nat :=
  match translate s d (1 + c) (BitVec.ofNat 64 a) write with
  | .ok p => p / 4096
  | .error _ => 0

/-- The bytes of [a, a + n) as the cache holds them. -/
def scBytes (s : State) (cl a n : Nat) : List Byte :=
  (upTo n).map (fun k =>
    match scFind s cl ((a + k) / 4096) with
    | some i => Store.get memDefault (scGet s cl i).data ((a + k) % 4096)
    | none => 0)

/-- What an order has fetched through the stream cache: sector addresses with their bytes. -/
abbrev Fetched := List (Nat × List Byte)

/-- A load of [a, a + len) of stream `n` after its pages translated; a sector that the order has fetched already is not fetched
again (R222). -/
def scLoadFrom (s : State) (d c n a len : Nat) (got : Fetched) : State × Fetched × List Byte :=
  let cl := clIx d c
  let as := sectors a len
  let s := scCount (afterVirt s d (1 + c) a len false) cl n a as (got.map Prod.fst)
  let new := as.filter (fun x => !(got.map Prod.fst).contains x)
  let (s, got) := new.foldl (fun (p : State × Fetched) x =>
    let s := scNeed p.1 cl x (ppageOf p.1 d c x false)
    (s, p.2 ++ [(x, scBytes s cl x 32)])) (s, got)
  let byte (x : Nat) : Byte := match got.find? (fun g => decide (g.1 = x / 32 * 32)) with
    | some g => g.2.getD (x % 32) 0
    | none => 0
  (scRefresh (stridePrefetch s cl n a) cl, got, (upTo len).map (fun i => byte (a + i)))

/-- A load of [a, a + len) through the stream cache. -/
def scLoad (s : State) (d c n a len : Nat) : List Byte × State :=
  let (s, _, l) := scLoadFrom s d c n a len []
  (l, s)

/-- The bytes of a store at `a` that lie in the sector at `x`, with the address of the first. -/
def storePart (x : Nat) (w : Nat × List Byte) : Option (Nat × List Byte) :=
  let lo := max w.1 x
  let hi := min (w.1 + w.2.length) (x + 32)
  if lo < hi then some (lo, slice w.2 (lo - w.1) (hi - lo)) else none

/-- Put stores into the sector at `x`, which the cache holds. -/
def scPutSector (s : State) (cl x : Nat) (ws : List (Nat × List Byte)) : State :=
  match scFind s cl (x / 4096) with
  | some i =>
    let e := scGet s cl i
    scPut s cl i { e with dirty := putBit e.dirty (x % 4096 / 32) true
                          data := (ws.filterMap (storePart x)).foldl (fun m p => putBytes m (p.1 % 4096) p.2) e.data }
  | none => s

/-- Stores of one order through the stream cache, in their order (R218, R219): a sector that the order brings in takes the bytes
of its later stores too, and is not fetched again (R222). `done` are the sectors brought in. -/
def scStores (d c n : Nat) : State → List Nat → List (Nat × List Byte) → State
  | s, _, [] => scRefresh s (clIx d c)
  | s, done, (a, l) :: rest =>
    let cl := clIx d c
    let s := afterVirt s d (1 + c) a l.length true
    let st := scStream s cl n
    let seq := decide (st.runTo = some a)
    let as := sectors a l.length
    let direct := if seq && noAlloc st then as.filter (fun x => !done.contains x && !scComing s cl x) else []
    let s := setStream s cl n (fun st =>
      if seq then { st with runTo := some (a + l.length) } else { st with runFrom := a, runTo := some (a + l.length) })
    let s := scCount s cl n a as done
    let s := if direct.isEmpty then s else inc s (vc d c 0x58)
    let s := direct.foldl (fun s x => match storePart x (a, l) with
      | some p => wrBytes s (ppageOf s d c x true * 4096 + p.1 % 4096) p.2
      | none => s) s
    let new := as.filter (fun x => !done.contains x && !direct.contains x)
    let s := new.foldl (fun s x => scPutSector (scNeed s cl x (ppageOf s d c x true)) cl x ((a, l) :: rest)) s
    scStores d c n (stridePrefetch s cl n a) (done ++ new) rest

/-- A store through the stream cache. -/
def scStore (s : State) (d c n a : Nat) (l : List Byte) : State := scStores d c n s [] [(a, l)]

/-- A range operation over [base, base + len): 1 clean, 2 invalidate, 3 both; entries in ascending index (R220). -/
def scRangeOp (s : State) (cl op base len : Nat) : State :=
  let s := (upTo 48).foldl (fun s i =>
    let e := scGet s cl i
    if e.valid = 0 then s
    else
      let hit (k : Nat) : Bool := decide (base < e.page * 4096 + 32 * k + 32) && decide (e.page * 4096 + 32 * k < base + len)
      let s := if op = 1 ∨ op = 3 then scWriteBack s cl i hit else s
      if op = 2 ∨ op = 3 then scDrop s cl i hit else s) s
  scRefresh s cl

/-! ### Gather and scatter (R221, R222) -/

/-- Element size in bytes, base, space and stream of a gather or scatter. -/
def gsSize (o : Order) : Nat := (vFmt (vCode o)).bits / 8
def gsSpace (o : Order) (cfg : List Nat) : Nat := cfgOf cfg (4 + 2 * fld o 98 3)
def gsBase (o : Order) (cfg : List Nat) : Nat := cfgOf cfg (5 + 2 * fld o 98 3)

/-- Address of element `i`. -/
def gsAddr (o : Order) (cfg got : List Nat) (i : Nat) : Nat := gsBase o cfg + got.getD i 0 * gsSize o

/-- The first translation fault among the elements: cause and virtual address. -/
def gsFault (s : State) (d c : Nat) (o : Order) (cfg got : List Nat) (write : Bool) : Option (Nat × Nat) :=
  if gsSpace o cfg = 1 then none
  else (upTo (vN o)).findSome? (fun i =>
    match virtPieces s d (1 + c) (gsAddr o cfg got i) (gsSize o) write with
    | .ok _ => none
    | .error e => some e)

/-- Bytes [x, x + n) of a cluster's window: 0 in its reserved part (R181); none outside its 32 MiB. -/
def gsWindow (s : State) (d c x n : Nat) : Option (List Byte) :=
  if x + n ≤ 0x2000000 then
    some ((upTo n).map (fun i => if inWindow s d c (x + i) then rdByte s (winBase d c + x + i) else 0))
  else none

/-- VGATHER's memory accesses, elements in order: what they leave, the element values, and whether one lay outside
the window. -/
def gatherAll (s : State) (d c : Nat) (o : Order) (cfg got : List Nat) : State × List Nat × Bool :=
  let r := (upTo (vN o)).foldl (fun (a : State × Fetched × List Nat × Bool) i =>
    let x := gsAddr o cfg got i
    let n := gsSize o
    if gsSpace o cfg = 1 then
      match gsWindow a.1 d c x n with
      | some l => (a.1, a.2.1, a.2.2.1 ++ [leNat l], a.2.2.2)
      | none => (a.1, a.2.1, a.2.2.1 ++ [0], true)
    else
      let (s, f, l) := scLoadFrom a.1 d c (fld o 101 4) x n a.2.1
      (s, f, a.2.2.1 ++ [leNat l], a.2.2.2)) (s, [], [], false)
  (r.1, r.2.2)

/-- VSCATTER's accesses; the data follow the indices in `got`. -/
def scatterAll (s : State) (d c : Nat) (o : Order) (cfg got : List Nat) : State × Bool :=
  let n := gsSize o
  let ws := (upTo (vN o)).map (fun i => (gsAddr o cfg got i, leBytes n (got.getD (vN o + i) 0)))
  if gsSpace o cfg = 1 then
    ws.foldl (fun (a : State × Bool) w =>
      if w.1 + n ≤ 0x2000000 then
        ((w.2.zip (upTo n)).foldl (fun s b =>
          if inWindow s d c (w.1 + b.2) then wrBytes s (winBase d c + w.1 + b.2) [b.1] else s) a.1, a.2)
      else (a.1, true)) (s, false)
  else (scStores d c (fld o 101 4) s [] ws, false)

end Sys2Proof.Machine
end

