-- ==== Sys2Proof/Machine/Engine.lean ====
section
/-! DEFINITION. The issue contract (R68 to R72): how an engine reaches a cycle, what may issue, and the orders every
engine carries (NOP, signal orders). -/

namespace Sys2Proof.Machine

/-! ### The update sequencer's own reads (R270) -/

/-- W_ADDR, M_ADDR, G_ADDR, MASK_ADDR, ROWS, COLS, WFMT, MFMT, GKIND, MASK_EN, WORK. -/
def usCfg (s : State) (d : Nat) : List Nat := (upTo 11).map (engCfg s d 14)

/-- UP_RULE reads its 128 bytes at c and writes the row at c + 8. -/
def usPart (s : State) (d : Nat) (r : ReadOp) : List (Nat × Put) × Option ReadOp :=
  let a := winBase d (fld r.order 38 3) + fld r.order 41 20 * 32
  ((upTo 16).map (fun i =>
    (r.time + 8, Put.reg (up d (0x1000 + 128 * fld r.order 32 6 + 8 * i)) (BitVec.ofNat 64 (rdNat s (a + 8 * i) 8)))), none)

/-- UP_ADDR, UP_SHAPE and UP_RULE. -/
def usStart (s : State) (d : Nat) (o : Order) : List ReadOp × List (Nat × Put) × List Span :=
  let c := fld o 0 24
  let op := fld o 24 8
  if op = 0xE0 then ([], [(c + 1, .cfg (fld o 32 2) (fld o 64 52))], [])
  else if op = 0xE1 then
    ([], (([(32, 20), (52, 16), (68, 1), (69, 1), (70, 2), (72, 1), (73, 22)]).zip (upTo 7)).map (fun x =>
      (c + 1, Put.cfg (4 + x.2) (fld o x.1.1 x.1.2))), [])
  else ([{ time := c, issue := c, order := o, cfg := [], part := 0, got := [] }], [], [])

/-! ### Reaching a cycle (R69) -/

/-- The next part of an order in flight of engine `e`. -/
def enginePart (s : State) (d e : Nat) (r : ReadOp) : List (Nat × Put) × Option ReadOp :=
  if e = 0 then maPart s d r
  else if e ≤ 8 then vcPart s d (e - 1) r
  else if e = 14 then usPart s d r
  else ([], none)

/-- Perform one read: its writes and its next part go into the pipeline. -/
def doRead (s : State) (d e : Nat) (r : ReadOp) : State :=
  let (ws, nx) := enginePart s d e r
  setEng s d e (fun x =>
    { x with writes := x.writes ++ ws.map (fun w => { time := w.1, issue := r.issue, put := w.2 })
             reads := x.reads ++ nx.toList })

/-- Perform the reads due at cycle `t`, after the writes of that cycle (R69). -/
def doReads (s : State) (d e t : Nat) : State :=
  let due := (eng s d e).reads.filter (fun r => decide (r.time ≤ t))
  let s := setEng s d e (fun x => { x with reads := x.reads.filter (fun r => !decide (r.time ≤ t)) })
  due.foldl (fun s r => doRead s d e r) s

/-- The least of some numbers. -/
def minOf : List Nat → Option Nat
  | [] => none
  | x :: t => match minOf t with
    | none => some x
    | some y => some (min x y)

/-- The next cycle at which something in flight happens. -/
def nextEvent (s : State) (d e : Nat) : Option Nat :=
  minOf ((eng s d e).reads.map ReadOp.time ++ (eng s d e).writes.map WriteOp.time)

/-- Let everything due up to cycle `t` happen, event by event. -/
def runTo : Nat → State → Nat → Nat → Nat → State
  | 0, s, _, _, _ => s
  | fuel + 1, s, d, e, t =>
    match nextEvent s d e with
    | none => s
    | some x => if x ≤ t then runTo fuel (doReads (doWrites s d e x) d e x) d e t else s

/-- Engine `e` reaches cycle `t` (R68). -/
def reach (s : State) (d e t : Nat) : State :=
  let s := runTo (t + 1) s d e t
  setEng s d e (fun x => { x with cycle := max x.cycle t, spans := x.spans.filter (fun p => decide (t ≤ p.hi)) })

/-! ### Issuing -/

/-- A window that engine `e` must not pass at cycle `c`: a call on its cluster (R230), an update that names it
(R273), a gather, scatter or range operation of its own (R223), an open collective (R406). -/
def windowBlocks (s : State) (d e c : Nat) : Bool :=
  (eng s d e).win.isSome
    || s.calls.any (fun k => decide (k.die = d) && decide (e = k.cluster + 1) && !k.ended && decide (k.issue ≤ c))
    || s.upds.any (fun u => decide (u.die = d) && !u.ended && decide (u.issue ≤ c)
      && (decide (1 ≤ e) && decide (e ≤ 8) && bitOf u.order (38 + (e - 1)) || (decide (e = 0) && bitOf u.order 89)))
    || (decide (e = 13) && s.colls.any (fun k => decide (k.die = d) && !k.ended))

/-- Engine `e` may issue at cycle `c`: its die runs a segment of more than `c` cycles, it is not held, and `c` is still to come
(R66, R68). -/
def slotOpen (s : State) (d e c : Nat) : Bool :=
  decide (ttState s d = 4) && decide (c < segLen s d) && (eng s d e).hold.isNone && decide ((eng s d e).next ≤ c)
    && decide ((eng s d e).cycle ≤ c) && !(eng s d e).arrived && !windowBlocks s d e c

/-- The next order that engine `e` has still to issue in this segment (R63, R102). -/
def nextOrder (s : State) (d e : Nat) : Option Order :=
  (curOrders s d e).find? (fun o => decide ((eng s d e).next ≤ fld o 0 24))

/-- Engine `e` may issue order `o` at its ISSUE: it is the next one of the engine's stream. -/
def canIssue (s : State) (d e : Nat) (o : Order) : Bool := slotOpen s d e (fld o 0 24) && decide (nextOrder s d e = some o)

/-- Engine `e` may reach cycle `t`: it is not held, its window has not ended by then (R223), and it passes no order that it has
still to issue, nor reaches one that a window bars (R68, R71, R230, R273). -/
def mayReach (s : State) (d e t : Nat) : Bool :=
  (eng s d e).hold.isNone
    && (match (eng s d e).win with
      | some w => decide (t < w.stop)
      | none => true)
    && (match nextOrder s d e with
      | some o => decide (t < fld o 0 24) || (decide (t = fld o 0 24) && !windowBlocks s d e t)
      | none => true)

/-- An order from its parts (R66). -/
def mkOrder (op : Nat) (issue : BitVec 24) (ops : BitVec 96) : Order :=
  BitVec.ofNat 128 (issue.toNat + 2 ^ 24 * op + 2 ^ 32 * ops.toNat)

/-- Engine `e` reaches cycle `c` and has issued there. -/
def atIssue (s : State) (d e c : Nat) : State := setEng (reach s d e c) d e (fun x => { x with next := c + 1 })

/-- Engine `e` issues at cycle `c` and is held from the MAIN cycle of that issue: what is in flight for engine cycle `c` happens
in the cycle that releases it (R68, R71, R77). -/
def holdAt (s : State) (d e c : Nat) (h : Hold) : State :=
  let s := if c = 0 then s else reach s d e (c - 1)
  setHold (setEng s d e (fun x => { x with next := c + 1 })) d e (some h)

/-- A held engine goes on in the engine cycle of its last issue (R68). -/
def letGo (s : State) (d e : Nat) : State := reach (setHold s d e none) d e ((eng s d e).next - 1)

/-- Put an order's reads, writes and spans into the pipeline; what it reads at its ISSUE it reads now. -/
def launch (s : State) (d e c : Nat) (p : List ReadOp × List (Nat × Put) × List Span) : State :=
  let s := setEng s d e (fun x =>
    { x with reads := x.reads ++ p.1
             writes := x.writes ++ p.2.1.map (fun w => { time := w.1, issue := c, put := w.2 })
             spans := x.spans ++ p.2.2 })
  runTo 1 s d e c

/-- NOP (R67): the stream has one at this ISSUE. -/
def execNop (d : ADie) (e : EngineIx) (issue : BitVec 24) (s : State) : Host.Outcome State Fault Refusal :=
  .next (match (curOrders s d e).find? (fun o => decide (fld o 0 32 = issue.toNat)) with
    | some o => if canIssue s d e o then atIssue s d e issue.toNat else s
    | none => s)

/-! ### Signal orders (R76 to R78) -/

/-- A booked flit that carries a remote SET or ADD of an order waits for its path's next slot (R78, R385). -/
def remoteSignal (s : State) (o : Order) (add : Bool) : State :=
  sendBooked s 1 (fld o 56 8) (fld o 48 8) 0
    (bookedPayload (if add then 5 else 4) 0 0 0 (fld o 32 14) 0 0 (fld o 64 64) [])

/-- SIG_SET and SIG_ADD: every earlier write up to the issue cycle is in place, and the operation leaves. -/
def signalOut (s : State) (d e : Nat) (o : Order) (add : Bool) : State :=
  let s := atIssue s d e (fld o 0 24)
  if bitOf o 46 then remoteSignal s o add
  else sendSig s { sig := fld o 32 14, add := add, value := BitVec.ofNat 64 (fld o 64 64), order := some (e, d)
                   asker := 0, askId := 0, setMode := false }

/-- A signal wait: it passes at once, or the engine is held (R77). -/
def signalWait (s : State) (d e : Nat) (o : Order) (op : Nat) : State :=
  let operand : W64 := BitVec.ofNat 64 (fld o 64 64)
  if waitHolds op (sigVal s (fld o 32 14)) operand then atIssue s d e (fld o 0 24)
  else holdAt s d e (fld o 0 24) (.wait op (fld o 32 14) operand false)

/-- SIG_SET. -/
def execSigSet (d : ADie) (e : EngineIx) (issue : BitVec 24) (ops : BitVec 96) (s : State) :
    Host.Outcome State Fault Refusal :=
  .next (if canIssue s d e (mkOrder 0x10 issue ops) then signalOut s d e (mkOrder 0x10 issue ops) false else s)

/-- SIG_ADD. -/
def execSigAdd (d : ADie) (e : EngineIx) (issue : BitVec 24) (ops : BitVec 96) (s : State) :
    Host.Outcome State Fault Refusal :=
  .next (if canIssue s d e (mkOrder 0x11 issue ops) then signalOut s d e (mkOrder 0x11 issue ops) true else s)

/-- SIG_WAIT_GE. -/
def execSigWaitGe (d : ADie) (e : EngineIx) (issue : BitVec 24) (ops : BitVec 96) (s : State) :
    Host.Outcome State Fault Refusal :=
  .next (if canIssue s d e (mkOrder 0x12 issue ops) then signalWait s d e (mkOrder 0x12 issue ops) 0 else s)

/-- SIG_WAIT_EQ. -/
def execSigWaitEq (d : ADie) (e : EngineIx) (issue : BitVec 24) (ops : BitVec 96) (s : State) :
    Host.Outcome State Fault Refusal :=
  .next (if canIssue s d e (mkOrder 0x13 issue ops) then signalWait s d e (mkOrder 0x13 issue ops) 1 else s)

/-- SIG_WAIT_MASK. -/
def execSigWaitMask (d : ADie) (e : EngineIx) (issue : BitVec 24) (ops : BitVec 96) (s : State) :
    Host.Outcome State Fault Refusal :=
  .next (if canIssue s d e (mkOrder 0x14 issue ops) then signalWait s d e (mkOrder 0x14 issue ops) 2 else s)

/-- SIGNAL_WAIT_RELEASE (R77, R91): an engine's held cycles become one hold; a thread takes the value that satisfied
its wait (R243). -/
def execSignalWaitRelease (d : ADie) (w : Waiter) (s : State) : Host.Outcome State Fault Refusal :=
  .next (match w with
  | .engine e =>
    match (eng s d e).hold with
    | some (.wait op n x met) =>
      if met || waitHolds op (sigVal s n) x then countHold (letGo s d e) d 0 else s
    | _ => s
  | .thread c slot t =>
    let k := thKey (d * 8 + c) slot t
    match (thread s k).block with
    | .signal op n x r met =>
      let v := met.getD (sigVal s n)
      if met.isSome || waitHolds op v x then setThread s k (fun h => { h.wx r v with block := .none }) else s
    | _ => s)

end Sys2Proof.Machine
end

