-- ==== Sys2Proof/Machine/Trains.lean ====
section
/-! DEFINITION. Trains (R81 to R86, R582, R591, R110, R111): where their rows lie, how they hold on translation, their
booked flits to and from other packages (R385), and their arrival. -/

namespace Sys2Proof.Machine

/-! ### Descriptors (R82) -/

/-- Field of `n` bytes at byte `off` of a descriptor. -/
def tdNat (x : BitVec 512) (off n : Nat) : Nat := fld x (8 * off) (8 * n)

def tdRows (x : BitVec 512) : Nat := tdNat x 16 4
def tdRowBytes (x : BitVec 512) : Nat := tdNat x 20 4
def tdSrcSpace (x : BitVec 512) : Nat := fld x 320 2
def tdDstSpace (x : BitVec 512) : Nat := fld x 322 2
def tdWindow (x : BitVec 512) : Nat := tdNat x 44 2

/-- Bits of the element that ELEM names; 0 for a reserved code. -/
def elemBits (code : Nat) : Nat := [4, 8, 16, 32, 64].getD code 0

/-- Bytes that a train moves. -/
def tdBytes (x : BitVec 512) : Nat := tdRows x * tdRowBytes x

/-- Rows and bytes of a row at the destination: for TRAIN_TRANSPOSE a source column is a destination row (R84). -/
def dstShape (t : Train) : Nat × Nat :=
  let e := max 1 (elemBits (tdNat t.desc 41 1))
  if t.transpose then (tdRowBytes t.desc * 8 / e, tdRows t.desc * e / 8) else (tdRows t.desc, tdRowBytes t.desc)

/-- Nibble `i` of some bytes, the low one first (R84). -/
def nibbleAt (l : Array Byte) (i : Nat) : Nat := natField (l.getD (i / 2) 0).toNat (4 * (i % 2)) 4

/-- The transpose of `rows` rows of `n` elements of `e` bits. -/
def transposeBytes (l : List Byte) (rows rowBytes e : Nat) : List Byte :=
  let a := l.toArray
  if e = 4 then
    (upTo (2 * rowBytes)).flatMap (fun c => (upTo (rows / 2)).map (fun h =>
      BitVec.ofNat 8 (nibbleAt a (2 * h * (2 * rowBytes) + c) + 16 * nibbleAt a ((2 * h + 1) * (2 * rowBytes) + c))))
  else
    let b := max 1 (e / 8)
    (upTo (rowBytes / b)).flatMap (fun c => (upTo rows).flatMap (fun r => (upTo b).map (fun i =>
      a.getD (r * rowBytes + c * b + i) 0)))

/-! ### Where a row lies -/

/-- A byte of a cluster's window that exists, by physical address (R181). -/
def clusterByte (s : State) (a : Nat) : Bool :=
  let x := a - 0x4000000000000
  decide (0x4000000000000 ≤ a) && decide (x < 2 ^ 35) && decide (x % 2 ^ 32 < 0x10000000)
    && inWindow s (x / 2 ^ 32) (x % 2 ^ 32 / 0x2000000) (x % 0x2000000)

/-- A byte of memory at a physical address exists: unified memory, platform SRAM or a converted entry. -/
def physByte (s : State) (a : Nat) : Bool := decide (a < unifiedEnd) || clusterByte s a

/-- Bytes by physical address; the reserved part of a window reads 0 (R181). -/
def physBytes (s : State) (a n : Nat) : List Byte := (upTo n).map (fun i => if physByte s (a + i) then rdByte s (a + i) else 0)

/-- Write bytes by physical address; the reserved part of a window ignores them (R181). -/
def physWrite (s : State) (a : Nat) (l : List Byte) : State :=
  if (upTo l.length).all (fun i => physByte s (a + i)) then wrBytes s a l
  else (l.zip (upTo l.length)).foldl (fun s x => if physByte s (a + x.2) then wrBytes s (a + x.2) [x.1] else s) s

/-- A place of a stretch of a row: pieces of this package as (address, bytes, whether they are reached coherently), or a position
of the group with the form of the address (0 window, 1 remote form), the receiving window and the address there. -/
inductive Place where
  | here (ps : List (Nat × Nat × Bool))
  | away (pos form window addr : Nat)
  deriving DecidableEq, Repr

/-- A translation or window fault of a stretch: its address, its cause, whether it is a WINDOW fault, and, where this package is
itself the receiver that refuses it (R326), the address it refuses for possession, if any. -/
structure RowFault where
  va : Nat
  cause : Nat
  window : Bool
  refused : Option (Option Nat)
  deriving DecidableEq, Repr

/-- Blocks of 256 bytes that [a, a + n) touches, as (address, bytes) (R326). -/
def blocksOf (a n : Nat) : List (Nat × Nat) :=
  if n = 0 then [] else
    (upTo ((a + n - 1) / 256 + 1 - a / 256)).map (fun i =>
      let lo := max a ((a / 256 + i) * 256)
      (lo, min (a + n) ((a / 256 + i + 1) * 256) - lo))

/-- Where [addr, addr + n) of a space lies, or the fault it takes (R82, R312, R324, R328); in space 0 it lies in one 4 KiB page. -/
def placeOf (s : State) (d e space window addr n : Nat) (write : Bool) : Except RowFault Place :=
  if space = 0 then
    let a := addr % 2 ^ 64
    match translate s d e (BitVec.ofNat 64 a) write with
    | .ok pa => .ok (.here [(pa, n, false)])
    | .error c => .error { va := a, cause := c, window := false, refused := none }
  else if space = 1 then .ok (.here [(addr, n, false)])
  else if space = 2 then
    let ow := rd s (tu 0 (0x1000 + 8 * window))
    let size := (fld ow 16 20 + 1) * 0x200000
    let bad (a : Nat) (r : Option (Option Nat)) : RowFault := { va := a, cause := causeWindow, window := true, refused := r }
    if !bitOf ow 63 || decide (size < addr + n) then .error (bad (if bitOf ow 63 then max addr size else addr) none)
    else if fld ow 0 8 = ownPos s then
      let look (b : Nat × Nat) := winCheck s d (fld ow 8 8) b.1 write s.job.tag
      match (blocksOf addr n).find? (fun b => (look b).1.isNone) with
      | some b => .error (bad b.1 (some (look b).2))
      | none => .ok (.here ((blocksOf addr n).filterMap (fun b => (look b).1.map (fun x => (x.1, b.2, !x.2)))))
    else if !bitOf (orEntry s (fld ow 0 8)) 19 then .error (bad addr none)
    else .ok (.away (fld ow 0 8) 0 (fld ow 8 8) addr)
  else if natField addr 41 8 = ownPos s then .ok (.here [(natField addr 0 41, n, false)])
  else .ok (.away (natField addr 41 8) 1 0 (natField addr 0 41))

/-- Address of byte `p` of the source, and of byte `q` of the stream at the destination. -/
def srcAddr (t : Train) (p : Nat) : Nat :=
  tdNat t.desc 0 8 + p / max 1 (tdRowBytes t.desc) * tdNat t.desc 24 8 + p % max 1 (tdRowBytes t.desc)
def dstAddr (t : Train) (q : Nat) : Nat :=
  let n := max 1 (dstShape t).2
  tdNat t.desc 8 8 + q / n * tdNat t.desc 32 8 + q % n

/-- The stretch from offset `p`, of at most `n` bytes: it stays in one row and one 4 KiB page. -/
def stretch (row addr p n : Nat) : Nat := min n (min (row - p % max 1 row) (4096 - addr % 4096))
def srcStretch (t : Train) (p n : Nat) : Nat := stretch (tdRowBytes t.desc) (srcAddr t p) p n
def dstStretch (t : Train) (q n : Nat) : Nat := stretch (dstShape t).2 (dstAddr t q) q n

/-- Where a stretch of `n` bytes lies. -/
def srcAt (s : State) (t : Train) (p n : Nat) : Except RowFault Place :=
  placeOf s t.die (9 + t.engine) (tdSrcSpace t.desc) (tdWindow t.desc) (srcAddr t p) n false
def dstAt (s : State) (t : Train) (q n : Nat) : Except RowFault Place :=
  placeOf s t.die (9 + t.engine) (tdDstSpace t.desc) (tdWindow t.desc) (dstAddr t q) n true

/-- Source row `r` and destination row `r` in another package. -/
def srcPlace (s : State) (t : Train) (r : Nat) : Except RowFault Place := srcAt s t (r * tdRowBytes t.desc) (tdRowBytes t.desc)
def dstPlace (s : State) (t : Train) (r : Nat) : Except RowFault Place := dstAt s t (r * (dstShape t).2) (dstShape t).2

/-- Bytes of local pieces; a poisoned block delivers free values (R302 leaves a train's form of the error open). -/
def hereBytes (s : State) (ps : List (Nat × Nat × Bool)) : List Byte × State :=
  ps.foldl (fun a p =>
    if poisonedRange a.2 p.1 p.2.1 then
      let (l, s) := drawBytes a.2 p.2.1
      (a.1 ++ l, s)
    else if p.2.2 then (a.1 ++ cohBytes a.2 p.1 p.2.1, cohTouch a.2 p.1 p.2.1)
    else (a.1 ++ physBytes a.2 p.1 p.2.1, a.2)) ([], s)

/-- Write bytes over local pieces. -/
def hereWrite (s : State) : List (Nat × Nat × Bool) → List Byte → State
  | [], _ => s
  | p :: t, l =>
    hereWrite (if p.2.2 then cohWrite s p.1 (l.take p.2.1) else physWrite s p.1 (l.take p.2.1)) t (l.drop p.2.1)

/-! ### Events and state of trains -/

/-- TR_EVENT bit `i` of engine Tj (R110, R111). -/
def trEvent (s : State) (d j i : Nat) : State :=
  raise s d (0x3000030 + j * 0x100000) i (reg (tr d j 0)) (reg (tr d j 0x28)) (reg (tr d j 8)) (reg (tr d j 0x18))

/-- Whether `t` is the train that engine Tj of die `d` issued at `issue`. -/
def isTrain (d j issue : Nat) (t : Train) : Bool := decide (t.die = d) && decide (t.engine = j) && decide (t.issue = issue)

/-- The train, if it is in flight. -/
def findTrain (s : State) (d j issue : Nat) : Option Train := s.trains.find? (isTrain d j issue)

/-- Change a train. -/
def updTrain (s : State) (t : Train) (f : Train → Train) : State :=
  { s with trains := s.trains.map (fun x => if isTrain t.die t.engine t.issue x then f x else x) }

/-- The train as it now stands. -/
def trainNow (s : State) (t : Train) : Train := (findTrain s t.die t.engine t.issue).getD t

/-- Put a train in place of the one that its engine issued there. -/
def putTrain (s : State) (t : Train) : State := updTrain s t (fun _ => t)

/-- The first translation hold of an engine's trains since the load is an event (R110). -/
def xlateFirst (s : State) (d j : Nat) : State :=
  if (eng s d (9 + j)).flagged then s else trEvent (setEng s d (9 + j) (fun e => { e with flagged := true })) d j 0

/-- Key of the record of a fault (R319). -/
def rowKey (s : State) (t : Train) (f : RowFault) : W64 :=
  if f.window then windowKey s t.die (tdWindow t.desc) f.va else faultKey s t.die (BitVec.ofNat 64 f.va)

/-- A fault of a train's translation or window access fills or joins a record (R86, R319); a window access that this package
refuses itself is counted there, and every refusal at the train engine (R110, R326). -/
def trainFaults (s : State) (t : Train) (f : RowFault) (write : Bool) : State :=
  let k := rowKey s t f
  if t.wait = some (k, f.window) then s
  else
    let s := match f.refused with
      | some r => denyRemote s t.die r
      | none => s
    let s := if f.window then trEvent (wr s (tr t.die t.engine 0x28) (BitVec.ofNat 64 f.va)) t.die t.engine 2 else s
    let s := faultRecord s t.die (9 + t.engine) k f.window f.cause write (BitVec.ofNat 64 f.va)
    updTrain s t (fun x => { x with wait := some (k, f.window) })

/-- A train that has reached a faulting page holds there (R86, R316). -/
def trainHold (s : State) (t : Train) (f : RowFault) (write : Bool) : State :=
  let s := trainFaults s t f write
  let now_ := (eng s t.die (9 + t.engine)).cycle
  xlateFirst (updTrain s t (fun x => { x with heldAt := some (x.heldAt.getD now_), faulted := true })) t.die t.engine

/-- A train's hold ends: its engine cycles count (R110). -/
def trainFree (s : State) (t : Train) : State :=
  let s := match t.heldAt with
    | some a => incBy s (tr t.die t.engine 0x18) ((eng s t.die (9 + t.engine)).cycle - a)
    | none => s
  updTrain s t (fun x => { x with wait := none, heldAt := none })

/-! ### Translation ahead of the stream (R316) -/

/-- Stretches of a stream from an offset on, at most `k` of them: one lies in one page. -/
def stretches (addr len : Nat → Nat) (total : Nat) : Nat → Nat → List (Nat × Nat × Nat)
  | 0, _ => []
  | k + 1, p => if total ≤ p ∨ len p = 0 then [] else (p, addr p, len p) :: stretches addr len total k (p + len p)

/-- The next 64 pages of a train's source from offset `p`, and of its destination from offset `q`, as (offset, virtual address,
bytes); none where the space is not virtual. -/
def srcAhead (t : Train) (p : Nat) : List (Nat × Nat × Nat) :=
  if tdSrcSpace t.desc = 0 then
    stretches (fun x => srcAddr t x % 2 ^ 64) (fun x => srcStretch t x (tdBytes t.desc - x)) (tdBytes t.desc) 64 p
  else []
def dstAhead (t : Train) (q : Nat) : List (Nat × Nat × Nat) :=
  if tdDstSpace t.desc = 0 then
    stretches (fun x => dstAddr t x % 2 ^ 64) (fun x => dstStretch t x (tdBytes t.desc - x)) (tdBytes t.desc) 64 q
  else []

/-- Translate pages: the walks that it takes, and the first page that faults with its offset. -/
def walkPages (s : State) (d e : Nat) (write : Bool) : List (Nat × Nat × Nat) → State × Option (Nat × RowFault)
  | [] => (s, none)
  | x :: rest =>
    let va : W64 := BitVec.ofNat 64 x.2.1
    let r := translate s d e va write
    let s := afterTranslate s d e va write
    match r with
    | .ok _ => walkPages s d e write rest
    | .error c => (s, some (x.1, { va := x.2.1, cause := c, window := false, refused := none }))

/-- The translation unit works up to 64 pages ahead of a train's stream (R316): a page that faults there has its record at
once, and the train holds when it reaches the page. -/
def trainAhead (s : State) (t : Train) : State :=
  if t.wait.isSome then s
  else
    let (s, a) := walkPages s t.die (9 + t.engine) false (srcAhead t t.data.length)
    match a with
    | some (p, f) => if p = t.data.length then trainHold s t f false else trainFaults s t f false
    | none =>
      let (s, b) := walkPages s t.die (9 + t.engine) true (dstAhead t t.landed)
      match b with
      | some (q, f) => if q = t.landed ∧ t.landed < t.data.length then trainHold s t f true else trainFaults s t f true
      | none => s

/-- The train of an order of engine Tj, as it stands at ISSUE (R81); none without its descriptor. -/
def trainOf (s : State) (d j : Nat) (o : Order) : Option Train :=
  ((dieTT s d).descs.getD j [])[fld o 32 20]?.map (fun x =>
    { die := d, engine := j, issue := fld o 0 24, desc := x, index := fld o 32 20, transpose := decide (fld o 24 8 = 0x21)
      arriveSig := fld o 52 14, arrive := bitOf o 66, book := fld o 72 24, wait := none, heldAt := none, faulted := false
      data := [], landed := 0, asked := false, sent := false, dead := false })

/-- The translation unit translates the first pages of a train that has not issued yet (R316). -/
def preTranslate (s : State) (t : Train) : State :=
  let s := (walkPages s t.die (9 + t.engine) false (srcAhead t 0)).1
  (walkPages s t.die (9 + t.engine) true (dstAhead t 0)).1

/-! ### Trains to and from other packages (R385) -/

/-- The booked path of a train toward `pos`: that of its own booking, else one that its die books there (R81, R396). -/
def trainPath (s : State) (t : Train) (pos : Nat) : Nat :=
  let bs := (dieTT s t.die).books
  match bs[t.book]? with
  | some b => if fld b 0 16 = 3 then fld b 16 8 else other bs
  | none => other bs
where
  /-- A path of the die toward `pos`; 0 where it books none. -/
  other (bs : List (BitVec 128)) : Nat :=
    ((bs.find? (fun b => decide (fld b 0 16 = 3) && decide (fld b 24 8 = pos))).map (fun b => fld b 16 8)).getD 0

/-- Ask for the rows not yet received: one READ_REQ a row. The path on which the target answers is of the target's
image, and no field of the train names it: a free value. -/
def trainAsk (s : State) (t : Train) : State :=
  let n := tdRowBytes t.desc
  let s := (upTo (tdRows t.desc)).foldl (fun s r =>
    let had := t.data.length - r * n
    if n ≤ had then s
    else
      let had := if r * n ≤ t.data.length then had else 0
      match srcPlace s t r with
      | .ok (.away pos form w a) =>
        let (ret, s) := drawWord s
        sendBooked s 1 (trainPath s t pos) pos (trainOwner t.die t.engine t.issue)
          (bookedPayload 2 (1 + 4 * form) w 0 0 (a + had) (fld ret 0 8) (n - had) [])
      | _ => s) s
  updTrain s t (fun x => { x with asked := true })

/-- Join runs that follow each other. -/
def joinRuns : List (Nat × Nat × Nat × Nat × List Byte) → List (Nat × Nat × Nat × Nat × List Byte)
  | [] => []
  | (p, f, w, a, l) :: rest =>
    match joinRuns rest with
    | (p', f', w', a', l') :: r =>
      if p = p' ∧ f = f' ∧ w = w' ∧ a' = a + l.length then (p, f, w, a, l ++ l') :: r else (p, f, w, a, l) :: (p', f', w', a', l') :: r
    | [] => [(p, f, w, a, l)]

/-- Send a train's stream, from byte `done` on, in BOOKED WRITE flits of at most 192 bytes; the last carries LAST, and
ARRIVE with its signal. -/
def trainSend (s : State) (t : Train) (stream : List Byte) (done : Nat) : State :=
  let n := (dstShape t).2
  let runs := (upTo (dstShape t).1).filterMap (fun r =>
    match dstPlace s t r with
    | .ok (.away pos form w a) =>
      let skip := min n (done - r * n)
      if skip = n then none else some (pos, form, w, a + skip, (stream.drop (r * n + skip)).take (n - skip))
    | _ => none)
  let flits := (joinRuns runs).flatMap (fun x => (piecesOf 192 x.2.2.2.2).map (fun c => (x.1, x.2.1, x.2.2.1, x.2.2.2.1 + c.1, c.2)))
  let m := flits.length
  let s := (flits.zip (upTo m)).foldl (fun s x =>
    let last := decide (x.2 + 1 = m)
    let fl := b2n last + 2 * b2n (last && t.arrive) + 4 * x.1.2.1
    sendBooked s 1 (trainPath s t x.1.1) x.1.1 (trainOwner t.die t.engine t.issue)
      (bookedPayload 1 fl x.1.2.2.1 x.1.2.2.2.2.length (if last && t.arrive then t.arriveSig else 0) x.1.2.2.2.1 0 0
        x.1.2.2.2.2)) s
  updTrain s t (fun x => { x with sent := true, data := stream })

/-- The position of another package that a train's rows lie in, if they do: a window or a remote form names one for all rows. -/
def awayPos (s : State) (x : Except RowFault Place) : Option Nat := match x with
  | .ok (.away p _ _ _) => some p
  | .ok (.here _) => none
  | .error f => if f.window && f.refused.isNone then some (ownPos s) else none

/-- The source, or the destination, lies in another package, or in a window that leads nowhere. -/
def srcAway (s : State) (t : Train) : Bool := decide (2 ≤ tdSrcSpace t.desc) && (awayPos s (srcAt s t 0 1)).isSome
def dstAway (s : State) (t : Train) : Bool := decide (2 ≤ tdDstSpace t.desc) && (awayPos s (dstAt s t 0 1)).isSome

/-- The first row in another package that faults at this sender (R324). -/
def awayFault (s : State) (t : Train) : Option (RowFault × Bool) :=
  let bad (x : Except RowFault Place) (w : Bool) : Option (RowFault × Bool) := match x with
    | .error f => some (f, w)
    | .ok _ => none
  (if srcAway s t then (upTo (tdRows t.desc)).findSome? (fun r => bad (srcPlace s t r) false) else none)
    <|> (if dstAway s t then (upTo (dstShape t).1).findSome? (fun r => bad (dstPlace s t r) true) else none)

/-- All bytes of the source are at hand. -/
def srcReady (t : Train) : Bool := decide (tdBytes t.desc ≤ t.data.length)

/-- A train's stream as the destination takes it, as far as it is at hand: its source, or, where the order says so, the whole
of it transposed. -/
def trainStream (t : Train) : List Byte :=
  if t.transpose then
    (if srcReady t then transposeBytes t.data (tdRows t.desc) (tdRowBytes t.desc) (max 1 (elemBits (tdNat t.desc 41 1))) else [])
  else t.data

/-- Read at most `n` more bytes of a source in this package, stretch by stretch in the order of R582, each as memory stands now. -/
def readOn : Nat → State → Train → Nat → State × Train × Option RowFault
  | 0, s, t, _ => (s, t, none)
  | fuel + 1, s, t, n =>
    let p := t.data.length
    let k := srcStretch t p (min n (tdBytes t.desc - p))
    if k = 0 then (s, t, none)
    else
      let r := srcAt s t p k
      let s := if tdSrcSpace t.desc = 0 then afterTranslate s t.die (9 + t.engine) (BitVec.ofNat 64 (srcAddr t p)) false else s
      match r with
      | .error f => (s, t, some f)
      | .ok (.away _ _ _ _) => (s, t, none)
      | .ok (.here ps) =>
        let (l, s) := hereBytes s ps
        readOn fuel s { t with data := t.data ++ l } (n - k)

/-- Write what is at hand of the stream `l` at a destination in this package, stretch by stretch. -/
def writeOn : Nat → State → Train → List Byte → State × Train × Option RowFault
  | 0, s, t, _ => (s, t, none)
  | fuel + 1, s, t, l =>
    let q := t.landed
    let k := dstStretch t q (l.length - q)
    if k = 0 then (s, t, none)
    else
      let r := dstAt s t q k
      let s := if tdDstSpace t.desc = 0 then afterTranslate s t.die (9 + t.engine) (BitVec.ofNat 64 (dstAddr t q)) true else s
      match r with
      | .error f => (s, t, some f)
      | .ok (.away _ _ _ _) => (s, t, none)
      | .ok (.here ps) => writeOn fuel (hereWrite s ps ((l.drop q).take k)) { t with landed := q + k } l

/-- A train whose booked path leads nowhere, or whose remote-form access was refused, has no record to resolve and never arrives
(R328, R329; entry 115). -/
def trainLost (s : State) (t : Train) (a : Nat) : State :=
  let s := wr s (tr t.die t.engine 0x28) (BitVec.ofNat 64 a)
  trEvent (updTrain s t (fun x => { x with dead := true })) t.die t.engine 2

/-- The path of a train to `pos` has a port. -/
def pathOpen (s : State) (t : Train) (pos : Nat) : Bool := (pathPort s (trainPath s t pos) pos).isSome

/-- A train does what it owes other packages: it asks for a source there, and sends to a destination there once its source is
at hand, from byte `done` of its stream on. -/
def trainAbroad (s : State) (t : Train) (done : Nat) : State :=
  match awayFault s t with
  | some (f, w) => trainHold s t f w
  | none =>
    if srcAway s t && !t.asked then
      match awayPos s (srcAt s t 0 1) with
      | some pos => if pathOpen s t pos then trainAsk s t else trainLost s t (srcAddr t 0)
      | none => s
    else if dstAway s t && srcReady t && !t.sent then
      match awayPos s (dstAt s t 0 1) with
      | some pos => if pathOpen s t pos then trainSend s t (trainStream t) done else trainLost s t (dstAddr t 0)
      | none => s
    else s

/-- A grant of `n` bytes (R582): the train reads them, writes what it has at a destination in this package, holds at a faulting
page, and does what it owes other packages. -/
def trainMove (s : State) (t : Train) (n : Nat) : State :=
  if t.heldAt.isSome || t.dead then s
  else
    let (s, t, f) := if srcAway s t then (s, t, none) else readOn n s t n
    let l := trainStream t
    let (s, t, g) := if dstAway s t then (s, t, none) else writeOn l.length s t l
    let s := putTrain s t
    match g, f with
    | some g, _ => trainHold s t g true
    | none, some f => trainHold s t f false
    | none, none =>
      let s := trainAbroad s t 0
      if n = 0 then s else trainAhead s (trainNow s t)

/-- The train stands whole at a destination in this package. -/
def trainLanded (t : Train) : Bool := srcReady t && decide ((trainStream t).length ≤ t.landed)

/-! ### The commands -/

/-- A train order issues (R81): the train is in flight. -/
def trainIssue (s : State) (d j : Nat) (op : Nat) (issue : BitVec 24) (ops : BitVec 96) : State :=
  let o := mkOrder op issue ops
  match trainOf s d j o with
  | some t =>
    if canIssue s d (9 + j) o then
      let s := atIssue s d (9 + j) issue.toNat
      trainAbroad (trainAhead { s with trains := s.trains ++ [t] } t) t 0
    else s
  | none => s

/-- TRAIN. -/
def execTrain (d : ADie) (j : Fin 4) (issue : BitVec 24) (ops : BitVec 96) (s : State) : Host.Outcome State Fault Refusal :=
  .next (trainIssue s d j 0x20 issue ops)

/-- TRAIN_TRANSPOSE. -/
def execTrainTranspose (d : ADie) (j : Fin 4) (issue : BitVec 24) (ops : BitVec 96) (s : State) :
    Host.Outcome State Fault Refusal := .next (trainIssue s d j 0x21 issue ops)

/-- The die that holds the byte at a physical address: the home of unified memory, or the die of the platform SRAM
(R591). -/
def dieOfByte (s : State) (a : Nat) : Nat := if a < unifiedEnd then homeOf s a else (a - 0x4000000000000) / 2 ^ 32 % 8

/-- The booked flits of a train have left their port for good: none waits to be sent or resent. -/
def trainFlown (s : State) (t : Train) : Bool :=
  let o := trainOwner t.die t.engine t.issue
  t.sent && !s.om.ports.any (fun p => p.2.queue.any (fun f => decide (f.owner = o))
    || p.2.unacked.any (fun f => decide (f.owner = o) && f.resend))

/-- What an arrival leaves in the engine's registers; its time on hold is late running under TRAIN_FAULT (R86, R316). `held` is
how many engine cycles it waited for walks that took no fault. -/
def trainDone (s : State) (t : Train) (held : Nat) : State :=
  let d := t.die
  let j := t.engine
  let s := { s with trains := s.trains.filter (fun x => !isTrain d j t.issue x) }
  let s := incBy (incBy (inc s (tr d j 8)) (tr d j 0x10) (tdBytes t.desc)) (tr d j 0x18) held
  if t.faulted || decide (0 < held) then countHold (xlateFirst s d j) d causeTrainFault else s

/-- A train that has arrived in this package adds 1 to ARRIVE_SIG from the die that holds its last byte (R591). -/
def trainSignal (s : State) (t : Train) : State :=
  if !t.arrive then s
  else match dstAt s t (tdBytes t.desc - 1) 1 with
    | .ok (.here ps) => match ps.getLast? with
      | some p => sendAdd1 s (dieOfByte s (p.1 + p.2.1 - 1)) (9 + t.engine) t.arriveSig
      | none => s
    | _ => s

/-- TRAIN_ARRIVAL (R85, R591): the grants that are left move the rest, and the train arrives unless it holds, or data of it that
missed a slot still waits (R100); `held` is how many
engine cycles the train held on walks that took no fault (R316). -/
def execTrainArrival (d : ADie) (j : Fin 4) (issue : BitVec 24) (held : W32) (s : State) : Host.Outcome State Fault Refusal :=
  .next (match findTrain s d j issue.toNat with
  | none => s
  | some t =>
    let s := trainMove s t (tdBytes t.desc)
    let t := trainNow s t
    if t.heldAt.isSome || t.dead || delayWaits s (trainOwner d j issue.toNat) then s
    else if dstAway s t then (if trainFlown s t then trainDone s t held.toNat else s)
    else if trainLanded t then trainDone (trainSignal s t) t held.toNat
    else s)

/-- A cycle of train engine Tj in which the grants of its trains carry `n` bytes of each (R582). -/
def trainCycle (s : State) (d j n : Nat) : State :=
  let s := setEng s d (9 + j) (fun e => { e with cycle := e.cycle + 1 })
  (s.trains.filter (fun t => decide (t.die = d) && decide (t.engine = j))).foldl (fun s t => trainMove s (trainNow s t) n) s

/-- An engine reaches the next cycle at which an order in flight writes (R69), unless it must issue or hold first (R71); a train
engine moves its grants. -/
def engineWrites (s : State) (d e n : Nat) : State :=
  let come (t : Nat) : State := if mayReach s d e t then reach s d e t else s
  match minOf ((eng s d e).writes.map WriteOp.time), nextEvent s d e with
    | some t, _ => come t
    | none, some t => come t
    | none, none =>
      if 9 ≤ e ∧ e ≤ 12 ∧ ttState s d = 4 ∧ mayReach s d e ((eng s d e).cycle + 1) then trainCycle s d (e - 9) n else s

/-- ORDER_WRITE_CYCLE (R69, R72): the engines of the mask reach their next write cycles in one MAIN cycle, in which the grants of
trains carry up to `grant` bytes each; of two writes of one byte that of the higher index takes effect. -/
def execOrderWriteCycle (d : ADie) (engines : BitVec 15) (grant : Fin 4097) (s : State) : Host.Outcome State Fault Refusal :=
  .next ((upTo 15).foldl (fun s e => if engines.getLsbD e then engineWrites s d e grant.val else s) s)

/-! ### What other packages send back -/

/-- Data of a source in another package: it belongs to the oldest train that waits for data from `pos`. -/
def trainData (s : State) (pos : Nat) (l : List Byte) : State :=
  match s.trains.find? (fun t => t.asked && !srcReady t && decide (awayPos s (srcAt s t 0 1) = some pos)) with
  | some t =>
    let s := updTrain s t (fun x => { x with data := (x.data ++ l).take (tdBytes x.desc) })
    trainMove s (trainNow s t) 0
  | none => s

/-- Byte of a train's stream at which the row place of address `a` lies, if a row reaches it. -/
def streamOff (rows n : Nat) (place : Nat → Except RowFault Place) (pos a : Nat) : Option Nat :=
  (upTo rows).findSome? (fun r => match place r with
    | .ok (.away p _ _ x) => if p = pos ∧ x ≤ a ∧ a < x + n then some (r * n + (a - x)) else none
    | _ => none)

/-- A refused block of a train at `pos` (R326, R329): a WINDOW fault holds the train; a refused remote-form access has no
record to resolve, and the train never arrives. -/
def trainRefused (s : State) (pos : Nat) (write : Bool) (a : Nat) : State :=
  let off (t : Train) : Option Nat :=
    if write then streamOff (dstShape t).1 (dstShape t).2 (dstPlace s t) pos a
    else streamOff (tdRows t.desc) (tdRowBytes t.desc) (srcPlace s t) pos a
  match s.trains.find? (fun t => !t.dead && (if write then t.sent else t.asked) && (off t).isSome) with
  | some t =>
    let form := if write then decide (tdDstSpace t.desc = 3) else decide (tdSrcSpace t.desc = 3)
    if t.wait.isSome then s
    else if form then trainLost s t a
    else trainHold s t { va := a, cause := causeWindow, window := true, refused := none } write
  | none => s

/-- A resolve with RETRY lets a train go on (R321): it repeats its access, from the refused block where a window
refused one (R326). -/
def trainRetry (s : State) (t : Train) (va : Nat) : State :=
  let s := trainFree s t
  let t := trainNow s t
  if t.sent then
    let pos := (awayPos s (dstAt s t 0 1)).getD 0
    let done := (streamOff (dstShape t).1 (dstShape t).2 (dstPlace s t) pos va).getD 0
    let t := { t with sent := false }
    trainAbroad (putTrain s t) t done
  else
    let t := { t with asked := false }
    let s := trainAhead (putTrain s t) t
    let t := trainNow s t
    if t.heldAt.isSome then s else trainMove s t 0

/-- A fatal resolve of a train (R86): its hold ends, it is recorded and the job fails. -/
def trainFatal (s : State) (t : Train) (va : W64) : State :=
  let s := trainFree (wr s (tr t.die t.engine 0x28) va) t
  let s := updTrain s t (fun x => { x with dead := true })
  let s := if t.heldAt.isSome then countHold s t.die causeTrainFault else s
  failJob (trEvent s t.die t.engine 1) stFault

/-- A booked grant of a train missed its slot (R100, R110). -/
def trainMissed (s : State) (owner : Nat) : State :=
  if owner = 0 then s
  else
    let x := (owner - 1) / 2 ^ 24
    let d := x / 16
    let j := x % 16
    let s := inc s (tr d j 0x20)
    if (eng s d (9 + j)).mismatched then s
    else trEvent (setEng s d (9 + j) (fun e => { e with mismatched := true })) d j 3

end Sys2Proof.Machine
end

