-- ==== Sys2Proof/Machine/Bamkan.lean ====
section
/-! DEFINITION. The Bamkan controllers (R284 to R307): where sectors lie and how they are encrypted and checked, the slots of a
track, failure of a channel, rebuild onto a spare, lost data, and the margin sweep. -/

namespace Sys2Proof.Machine

/-- BK_SLOT_t_j of stack `n`. -/
def bkSlot (n t j : Nat) : Nat := bkS n (0x1000 + 8 * (9 * t + j))
/-- BK_SPARE_i. -/
def bkSpare (n i : Nat) : Nat := bkS n (0x2000 + 8 * i)
/-- Key of a track. -/
def trackKey (n t : Nat) : Nat := n * 32 + t
/-- The start-up history's mark of a channel (R301, R556). -/
def channelMark (n phys : Nat) : Nat := 2 ^ 41 + n * 512 + phys

/-! ### Sectors (R284 to R287, R294) -/

/-- The stack, the track on it and the row at which an address lies (R284). -/
def stackOf (s : State) (pa : Nat) : Nat := homeOf s pa * 4 + trackOf (blockOf s pa) / 32
def trackIx (s : State) (pa : Nat) : Nat := trackOf (blockOf s pa) % 32
def rowAt (s : State) (pa : Nat) : Nat := rowOf (blockOf s pa)

/-- The data slot of an address, and the byte of the sector (R284). -/
def slotOf (pa : Nat) : Nat := pa % 256 / 32
def sectorByte (pa : Nat) : Nat := pa % 32

/-- PA div 256 of the die block at a row of a track, the inverse of R284 and R311. -/
def blockAt (s : State) (n t row : Nat) : Nat :=
  let u := (n % 4) * 32 + t
  let lo := Nat.xor (Nat.xor u (row % 128)) (row / 128 % 128)
  if s.img.package then row * 1024 + n / 4 * 128 + lo else n / 4 * 2 ^ 30 + row * 128 + lo

/-- The address of the sector in data slot `j` at a row of a track. -/
def sectorAddr (s : State) (n t row j : Nat) : Nat := blockAt s n t row * 256 + 32 * j

/-- A data sector as its channel stores it: AES-256-XTS under its granule's key, the address by 32 its tweak (R294). -/
def sectorCipher (s : State) (n t row j : Nat) : BitVec 256 :=
  let a := sectorAddr s n t row j
  Config.xts 256 (keyOf s a) (BitVec.ofNat 128 (a / 32)) (BitVec.ofNat 256 (rdNat s a 32))

/-- The sum over GF(2) of the stored data sectors of some slots of a row. -/
def xorSectors (s : State) (n t row : Nat) (js : List Nat) : BitVec 256 :=
  js.foldr (fun j x => sectorCipher s n t row j ^^^ x) 0

/-- The check sector of a row, each byte the check symbol of RS(9, 8) with generator x + 1 (R286). -/
def checkSector (s : State) (n t row : Nat) : BitVec 256 := xorSectors s n t row (upTo 8)

/-- What data slot `j` is restored to from the check and the other data slots (R286). -/
def restored (s : State) (n t row j : Nat) : BitVec 256 :=
  checkSector s n t row ^^^ xorSectors s n t row ((upTo 8).filter (fun i => !decide (i = j)))

/-! ### Tracks (R297) -/

/-- STATE of slot `j` (R306). -/
def slotState (s : State) (n t j : Nat) : Nat := rdF s (bkSlot n t j) 9 2

/-- The slot of a track that is failed and not yet rebuilt (STATE 1 or 2). -/
def failedSlot (s : State) (n t : Nat) : Option Nat :=
  (upTo 9).find? (fun j => decide (slotState s n t j = 1) || decide (slotState s n t j = 2))

/-- The states of a track (R297). -/
inductive TrackState where
  | isProtected | rebuilding | degraded | unprotected
  deriving DecidableEq, Repr

/-- The state of a track by its slots. -/
def trackState (s : State) (n t : Nat) : TrackState :=
  let any (v : Nat) := (upTo 9).any (fun j => decide (slotState s n t j = v))
  if any 3 then .unprotected else if any 2 then .rebuilding else if any 1 then .degraded else .isProtected

/-- The spare that track `t` is being rebuilt onto. -/
def rebuildSpare (s : State) (n t : Nat) : Option Nat :=
  (upTo 8).find? (fun i => decide (rdF s (bkSpare n i) 0 2 = 1) && decide (rdF s (bkSpare n i) 2 5 = t))

/-- Rows restored by the rebuild of track `t`. -/
def rowsDone (s : State) (n t : Nat) : Nat :=
  match rebuildSpare s n t with
  | some i => rdF s (bkSpare n i) 11 24
  | none => 0

/-- The row lacks a sector: the failed slot's, at or above the rebuild pointer, or the check of a track out of
protection (R298, R590, R302). -/
def rowLacks (s : State) (n t row : Nat) : Bool :=
  match trackState s n t with
  | .isProtected => false
  | .unprotected => true
  | .degraded => true
  | .rebuilding => decide (rowsDone s n t ≤ row)

/-- Which track and slot a channel fills in service. -/
def fills (s : State) (n phys : Nat) : Option (Nat × Nat) :=
  ((upTo 32).flatMap (fun t => (upTo 9).map (fun j => (t, j)))).find? (fun x =>
    decide (slotState s n x.1 x.2 = 0) && decide (rdF s (bkSlot n x.1 x.2) 0 9 = phys))

/-- The channel that a margin sweep of the stack tests (R305). -/
def sweptChannel (s : State) (n : Nat) : Option Nat :=
  if rdB s (bkS n 0x48) 11 then some (rdF s (bkS n 0x48) 0 9) else none

/-- The controller issues no read of slot `j` for row `row`: it is out of service, failed and not yet rebuilt at that row, or its
channel is under a margin sweep (R298, R301, R305). -/
def unread (s : State) (n t row j : Nat) : Bool :=
  decide (slotState s n t j = 3) || (rowLacks s n t row && decide (failedSlot s n t = some j))
    || decide (sweptChannel s n = some (rdF s (bkSlot n t j) 0 9))

/-- The slots of a row that can be read. -/
def readable (s : State) (n t row : Nat) : BitVec 9 :=
  (upTo 9).foldl (fun m j => if unread s n t row j then m else putBit m j true) 0

/-- The data slot that a read of row `row` must do without. -/
def lostSlot (s : State) (n t row : Nat) : Option Nat := (upTo 8).find? (unread s n t row)

/-- BK_STATUS and BK_REBUILD follow the slots and spares (R306). -/
def bkRefresh (s : State) (n : Nat) : State :=
  let count (v : TrackState) := ((upTo 32).filter (fun t => decide (trackState s n t = v))).length
  let spares := (upTo 8).map (fun i => rd s (bkSpare n i))
  let re := (upTo 8).filter (fun i => decide (rdF s (bkSpare n i) 0 2 = 1))
  let s := wrB s (bkS n 0) 1 (!re.isEmpty)
  let s := wrF s (bkS n 0) 2 4 (spares.filter (fun w => decide (fld w 0 2 = 0))).length
  let s := wrF s (bkS n 0) 6 6 (count .degraded + count .rebuilding)
  let s := wrF s (bkS n 0) 12 6 (count .unprotected)
  match re with
  | [] => wr s (bkS n 0x10) 0
  | i0 :: is =>
    let i := is.foldl (fun a i => if rdF s (bkSpare n i) 2 5 < rdF s (bkSpare n a) 2 5 then i else a) i0
    let w := rd s (bkSpare n i)
    wr s (bkS n 0x10) (BitVec.ofNat 64 (fld w 11 24 + 2 ^ 24 * fld w 2 5 + 2 ^ 29 * fld w 7 4 + 2 ^ 33 * i))

/-- Set a BK_EVENT bit and post its notice (R307, R444). -/
def bkEvent (s : State) (n i : Nat) : State :=
  raise s (n / 4) (0x6000008 + (n % 4) * 0x400000) i (reg (bkS n 0x40)) (reg (bkS n 0x10)) (reg (bkS n 0)) (reg (bkS n 0x50))

/-- BK_ERRLOG: 1 restored, 2 lost, 3 no response. -/
def errLog (s : State) (n row t j kind : Nat) : State :=
  wr s (bkS n 0x40) (BitVec.ofNat 64 (row + 2 ^ 23 * t + 2 ^ 28 * j + 2 ^ 32 * kind + 2 ^ 63))

/-- A row loses two bkSectors (R302): its block is poisoned, and what it holds is free from then on. -/
def loseRow (s : State) (n t row j : Nat) : State :=
  let s := failJob s stFault
  let s := bkEvent (errLog s n row t j 2) n 4
  let (l, s) := drawBytes s 256
  let b := blockAt s n t row
  let s := { s with mem := putBytes s.mem (256 * b) l, poisoned := Store.set (fun _ => false) s.poisoned b true }
  if 4096 < fld (bkStatus s n) 18 13 then failDevice s else s

/-- The lowest-numbered free spare. -/
def freeSpare (s : State) (n : Nat) : Option Nat := (upTo 8).find? (fun i => decide (rdF s (bkSpare n i) 0 2 = 0))

/-- The start-up history records what spare `i` serves (R301, R556). -/
def recordSpare (s : State) (n i : Nat) : State :=
  { s with hist := { s.hist with bkSpares := Store.set (fun _ => 0) s.hist.bkSpares (n * 8 + i) (rdF s (bkSpare n i) 0 11) } }

/-- BK_SPARE_i and the history follow spare `i`. -/
def setSpare (s : State) (n i : Nat) (v : W64) : State := recordSpare (wr s (bkSpare n i) v) n i

/-- Slot `j` of track `t` starts its rebuild onto the next free spare, or stays without one (R297). -/
def assignSpare (s : State) (n t j : Nat) : State :=
  match freeSpare s n with
  | some i =>
    let s := setSpare s n i (BitVec.ofNat 64 (1 + 2 ^ 2 * t + 2 ^ 7 * j))
    let s := wrF s (bkSlot n t j) 9 2 2
    let k := trackKey n t
    let s := { s with rebuildSlots := Store.set (fun _ => 0) s.rebuildSlots k 0, rebuildWon := Store.set (fun _ => 0) s.rebuildWon k 0 }
    bkEvent (bkRefresh s n) n 0
  | none =>
    let s := wrF s (bkSlot n t j) 9 2 1
    bkEvent (bkEvent (bkRefresh s n) n 0) n 2

/-- A spare is failed (BK_SPARE STATE 3). -/
def spareFails (s : State) (n i : Nat) : State := setSpare s n i 3

/-- A slot's channel fails (R297): a PROTECTED track rebuilds or degrades; any other track has now lost a second
channel, and the device fails. Reads outstanding on it are reconstructed, and their consumers hold (R296). -/
def slotFails (s : State) (n t j phys : Nat) : State :=
  let s := if 288 ≤ phys then spareFails s n (phys - 288) else s
  if trackState s n t = .isProtected then assignSpare (noteCause s (n / 4) 1) n t j else failDevice (bkRefresh s n)

/-- A channel is declared failed (R296, R297); a channel that is failed or out of service already is not commanded. -/
def channelFails (s : State) (n phys : Nat) : State :=
  let mark (s : State) := { s with marks := Store.set (fun _ => false) s.marks (channelMark n phys) true }
  match fills s n phys with
  | some (t, j) => slotFails (mark s) n t j phys
  | none =>
    if phys < 288 then s
    else
      let i := phys - 288
      let w := rd s (bkSpare n i)
      if fld w 0 2 = 0 then bkEvent (bkRefresh (spareFails (mark s) n i) n) n 0
      else if fld w 0 2 = 1 then assignSpare (spareFails (mark s) n i) n (fld w 2 5) (fld w 7 4)
      else s

/-- The physical channel behind slot `j` for row `row`: the spare once its row is restored. -/
def channelOf (s : State) (n t j row : Nat) : Nat :=
  match rebuildSpare s n t with
  | some i => if failedSlot s n t = some j ∧ row < rowsDone s n t then 288 + i else rdF s (bkSlot n t j) 0 9
  | none => rdF s (bkSlot n t j) 0 9

/-- An uncorrectable sector counts toward its channel: 16 within 1 ms declare it failed (R296). -/
def countUe (s : State) (n phys : Nat) : State :=
  let k := n * 512 + phys
  let t := (now s).toNat
  let l := ((Store.get (fun _ => []) s.ueTimes k) ++ [t]).filter (fun x => decide (t ≤ x + 1000000))
  let s := { s with ueTimes := Store.set (fun _ => []) s.ueTimes k l }
  if 16 ≤ l.length then
    channelFails { s with ueTimes := Store.set (fun _ => []) s.ueTimes k [] } n phys
  else s

/-- The uncorrectable sectors `bad` that an operation reads of a row: restored from the row and written back (R287), or lost with
it (R302). -/
def meetUe (s : State) (n t row : Nat) (bad : BitVec 9) : State :=
  match (upTo 9).filter (fun j => bitOf bad j) with
  | [] => s
  | j :: more =>
    let chans := (j :: more).map (fun j => channelOf s n t j row)
    let s := if rowLacks s n t row || !more.isEmpty then loseRow s n t row j
      else bkEvent (errLog (inc s (bkS n 0x20)) n row t j 1) n 3
    chans.foldl (fun s c => countUe s n c) s

/-! ### Operations (R285, R288, R298) -/

/-- Row of an operation, and whether it is one of track `t` of stack `n` (R284). -/
def opRow (s : State) (o : BkOp) : Nat := rowAt s o.pa.toNat
def onTrack (s : State) (n t : Nat) (o : BkOp) : Bool := decide (stackOf s o.pa.toNat = n) && decide (trackIx s o.pa.toNat = t)

/-- Data slots of an operation: a line at 64i of its block is slots 2i and 2i + 1, a sector one slot, a partial write the slots of
its bytes (R285). -/
def bkData (o : BkOp) : Byte :=
  let a := o.pa.toNat
  match o.kind with
  | .blockRead => 0xFF
  | .blockWrite => 0xFF
  | .lineRead => BitVec.ofNat 8 (3 * 2 ^ (2 * (a % 256 / 64)))
  | .sectorRead => BitVec.ofNat 8 (2 ^ slotOf a)
  | .partialWrite => BitVec.ofNat 8 (2 ^ (min 7 ((a % 256 + max 1 o.len.toNat - 1) / 32) + 1) - 2 ^ slotOf a)

/-- Sectors that an operation reads on a healthy track: a block write none, a partial write also the check (R288). -/
def bkFirst (o : BkOp) : BitVec 9 := match o.kind with
  | .blockWrite => 0
  | .partialWrite => BitVec.setWidth 9 (bkData o) ||| 0x100
  | _ => BitVec.setWidth 9 (bkData o)

/-- The operation is served by reconstruction: it reads a sector that only its row can give (R298, R305). -/
def bkRecon (s : State) (n t : Nat) (o : BkOp) : Bool :=
  decide (o.kind ≠ .blockWrite) && (match lostSlot s n t (opRow s o) with
    | some j => bitOf (bkData o) j
    | none => false)

/-- Sectors that an operation reads: a reconstruction, or the restoring of an uncorrectable sector in a row that lacks none, reads
the whole row. -/
def bkReads (s : State) (n t : Nat) (o : BkOp) : BitVec 9 :=
  let all := readable s n t (opRow s o)
  if bkRecon s n t o || (decide (o.ue &&& bkFirst o &&& all ≠ 0) && !rowLacks s n t (opRow s o)) then all else bkFirst o &&& all

/-- Sectors that an operation finds uncorrectable, and sectors that the burst code corrects for it. -/
def bkUe (s : State) (n t : Nat) (o : BkOp) : BitVec 9 := o.ue &&& bkReads s n t o
def bkCe (s : State) (n t : Nat) (o : BkOp) : BitVec 9 := o.ce &&& ~~~o.ue &&& bkReads s n t o

/-- How many bits of a row's mask are set. -/
def bkSectors (m : BitVec 9) : Nat := ((upTo 9).filter (fun j => bitOf m j)).length

/-- Slots an operation costs (R288), with the restoring of an uncorrectable sector and its write-back. -/
def bkCost (s : State) (n t : Nat) (o : BkOp) : Nat :=
  (match o.kind with
    | .partialWrite => 2
    | _ => 1)
  + b2n (bkRecon s n t o) + (if bkSectors (bkUe s n t o) = 1 ∧ rowLacks s n t (opRow s o) = false then 3 else 0)

/-- A delay that repair causes to an operation is recorded under RECONSTRUCT where its data are consumed (R92, R298). -/
def repairCause (s : State) (n : Nat) (o : BkOp) : State :=
  noteCause s (match o.owner with
    | some x => x.1.val
    | none => n / 4) 1

/-- A track serves an operation. -/
def serve (s : State) (n t : Nat) (booked : Bool) (o : BkOp) : State :=
  let bad := bkUe s n t o
  let ce := bkSectors (bkCe s n t o)
  let s := if booked && (bkRecon s n t o || decide (bad ≠ 0)) then repairCause s n o else s
  let s := if bkRecon s n t o then inc s (bkS n 0x28) else s
  let s := if o.kind = .partialWrite then inc s (bkS n 0x38) else s
  let s := if o.kind = .blockWrite then s else incBy s (bkS n 0x18) ce
  meetUe s n t (opRow s o) bad

/-! ### Booked grants (R290, R292) -/

/-- The memory slot of the segment that runs on A-die `d`: one a beat on THG9-2048-A30, nine in ten beats on A27 (R283, R290). -/
def memSlot (s : State) (d : Nat) : Option Nat :=
  (sinceDeparture s d).map (fun b => if s.guard.ordering = 1 then b * 9 / 10 else b)

/-- Block operations that the bookings of all dies grant on home `d` in slot `ix` (R290). -/
def slotGrants (s : State) (d ix : Nat) : Nat :=
  (((upTo 8).flatMap (fun x => (dieTT s x).books)).map (fun b =>
    if bkKind b = 1 ∧ bkRes b % 8 = d ∧ ix % max 1 (bkPeriod b) = bkOffset b then bkCount b else 0)).sum

/-- A granted operation that its booking does grant now, on the track that its address selects, and the grant that it uses. -/
def useGrant (s : State) (n t : Nat) (granted : Option BkOp) : Option BkOp × State :=
  match granted, memSlot s (n / 4) with
  | some o, some ix =>
    let x := Store.get (fun _ => (0, 0)) s.bkGranted (n / 4)
    let used := if x.1 = ix + 1 then x.2 else 0
    if onTrack s n t o && decide (used < slotGrants s (n / 4) ix) then
      (some o, { s with bkGranted := Store.set (fun _ => (0, 0)) s.bkGranted (n / 4) (ix + 1, used + 1) })
    else (none, s)
  | _, _ => (none, s)

/-- A booked grant of the track misses its slot (R100, R110, R292); where repair displaces it, its hold falls under RECONSTRUCT. -/
def bkMissed (s : State) (n t : Nat) (repair : Bool) : Option BkOp → State
  | some o =>
    let k := trackKey n t
    let s := inc { s with bkLate := Store.set (fun _ => []) s.bkLate k (Store.get (fun _ => []) s.bkLate k ++ [o]) } (bkS n 0x30)
    trainMissed (if repair then repairCause s n o else s) (opTrain o)
  | none => s

/-! ### The slot (R288, R293) -/

/-- What operations in progress on the track still hold. -/
def bkBusy (s : State) (n t : Nat) : BkBusy := Store.get BkBusy.none s.bkBusy (trackKey n t)
def setBusy (s : State) (n t : Nat) (b : BkBusy) : State := { s with bkBusy := Store.set BkBusy.none s.bkBusy (trackKey n t) b }

/-- A granted operation takes the slot, and holds the track for the rest of its slots. -/
def takeGranted (s : State) (n t : Nat) (o : BkOp) : State :=
  let r := bkRecon s n t o || decide (bkUe s n t o ≠ 0)
  serve (setBusy { s with slotWinner := 2 } n t { bkBusy s n t with granted := bkCost s n t o - 1, repair := r }) n t true o

/-- A delayed booked operation takes the slot; the rest of its slots yields to grants, which it never moves (R100). -/
def takeLate (s : State) (n t : Nat) (o : BkOp) (rest : List BkOp) : State :=
  let s := { s with slotWinner := 3, bkLate := Store.set (fun _ => []) s.bkLate (trackKey n t) rest }
  serve (setBusy s n t { bkBusy s n t with late := bkCost s n t o - 1 }) n t true o

/-- A line or sector read that takes its own channels only. -/
def shareable (s : State) (n t : Nat) (o : BkOp) : Bool :=
  decide (o.kind = .lineRead ∨ o.kind = .sectorRead) && decide (bkCost s n t o = 1)

/-- The queued reads that share a slot in which the channels `used` are taken: those served, and those that stay. -/
def share (s : State) (n t : Nat) : Byte → List BkOp → List BkOp × List BkOp
  | _, [] => ([], [])
  | used, o :: rest =>
    if shareable s n t o && decide (bkData o &&& used = 0) then
      let (a, b) := share s n t (used ||| bkData o) rest
      (o :: a, b)
    else
      let (a, b) := share s n t used rest
      (a, o :: b)

/-- The oldest unbooked operation takes the slot, with the reads that share it; the rest of its slots yields to booked traffic
(R28). -/
def takeUnbooked (s : State) (n t : Nat) (o : BkOp) (rest : List BkOp) : State :=
  let put (q : List BkOp) : State := { s with slotWinner := 4, bkQueue := Store.set (fun _ => []) s.bkQueue (trackKey n t) q }
  if shareable s n t o then
    let (now, stay) := share s n t (bkData o) rest
    (o :: now).foldl (fun s o => serve s n t false o) (put stay)
  else serve (setBusy (put rest) n t { bkBusy s n t with unbooked := bkCost s n t o - 1 }) n t false o

/-- The unbooked queue of a track takes what waits for it, up to its 64 entries; the rest is back-pressured (R29, R293). -/
def fillQueue (s : State) (n t : Nat) (q : List BkOp) : State :=
  let k := trackKey n t
  { s with bkQueue := Store.set (fun _ => []) s.bkQueue k (q.take 64), bkFeed := Store.set (fun _ => []) s.bkFeed k (q.drop 64) }

/-- The unbooked operations of a track: its queue, then what the queue holds back. -/
def unbooked (s : State) (n t : Nat) : List BkOp :=
  Store.get (fun _ => []) s.bkQueue (trackKey n t) ++ Store.get (fun _ => []) s.bkFeed (trackKey n t)

/-- A rebuild step of the track is due in its next memory slot (R299). -/
def stepDue (s : State) (n t : Nat) : Bool :=
  let k := trackKey n t
  (rebuildSpare s n t).isSome && decide (rowsDone s n t + Store.get (fun _ => 0) s.rebuildWon k
    < (Store.get (fun _ => 0) s.rebuildSlots k + 1) / 16)

/-- A memory slot of the rebuild of the track passes. -/
def countSlot (s : State) (n t : Nat) : State :=
  let k := trackKey n t
  if (rebuildSpare s n t).isSome then
    { s with rebuildSlots := Store.set (fun _ => 0) s.rebuildSlots k (Store.get (fun _ => 0) s.rebuildSlots k + 1) }
  else s

/-- The memory slot in progress is one of those that the memory slot duty of a die withholds: of each 64 slots, counted from
MTC 0, the last (R534). -/
def slotWithheld (s : State) (d : Nat) : Bool :=
  let b := dieNow s d
  decide (rdF s (pw d 0) 7 7 ≤ (if s.guard.ordering = 1 then b * 9 / 10 else b) % 64)

/-- A grant in a withheld slot waits (R100), under THROTTLE. -/
def throttleGrant (s : State) (n t : Nat) (g : Option BkOp) : State :=
  bkMissed (if g.isSome then noteCause s (n / 4) 3 else s) n t false g

/-- BAMKAN_SLOT (R293): nothing in a withheld slot (R534), else a rebuild step that is due, a booked grant, delayed booked operations, unbooked operations, in that order,
each with the rest of the slots of an operation that began under the same claim before the next one; `arrive` joins the
unbooked operations. -/
def execBamkanSlot (n : StackIx) (t : Fin 32) (granted : Option BkOp) (arrive : List BkOp) (s : State) :
    Host.Outcome State Fault Refusal :=
  let k := trackKey n t
  let s := fillQueue s n t (unbooked s n t ++ arrive.filter (onTrack s n t))
  let (g, s) := useGrant s n t granted
  let due := stepDue s n t
  let s := countSlot s n t
  let b := bkBusy s n t
  .next (if slotWithheld s (n / 4) then throttleGrant { s with slotWinner := 0 } n t g
  else if due then
    bkMissed { s with slotWinner := 1, rebuildWon := Store.set (fun _ => 0) s.rebuildWon k (Store.get (fun _ => 0) s.rebuildWon k + 1) }
      n t true g
  else if 0 < b.granted then bkMissed (setBusy { s with slotWinner := 5 } n t { b with granted := b.granted - 1 }) n t b.repair g
  else match g, Store.get (fun _ => []) s.bkLate k, Store.get (fun _ => []) s.bkQueue k with
  | some o, _, _ => takeGranted s n t o
  | none, l, q =>
    if 0 < b.late then setBusy { s with slotWinner := 5 } n t { b with late := b.late - 1 }
    else match l with
    | o :: rest => takeLate s n t o rest
    | [] =>
      if 0 < b.unbooked then setBusy { s with slotWinner := 5 } n t { b with unbooked := b.unbooked - 1 }
      else match q with
      | o :: rest => takeUnbooked s n t o rest
      | [] => { s with slotWinner := 0 })

/-! ### Refresh, failure and rebuild (R289, R296 to R299) -/

/-- The channels of a stack that are refreshed: those that fill a slot, free spares, and the spare of a rebuild (R289, R299). -/
def liveChannels (s : State) (n : Nat) : List Nat :=
  ((upTo 288).filter (fun i => decide (slotState s n (i / 9) (i % 9) = 0))).map (fun i => rdF s (bkSlot n (i / 9) (i % 9)) 0 9)
    ++ ((upTo 8).filter (fun i => decide (rdF s (bkSpare n i) 0 2 ≤ 1))).map (fun i => 288 + i)

/-- BAMKAN_REFRESH (R289): one per-bank refresh command to each channel in service or at hand: the next 1/32,768 of its storage.
It takes no slot. -/
def execBamkanRefresh (n : StackIx) (s : State) : Host.Outcome State Fault Refusal :=
  .next { s with refreshAt := (liveChannels s n).foldl (fun m c =>
    Store.set (fun _ => 0) m (n.val * 512 + c) ((Store.get (fun _ => 0) m (n.val * 512 + c) + 1) % 32768)) s.refreshAt }

/-- The track and slot that a channel serves: the slot that it fills, or that its rebuild is for. -/
def servesSlot (s : State) (n phys : Nat) : Option (Nat × Nat) :=
  match fills s n phys with
  | some x => some x
  | none =>
    if 288 ≤ phys ∧ rdF s (bkSpare n (phys - 288)) 0 2 = 1 then
      some (rdF s (bkSpare n (phys - 288)) 2 5, rdF s (bkSpare n (phys - 288)) 7 4)
    else none

/-- The order in which failures of one MEMCTL cycle are handled: ascending track, then slot; free spares last (R296). -/
def failOrder (s : State) (n phys : Nat) : Nat := match servesSlot s n phys with
  | some x => 16 * x.1 + x.2
  | none => 1024 + phys

/-- A channel that gives no answer is declared failed, and BK_ERRLOG names the row it was asked for (R296). -/
def noAnswer (s : State) (n phys row : Nat) : State :=
  match servesSlot s n phys with
  | some x => channelFails (errLog s n row x.1 x.2 3) n phys
  | none =>
    if phys < 288 ∨ 2 ≤ rdF s (bkSpare n (phys - 288)) 0 2 then s
    else channelFails (errLog s n row (rdF s (bkSpare n (phys - 288)) 2 5) (rdF s (bkSpare n (phys - 288)) 7 4) 3) n phys

/-- A read that was outstanding on a failed channel is issued again, as a reconstruction: ahead of the unbooked operations, or, if
it is booked, as delayed data (R296). -/
def reissue (s : State) (n : Nat) (booked : Bool) (o : BkOp) : State :=
  let t := trackIx s o.pa.toNat
  if stackOf s o.pa.toNat ≠ n || !bkRecon s n t o then s
  else if booked then
    let k := trackKey n t
    repairCause { s with bkLate := Store.set (fun _ => []) s.bkLate k (Store.get (fun _ => []) s.bkLate k ++ [o]) } n o
  else fillQueue s n t (o :: unbooked s n t)

/-- CHANNEL_NO_ANSWER (R296): in one MEMCTL cycle commands to these channels have had no answer within 2 µs, with the row that each
named; `out` are the reads outstanding on them, booked ones marked, oldest first. -/
def execChannelNoAnswer (n : StackIx) (chans : List (Fin 296 × BitVec 23)) (out : List (Bool × BkOp)) (s : State) :
    Host.Outcome State Fault Refusal :=
  let l := chans.mergeSort (fun a b => decide (failOrder s n a.1.val ≤ failOrder s n b.1.val))
  let s := l.foldl (fun s x => noAnswer s n x.1.val x.2.toNat) s
  let s := (out.filter (fun x => x.1)).foldl (fun s x => reissue s n true x.2) s
  .next ((out.filter (fun x => !x.1)).foldr (fun x s => reissue s n false x.2) s)

/-- The rebuild of track `t` onto spare `i` has restored its last row (R297, R299): the spare fills the slot. -/
def rebuildDone (s : State) (n t i : Nat) : State :=
  let j := rdF s (bkSpare n i) 7 4
  let s := recordSpare (wrF (wrF (wrF s (bkSpare n i) 0 2 2) (bkSpare n i) 11 24 0) (bkSlot n t j) 0 11 (288 + i)) n i
  let k := trackKey n t
  let s := { s with rebuildSlots := Store.set (fun _ => 0) s.rebuildSlots k 0, rebuildWon := Store.set (fun _ => 0) s.rebuildWon k 0 }
  bkEvent (unitChanged (bkRefresh s n)) n 1

/-- REBUILD_STEP (R299): a step that has won its slot reads the row and restores its sector onto the spare; an uncorrectable sector
among those it reads loses the row (R302). -/
def execRebuildStep (n : StackIx) (t : Fin 32) (ue ce : BitVec 9) (s : State) : Host.Outcome State Fault Refusal :=
  let k := trackKey n t
  let won := Store.get (fun _ => 0) s.rebuildWon k
  .next (match rebuildSpare s n t with
  | none => s
  | some i =>
    if won = 0 then s
    else
      let row := rowsDone s n t
      let m := readable s n t row
      let s := incBy { s with rebuildWon := Store.set (fun _ => 0) s.rebuildWon k (won - 1) } (bkS n 0x18) (bkSectors (ce &&& ~~~ue &&& m))
      let s := meetUe s n t row (ue &&& m)
      if rebuildSpare s n t = some i ∧ s.dev.state ≠ .failed then
        let s := wrF s (bkSpare n i) 11 24 (row + 1)
        if row + 1 = 8388608 then rebuildDone s n t i else bkRefresh s n
      else s)

/-! ### The margin sweep (R305) -/

/-- MARGIN_SWEEP_START (R305): a write of BK_MARGIN_CTRL, in MAINTENANCE only; a sweep of a channel whose track is not
PROTECTED is refused. A write during a sweep starts no second one. -/
def execMarginSweepStart (n : StackIx) (v : W64) (s : State) : Host.Outcome State Fault Refusal :=
  let c := bkS n 0x48
  let running := rdB s c 11
  .next (if s.dev.state ≠ .maintenance then bkEvent s n 6
  else
    let s := wr s c (putBit (v &&& 0xFFFFF) 11 running)
    if !bitOf v 11 || running then s
    else
      let track := ((upTo 32).flatMap (fun t => (upTo 9).map (fun j => (t, j)))).find? (fun x =>
        decide (rdF s (bkSlot n x.1 x.2) 0 9 = fld v 0 9) && decide (slotState s n x.1 x.2 ≠ 3))
      let ok := decide (fld v 0 9 < 296) && decide (0 < fld v 12 8) && (match track with
        | some x => decide (trackState s n x.1 = .isProtected)
        | none => decide (288 ≤ fld v 0 9) && decide (rdF s (bkSpare n (fld v 0 9 - 288)) 0 2 = 0))
      if ok then wr (wrB s c 11 true) (bkS n 0x50) 0 else wr s (bkS n 0x50) (BitVec.ofNat 64 (2 ^ 17)))

/-- MARGIN_SWEEP_DONE (R305): the result is recorded and joins the start-up history. -/
def execMarginSweepDone (n : StackIx) (low high : Byte) (s : State) : Host.Outcome State Fault Refusal :=
  let c := bkS n 0x48
  .next (if !rdB s c 11 then s
  else
    let ctl := putBit (rd s c) 11 false
    let r : W64 := BitVec.ofNat 64 (min low.toNat (fld ctl 12 8) + 2 ^ 8 * min high.toNat (fld ctl 12 8) + 2 ^ 16)
    let s := wr (wr { s with sweeps := s.sweeps ++ [(n.val, ctl, r)] } c ctl) (bkS n 0x50) r
    bkEvent s n 5)

end Sys2Proof.Machine
end

