-- ==== Sys2Proof/Machine/Chawen.lean ====
section
/-! DEFINITION. Chawen (R349 to R368): links and routes, slots and the T channel, spare wires and their repair, and the
package's test port. -/

namespace Sys2Proof.Machine

/-! ### Slots (R354 to R357) -/

/-- Bookings of KIND 2 that the dies and the package have loaded, in the order of R355. -/
def cwBooks (s : State) : List (BitVec 128) :=
  ((upTo 8).flatMap (fun d => (dieTT s d).books) ++ s.ttx.pkgBooks).filter (fun b => decide (bkKind b = 2))

/-- Bundles of the link a to b that booking `x` takes in slot `n` of its source: its grant falls in slot n - 14h of its route on
hop h (R355). -/
def cwGrant (x : BitVec 128) (a b n : Nat) : Nat :=
  match (routeLinks (bkRes x % 8) (bkRes x / 8 % 8)).findIdx? (fun l => decide (l = (a, b))) with
  | some h => if 14 * h ≤ n ∧ (n - 14 * h) % bkPeriod x = bkOffset x then bkCount x else 0
  | none => 0

/-- The same in the CHAWEN cycle at phase `q` of the present beat: slot 0 is the first cycle at or after the departure of the
booking's source die (R355). -/
def cwGrantNow (s : State) (a b q : Nat) (x : BitVec 128) : Nat :=
  match sinceDeparture s (bkRes x % 8) with
  | some m => cwGrant x a b (4 * m + q)
  | none => 0

/-- A grant holds bundle `k` of the link a to b at phase `q`: grants take bundles in ascending order (R355). -/
def cwGranted (s : State) (a b k q : Nat) : Bool :=
  decide (k < ((cwBooks s).map (cwGrantNow s a b q)).sum)

/-- T_MESSAGE_DUE (R354): a message of the T channel falls due on a link of the tree. -/
def execTMessageDue (src dst : Die) (s : State) : Host.Outcome State Fault Refusal :=
  let l := (src.val, dst.val)
  .next (if decide (tParent dst = some src.val) && !s.cw.due.contains l then { s with cw := { s.cw with due := s.cw.due ++ [l] } } else s)

/-- Key of a receive bundle. -/
def cwKey (d e b : Nat) : Nat := (d * 16 + e) * 8 + b

/-- Key of bundle `k` of the link a to b at its receiving end: what an X-die receives stands in the block of its neighbour (R367). -/
def rxKey (a b k : Nat) : Nat := if b < 12 then cwKey b a k else cwKey a (b + 2) k

/-- A replay or a probe holds the bundle: repair traffic goes ahead of all channels (R28, R361). -/
def cwRepairing (s : State) (a b k : Nat) : Bool := s.cw.replays.contains (rxKey a b k) || s.cw.probes.contains (rxKey a b k)

/-- Booked data that waits on the link a to b, oldest first (R100). -/
def cwDelayed (s : State) (a b : Nat) : List Nat := Store.get (fun _ => []) s.cw.delayed (a * 16 + b)
def setCwDelayed (s : State) (a b : Nat) (l : List Nat) : State :=
  { s with cw := { s.cw with delayed := Store.set (fun _ => []) s.cw.delayed (a * 16 + b) l } }

/-- Booked data misses its slot to repair (R100, R110): it waits, and its hold falls under UNIT_MAP where it is consumed (R363). -/
def cwMissed (s : State) (a b : Nat) (owner : Option (ADie × Fin 4 × BitVec 24)) : State :=
  let (o, d) := match owner with
    | some x => (trainOwner x.1 x.2.1 x.2.2.toNat, x.1.val)
    | none => (0, b)
  let s := setCwDelayed s a b (cwDelayed s a b ++ [o])
  trainMissed (if d < 8 then noteCause s d 6 else s) o

/-- CHAWEN_SLOT (R354): bundle `k` of the link from `src` to `dst` in the CHAWEN cycle at phase `phase` of the present beat goes to
a replay or probe, to its grant, to delayed booked data, else to the first waiting channel in table order. `booked` is the data
that waits for its grant, with its train; `claims` says by channel value which of B, C, I, unbooked M and D wait. T and B take
only the highest-numbered bundle. -/
def execChawenSlot (src dst : Die) (k : Fin 8) (phase : Fin 4) (booked : Option (Option (ADie × Fin 4 × BitVec 24)))
    (claims : BitVec 9) (s : State) : Host.Outcome State Fault Refusal :=
  let a := src.val
  let b := dst.val
  let top := decide (k.val + 1 = linkWidth a b)
  let l := (a, b)
  let granted := cwGranted s a b k phase
  .next (if linkWidth a b ≤ k.val then s
  else if cwRepairing s a b k then
    match granted, booked with
    | true, some o => cwMissed { s with slotWinner := 9 } a b o
    | _, _ => { s with slotWinner := 9 }
  else if granted then { s with slotWinner := 3 }
  else match cwDelayed s a b with
  | _ :: rest => setCwDelayed { s with slotWinner := 4 } a b rest
  | [] =>
    if top && s.cw.due.contains l then
      { s with slotWinner := 1, cw := { s.cw with due := s.cw.due.erase l, fly := s.cw.fly ++ [(a, b, copyOf s a, 256 * (now s).toNat)] } }
    else
      let w := if top && bitOf claims 2 then 2 else ([5, 6, 7, 8].find? (fun c => bitOf claims c)).getD 0
      { s with slotWinner := w })

/-- T (R357): the oldest T message on its way to die `d` arrives, 3.5 beats after its launch; the count that it holds, plus
3.5 beats, is the die's copy at that moment. -/
def execTMessage (d : Die) (s : State) : Host.Outcome State Fault Refusal :=
  .next (match s.cw.fly.find? (fun m => decide (m.2.1 = d.val)) with
  | some m =>
    let s := advance s (BitVec.ofNat 64 ((m.2.2.2 + 896) / 256))
    let c := Store.set (fun _ => (0, 0)) s.cw.copies d.val (m.2.2.1 + 896, m.2.2.2 + 896)
    { s with cw := { s.cw with fly := s.cw.fly.erase m, copies := c } }
  | none => s)

/-! ### Spare wires (R359 to R363) -/

/-- CW_EVENT bit `i` of die `d` (R367, R444). -/
def cwEvent (s : State) (d i : Nat) : State :=
  raise s d 0xA000008 i (reg (cw d 0)) (reg (cw d 0x10)) (reg (cw d 0x18)) (reg (cw d 0x20))

/-- CW_RX_e_b of die `d`. -/
def cwRx (d e b : Nat) : Nat := cw d (0x10000 + 0x80 * (8 * e + b))

/-- Word `i` of its repair list. -/
def cwRepair (d e b i : Nat) : Nat := cwRx d e b + 0x40 + 8 * i

/-- Spare `n` of a bundle is free: not in use and not faulty. -/
def spareFree (s : State) (d e b n : Nat) : Bool :=
  !rdB s (cwRepair d e b (n / 4)) (16 * (n % 4) + 15) && !bitOf (Store.get (fun _ => 0) s.cw.badSpares (cwKey d e b)) n

/-- Free spares of a bundle, lowest first. -/
def freeSpares (s : State) (d e b : Nat) : List Nat := (upTo 32).filter (spareFree s d e b)

/-- Positions of a bundle that are rebuilt from parity. -/
def cwErased (s : State) (k : Nat) : List Nat := Store.get (fun _ => []) s.cw.erased k

/-- Set them; CW_RX shows the last, CW_STATUS whether any bundle of the die has one. -/
def setErased (s : State) (d e b : Nat) (l : List Nat) : State :=
  let s := { s with cw := { s.cw with erased := Store.set (fun _ => []) s.cw.erased (cwKey d e b) l } }
  let s := wrF (wrB s (cwRx d e b) 6 (!l.isEmpty)) (cwRx d e b) 7 10 ((l.getLast?).getD 0)
  wrB s (cw d 0) 6 (s.cw.erased.any (fun p => decide (p.1 / 128 = d)))

/-- Spare `n` carries position `w`. -/
def useSpare (s : State) (d e b n w : Nat) : State :=
  let s := wrF s (cwRepair d e b (n / 4)) (16 * (n % 4)) 16 (w + 2 ^ 15)
  let s := wrF s (cwRx d e b) 0 6 (rdF s (cwRx d e b) 0 6 + 1)
  wrF s (cw d 0) 0 6 (min (rdF s (cw d 0) 0 6) (freeSpares s d e b).length)

/-- Key of the start-up history's mark of a wire (R361). -/
def wireMark (d e b w : Nat) : Nat := 2 ^ 40 + cwKey d e b * 1024 + w

/-- Move each erased position of a bundle to the lowest free spare while one more stays free (R362). -/
def remapBundle (s : State) (d e b : Nat) : State :=
  (cwErased s (cwKey d e b)).foldl (fun s w =>
    match freeSpares s d e b with
    | n :: _ :: _ =>
      let s := useSpare s d e b n w
      let s := setErased s d e b ((cwErased s (cwKey d e b)).filter (fun x => !decide (x = w)))
      cwEvent (unitChanged (inc s (cw d 0x20))) d 1
    | _ => s) s

/-- Remap bundles of the block of die `d` in which positions are erased: its own (entries below 14), or also those that X0 and X1
receive from it. -/
def remapBlock (s : State) (d entries : Nat) : State :=
  ((Store.keysIn s.cw.erased (d * 128) (d * 128 + 8 * entries))).foldl (fun s k => remapBundle s d (k / 8 % 16) (k % 8)) s

/-- Remap every bundle that die `d` receives, at its departure (R26, R362). -/
def remapDie (s : State) (d : Nat) : State := remapBlock s d 14

/-- A job is DEPARTED or HELD. -/
def jobRuns (s : State) : Bool := s.job.state = .departed || s.job.state = .held

/-- One MTC-domain cycle on an empty queue (entry 5): the count moves, and while no job is DEPARTED or HELD the erased positions of
every bundle are moved at once (R26, R362). -/
def idleTick (s : State) : State :=
  let s := mtcTick s
  if jobRuns s || s.cw.erased.isEmpty || !s.dev.vaux then s else (upTo 12).foldl (fun s d => remapBlock s d 16) s

/-- A hold that Chawen causes counts under UNIT_MAP (R363). -/
def cwLate (s : State) (d : Nat) : State := if d < 8 then noteCause s d 6 else s

/-- A transient error (R361): TRANSIENT is set for the first since the start. -/
def cwTransient (s : State) (d : Nat) : State :=
  if bitOf s.cw.transient d then s
  else cwEvent { s with cw := { s.cw with transient := putBit s.cw.transient d true } } d 2

/-- The bundle exists (R352): a link of this width joins the dies; entries 14 and 15 are the bundles that X0 and X1
receive from die `d`. -/
def bundleExists (d e b : Nat) : Bool := decide (b < linkWidth d (if e < 14 then e else e - 2))

/-- CHAWEN_PARITY_MISMATCH (R361): group `g` of a receive bundle fails parity; the slot and those after it are
discarded and a replay is asked for. A group in erasure mode detects nothing. -/
def execChawenParityMismatch (d : Fin 12) (e : Fin 16) (b : Fin 8) (g : Fin 32) (s : State) :
    Host.Outcome State Fault Refusal :=
  let k := cwKey d e b
  let f := (freeSpares s d e b).length
  let blind := (cwErased s k).any (fun w => decide (w % f = g.val))
  .next (if !bundleExists d e b || decide (f ≤ g.val) || blind || s.cw.replays.contains k || s.cw.probes.contains k then s
  else cwLate { s with cw := { s.cw with replays := s.cw.replays ++ [k] } } d)

/-- REPLAY_ARRIVAL (R361): the replayed copy passes, or fails in the same group and starts a probe. -/
def execReplayArrival (d : Fin 12) (e : Fin 16) (b : Fin 8) (ok : Bool) (s : State) : Host.Outcome State Fault Refusal :=
  let k := cwKey d e b
  .next (if s.cw.replays.contains k then
    let s := inc { s with cw := { s.cw with replays := s.cw.replays.erase k } } (cw d 0x10)
    if ok then cwTransient s d
    else inc { s with cw := { s.cw with probes := s.cw.probes ++ [k] } } (cw d 0x18)
  else s)

/-- One failing wire found by a probe: its group goes into erasure mode; a second erasure in one group remaps at
once (R361). -/
def wireFault (s : State) (d e b w : Nat) : State :=
  let k := cwKey d e b
  let f := max 1 (freeSpares s d e b).length
  let old := cwErased s k
  if old.contains w then s
  else
    let s := setErased { s with marks := Store.set (fun _ => false) s.marks (wireMark d e b w) true } d e b (old ++ [w])
    let s := cwEvent s d 0
    if old.any (fun x => decide (x % f = w % f)) then remapBundle s d e b else s

/-- PROBE_DONE (R361, R362): a probe that finds no failing wire counts as a transient; when no job is DEPARTED or
HELD the remap follows at once. -/
def execProbeDone (d : Fin 12) (e : Fin 16) (b : Fin 8) (wires : List (Fin 1024)) (s : State) :
    Host.Outcome State Fault Refusal :=
  let k := cwKey d e b
  .next (if s.cw.probes.contains k then
    let s := { s with cw := { s.cw with probes := s.cw.probes.erase k } }
    if wires.isEmpty then cwTransient s d
    else
      let s := wires.foldl (fun s w => wireFault s d e b w) s
      cwLate (if jobRuns s then s else remapBundle s d e b) d
  else s)

/-- CHAWEN_CLOCK_FAULT (R350): the partner clock of pair `p` serves its group. -/
def execChawenClockFault (d : Fin 12) (e : Fin 16) (b : Fin 8) (p : Fin 4) (s : State) : Host.Outcome State Fault Refusal :=
  .next (if bundleExists d e b then cwEvent (wrB s (cwRx d e b) (17 + p) true) d 3 else s)

/-! ### The test port (R364 to R366) -/

/-- Gated instructions act only in MAINTENANCE and FAILED, after the Guard has opened them (R366). -/
def tapOpen (s : State) : Bool := (s.dev.state = .maintenance || s.dev.state = .failed) && s.dev.testOpen

/-- Load an instruction that acts so, and drives the lands so. -/
def tapLoad (s : State) (ir : Byte) (act : TapAct) (lands : LandDrive) : State :=
  { s with tap := { s.tap with ir := ir, act := act, lands := lands } }

/-- A gated instruction, or BYPASS in its place. -/
def tapGated (s : State) (ir : Byte) (act : TapAct) (lands : LandDrive) : State :=
  if tapOpen s then tapLoad s ir act lands else tapLoad s ir .bypass .normal

/-! The boundary register (R364, R564): one cell for each land that R564 names, in the order of its sentence and of R563 (entry 58):
PERST_N 0, NPERST_N of N0 to N3 1 to 4, 25 depot lands a channel 5 to 804, the configuration group 805 to 816, TPPS 817, TTOD
818, ALERT_N 819, THERMTRIP_N 820, SERVICE_N 821. It covers no SerDes, reference-clock, test or management land. -/

/-- The level that the package itself gives a covered land in its function, where the spec states one: NPERST_N, and the
open-drain outputs while they are low (R571, R572); the configuration lands are not driven in service (R573). -/
def ownLevel (s : State) (i : Nat) : Option Bool :=
  if 1 ≤ i ∧ i ≤ 4 then some (s.dev.npRst.getLsbD (i - 1))
  else if i = 819 ∧ alertLow s = true then some false
  else if i = 820 ∧ s.dev.thermTrip = true then some false
  else none

/-- The level that the package gives a covered land: its function's, the boundary register's in EXTEST and CLAMP, none at high
impedance. -/
def landLevel (s : State) (i : Nat) : Option Bool := match s.tap.lands with
  | .normal => ownLevel s i
  | .boundary => some (s.tap.boundary.getLsbD i)
  | .held => some (s.tap.boundary.getLsbD i)
  | .highZ => none

/-- The levels of the covered lands: the package's own, else the board's. -/
def landLevels (s : State) (board : BitVec 822) : BitVec 822 :=
  BitVec.ofNat 822 (((upTo 822).map (fun i => b2n ((landLevel s i).getD (board.getLsbD i)) * 2 ^ i)).sum)

/-- IDCODE. -/
def execIdcode (s : State) : Host.Outcome State Fault Refusal := .next (tapLoad s 0x01 .idcode .normal)

/-- SAMPLE/PRELOAD: the boundary register captures the lands, and takes what is shifted into it. -/
def execSamplePreload (levels preload : BitVec 822) (s : State) : Host.Outcome State Fault Refusal :=
  let t := tapLoad s 0x02 .sample .normal
  .next { t with tap := { t.tap with sampled := landLevels t levels, boundary := preload } }

/-- EXTEST. -/
def execExtest (s : State) : Host.Outcome State Fault Refusal := .next (tapGated s 0x03 .extest .boundary)
/-- CLAMP. -/
def execClamp (s : State) : Host.Outcome State Fault Refusal := .next (tapGated s 0x04 .clamp .held)
/-- HIGHZ. -/
def execHighz (s : State) : Host.Outcome State Fault Refusal := .next (tapGated s 0x05 .highz .highZ)
/-- DIECHAIN: after reset each of the 46 wrappers is in bypass (R365). -/
def execDiechain (s : State) : Host.Outcome State Fault Refusal := .next (tapGated s 0x20 .diechain .normal)

/-- BYPASS and every undefined code. -/
def execBypass (code : Byte) (s : State) : Host.Outcome State Fault Refusal :=
  .next (if [0x01, 0x02, 0x03, 0x04, 0x05, 0x20].contains code.toNat then s else tapLoad s code .bypass .normal)

/-- TAP_RESET: IDCODE is selected, and every wrapper is in bypass. -/
def execTapReset (s : State) : Host.Outcome State Fault Refusal :=
  let s := tapLoad s 0x01 .idcode .normal
  .next { s with tap := { s.tap with chain := 46 } }

end Sys2Proof.Machine
end

