-- ==== Sys2Proof/Machine/Coherence.lean ====
section
/-! DEFINITION. The coherence protocol (R330 to R341), the host-line cache (R337, R338), and interrupts to
processors (R342 to R345). -/

namespace Sys2Proof.Machine

/-- Make room for a line in its directory set (R333): evict the least recently allocated line of a full set that has no
transaction in flight. -/
def dirMakeRoom (s : State) (l : Nat) : State :=
  if (dirGet s l).isSome then s
  else
    let same := s.dir.filter (fun p => decide (dirSet s p.1 = dirSet s l))
    if same.length < 16 then s
    else
      match (same.filter (fun p => !s.deferred.any (fun q => decide (q.line = p.1)))).argmin (fun p => p.2.age) with
      | some v => inc (invalidateLine s v.1 true) (jn (lineHome s l) 0x10)
      | none => s

/-- Merge the bytes of `data` that `mask` names into a line. -/
def maskLine (old data : BitVec 512) (mask : BitVec 64) : BitVec 512 :=
  BitVec.ofNat 512 (leNat ((upTo 64).map (fun i =>
    if mask.getLsbD i then BitVec.ofNat 8 (data.toNat / 256 ^ i) else BitVec.ofNat 8 (old.toNat / 256 ^ i))))

/-- A line leaves the junction cache of die `d` (R331): an M or O line is written back, an E or S line leaves silently. -/
def evictLine (s : State) (d l : Nat) : State :=
  let v := jGet s d l
  if 3 ≤ v.moesi then
    let s := jPut (putLine s l v.data) d l (jNone 0)
    if (holders s l).isEmpty then dirDrop s l else dirRefresh s l
  else if v.moesi = 0 then s
  else jPut s d l (jNone 0)

/-- Lines that a junction cache holds at most: 64 MiB on an A-die, 96 MiB on a P-die (R17, R31). -/
def jCapacity (d : Nat) : Nat := if d < 8 then 1048576 else 1572864

/-- Room for line `l` in the junction cache of die `d`; which line a full cache gives up is free (entry 28). -/
def jMakeRoom (s : State) (d l : Nat) : State :=
  let held := (Store.keysIn s.jlines (jKey d 0) (jKey (d + 1) 0)).map (fun k => k % 2 ^ 35)
  if held.length < jCapacity d || held.contains l then s
  else evictLine s d (held.getD (Config.cacheVictim d held % held.length) 0)

/-- Die `d` comes to hold line `l` in M with the data that `f` makes of it (R331): every other copy ends, and its data come from the
owner or from memory. -/
def ownLine (s : State) (d l : Nat) (f : BitVec 512 → BitVec 512) : State :=
  let mine := jGet s d l
  let v := f (lineValue s l)
  if mine.moesi = 4 || mine.moesi = 2 then
    dirRefresh (jPut s d l { moesi := 4, data := v, arrived := mine.arrived }) l
  else
    let s := jMakeRoom (dirMakeRoom s l) d l
    let s := ((holders s l).filter (fun x => decide (x ≠ d))).foldl (fun s x => jPut s x l (jNone 0)) s
    dirRefresh (jPut s d l { moesi := 4, data := v, arrived := now s }) l

/-- Die `d` comes to hold line `l` for reading, in E as the only copy, else in S (R331). -/
def shareLine (s : State) (d l : Nat) : State :=
  if (jGet s d l).moesi ≠ 0 then s
  else
    let v := lineValue s l
    let s := snoopReadLine (jMakeRoom (dirMakeRoom s l) d l) l
    let st := if (holders s l).isEmpty then 2 else 1
    dirRefresh (jPut s d l { moesi := st, data := v, arrived := now s }) l

/-- A line came to the cache of die `d` less than 32 JUNC cycles (16 beats) ago: the cache defers its snoops (R334). -/
def inHold (s : State) (d l : Nat) : Bool :=
  decide ((jGet s d l).moesi ≠ 0) && decide ((now s).toNat < (jGet s d l).arrived.toNat + 16)

/-- The cache of die `d` defers a snoop of a line that comes now: for its hold, or behind older deferred snoops (R334). -/
def defers (s : State) (d l : Nat) : Bool :=
  inHold s d l || s.deferred.any (fun q => decide (q.die = d) && decide (q.line = l))

/-- The caches whose snoops a request of die `d` needs and that defer them: every other holder for a write that finds its line
neither in M nor in E, the holder in M, O or E for a read that misses. -/
def blockers (s : State) (d l : Nat) (write : Bool) : List Nat :=
  let mine := (jGet s d l).moesi
  if (if write then mine = 4 ∨ mine = 2 else mine ≠ 0) then []
  else (holders s l).filter (fun x => decide (x ≠ d) && (write || decide (2 ≤ (jGet s x l).moesi)) && defers s x l)

/-- An ordered operation of a hart on the words of line `l` that `mask` names is the last one there for every open call (R251). -/
def otherAgent (s : State) (l : Nat) (mask : BitVec 64) : State :=
  ((upTo 8).filter (fun i => !decide (fld (BitVec.setWidth 64 mask) (8 * i) 8 = 0))).foldl
    (fun s i => otherOp s (fun _ => false) (8 * l + i) 0) s

/-- A junction cache's own read or write reaches the home (R331, R339): refused in a possessed granule, and held up until the
caches that defer its snoops have answered them (R334); else the line moves as R331 states. A request that must read a poisoned
block of memory ends in error and installs nothing (R302). -/
def coherentRequest (s : State) (l : Nat) (r : CohReq) : State :=
  let pa := 64 * l
  if !inUnified pa 64 then s
  else if possessed s pa 64 then deny s pa r.die 0
  else
    match blockers s r.die l r.write with
    | x :: xs =>
      let s := (x :: xs).foldl (fun s y => inc s (jn y 0x18)) s
      { s with deferred := s.deferred ++ [{ die := x, line := l, invalidate := r.write, req := some r }] }
    | [] =>
      let s := if r.ordered then otherAgent s l r.mask else s
      if poisonedRange s pa 64 && decide ((jGet s r.die l).moesi = 0) && (ownerOf s l).isNone && !(r.write && decide (r.mask = BitVec.allOnes 64)) then s
      else
      if r.write then
        ownLine { s with resv := keepResv s.resv pa 64 } r.die l (fun v => maskLine v r.data r.mask)
      else shareLine s r.die l

/-- COHERENT_REQUEST (R331, R334, R339). -/
def execCoherentRequest (d : Fin 12) (line : BitVec 35) (write ordered : Bool) (data : BitVec 512)
    (mask : BitVec 64) (s : State) : Host.Outcome State Fault Refusal :=
  .next (coherentRequest s line.toNat { die := d, write := write, ordered := ordered, data := data, mask := mask })

/-- Answer a snoop at the cache of die `d` (R331): data of M and O goes to the home when the copy ends. -/
def answerSnoop (s : State) (d l : Nat) (invalidate : Bool) : State :=
  let v := jGet s d l
  if v.moesi = 0 then s
  else if invalidate then
    let s := if 3 ≤ v.moesi then putLine s l v.data else s
    let s := jPut s d l (jNone 0)
    if (holders s l).isEmpty then dirDrop s l else dirRefresh s l
  else if v.moesi = 4 then dirRefresh (jPut s d l { v with moesi := 3 }) l
  else if v.moesi = 2 then dirRefresh (jPut s d l { v with moesi := 1 }) l
  else s

/-- SNOOP (R334): deferred during the cache's hold, and behind the snoops that it defers already. -/
def execSnoop (d : Fin 12) (line : BitVec 35) (invalidate : Bool) (s : State) :
    Host.Outcome State Fault Refusal :=
  let l := line.toNat
  .next (if defers s d l then
    inc { s with deferred := s.deferred ++ [{ die := d, line := l, invalidate := invalidate, req := none }] } (jn d 0x18)
  else answerSnoop s d l invalidate)

/-- Answer a deferred snoop; the request it serves goes on, to wait again where another cache defers its snoop. -/
def answerDeferred (s : State) (q : Deferred) : State :=
  match q.req with
  | none => answerSnoop s q.die q.line q.invalidate
  | some r => coherentRequest s q.line r

/-- SNOOP_DEFER_EXPIRY (R334): the hold is over, and the cache answers the deferred snoops of the line in order of arrival. -/
def execSnoopDeferExpiry (d : Fin 12) (line : BitVec 35) (s : State) : Host.Outcome State Fault Refusal :=
  let l := line.toNat
  let mine (q : Deferred) : Bool := decide (q.die = d.val) && decide (q.line = l)
  .next (if inHold s d l then s
  else (s.deferred.filter mine).foldl answerDeferred { s with deferred := s.deferred.filter (fun q => !mine q) })

/-- LINE_EVICTION (R331). -/
def execLineEviction (d : Fin 12) (line : BitVec 35) (s : State) : Host.Outcome State Fault Refusal :=
  .next (evictLine s d line.toNat)

/-! ### Host snoops of the host-line cache -/

/-- The answer to an H2D snoop (R337): a modified line's data goes to the host; SnpInv drops the line, SnpData
leaves it shared, SnpCur leaves it as it is. -/
def hostSnoop (s : State) (l : Nat) (kind : Nat) : State :=
  match hostLine? s l with
  | none => s
  | some v =>
    let m := if v.dirty && decide (kind ≠ 2) then putBytes s.hostMem (64 * l) (leBytes 64 v.data.toNat) else s.hostMem
    let s := { s with hostMem := m }
    if kind = 1 then { s with hostLines := Store.erase l s.hostLines }
    else if kind = 0 then
      { s with hostLines := Store.insert l { v with dirty := false, shared := true } (Store.erase l s.hostLines) }
    else s

/-- SNPDATA (R337). -/
def execSnpdata (line : BitVec 58) (s : State) : Host.Outcome State Fault Refusal :=
  .next (hostSnoop s line.toNat 0)
/-- SNPINV (R337). -/
def execSnpinv (line : BitVec 58) (s : State) : Host.Outcome State Fault Refusal :=
  .next (hostSnoop s line.toNat 1)
/-- SNPCUR (R337). -/
def execSnpcur (line : BitVec 58) (s : State) : Host.Outcome State Fault Refusal :=
  .next (hostSnoop s line.toNat 2)

/-- CXL_CACHE_ENABLE (R338). -/
def execCxlCacheEnable (s : State) : Host.Outcome State Fault Refusal :=
  .next { s with port := { s.port with cxlCache := true } }

/-- CXL_CACHE_DISABLE (R338). -/
def execCxlCacheDisable (s : State) : Host.Outcome State Fault Refusal :=
  let s := (s.hostLines.map Prod.fst).foldl dirtyEvict s
  .next { s with port := { s.port with cxlCache := false }, hostLines := [] }

/-! ### Interrupts -/

/-- Offset of the file page that an address names on its P-die, if it is the seteipnum_le of a file (R343). -/
def imsicFile (a : Nat) : Option (Nat × Nat) :=
  let b := a - 0x8000000000000
  let d := b / 2 ^ 30
  let o := b % 2 ^ 30
  let mOk := decide (0xD000000 ≤ o) && decide (o < 0xD000000 + 36 * 0x1000) && decide (o % 0x1000 = 0)
  let sOff := o - 0xD200000
  let sOk := decide (0xD200000 ≤ o) && decide (sOff < 36 * 0x8000) && decide (sOff % 0x1000 = 0)
    && decide (sOff % 0x8000 / 0x1000 ≤ 4)
  if decide (0x8000000000000 ≤ a) && decide (8 ≤ d) && decide (d < 12) && (mOk || sOk) then some (d, o) else none

/-- An MSI write reaches its file, or is dropped and counted (R345). An identity outside 1 to 255 is none of the
file's. -/
def deliverMsi (s : State) (a : W64) (data : W32) : State :=
  match imsicFile a.toNat with
  | some (d, o) =>
    let id := data.toNat
    if 0 < id ∧ id < 256 then
      let w := putBit (Store.get (fun _ => 0) s.imsic (key d o)) id true
      { s with imsic := Store.set (fun _ => 0) s.imsic (key d o) w }
    else s
  | none => inc s (ic 8 0x880000)

/-- MSI_DELIVERY (R345): the oldest write of a wait slot or fault record of A-die `sender`, or the next of the APLIC (8). -/
def execMsiDelivery (sender : Fin 9) (s : State) : Host.Outcome State Fault Refusal :=
  let s := if sender.val = 8 then aplicForward (aplicSync s) else s
  .next (match s.msis.find? (fun m => decide (m.1 = sender.val)) with
    | some m => deliverMsi { s with msis := s.msis.erase m } m.2.1 m.2.2
    | none => s)

end Sys2Proof.Machine
end

