-- ==== Sys2Proof/Machine/Collective.lean ====
section
/-! DEFINITION. The collective engine (R401 to R408): descriptors, contributions and shards as COLL flits (R386), the
reductions of R403 and R404, the window of R406. -/

namespace Sys2Proof.Machine

/-! ### Descriptors (R402) -/

/-- OP, FMT, RESULT, ALGO, P, ANCHOR, COUNT. -/
def colOp (q : Coll) : Nat := leAt q.desc 0 1
def colFmt (q : Coll) : Fmt := vFmt (leAt q.desc 1 1)
def colResult (q : Coll) : Nat := leAt q.desc 2 1
def colP (q : Coll) : Nat := leAt q.desc 4 2
def colN (q : Coll) : Nat := leAt q.desc 8 4

/-- GPOS(i) and PATH(i). -/
def colGpos (q : Coll) (i : Nat) : Nat := leAt q.desc (64 + 2 * i) 1
def colPath (q : Coll) (i : Nat) : Nat := leAt q.desc (65 + 2 * i) 1

/-- A reduction, as against a gather; SCATTER_GATHER splits only reductions into shards (entry 22). -/
def colReduces (q : Coll) : Bool := decide (colOp q < 4)
def colScatter (q : Coll) : Bool := colReduces q && decide (leAt q.desc 3 1 = 1)

/-- The package's own member index. -/
def colMe (s : State) (q : Coll) : Option Nat := (upTo (colP q)).find? (fun i => decide (colGpos q i = ownPos s))

/-- Bytes of `n` elements as contributed (signs in the SIGN1 layout for VOTE) and as a result (INT16 for VOTE). -/
def colIn (q : Coll) (n : Nat) : Nat := if colOp q = 1 then ceilDiv n 8 else n * ((colFmt q).bits / 8)
def colEs (q : Coll) : Nat := if colOp q = 1 then 2 else (colFmt q).bits / 8

/-- Shard length h, and the elements of the shard of member `k` (R402). -/
def colH (q : Coll) : Nat := ceilDiv (colN q) (max 1 (colP q))
def shardLen (q : Coll) (k : Nat) : Nat := min ((k + 1) * colH q) (colN q) - k * colH q

/-- Blocks of n elements that SRC and DST hold. -/
def colSrcBlocks (q : Coll) : Nat := if colOp q = 5 then colP q else 1
def colDstBytes (q : Coll) (me : Nat) : Nat :=
  if colReduces q then (if colResult q = 1 then shardLen q me else colN q) * colEs q else colP q * colN q * colEs q

/-- A field in the form of R117 names `n` bytes inside one cluster's 24 MiB. -/
def regionOk (f n : Nat) : Bool := decide (f < 2 ^ 22) && decide (f % 2 ^ 19 * 64 + n ≤ 0x1800000)

/-- FMT codes that an operation permits (R402, R403; entry 22). -/
def colFmtOk (op f : Nat) : Bool :=
  if op = 0 then [0, 2, 10].contains f else if op = 2 ∨ op = 3 then [0, 2, 8].contains f else [0, 1, 2, 8, 9, 10].contains f

/-- PATH(i) is a path of this die to GPOS(i), or 0 for this package (R407). -/
def colPathOk (s : State) (q : Coll) (i : Nat) : Bool :=
  if colGpos q i = ownPos s then decide (colPath q i = 0)
  else decide (colPath q i / 32 = q.die)
    && (match pathBook s (colPath q i) with
        | some b => decide (fld b 24 8 = colGpos q i)
        | none => false)

/-- The descriptor passes the checks of R407. -/
def colOk (s : State) (q : Coll) : Bool :=
  let op := colOp q
  let p := colP q
  let n := colN q
  let a := signedOf 16 (leAt q.desc 6 2)
  match colMe s q with
  | none => false
  | some me =>
    regionOk (fld q.order 32 22) (64 + 2 * p) && decide (op ≤ 5) && colFmtOk op (leAt q.desc 1 1) && decide (colResult q ≤ 1)
      && decide (leAt q.desc 3 1 ≤ 1) && decide (1 ≤ p) && decide (p ≤ 256) && decide (1 ≤ n) && decide (n ≤ 2 ^ 24)
      && (decide (colFmt q ≠ .ls) || (decide (-512 ≤ a) && decide (a ≤ 511)))
      && decide (leAt q.desc 12 4 = 0) && decide (leAt q.desc 28 36 = 0)
      && (upTo (p - 1)).all (fun i => decide (colGpos q i < colGpos q (i + 1))) && (upTo p).all (colPathOk s q)
      && regionOk (leAt q.desc 16 4) (colSrcBlocks q * colIn q n) && regionOk (leAt q.desc 20 4) (colDstBytes q me)
      && regionOk (leAt q.desc 24 4) (p * n * colEs q)

/-! ### Contributions (R386) -/

/-- Bits `lo` to `lo + n - 1` of a byte string, from bit 0 of a new one. -/
def bitSlice (l : List Byte) (lo n : Nat) : List Byte :=
  leBytes (ceilDiv n 8) ((upTo n).foldl (fun a i =>
    a + 2 ^ i * b2n (Nat.testBit (leAt l ((lo + i) / 8) 1) ((lo + i) % 8))) 0)

/-- What a member with source bytes `own` contributes to member `k`. -/
def colPart (q : Coll) (own : List Byte) (k : Nat) : List Byte :=
  let n := colN q
  let es := colEs q
  if colOp q = 5 then slice own (k * n * es) (n * es)
  else if colScatter q then
    if colOp q = 1 then bitSlice own (k * colH q) (shardLen q k) else slice own (k * colH q * es) (shardLen q k * es)
  else own

/-- Bytes of a contribution to member `k`, and its flits: an LS contribution begins with a lead flit. -/
def partBytes (q : Coll) (k : Nat) : Nat := colIn q (if colScatter q then shardLen q k else colN q)
def colLead (q : Coll) : Nat := if colFmt q = .ls ∧ colOp q ≠ 1 then 1 else 0
def partFlits (q : Coll) (k : Nat) : Nat := if partBytes q k = 0 then 0 else colLead q + ceilDiv (partBytes q k) 224

/-- Flits of the result shard that member `k` sends. -/
def shareFlits (q : Coll) (k : Nat) : Nat :=
  if colScatter q ∧ colResult q = 0 then ceilDiv (shardLen q k * colEs q) 224 else 0

/-- Send byte strings to member `k`, each as one COLL flit. -/
def sendColl (s : State) (q : Coll) (k : Nat) (pieces : List (List Byte)) : State :=
  pieces.foldl (fun s b =>
    incBy (sendBooked s 2 (colPath q k) (colGpos q k) 0 (payloadOf b)) (ce q.die 0x18) 224) s

/-- The other members. -/
def colOthers (s : State) (q : Coll) : List Nat := (upTo (colP q)).filter (fun i => decide (colGpos q i ≠ ownPos s))

/-- Send every contribution. -/
def sendParts (s : State) (q : Coll) : State :=
  (colOthers s q).foldl (fun s k =>
    if partBytes q k = 0 then s
    else
      let lead := if colLead q = 1 then [slice q.desc 6 2 ++ leBytes 2 0 ++ slice q.desc 8 4] else []
      sendColl s q k (lead ++ (piecesOf 224 (colPart q q.own k)).map Prod.snd)) s

/-! ### Results (R403 to R405) -/

/-- Flits received and not yet used from member `i`. -/
def colFlits (s : State) (q : Coll) (i : Nat) : List (BitVec 1792) :=
  Store.get (fun _ => []) s.collRx (q.die * 256 + colGpos q i)

/-- The contribution of member `i` to this package, member `me`. -/
def colFrom (s : State) (q : Coll) (me i : Nat) : List Byte :=
  if i = me then colPart q q.own me
  else (((colFlits s q i).take (partFlits q me)).drop (colLead q)).flatMap (fun f => payBytes f 0 224)

/-- The ANCHOR of member `i`'s contribution is not this package's own. -/
def anchorOff (s : State) (q : Coll) (me i : Nat) : Bool :=
  decide (i ≠ me) && decide (colLead q = 1) && decide (0 < partFlits q me)
    && decide (((colFlits s q i).head?.map (fun f => payNat f 0 2)) ≠ some (leAt q.desc 6 2))

/-- Element `j` of a reduction over the members' contributions. -/
def colElem (q : Coll) (parts : List (List Byte)) (j : Nat) : Nat × Flags :=
  if colOp q = 1 then
    let minus := (parts.filter (fun l => Nat.testBit (leAt l (j / 8) 1) (j % 8))).length
    (toSigned 16 ((parts.length : Int) - 2 * (minus : Int)), 0)
  else
    let es := colEs q
    reduce (if colOp q = 0 then 0 else colOp q - 1) (colFmt q) (parts.map (fun l => leAt l (j * es) es))

/-- The elements that this package reduces itself: all of them, or its shard. -/
def colReduce (s : State) (q : Coll) (me : Nat) : List Nat × Flags :=
  let n := if colScatter q then shardLen q me else colN q
  if (upTo (colP q)).any (anchorOff s q me) then (List.replicate n nfCell.toNat, flInvalid)
  else
    let parts := (upTo (colP q)).map (colFrom s q me)
    let es := (upTo n).map (colElem q parts)
    (es.map Prod.fst, es.foldl (fun a e => a ||| e.2) 0)

/-- Every flit of the first phase has been delivered. -/
def colGathered (s : State) (q : Coll) (me : Nat) : Bool :=
  (colOthers s q).all (fun i => decide (partFlits q me ≤ (colFlits s q i).length))

/-- SCATTER_GATHER: once its shard is reduced, a member sends it to every other (R386, R402). -/
def collShare (s : State) (d : Nat) : State :=
  match s.colls.find? (fun q => decide (q.die = d) && !q.bad && !q.ended && !q.shared && colScatter q && decide (colResult q = 0)) with
  | none => s
  | some q =>
    match colMe s q with
    | none => s
    | some me =>
      if colGathered s q me then
        let bytes := ((colReduce s q me).1).flatMap (leBytes (colEs q))
        let s := if bytes.isEmpty then s
          else (colOthers s q).foldl (fun s k => sendColl s q k ((piecesOf 224 bytes).map Prod.snd)) s
        { s with colls := s.colls.map (fun x => if x = q then { x with shared := true } else x) }
      else s

/-- A COLL flit from position `src` on `path` reaches its collective engine (R386). -/
def collReceive (s : State) (path src : Nat) (pl : BitVec 1792) : State :=
  let d := path / 32
  let k := d * 256 + src
  let s := { s with collRx := Store.set (fun _ => []) s.collRx k (Store.get (fun _ => []) s.collRx k ++ [pl]) }
  collShare (incBy s (ce d 0x20) 224) d

/-! ### The order and its window (R406, R407) -/

/-- CE_COLL: the descriptor is read and checked, and the contributions go to their paths; a failing descriptor fails the
job and the collective does nothing. -/
def execCeColl (d : ADie) (issue : BitVec 24) (ops : BitVec 96) (s : State) : Host.Outcome State Fault Refusal :=
  let o := mkOrder 0xC0 issue ops
  .next (if canIssue s d 13 o then
    let s := atIssue s d 13 issue.toNat
    let at_ := maAddr d (fld o 32 22)
    let p := rdNat s (at_ + 4) 2
    let q0 : Coll := { die := d, issue := issue.toNat, order := o, desc := rdBytes s at_ (64 + 2 * min 256 p), own := []
                       bad := true, shared := false, expired := false, ended := false }
    let s := wr s (ce d 0) (BitVec.ofNat 64 (1 + 2 * issue.toNat + 2 ^ 25 * colOp q0))
    if colOk s q0 then
      let own := rdBytes s (maAddr d (leAt q0.desc 16 4)) (colSrcBlocks q0 * colIn q0 (colN q0))
      let q := { q0 with own := own, bad := false }
      collShare (sendParts { s with colls := s.colls ++ [q] } q) d
    else failJob (ceEvent { s with colls := s.colls ++ [q0] } d 2) stFault
  else s)

/-- OR flags into CE_FLAGS_G of the order's group and into CE_FLAGS (R408). -/
def orCeFlags (s : State) (d g : Nat) (f : Flags) : State :=
  if f = 0 then s
  else
    let s := upd s (ce d (0x80 + 8 * (g % 16))) (fun w => w ||| BitVec.setWidth 64 f)
    let s := upd s (ce d 8) (fun w => w ||| BitVec.setWidth 64 f)
    if (eng s d 13).flagged then s else ceEvent (setEng s d 13 (fun e => { e with flagged := true })) d 4

/-- The addition to END_SIG and the removal of a collective that has ended and whose window has expired. -/
def collSettle (s : State) (d issue : Nat) : State :=
  match s.colls.find? (fun q => decide (q.die = d) && decide (q.issue = issue) && q.ended && q.expired) with
  | some q =>
    let s := if bitOf q.order 92 then sendAdd1 s d 13 (fld q.order 78 14) else s
    { s with colls := s.colls.erase q }
  | none => s

/-- What a collective writes (R403): its destination, and flags; none while a flit it needs is still to come. -/
def colResultBytes (s : State) (q : Coll) (me : Nat) : Option (List Byte × Flags) :=
  let es := colEs q
  let need (i : Nat) : Nat := partFlits q me + shareFlits q i
  if !(colOthers s q).all (fun i => decide (need i ≤ (colFlits s q i).length)) then none
  else if colReduces q then
    let (mine, f) := colReduce s q me
    let bytes := mine.flatMap (leBytes es)
    if colScatter q && decide (colResult q = 0) then
      if q.shared then
        some ((upTo (colP q)).flatMap (fun k =>
          if k = me then bytes
          else slice ((((colFlits s q k).drop (partFlits q me)).take (shareFlits q k)).flatMap (fun x => payBytes x 0 224)) 0
            (shardLen q k * es)), f)
      else none
    else if !colScatter q && decide (colResult q = 1) then some (slice bytes (me * colH q * es) (shardLen q me * es), f)
    else some (bytes, f)
  else
    some ((upTo (colP q)).flatMap (fun i =>
      if anchorOff s q me i then (List.replicate (colN q) (leBytes es nfCell.toNat)).flatten
      else slice (colFrom s q me i) 0 (colN q * es)), if (upTo (colP q)).any (anchorOff s q me) then flInvalid else 0)

/-- The flits that a collective used leave WORK, whose bytes the collective leaves open (entry 22). -/
def collClean (s : State) (q : Coll) (me : Nat) : State :=
  let s := (colOthers s q).foldl (fun s i =>
    { s with collRx := Store.set (fun _ => []) s.collRx (q.die * 256 + colGpos q i)
               ((colFlits s q i).drop (partFlits q me + shareFlits q i)) }) s
  let (b, s) := drawBytes s (colP q * colN q * colEs q)
  wrBytes s (maAddr q.die (leAt q.desc 24 4)) b

/-- COLLECTIVE_END (R406): the last result is written; `held` says whether the engine had reached its next order. -/
def execCollectiveEnd (d : ADie) (issue : BitVec 24) (held : Bool) (s : State) : Host.Outcome State Fault Refusal :=
  .next (match s.colls.find? (fun q => decide (q.die = d.val) && decide (q.issue = issue.toNat) && !q.bad && !q.ended) with
  | none => s
  | some q =>
    let me := (colMe s q).getD 0
    match colResultBytes s q me with
    | none => s
    | some (bytes, f) =>
      let off := (upTo (colP q)).any (anchorOff s q me)
      let s := wrBytes (collClean s q me) (maAddr d (leAt q.desc 20 4)) bytes
      let s := orCeFlags s d (fld q.order 93 4) f
      let s := if off then ceEvent s d 3 else s
      let s := { s with colls := s.colls.map (fun x => if x = q then { x with ended := true } else x) }
      let s := ceEvent (inc (wrB s (ce d 0) 0 false) (ce d 0x10)) d 0
      let s := if q.expired then ceEvent s d 1 else s
      let late := Store.get (fun _ => 0) s.lateFlags d.val
      let s := if held then countHold s d (if late.getLsbD 0 then causeRetry else causeRemote) else s
      collSettle s d issue.toNat)

/-- COLLECTIVE_WINDOW_EXPIRY (R406): c + WIN is reached; a collective whose descriptor failed ends here (R407). -/
def execCollectiveWindowExpiry (d : ADie) (issue : BitVec 24) (s : State) : Host.Outcome State Fault Refusal :=
  let hit (q : Coll) : Bool := decide (q.die = d.val) && decide (q.issue = issue.toNat)
  .next (match s.colls.find? (fun q => hit q && !q.expired) with
  | none => s
  | some q =>
    let s := { s with colls := s.colls.map (fun x => if x = q then { x with expired := true, ended := x.ended || x.bad } else x) }
    let s := if q.bad then ceEvent (inc (wrB s (ce d 0) 0 false) (ce d 0x10)) d 0 else s
    collSettle s d issue.toNat)

end Sys2Proof.Machine
end

