-- ==== Sys2Proof/Machine/HostPort.lean ====
section
/-! DEFINITION. The host port (R418 to R452) but for what each host command does: intake of command slots,
completion, notices and their ring, landing writes, resets and the outbound function, DOE and IDE. -/

namespace Sys2Proof.Machine

/-- The host port is powered and out of reset: it answers in every device state but COLD (R559, R569). -/
def hostUp (s : State) : Bool := s.dev.vaux && decide (s.dev.state ≠ .cold)

/-- HP_CMD_STATUS.EXP (R421). -/
def expSeq (s : State) : W32 := BitVec.setWidth 32 (rd s (bar0 0x20))

/-- HP_CMD_STATUS.STOPPED. -/
def stopped (s : State) : Bool := rdB s (bar0 0x20) 39

/-! ### Slots (R423, R424) -/

/-- Slot `i` of the command window. -/
def slotBytes (s : State) (i : Nat) : List Byte :=
  (upTo 1024).map (fun k => Store.get memDefault s.bar2 (i % 4096 * 1024 + k))

/-- 0: the slot is written for sequence `q`; 1: SEQ differs; 2: the CRC differs (R424, R443). -/
def slotFault (q : W32) (b : List Byte) : Nat :=
  if leAt b 0 4 ≠ q.toNat then 1
  else
    let n := leAt b 12 2
    let covered := b.take (if 960 < n then 1024 else 64 + n)
    let zeroed := covered.take 8 ++ [0, 0, 0, 0] ++ covered.drop 12
    if crc32c zeroed = BitVec.ofNat 32 (leAt b 8 4) then 0 else 2

/-- OPCODE, FLAGS, INLINE_LEN, RESULT_ADDR and RESULT_LEN of a slot. -/
def slotOp (b : List Byte) : Nat := leAt b 4 2
def slotFlags (b : List Byte) : Nat := leAt b 6 2
def slotInline (b : List Byte) : Nat := leAt b 12 2
def slotAddr (b : List Byte) : Nat := leAt b 16 8
def slotResLen (b : List Byte) : Nat := leAt b 24 4

/-- The opcodes of R430. -/
def opDefined (op : Nat) : Bool :=
  [0x01, 0x02, 0x10, 0x11, 0x12, 0x20, 0x21, 0x22, 0x23, 0x30, 0x40, 0x41, 0x42, 0x50].contains op

/-- The serial commands of R430. -/
def opSerial (op : Nat) : Bool := [0x10, 0x20, 0x21, 0x22, 0x30, 0x40, 0x41, 0x42].contains op

/-- Bytes of ARGS that a command uses, as (offset, bytes, mask of the byte). -/
def argBytes (op : Nat) : List (Nat × Nat × Nat) :=
  if op = 0x10 then [(32, 16, 255), (48, 1, 1)]
  else if op = 0x11 then [(32, 16, 255)]
  else if op = 0x12 then [(32, 13, 255)]
  else if op = 0x20 || op = 0x21 then [(32, 8, 255)]
  else if op = 0x23 then [(32, 1, 255), (34, 2, 255), (40, 8, 255)]
  else if op = 0x30 then [(32, 3, 255)]
  else if op = 0x41 then [(32, 1, 255), (36, 8, 255)]
  else if op = 0x42 then [(32, 9, 255)]
  else if op = 0x50 then [(32, 32, 255)]
  else []

/-- The bits of byte `i` of ARGS that are reserved for a command. -/
def argReserved (op i : Nat) : Nat :=
  255 - ((argBytes op).map (fun r => if r.1 ≤ i ∧ i < r.1 + r.2.1 then r.2.2 else 0)).foldl max 0

/-- Bytes of a command's result (R430). -/
def resultSize (b : List Byte) : Nat :=
  let op := slotOp b
  if op = 0x01 then 128 else if op = 0x02 then 256 else if op = 0x12 then leAt b 40 4 + 48
  else if op = 0x22 then 64 else if op = 0x50 then 27720 else 0

/-- An argument that names none of its defined values (R430, R434, R451). -/
def argIllegal (b : List Byte) : Bool :=
  let op := slotOp b
  (op = 0x12 && decide (4 < leAt b 44 1)) || (op = 0x23 && decide (2 < leAt b 32 1))
    || (op = 0x30 && (decide (leAt b 32 1 = 0) || decide (3 < leAt b 32 1) || decide (1 < leAt b 34 1)))
    || (op = 0x41 && decide (leAt b 32 1 ≠ 1) && decide (leAt b 32 1 ≠ 2))
    || (op = 0x42 && decide (leAt b 40 1 ≠ 1) && decide (leAt b 40 1 ≠ 2))

/-- The device and job states admit the command (R430, R539). -/
def admitted (s : State) (b : List Byte) : Bool :=
  let op := slotOp b
  let ready := decide (s.dev.state = .ready) && !s.dev.entering
  let maint := decide (s.dev.state = .maintenance)
  let j := s.job.state
  if op = 0x01 || op = 0x02 then true
  else if op = 0x10 || op = 0x50 then ready || maint
  else if op = 0x11 then ready && (j = .arming || jobLive s)
  else if op = 0x12 || op = 0x23 then ready && jobLive s
  else if op = 0x20 || op = 0x40 then ready && j = .idle
  else if op = 0x21 then ready && j = .armed
  else if op = 0x22 then ready && (j = .arming || jobLive s || j = .failed)
  else if op = 0x30 then ready
  else if op = 0x41 then
    if leAt b 32 1 = 2 then maint || decide (s.dev.state = .failed) else ready && j = .idle
  else maint

/-- The checks of R428 that the slot alone decides, and illegal arguments; 0 when they pass. -/
def slotCheck (s : State) (b : List Byte) : Nat :=
  let op := slotOp b
  let size := resultSize b
  let fl := slotFlags b
  let reservedArg := (upTo 32).any (fun i =>
    decide (Nat.land (leAt b (32 + i) 1) (argReserved op (32 + i)) ≠ 0))
  if !opDefined op then stBadOpcode
  else if decide (8 ≤ fl) || (Nat.testBit fl 2 && decide (op ≠ 0x11)) || decide (leAt b 14 2 ≠ 0)
    || decide (leAt b 28 4 ≠ 0) || reservedArg || (decide (0 < size) && decide (slotAddr b = 0))
    || (decide (size = 0) && decide (slotAddr b ≠ 0)) then stBadField
  else if decide (960 < slotInline b) || decide (slotResLen b < size) then stBadLength
  else if slotAddr b % 64 ≠ 0 then stAlign
  else if argIllegal b then (if admitted s b then stBadField else stState)
  else 0

/-- Intake is open: the port reads slot EXP (R426, R427, R451). -/
def intakeOpen (s : State) : Bool :=
  hostUp s && decide (s.port.tail ≠ expSeq s) && !stopped s && decide (s.port.func = .enabled)
    && decide (s.port.cmds.length < 64)

/-! ### The commands of intake -/

/-- HP_DOORBELL (R425). -/
def execHpDoorbell (d : W32) (s : State) : Host.Outcome State Fault Refusal :=
  .next (if !hostUp s then s
  else
    let dd := (d - expSeq s).toNat
    let s :=
      if 4096 < dd then
        hpEvent (post s 0xB stBadSeq (sourceOf 15 0) 0
          (BitVec.ofNat 64 (d.toNat + 2 ^ 32 * (expSeq s).toNat)) 0 0 0) 1
      else if (s.port.tail - expSeq s).toNat < dd then { s with port := { s.port with tail := d } }
      else s
    if stopped s then wrB { s with port := { s.port with rereads := 0 } } (bar0 0x20) 39 false else s)

/-- SLOT_READ: `written` is what the host has by now written at the start of slot EXP mod 4,096 of BAR2 (entry
11), and the slot is read (R426). -/
def execSlotRead (written : List Byte) (s : State) : Host.Outcome State Fault Refusal :=
  let i := (expSeq s).toNat % 4096
  let s := if hostUp s then { s with bar2 := putBytes s.bar2 (i * 1024) (written.take 1024) } else s
  let b := slotBytes s i
  let why := slotFault (expSeq s) b
  .next (if !intakeOpen s || why = 0 then s
  else if s.port.rereads < 64 then { s with port := { s.port with rereads := s.port.rereads + 1 } }
  else
    let s := post s 0xA 0 (sourceOf 15 0) 0 (BitVec.ofNat 64 ((expSeq s).toNat + 2 ^ 32 * leAt b 0 4))
      (BitVec.ofNat 64 why) 0 0
    let s := hpEvent (inc s (bar0 0x68)) 0
    wrB { s with port := { s.port with rereads := 0 } } (bar0 0x20) 39 true)

/-- Accept the written slot EXP (R427): copied whole, EXP advances, and the slot's checks run (R428). -/
def commandAccept (s : State) : State :=
  let q := expSeq s
  let b := slotBytes s (q.toNat % 4096)
  if !intakeOpen s || slotFault q b ≠ 0 then s
  else
    let st := slotCheck s b
    let c : Cmd := { seq := q, slot := b, phase := if st = 0 then .waiting else .done, muted := false, status := st
                     detail := 0, value := 0, result := [] }
    let s := wrF s (bar0 0x20) 0 32 (q.toNat + 1)
    { s with port := { s.port with rereads := 0, cmds := s.port.cmds ++ [c] } }

/-- COMMAND_ACCEPT (R427). -/
def execCommandAccept (s : State) : Host.Outcome State Fault Refusal := .next (commandAccept s)

/-- A command that no later command may pass, and that waits for every earlier one (R429). -/
def blocking (c : Cmd) : Bool := opSerial (slotOp c.slot) || Nat.testBit (slotFlags c.slot) 0

/-- The waiting command with sequence `q`, if R429 lets it start: every earlier command not yet completed is
open, and a serial or FENCE command has no earlier one. -/
def startable (s : State) (q : W32) : Option Cmd :=
  let earlier := s.port.cmds.takeWhile (fun c => !decide (c.seq = q))
  match s.port.cmds.find? (fun c => decide (c.seq = q)) with
  | some c =>
    if c.phase = .waiting && decide (s.port.func = .enabled) && !earlier.any blocking
      && (!blocking c || earlier.isEmpty) then some c else none
  | none => none

/-- Start the waiting command with sequence `q` when its opcode is `op` and its slot meets `form`: the state
check of R428, then what the command does. -/
def startCmd (s : State) (q : W32) (op : Nat) (form : List Byte → Bool) (k : List Byte → State → State) : State :=
  match startable s q with
  | some c =>
    if slotOp c.slot = op && form c.slot then
      if admitted s c.slot then k c.slot (updCmd s q (fun c => { c with phase := .running }))
      else failCmd s q stState
    else s
  | none => s

/-- Post a COMPLETION (R443): never dropped (R445). -/
def postCompletion (s : State) (c : Cmd) (status written : Nat) : State :=
  if c.muted then s
  else pushNotice (overflowNotice s) 1 status (sourceOf 15 0) 0
    (BitVec.ofNat 64 (c.seq.toNat + 2 ^ 32 * slotOp c.slot + 2 ^ 48 * (c.detail % 2 ^ 16)))
    (BitVec.ofNat 64 written) c.value 0

/-- Remove a command from those in flight. -/
def dropCmd (s : State) (q : W32) : State :=
  { s with port := { s.port with cmds := s.port.cmds.filter (fun c => !decide (c.seq = q)) } }

/-- Write a command's result where it belongs (R440, R448, R449): host memory, with the write-back of its dirty
lines unless NO_FLUSH is set, or the memory of an endpoint below an N port. -/
def writeResult (s : State) (c : Cmd) : State :=
  let a := slotAddr c.slot
  let route := if slotOp c.slot = 0x12 then leAt c.slot 44 1 else 0
  if c.result.isEmpty then s
  else if route = 0 then
    let s := hostWrite s a c.result
    if Nat.testBit (slotFlags c.slot) 1 then s else hostFlush s a c.result.length
  else { s with nportMem := putBytes s.nportMem ((route - 1) * 2 ^ 64 + a) c.result }

/-- COMPLETION (R448): the command's result is in place, and its notice is posted. A command whose result
still needs the link waits while the outbound function is not enabled (R451). MAINTENANCE with ACTION 2 then
announces the restart (R561). -/
def completion (s : State) (q : W32) : State :=
  match s.port.cmds.find? (fun c => decide (c.seq = q) && decide (c.phase = .done)) with
  | none => s
  | some c =>
    if decide (s.port.func ≠ .enabled) && !c.result.isEmpty then s
    else
      let s := dropCmd (postCompletion (writeResult s c) c c.status c.result.length) q
      if slotOp c.slot = 0x41 && decide (leAt c.slot 32 1 = 2) && decide (c.status = 0) then
        setDevice { s with dev := { s.dev with restarting := true } } .starting 0
      else s

/-- COMPLETION (R448). -/
def execCompletion (seq : W32) (s : State) : Host.Outcome State Fault Refusal := .next (completion s seq)

/-! ### Landing window (R420, R436) -/

/-- The piece of the landing area that a page leads to, if mapped. -/
def landPiece (s : State) (p : Nat) : Option Nat :=
  match Store.get (fun _ => 0) s.port.pages p with
  | 0 => none
  | n + 1 => some n

/-- A discarded landing write (R436). -/
def landDeny (s : State) (off reason : Nat) : State :=
  let p := s.port
  let s := { s with port := { p with deniedCount := p.deniedCount + 1
                                     deniedFirst := if p.deniedCount = 0 then BitVec.ofNat 32 off else p.deniedFirst
                                     deniedReason := if p.deniedCount = 0 then reason else p.deniedReason } }
  inc s (bar0 0x58)

/-- LANDING_WRITE (R436). -/
def execLandingWrite (off : BitVec 28) (data : List Byte) (s : State) : Host.Outcome State Fault Refusal :=
  let o := off.toNat
  .next (if !hostUp s then s
  else match landPiece s (o / 65536) with
    | none => landDeny s o 1
    | some n =>
      let pa := (rd s (hp 0)).toNat + n * 65536 + o % 65536
      if possessed s pa data.length then landDeny (deny s pa 12 1) o 2
      else if !inUnified pa data.length then landDeny s o 1
      else cohWrite s pa data)

/-- LANDING_DENIED (R436) at count `t`: at most one in 1 ms. -/
def execLandingDenied (t : W64) (s : State) : Host.Outcome State Fault Refusal :=
  let s := advance s t
  .next (if s.port.deniedCount = 0 || !sinceOk s s.port.deniedAt 1000000 then s
  else
    let p := s.port
    let s := post s 0xC 0 (sourceOf 15 0) 0
      (BitVec.ofNat 64 (p.deniedCount % 2 ^ 32 + 2 ^ 32 * p.deniedFirst.toNat)) (BitVec.ofNat 64 p.deniedReason) 0 0
    hpEvent { s with port := { s.port with deniedCount := 0, deniedAt := some (now s) } } 2)

/-- BAR4_READ (R420). -/
def execBar4Read (_off : BitVec 28) (s : State) : Host.Outcome State Fault Refusal :=
  .next (if hostUp s then hpEvent (inc s (bar0 0x60)) 3 else s)

/-! ### The notice ring (R422, R441, R446) -/

/-- HP_NOTICE_CTRL_WRITE (R422). -/
def execHpNoticeCtrlWrite (v : W64) (s : State) : Host.Outcome State Fault Refusal :=
  let on := rdB s (bar0 0x48) 0
  .next (if !hostUp s then s
  else if on then
    let s := if fld v 8 8 = rdF s (bar0 0x48) 8 8 then s else hpEvent s 5
    wrB s (bar0 0x48) 0 (bitOf v 0)
  else
    let s := wr s (bar0 0x48) (v &&& 0xFF01)
    if bitOf v 0 then wr s (bar0 0x40) 0 else s)

/-- HP_NOTICE_HEAD_WRITE (R422). -/
def execHpNoticeHeadWrite (v : W64) (s : State) : Host.Outcome State Fault Refusal :=
  let h : W32 := BitVec.setWidth 32 (rd s (bar0 0x38))
  let t : W32 := BitVec.setWidth 32 (rd s (bar0 0x40))
  let n : W32 := BitVec.setWidth 32 v
  .next (if !hostUp s then s
  else if (n - h).toNat ≤ (t - h).toNat then wr s (bar0 0x38) (BitVec.setWidth 64 n) else hpEvent s 5)

/-- The 64 bytes of a notice (R442). -/
def noticeBytes (n : Notice) (phase : Nat) : List Byte :=
  leBytes 4 n.nseq.toNat ++ leBytes 2 n.typ ++ leBytes 2 n.status ++ leBytes 8 n.mtc.toNat
    ++ leBytes 4 n.source.toNat ++ leBytes 2 n.code ++ leBytes 2 0 ++ leBytes 8 n.d0.toNat ++ leBytes 8 n.d1.toNat
    ++ leBytes 8 n.d2.toNat ++ leBytes 8 n.d3.toNat ++ leBytes 7 0 ++ leBytes 1 phase

/-- 2^k entries of the ring (R421). -/
def ringSize (s : State) : Nat := 2 ^ rdF s (bar0 0x30) 0 5

/-- Entries between HEAD and TAIL. -/
def ringUsed (s : State) : Nat :=
  (BitVec.setWidth 32 (rd s (bar0 0x40)) - BitVec.setWidth 32 (rd s (bar0 0x38)) : W32).toNat

/-- NOTICE_WRITE (R441). -/
def execNoticeWrite (s : State) : Host.Outcome State Fault Refusal :=
  .next (match s.port.noticeQ with
  | [] => s
  | n :: rest =>
    if !hostUp s || !rdB s (bar0 0x48) 0 || decide (s.port.func ≠ .enabled) || decide (ringSize s ≤ ringUsed s) then s
    else
      let tail := rdF s (bar0 0x40) 0 32
      let phase := 1 - tail / ringSize s % 2
      let a := (rd s (bar0 0x28)).toNat + n.nseq.toNat % ringSize s * 64
      let s := hostPosted s a (noticeBytes n phase)
      let s := { s with port := { s.port with noticeQ := rest, msixDue := true } }
      overflowNotice (wrF s (bar0 0x40) 0 32 (tail + 1)))

/-- MSIX_MESSAGE (R446) at count `t`: HOLDOFF microseconds have passed since the last message. -/
def execMsixMessage (t : W64) (s : State) : Host.Outcome State Fault Refusal :=
  let s := advance s t
  .next (if !s.port.msixDue || !hostUp s || decide (s.port.func ≠ .enabled)
      || !sinceOk s s.port.msixAt (1000 * rdF s (bar0 0x48) 8 8) then s
  else if rdB s (bar0 0x8008) 32 then wrB s (bar0 0x9000) 0 true
  else
    let a := (rd s (bar0 0x8000)).toNat
    let s := hostPosted s a (leBytes 4 (rdF s (bar0 0x8008) 0 32))
    let s := { s with port := { s.port with msixDue := false, msixSent := s.port.msixSent + 1, msixAt := some (now s) } }
    wrB s (bar0 0x9000) 0 false)

/-! ### Wake, landing area, runtime notices -/

/-- HP_WAKE (R541). -/
def execHpWake (v : W64) (s : State) : Host.Outcome State Fault Refusal :=
  .next (if !bitOf v 0 then s
  else if s.dev.entering then { s with dev := { s.dev with wakePending := true } }
  else if s.dev.state = .stabled && s.dev.wakeAt.isNone then
    { s with dev := { s.dev with wakeAt := some (now s), wakeStep := 0 } }
  else s)

/-- HP_LAND_WRITE (R435). -/
def execHpLandWrite (size : Bool) (v : W64) (s : State) : Host.Outcome State Fault Refusal :=
  .next (if s.job.state ≠ .idle || !s.port.pages.isEmpty then s
  else if size then (if v.toNat ≤ 65536 then wr s (hp 8) v else s)
  else wr s (hp 0) (v &&& 0xFFFFFFFFFF0000))

/-- HP_RT_POST (R435). -/
def execHpRtPost (v : W64) (s : State) : Host.Outcome State Fault Refusal :=
  .next (if bitOf v 0 then
    post s 0xE 0 (sourceOf 12 0x30) 0 (rd s (hp 0x10)) (rd s (hp 0x18)) (rd s (hp 0x20)) (rd s (hp 0x28))
  else s)

/-! ### Resets and the outbound function (R450, R451) -/

/-- The started commands, which run on after a reset, in order (R450). -/
def started (s : State) : List Cmd := s.port.cmds.filter (fun c => !decide (c.phase = .waiting))

/-- Under which number command `q` runs on after a reset: the host numbers its commands from 0 again, so the muted ones count
down from 2^32 - 1 (entry 133). -/
def mutedSeq (s : State) (q : W32) : W32 :=
  BitVec.ofNat 32 (2 ^ 32 - 1 - ((started s).takeWhile (fun c => !decide (c.seq = q))).length)

/-- What waits on a command keeps its hold on it. -/
def renameWaits (s : State) : State :=
  let f (o : Option W32) : Option W32 := o.map (mutedSeq s)
  { s with job := { s.job with armSeq := f s.job.armSeq, tdSeq := f s.job.tdSeq }
           dev := { s.dev with stableSeq := f s.dev.stableSeq }
           sigOps := s.sigOps.map (fun o =>
             if o.asker = 1 then { o with askId := (mutedSeq s (BitVec.ofNat 32 o.askId)).toNat } else o) }

/-- Reset the host port only (R450). -/
def portReset (s : State) (kind : PortReset) : State :=
  let run := (started s).map (fun c => { c with muted := true, seq := mutedSeq s c.seq })
  let s := renameWaits s
  let p := s.port
  let keep := decide (kind = .flr)
  { s with
    regs := Store.eraseRange s.regs (bar0 0) (bar0 0x10000)
    hostLines := []
    port := { p with tail := 0, rereads := 0, pages := [], noticeQ := [], dropped := 0, msixDue := false
                     deniedCount := 0, deniedAt := none, msixAt := none, cmds := run
                     ide := p.ide && keep, cxlCache := p.cxlCache && keep, doe := if keep then p.doe else none } }

/-- HOST_PORT_RESET (R450). -/
def execHostPortReset (kind : PortReset) (s : State) : Host.Outcome State Fault Refusal :=
  .next (if hostUp s then portReset s kind else s)

/-- Count at which a function began to drain, which is none once it no longer does (R513). -/
def noteDrain (s : State) (k : Nat) (on : Bool) : State :=
  { s with dev := { s.dev with drainAt := Store.set (fun _ => 0) s.dev.drainAt k (if on then (now s).toNat else 0) } }

/-- FUNCTION notice (R443). -/
def functionNotice (s : State) (kind index : Nat) (old new : FuncState) (withdrawn : Nat) : State :=
  post s 9 0 (sourceOf 15 0) 0
    (BitVec.ofNat 64 (kind + 2 ^ 8 * index + 2 ^ 16 * funcCode old + 2 ^ 24 * funcCode new
      + 2 ^ 32 * (withdrawn % 2 ^ 32))) 0 0 0

/-- Move the outbound function. -/
def setHostFunc (s : State) (st : FuncState) (withdrawn : Nat) : State :=
  functionNotice (noteDrain { s with port := { s.port with func := st } } 1024 (st = .draining)) 4 0 s.port.func st withdrawn

/-- HOST_FUNCTION_DISABLE (R451). -/
def execHostFunctionDisable (s : State) : Host.Outcome State Fault Refusal :=
  .next (if s.port.func = .enabled then setHostFunc s .draining 0 else s)

/-- HOST_FUNCTION_ENABLE (R451). -/
def execHostFunctionEnable (s : State) : Host.Outcome State Fault Refusal :=
  .next (if s.port.func = .enabled then s else setHostFunc s .enabled 0)

/-- Draining of the outbound function ends: started commands left complete with ST_WITHDRAWN, and none of
their results is written (R451). -/
def hostDrainEnd (s : State) : State :=
  let left := s.port.cmds.filter (fun c => !decide (c.phase = .waiting))
  let s := left.foldl (fun s c => dropCmd (postCompletion s { c with detail := 0, value := 0 } stWithdrawn 0) c.seq) s
  setHostFunc s .disabled left.length

/-! ### Keys of the device seed (R485) -/

/-- A value that the Guard derives from the seed under the label "THG9 " and a name. -/
def derived (s : State) (name : List Nat) : List Byte :=
  sha256 (label ([0x54, 0x48, 0x47, 0x39, 0x20] ++ name) ++ leBytes 32 s.guard.deviceSeed.toNat)

/-- Identity key: SK.seed with SK.prf ("ID"), PK.seed ("IDP"), the public key, and byte `i` of its signature over `m`. -/
def idSecret (s : State) : List Byte := derived s [0x49, 0x44]
def idSeed (s : State) : List Byte := (derived s [0x49, 0x44, 0x50]).take 16
def idPk (s : State) : List Byte := Config.slhPk (idSecret s) (idSeed s)
def idSign (s : State) (m : List Byte) (i : Nat) : Byte := Config.slhSign (idSecret s) (idSeed s) m i

/-- Configuration encapsulation key ("CKD", "CKZ"). -/
def cfgEk (s : State) : List Byte := Config.kemEk (derived s [0x43, 0x4B, 0x44]) (derived s [0x43, 0x4B, 0x5A])

/-- Depot runtime key ("RT0", "RT1"). -/
def depotKey (s : State) : BitVec 512 :=
  BitVec.ofNat 512 (leNat (derived s [0x52, 0x54, 0x30] ++ derived s [0x52, 0x54, 0x31]))

/-! ### DOE and IDE (R419, R487) -/

/-- DOE_SESSION (R487). -/
def execDoeSession (hostKey : List Byte) (s : State) : Host.Outcome State Fault Refusal :=
  .next (if !hostUp s then s
  else
    let secret := s.freeIx
    let (ct, s) := drawBytes s 1088
    let cert := if rdB s (gd 0) 2 then s.guard.norCert.getD [] else List.replicate 9104 0
    let sig := (upTo 17088).map (idSign s (sha256 (hostKey ++ ct)))
    { s with port := { s.port with doe := some (secret, 0), doeAnswer := ct ++ cert ++ sig } })

/-- IDE_KM (R487). -/
def execIdeKm (authentic : Bool) (s : State) : Host.Outcome State Fault Refusal :=
  .next (match s.port.doe with
  | some (k, n) =>
    if authentic then { s with port := { s.port with ide := true, doe := some (k, n + 1) } } else s
  | none => s)

end Sys2Proof.Machine
end

