-- ==== Sys2Proof/Machine/SealEngine.lean ====
section
/-! DEFINITION. Job memory as the engines of the X-dies reach it (R410, R439, R440, R471), sealed frames (R411, R412,
R438), and the N ports (R409, R410, R416). -/

namespace Sys2Proof.Machine

/-! ### Job memory -/

/-- The physical pieces of [va, va + n) of job memory under the tables of A0's TU_SATP (entry 23), or the status that
refuses the access: ST_FAULT for a failed translation, ST_CONFLICT for a possessed range. -/
def jobPieces (s : State) (va n : Nat) (write : Bool) : Except Nat (List (Nat × Nat)) :=
  let mode := rdF s (tu 0 0) 60 4
  if mode ≠ 9 ∧ mode ≠ 10 then .error stFault
  else
    match virtPieces s 0 noEngine va n write with
    | .error _ => .error stFault
    | .ok ps =>
      if ps.any (fun p => possessed s p.1 p.2) then .error stConflict
      else if ps.any (fun p => !inUnified p.1 p.2) then .error stFault
      else .ok ps

/-- What a refused access leaves: the walks it made, and the refusal of R340. -/
def jobRefused (s : State) (va n : Nat) (write : Bool) (st : Nat) : State :=
  let s := afterVirt s 0 noEngine va n write
  if st = stConflict then
    match virtPieces s 0 noEngine va n write with
    | .ok ps =>
      match ps.find? (fun p => possessed s p.1 p.2) with
      | some p => deny s p.1 12 3
      | none => s
    | .error _ => s
  else s

/-- Read `n` bytes of job memory as coherent reads: status, bytes, and what it leaves. A poisoned block is an
uncorrectable-data error (R302): ST_FAULT. -/
def jobRead (s : State) (va n : Nat) : Nat × List Byte × State :=
  match jobPieces s va n false with
  | .error st => (st, [], jobRefused s va n false st)
  | .ok ps =>
    let s1 := ps.foldl (fun s p => cohTouch s p.1 p.2) (afterVirt s 0 noEngine va n false)
    if ps.any (fun p => poisonedRange s p.1 p.2) then (stFault, [], s1)
    else (0, ps.flatMap (fun p => cohBytes s p.1 p.2), s1)

/-- Write bytes of job memory as coherent writes: every page is translated before any byte is written (R439). -/
def jobWrite (s : State) (va : Nat) (l : List Byte) : Nat × State :=
  match jobPieces s va l.length true with
  | .error st => (st, jobRefused s va l.length true st)
  | .ok ps =>
    let s := afterVirt s 0 noEngine va l.length true
    (0, (ps.foldl (fun (a : State × List Byte) p => (cohWrite a.1 p.1 (a.2.take p.2), a.2.drop p.2)) (s, l)).1)

/-- X0's engines reach [pa, pa + n) of physical memory as coherent accesses (R96, R339). -/
def ringOpen (s : State) (pa n : Nat) : Bool := inUnified pa n && !possessed s pa n

/-- What a ring access that is not open leaves: the refusal of R340, and nothing outside unified memory. -/
def ringRefused (s : State) (pa n : Nat) : State := if possessed s pa n then deny s pa 12 3 else s

/-- Write bytes of a ring; a refused write changes nothing of the ring. -/
def ringWrite (s : State) (pa : Nat) (l : List Byte) : State :=
  if ringOpen s pa l.length then cohWrite s pa l else ringRefused s pa l.length

/-! ### Sealed frames (R411, R438) -/

/-- The header of a frame: `magic2` is 0x46 for a sealed frame and 0x48 for a host frame in byte 2's place. -/
def frameHeader (host : Bool) (tag : BitVec 16) (src dst counter len : Nat) (gpid : W32) : List Byte :=
  leBytes 4 (if host then 0x39484653 else 0x39474653) ++ leBytes 2 1 ++ leBytes 2 tag.toNat ++ leBytes 4 src ++ leBytes 4 dst
    ++ leBytes 8 counter ++ leBytes 4 len ++ leBytes 4 gpid.toNat

/-- A sealed frame: the IV is SRC_RANK, whose bits 31:30 are 0b10 in a package's host frame, and COUNTER. -/
def sealFrame (s : State) (host : Bool) (dst counter : Nat) (gpid : W32) (payload : List Byte) : List Byte :=
  let h := frameHeader host s.job.tag s.job.rank dst counter payload.length gpid
  let iv : BitVec 96 := BitVec.ofNat 96 (leNat (leBytes 4 (s.job.rank + (if host then 2 ^ 31 else 0)) ++ leBytes 8 counter))
  h ++ (upTo (payload.length + 16)).map (Config.gcm s.job.sealKey iv h payload)

/-- COUNTER `c` from a source is new and within 1,024 of the highest accepted from it (R412); before any has been accepted
there is no highest to be within. -/
def counterOk (s : State) (src c : Nat) : Bool :=
  let l := Store.get (fun _ => []) s.job.sealRx src
  !l.contains c && (l.isEmpty || decide (c ≤ l.foldl max 0 + 1024) && decide (l.foldl max 0 ≤ c + 1024))

/-- Accept COUNTER `c` from a source. -/
def counterTake (s : State) (src c : Nat) : State :=
  let l := Store.get (fun _ => []) s.job.sealRx src
  { s with job := { s.job with sealRx := Store.set (fun _ => []) s.job.sealRx src (l ++ [c]) } }

/-- The rules of R412 on a frame whose MAC has verified or not; `host` for an owner frame (R438), whose counter space is
2^20. -/
def frameOk (s : State) (host : Bool) (f : List Byte) (opened : Option (List Byte)) : Option (List Byte) :=
  let src := leAt f 8 4
  let ok := decide (leAt f 0 4 = (if host then 0x39484653 else 0x39474653)) && decide (leAt f 4 2 = 1)
    && decide (leAt f 6 2 = s.job.tag.toNat) && decide (leAt f 12 4 = s.job.rank) && decide (leAt f 28 4 = s.guard.gpid.toNat)
    && (!host || decide (src = 0)) && counterOk s (if host then 2 ^ 20 else src % 2 ^ 20) (leAt f 16 8)
    && decide (leAt f 24 4 + 48 = f.length)
  match opened with
  | some p => if ok && decide (p.length + 48 = f.length) then some p else none
  | none => none

/-! ### The seal region and its registers (R409, R416) -/

/-- NP_EVENT bit `i` (R417, R444). -/
def npEvent (s : State) (i : Nat) : State :=
  raise s 12 0x1000040 i (reg (np 0)) (reg (np 0x38)) (reg (np 0x30)) (reg (np 0x28))

/-- The seal region: base and bytes. -/
def sealBase (s : State) : Nat := (rd s (np 8)).toNat
def sealBytes (s : State) : Nat := (rd s (np 0x10)).toNat * 0x200000

/-- [a, a + n) lies in the seal region. -/
def inSeal (s : State) (a n : Nat) : Bool := decide (sealBase s ≤ a) && decide (a + n ≤ sealBase s + sealBytes s)

/-- The runtime may write peers, routes and the seal region: the job is IDLE or ARMING. -/
def setupOpen (s : State) : Bool := s.job.state = .idle || s.job.state = .arming

/-- Ranges of the loaded image's possessions, as bytes. -/
def possRanges (s : State) : List (Nat × Nat) := s.ttx.poss.map (fun p => (p.base, p.granules * 0x200000))

/-- Two byte ranges meet. -/
def rangesMeet (a n b m : Nat) : Bool := decide (a < b + m) && decide (b < a + n) && decide (0 < n) && decide (0 < m)

/-- NP_SEAL_REGION_WRITE: NP_SEAL_SIZE or NP_SEAL_BASE; ignored outside IDLE and ARMING, onto a possession of the loaded
image, and for a size above 4,096 granules. -/
def execNpSealRegionWrite (size : Bool) (v : W64) (s : State) : Host.Outcome State Fault Refusal :=
  let t := if size then wr s (np 0x10) v else wr s (np 8) (v &&& 0x1FFFFE00000)
  .next (if !setupOpen s || (size && decide (4096 < v.toNat))
    || (possRanges s).any (fun r => rangesMeet (sealBase t) (sealBytes t) r.1 r.2) then npEvent s 3 else t)

/-- NP_PEER_r, low or high word. -/
def npPeer (r w : Nat) : Nat := np (0x100000 + 16 * r + 8 * w)

/-- NP_PEER_WRITE (R395, R416). -/
def execNpPeerWrite (r : BitVec 16) (high : Bool) (v : W64) (s : State) : Host.Outcome State Fault Refusal :=
  .next (if setupOpen s then
    wr s (npPeer r.toNat (b2n high)) (v &&& (if high then 0xFFFFFFFF else 0x80000000003FFFFF))
  else npEvent s 3)

/-- The valid peer entries, as found among the written ones. -/
def peerKeys (s : State) : List Nat :=
  (Store.keysIn s.regs (npPeer 0 0) (npPeer 65536 0)).filter (fun k => decide ((k - npPeer 0 0) % 16 = 0) && rdB s k 63)

/-- The peer entry of a rank. -/
def peerOf (s : State) (rank : Nat) : Option Nat := (peerKeys s).find? (fun k => decide (rdF s k 0 20 = rank))

/-- Two valid entries share a rank (R395). -/
def peersClash (s : State) : Bool :=
  let rs := (peerKeys s).map (fun k => rdF s k 0 20)
  decide (rs.dedup.length < rs.length)

/-! ### The seal engine's ring (R410) -/

/-- Entries of the descriptor ring (R416). -/
def npRingSize (s : State) : Nat := rdF s (np 0x18) 0 12

/-- Address of entry `i`. -/
def npEntry (s : State) (i : Nat) : Nat := (rd s (np 0x18)).toNat / 4096 * 4096 + 32 * i

/-- NP_RING_TAIL_WRITE. -/
def execNpRingTailWrite (v : W64) (s : State) : Host.Outcome State Fault Refusal := .next (wr s (np 0x20) v)

/-- The next request, when the ring holds one. -/
def npNext (s : State) : Option (List Byte) :=
  let n := npRingSize s
  let h := (rd s (np 0x28)).toNat
  if n = 0 ∨ h % n = (rd s (np 0x20)).toNat % n then none else some (cohBytes s (npEntry s (h % n)) 32)

/-- A request completes: its status goes into byte 2, the head advances, DONE is set. -/
def npDone (s : State) (st : Nat) : State :=
  let n := max 1 (npRingSize s)
  let h := (rd s (np 0x28)).toNat % n
  npEvent (wr (ringWrite s (npEntry s h + 2) (leBytes 2 st)) (np 0x28) (BitVec.ofNat 64 ((h + 1) % n))) 0

/-- The checks that both operations make before they move data: the job runs under its keys, the length is in range, and
the frame lies in the seal region (entry 23). -/
def sealCheck (s : State) (b : List Byte) : Nat :=
  let len := leAt b 24 4
  if !jobLive s || !rdB s (gd 0) 4 then stState
  else if len = 0 ∨ 65536 < len then stRange
  else if !inSeal s (leAt b 16 8) (len + 48) then stRange
  else 0

/-- Address of the ring's head entry. -/
def npHead (s : State) : Nat := npEntry s ((rd s (np 0x28)).toNat % max 1 (npRingSize s))

/-- SEAL (R410 to R412): the request at the head of the ring, when it is no OPEN. -/
def execSealFrame (s : State) : Host.Outcome State Fault Refusal :=
  .next (match npNext s with
  | none => s
  | some b =>
    if !ringOpen s (npHead s) 32 then ringRefused s (npHead s) 32
    else if leAt b 0 2 = 2 then s
    else if leAt b 0 2 ≠ 1 then npDone s stBadOpcode
    else if sealCheck s b ≠ 0 then npDone s (sealCheck s b)
    else
      match peerOf s (leAt b 4 4) with
      | none => npDone s stRange
      | some k =>
        match jobRead s (leAt b 8 8) (leAt b 24 4) with
        | (0, payload, s) =>
          let f := sealFrame s false (leAt b 4 4) s.job.sealTx (BitVec.ofNat 32 (rdF s (k + 8) 0 32)) payload
          let s := cohWrite { s with job := { s.job with sealTx := s.job.sealTx + 1 } } (leAt b 16 8) f
          npDone s 0
        | (st, _, s) => npDone s st)

/-- OPEN (R410, R412): the request at the head of the ring, when it is one; `opened` is what the frame decrypts to if its
MAC verifies. A refused frame writes nothing to job memory. -/
def execOpenFrame (opened : Option (List Byte)) (s : State) : Host.Outcome State Fault Refusal :=
  .next (match npNext s with
  | none => s
  | some b =>
    if !ringOpen s (npHead s) 32 then ringRefused s (npHead s) 32
    else if leAt b 0 2 ≠ 2 then s
    else if sealCheck s b ≠ 0 then npDone s (sealCheck s b)
    else
      let f := cohBytes s (leAt b 16 8) (leAt b 24 4 + 48)
      match frameOk s false f opened with
      | none => npDone (npEvent (inc s (np 0x38)) 1) stDenied
      | some p =>
        let (st, t) := jobWrite s (leAt b 8 8) p
        if st = 0 then npDone (counterTake t (leAt f 8 4 % 2 ^ 20) (leAt f 16 8)) 0 else npDone t st)

/-! ### The ports (R409) -/

/-- NPORT_INBOUND_REQUEST: an endpoint reads or writes; only the seal region answers, and everything else completes with
Unsupported Request. -/
def execNportInboundRequest (n : NPortIx) (pa : W64) (len : BitVec 13) (write : Option (List Byte)) (s : State) :
    Host.Outcome State Fault Refusal :=
  .next (if !rdB s (np 0) (4 * n.val) then s
  else match write with
    | some l => if inSeal s pa.toNat l.length then cohWrite s pa.toNat l else npEvent (inc s (np 0x30)) 2
    | none =>
      if inSeal s pa.toNat len.toNat then
        cohTouch { s with answer := cohBytes s pa.toNat len.toNat } pa.toNat len.toNat
      else npEvent (inc s (np 0x30)) 2)

/-- NPORT_LINK_UP: the link trains with its endpoint unless the port is DISABLED (R515). -/
def execNportLinkUp (n : NPortIx) (ide flit : Bool) (s : State) : Host.Outcome State Fault Refusal :=
  .next (if Store.get (fun _ => 0) s.npFunc n.val = 2 || !s.dev.rails then s
  else wrF s (np 0) (4 * n.val) 3 (1 + 2 * b2n ide + 4 * b2n flit))

/-- The link of port `n` goes down; GETs that route to it and have not completed complete with ST_RANGE (R434). -/
def nportDown (s : State) (n : Nat) : State :=
  let s := wrF s (np 0) (4 * n) 3 0
  (s.port.cmds.filter (fun c => decide (slotOp c.slot = 0x12) && decide (leAt c.slot 44 1 = n + 1)
    && !decide (c.phase = .waiting) && decide (c.status = 0))).foldl (fun s c => failCmd s c.seq stRange) s

/-- NPORT_LINK_DOWN. -/
def execNportLinkDown (n : NPortIx) (s : State) : Host.Outcome State Fault Refusal :=
  .next (if rdB s (np 0) (4 * n.val) then nportDown s n.val else s)

end Sys2Proof.Machine
end

