-- ==== Sys2Proof/Machine/Depot.lean ====
section
/-! DEFINITION. The depot (R453 to R478): objects and replicas, backed pages, the request ring, and the NAND's wear, defects
and rebuilds. -/

namespace Sys2Proof.Machine

/-! ### Unbooked requests to another package (R387) -/

/-- Send a REQ from die `d` toward position `dst`, cut into flits of 160 data bytes whose ADDRESS rises with the data; the
identifier it took, or none when no port leads there. -/
def sendReq (s : State) (d agent dst owner op form window addr operand : Nat) (name data : List Byte) : State × Option Nat :=
  match routePort s d dst with
  | none => (s, none)
  | some q =>
    let id := s.om.nextId % 2 ^ 32
    let r : OutReq := { id := id, agent := agent, die := d, dst := dst, owner := owner, port := q }
    let s := { s with om := { s.om with reqs := s.om.reqs ++ [r], nextId := s.om.nextId + 1 } }
    let ps := piecesOf 160 data
    let last := (ps.map Prod.fst).foldl max 0
    (ps.foldl (fun s p =>
      let fl := form + 2 * b2n (decide (p.1 = last))
      (sendUnbooked s d 4 s.job.tag dst (reqPayload op fl window p.2.length (addr + p.1) id agent operand name p.2)).1) s,
      some id)

/-- Answer a request of position `src` with RESP flits; the last carries LAST. -/
def sendResp (s : State) (d : Nat) (f : Flit) (status value : Nat) (data : List Byte) : State :=
  let p := f.payload
  let ps := piecesOf 160 data
  let last := (ps.map Prod.fst).foldl max 0
  ps.foldl (fun s x =>
    let fl := 2 * b2n (decide (x.1 = last))
    (sendUnbooked s d 5 f.tag f.src.toNat
      (reqPayload (payNat p 0 1) fl status x.2.length (payNat p 8 8) (payNat p 16 4) (payNat p 20 1) value [] x.2)).1) s

/-! ### Registers -/

/-- DP_EVENT bit `i` (R478). -/
def dpEvent (s : State) (i : Nat) : State :=
  raise s 12 0x2000008 i (reg (dp 0)) (reg (dp 0x68)) (reg (dp 0x38)) (reg (dp 0x20))

/-- DP_STATUS.STATE: 0 OFFLINE, 1 ONLINE, 2 READ_ONLY. -/
def dpState (s : State) : Nat := rdF s (dp 0) 0 2

/-- Move the depot (R467). -/
def setDepot (s : State) (st : Nat) : State :=
  if dpState s = st then s else refreshAlerts (dpEvent (wrF s (dp 0) 0 2 st) 1)

/-- DP_CH_n. -/
def dpCh (n : Nat) : Nat := dp (0x1000 + 8 * n)

/-- Bytes that objects and pages take, in whole codewords. -/
def depotUsed (s : State) : Nat :=
  (s.depot.objects.map (fun o => ceilDiv o.length 4096 * 4096)).sum + (s.depot.pages.map (fun p => p.2.2.length)).sum

/-- DP_CAPACITY and DP_FREE as LUNs and data stand (R459). -/
def depotSizes (s : State) : State :=
  let raw := rdF s (dp 0) 2 10 * s.depot.lunBytes
  let u := raw * 31 * (1000 - s.img.overprov) / 32000
  wr (wr s (dp 0x28) (BitVec.ofNat 64 u)) (dp 0x30) (BitVec.ofNat 64 (u - depotUsed s))

/-! ### Objects (R472) -/

/-- The object or replica of a name and rank. -/
def findObj (s : State) (name : List Byte) (rank : Nat) (replica : Bool) : Option DepotObj :=
  s.depot.objects.find? (fun o => decide (o.name = name) && decide (o.rank = rank) && (o.replica == replica))

/-- Put an object in its place. -/
def putObj (s : State) (o : DepotObj) : State :=
  let l := s.depot.objects.filter (fun x => !(decide (x.name = o.name) && decide (x.rank = o.rank) && (x.replica == o.replica)))
  depotSizes { s with depot := { s.depot with objects := l ++ [o] } }

/-- Remove objects. -/
def dropObjs (s : State) (p : DepotObj → Bool) : State :=
  depotSizes { s with depot := { s.depot with objects := s.depot.objects.filter (fun o => !p o) } }

/-- The header of an object (R472); BUDDY_GPOS stands in it once it is REPLICATED. -/
def objHeader (o : DepotObj) : List Byte :=
  slice (leBytes 4 0x39474B43 ++ leBytes 2 1 ++ leBytes 1 o.state ++ leBytes 1 o.flags ++ slice o.name 0 32
    ++ leBytes 4 o.gpid.toNat ++ leBytes 4 o.rank ++ leBytes 1 o.groupPos ++ leBytes 1 (if bitOf (BitVec.ofNat 64 o.flags) 1 then o.buddy else 0) ++ leBytes 2 o.tag.toNat
    ++ leBytes 4 0 ++ leBytes 8 o.created.toNat ++ leBytes 8 o.committed.toNat ++ leBytes 8 o.length
    ++ slice o.digest 0 32 ++ leBytes 8 0x1000300B0 ++ slice o.measure 0 32) 0 256

/-- Bytes of an object as this job reads them: free bytes under another checkpoint key (R458, R496). -/
def objBytes (s : State) (o : DepotObj) (off n : Nat) : List Byte × State :=
  if o.ckKey = s.job.ckKey then ((upTo n).map (fun i => Store.get memDefault o.data (off + i)), s) else drawBytes s n

/-- A new object of this job, or of the job that position `pos` runs as `rank`. -/
def newObj (s : State) (name : List Byte) (rank pos : Nat) (replica : Bool) (gpid : W32) : DepotObj :=
  { name := name, rank := rank, replica := replica, state := 1, flags := b2n replica, gpid := gpid, groupPos := pos
    buddy := 0, tag := s.job.tag, created := now s, committed := 0, length := 0, digest := [], measure := s.job.measure
    ckKey := s.job.ckKey, buddied := none, data := [] }

/-- Write bytes of an object. -/
def objPut (o : DepotObj) (off : Nat) (l : List Byte) : DepotObj :=
  { o with data := putBytes o.data off l, length := max o.length (off + l.length) }

/-- Commit an object with its digest (R473). -/
def objCommit (s : State) (o : DepotObj) (flags buddy : Nat) : State :=
  let (b, s) := objBytes s o 0 o.length
  putObj s { o with state := 2, committed := now s, digest := sha256 b, flags := flags, buddy := buddy }

/-! ### Codewords and stripes (R456 to R458) -/

/-- The 4,096 data bytes of logical codeword `n` as the NAND holds them: the data unit is encrypted under the key, tweaked by
the number. -/
def codewordCipher (k : BitVec 512) (n : Nat) (data : List Byte) : List Byte :=
  leBytes 4096 (Config.xts 32768 k (BitVec.ofNat 128 n) (BitVec.ofNat 32768 (leNat (slice data 0 4096)))).toNat

/-- The 4,568 bytes of a codeword: data, metadata, parity over both. -/
def codeword (k : BitVec 512) (name : List Byte) (n : Nat) (data : List Byte) : List Byte :=
  let b := codewordCipher k n data ++ (upTo 16).map (Config.codewordMeta name n)
  b ++ (upTo 456).map (Config.ldpcParity b)

/-- Codeword `n` of an object, under the checkpoint key of its job. -/
def objCodeword (o : DepotObj) (n : Nat) : List Byte :=
  codeword o.ckKey o.name n ((upTo 4096).map (fun i => Store.get memDefault o.data (4096 * n + i)))

/-- Codeword `n` of a backed page, under the depot runtime key. -/
def pageCodeword (s : State) (p : W64 × Nat × List Byte) (n : Nat) : List Byte :=
  codeword (depotKey s) (leBytes 8 p.1.toNat) n (slice p.2.2 (4096 * n) 4096)

/-- Channel of the parity page of stripe `n`. -/
def parityChannel (n : Nat) : Nat := n % 32

/-- The parity page of a stripe: the XOR of its data pages. -/
def stripeParity {w : Nat} (l : List (BitVec w)) : BitVec w := l.foldr (fun a b => a ^^^ b) 0

/-- A page restored from the other pages of its stripe, the parity page among them. -/
def stripeRestore {w : Nat} (l : List (BitVec w)) (i : Nat) : BitVec w := stripeParity (stripeParity l :: l.eraseIdx i)

/-! ### Requests (R469 to R471) -/

/-- Fields of a descriptor. -/
def rqOp (b : List Byte) : Nat := leAt b 0 2
def rqBuddy (b : List Byte) : Bool := Nat.testBit (leAt b 5 1) 0
def rqFrom (b : List Byte) : Bool := Nat.testBit (leAt b 5 1) 1
def rqGpos (b : List Byte) : Nat := leAt b 4 1
def rqMem (b : List Byte) : Nat := leAt b 8 8
def rqOff (b : List Byte) : Nat := leAt b 16 8
def rqLen (b : List Byte) : Nat := leAt b 24 8
def rqName (b : List Byte) : List Byte := slice b 32 32

/-- What a request names: an object, or a page key. -/
def rqKey (b : List Byte) : Bool × List Byte := if rqOp b ≤ 5 then (true, rqName b) else (false, slice b 16 8)

/-- Entries of the ring, and entry `i`. -/
def dpRingSize (s : State) : Nat := rdF s (dp 0x10) 0 12
def dpEntry (s : State) (i : Nat) : Nat := (rd s (dp 0x10)).toNat / 4096 * 4096 + 64 * i

/-- The next request to start, as ring index and descriptor (R471: requests start in ring order). -/
def dpNext (s : State) : Option (Nat × List Byte) :=
  let n := dpRingSize s
  let i := ((rd s (dp 0x20)).toNat + s.depot.reqs.length) % max 1 n
  if n = 0 ∨ n ≤ s.depot.reqs.length ∨ i = (rd s (dp 0x18)).toNat % n then none else some (i, cohBytes s (dpEntry s i) 64)

/-- Checks of R471 that the descriptor and the states decide, in the table's order; 0 when they pass. -/
def rqCheck (s : State) (b : List Byte) : Nat :=
  let op := rqOp b
  let page := decide (6 ≤ op)
  let writes := [1, 2, 5, 6].contains op
  let sized := op = 6 || op = 7
  if op = 0 ∨ 8 < op then stBadOpcode
  else if decide (4 ≤ leAt b 5 1) || decide (leAt b 6 2 ≠ 0) || (rqFrom b && decide (op ≠ 3)) || decide (2 ^ 32 < rqLen b)
    || (page && decide (leAt b 32 32 ≠ 0)) || (sized && decide (rqLen b ≠ 4096) && decide (rqLen b ≠ 2097152)) then stBadField
  else if decide (rqLen b % 4096 ≠ 0) || (!page && decide (rqOff b % 4096 ≠ 0)) || (sized && decide (rqMem b % rqLen b ≠ 0)) then
    stAlign
  else if (if page then decide (s.dev.state ≠ .ready) else !jobLive s) || decide (dpState s = 0)
    || (writes && decide (dpState s = 2)) then stState
  else 0

/-- A request starts, with its status where it already has one. -/
def rqStart (s : State) (i : Nat) (b : List Byte) (st : Option Nat) (data : List Byte) (ids : List Nat) : State :=
  let r : DepotReq := { index := i, desc := b, status := st, data := data, ids := ids, startedAt := now s }
  { s with depot := { s.depot with reqs := s.depot.reqs ++ [r] } }

/-- Take the next request when its operation is `op` and no request in flight names the same object or page; its checks
run first. -/
def rqTake (s : State) (op : Nat) (k : Nat → List Byte → State → State) : State :=
  match dpNext s with
  | none => s
  | some (i, b) =>
    if !ringOpen s (dpEntry s i) 64 then ringRefused s (dpEntry s i) 64
    else if rqOp b ≠ op ∨ s.depot.reqs.any (fun r => decide (rqKey r.desc = rqKey b)) then s
    else if rqCheck s b ≠ 0 then rqStart s i b (some (rqCheck s b)) [] []
    else k i b s

/-- Whether `extra` more bytes fit. -/
def depotRoom (s : State) (extra : Nat) : Bool := decide (extra ≤ (rd s (dp 0x30)).toNat)

/-- The routing entry of a request's buddy is valid (R471). A buddy that no port leads to is unreachable: its request waits for
BUDDY_TIMEOUT. -/
def buddyRoute (s : State) (b : List Byte) : Bool := bitOf (orEntry s (rqGpos b)) 19

/-- What OBJ_WRITE leaves in the depot. -/
def applyWrite (s : State) (b data : List Byte) : State :=
  let o := (findObj s (rqName b) s.job.rank false).getD (newObj s (rqName b) s.job.rank (ownPos s) false s.guard.gpid)
  let o := { o with buddied := some (rqBuddy b), buddy := if rqBuddy b then rqGpos b else o.buddy }
  putObj s (objPut o (rqOff b) data)

/-- What OBJ_COMMIT leaves. -/
def applyCommit (s : State) (b : List Byte) : State :=
  match findObj s (rqName b) s.job.rank false with
  | some o => objCommit s o (if rqBuddy b then o.flags ||| 2 else o.flags) o.buddy
  | none => s

/-- OBJ_WRITE (R470, R473): with BUDDY, the data goes to the buddy as well, and the request waits for its answer. -/
def execObjWrite (s : State) : Host.Outcome State Fault Refusal :=
  .next (rqTake s 1 (fun i b s =>
    let old := findObj s (rqName b) s.job.rank false
    let fin := fun s st => rqStart s i b (some st) [] []
    if old.any (fun o => decide (o.state = 2)) then fin s stState
    else if (old.isNone && decide (1048576 ≤ s.depot.objects.length))
      || !depotRoom s (rqOff b + rqLen b - (old.map DepotObj.length).getD 0) || (rqBuddy b && !buddyRoute s b) then fin s stRange
    else if old.any (fun o => decide (o.buddied ≠ some (rqBuddy b)) || (rqBuddy b && decide (o.buddy ≠ rqGpos b))) then
      fin s stConflict
    else
      match jobRead s (rqMem b) (rqLen b) with
      | (0, data, s) =>
        if rqBuddy b then
          match sendReq s 12 2 (rqGpos b) i 6 0 0 (rqOff b) s.job.rank (rqName b) data with
          | (s, id) => rqStart s i b none data id.toList
        else fin (applyWrite s b data) 0
      | (st, _, s) => fin s st))

/-- OBJ_COMMIT (R473): with BUDDY, the replica is committed first, under the same digest. -/
def execObjCommit (s : State) : Host.Outcome State Fault Refusal :=
  .next (rqTake s 2 (fun i b s =>
    let fin := fun s st => rqStart s i b (some st) [] []
    match findObj s (rqName b) s.job.rank false with
    | none => fin s stRange
    | some o =>
      if rqBuddy b && !buddyRoute s b then fin s stRange
      else if decide (o.buddied ≠ some (rqBuddy b)) || (rqBuddy b && decide (o.buddy ≠ rqGpos b)) then fin s stConflict
      else if rqBuddy b then
        let (data, s) := objBytes s o 0 o.length
        match sendReq s 12 2 (rqGpos b) i 7 0 0 0 s.job.rank (rqName b) (sha256 data) with
        | (s, id) => rqStart s i b none [] id.toList
      else fin (applyCommit s b) 0))

/-- The page of a codeword cannot be read where it stands: its LUN has failed (R465) or its channel is not ENABLED (R476). -/
def pageAway (s : State) (x : LadderRead) : Bool := rdB s (dpCh x.ch) (7 + x.lun.val) || decide (rdF s (dpCh x.ch) 0 2 ≠ 0)

/-- The ladder's step that serves a codeword: a page that is away is restored from its stripe (R457, R465, R476). -/
def ladderStep (s : State) (x : LadderRead) : Nat := if pageAway s x then max 5 x.step.val else x.step.val

/-- The ladder of R460 as a read climbed it: success on step 2 or 3 leaves a retry offset (R461), on step 3 or later the refresh
flag of a block that is in service, and a lost codeword is recorded (R466). -/
def climb (s : State) (x : LadderRead) : State :=
  let k := x.ch.val * 2 ^ 24 + x.lun.val * 2 ^ 16 + x.block.toNat
  let st := ladderStep s x
  let o := Store.get NandBlock.fresh s.depot.blocks k
  let o := { o with refresh := o.refresh || (decide (3 ≤ st) && decide (st ≤ 5) && !pageAway s x), offset := o.offset || decide (st = 2) || decide (st = 3) }
  let s := if 2 ≤ st then { s with depot := { s.depot with blocks := Store.set NandBlock.fresh s.depot.blocks k o } } else s
  let s := if 2 ≤ st ∧ st ≤ 5 then upd s (dp 0x50) (fun w => satIncFld w (16 * (st - 2)) 16) else s
  if st = 6 then
    let s := upd s (dp 0x50) (fun w => satIncFld w 48 16)
    dpEvent (wr s (dp 0x68) (BitVec.ofNat 64 (x.ch.val + 2 ^ 5 * x.lun.val + 2 ^ 9 * x.page.toNat + 2 ^ 33 * x.cw.val + 2 ^ 63))) 4
  else s

/-- Mark an object DAMAGED. -/
def damage (s : State) (o : DepotObj) : State := putObj s { o with state := 3 }

/-- The bytes that one READ of a request's replica asks for: OPERAND holds up to 16,777,216 (R387). -/
def readAsk (b : List Byte) (got : Nat) : Nat := min 16777216 (rqLen b - got)

/-- Ask the buddy for the next part of a replica, after `got` bytes. -/
def askReplica (s : State) (i : Nat) (b : List Byte) (got : Nat) : State × Option Nat :=
  sendReq s 12 2 (rqGpos b) i 1 0 0 (rqOff b + got) (readAsk b got) (rqName b) []

/-- OBJ_READ (R470, R473); `x` says how the NAND answered. -/
def execObjRead (x : LadderRead) (s : State) : Host.Outcome State Fault Refusal :=
  .next (rqTake s 3 (fun i b s =>
    let fin := fun s st => rqStart s i b (some st) [] []
    if rqFrom b && !buddyRoute s b then fin s stRange
    else if rqFrom b then
      match askReplica s i b 0 with
      | (s, id) => rqStart s i b none [] id.toList
    else
      match findObj s (rqName b) s.job.rank false with
      | none => fin s stRange
      | some o =>
        if o.state = 3 then fin s stState
        else if o.length < rqOff b + rqLen b then fin s stRange
        else
          match jobPieces s (rqMem b) (rqLen b) true with
          | .error st => fin (jobRefused s (rqMem b) (rqLen b) true st) st
          | .ok _ =>
            let lost := decide (ladderStep s x = 6)
            let s := climb s x
            if lost then fin (damage s o) stFault
            else
              let (data, s) := objBytes s o (rqOff b) (rqLen b)
              if decide (o.state = 2) && decide (rqOff b = 0) && decide (rqLen b = o.length) && decide (sha256 data ≠ o.digest) then
                fin (damage s o) stFault
              else
                let (st, s) := jobWrite s (rqMem b) data
                fin s st))

/-- OBJ_STAT (R470). -/
def execObjStat (s : State) : Host.Outcome State Fault Refusal :=
  .next (rqTake s 4 (fun i b s =>
    match findObj s (rqName b) s.job.rank false with
    | none => rqStart s i b (some stRange) [] []
    | some o =>
      let (st, s) := jobWrite s (rqMem b) (objHeader o)
      rqStart s i b (some st) [] []))

/-- OBJ_DELETE (R470): the object and every replica of it that this depot holds (entry 24). -/
def execObjDelete (s : State) : Host.Outcome State Fault Refusal :=
  .next (rqTake s 5 (fun i b s =>
    if (findObj s (rqName b) s.job.rank false).isNone then rqStart s i b (some stRange) [] []
    else rqStart (dropObjs s (fun o => decide (o.name = rqName b) && decide (o.rank = s.job.rank))) i b (some 0) [] []))

/-- A page in physical memory: 0, ST_RANGE outside memory, or ST_CONFLICT with what the refusal leaves. -/
def pageCheck (s : State) (pa n : Nat) : Nat × State :=
  if !inUnified pa n then (stRange, s) else if possessed s pa n then (stConflict, deny s pa 12 3) else (0, s)

/-- Drop a page key. -/
def dropPage (s : State) (k : W64) : State :=
  depotSizes { s with depot := { s.depot with pages := s.depot.pages.filter (fun p => !decide (p.1 = k)) } }

/-- PAGE_OUT (R470). -/
def execPageOut (s : State) : Host.Outcome State Fault Refusal :=
  .next (rqTake s 6 (fun i b s =>
    let fin := fun s st => rqStart s i b (some st) [] []
    let pa := rqMem b
    let n := rqLen b
    if !depotRoom s n then fin s stRange
    else
      match pageCheck s pa n with
      | (0, s) =>
        let t := cohTouch s pa n
        if poisonedRange s pa n then fin t stFault
        else
          let key := BitVec.ofNat 64 (rqOff b)
          let u := dropPage t key
          fin (depotSizes { u with depot := { u.depot with pages := u.depot.pages ++ [(key, pa, cohBytes s pa n)] } }) 0
      | (st, s) => fin s st))

/-- PAGE_IN (R470). -/
def execPageIn (x : LadderRead) (s : State) : Host.Outcome State Fault Refusal :=
  .next (rqTake s 7 (fun i b s =>
    let fin := fun s st => rqStart s i b (some st) [] []
    let key := BitVec.ofNat 64 (rqOff b)
    match s.depot.pages.find? (fun p => decide (p.1 = key) && decide (p.2.2.length = rqLen b)) with
    | none => fin s stRange
    | some p =>
      match pageCheck s (rqMem b) (rqLen b) with
      | (0, s) =>
        let lost := decide (ladderStep s x = 6)
        let s := climb s x
        if lost then fin (dropPage s key) stFault else fin (cohWrite s (rqMem b) p.2.2) 0
      | (st, s) => fin s st))

/-- PAGE_DROP (R470). -/
def execPageDrop (s : State) : Host.Outcome State Fault Refusal :=
  .next (rqTake s 8 (fun i b s =>
    let key := BitVec.ofNat 64 (rqOff b)
    if s.depot.pages.any (fun p => decide (p.1 = key)) then rqStart (dropPage s key) i b (some 0) [] []
    else rqStart s i b (some stRange) [] []))

/-- STATUS is written, the head advances, DONE is set (R469). -/
def rqComplete (s : State) (i st : Nat) : State :=
  let n := max 1 (dpRingSize s)
  let s := ringWrite s (dpEntry s i + 2) (leBytes 2 st)
  dpEvent (wr s (dp 0x20) (BitVec.ofNat 64 (((rd s (dp 0x20)).toNat + 1) % n))) 0

/-- DEPOT_REQUEST_COMPLETE: the request of a ring entry that has its status completes; a reserved OP that is next to start
completes with ST_BAD_OPCODE. -/
def execDepotRequestComplete (ix : BitVec 11) (s : State) : Host.Outcome State Fault Refusal :=
  .next (match s.depot.reqs.find? (fun r => decide (r.index = ix.toNat)) with
  | some r =>
    match r.status with
    | some st => rqComplete { s with depot := { s.depot with reqs := s.depot.reqs.erase r } } r.index st
    | none => s
  | none =>
    match dpNext s with
    | some (i, b) => if i = ix.toNat ∧ rqCheck s b = stBadOpcode ∧ ringOpen s (dpEntry s i) 64 then rqComplete s i stBadOpcode else s
    | none => s)

/-- Give a request in flight its status. -/
def rqSettle (s : State) (i st : Nat) : State :=
  { s with depot := { s.depot with reqs := s.depot.reqs.map (fun r => if r.index = i then { r with status := some st, ids := [] } else r) } }

/-- Forget the REQs of a depot request. -/
def dropDepotReqs (s : State) (i : Nat) : State :=
  { s with om := { s.om with reqs := s.om.reqs.filter (fun r => !(decide (r.agent = 2) && decide (r.owner = i))) } }

/-- BUDDY_TIMEOUT (R471): at count `t`, 100 ms after the request started or its buddy last answered. -/
def execBuddyTimeout (ix : BitVec 11) (t : W64) (s : State) : Host.Outcome State Fault Refusal :=
  let s := advance s t
  .next (if s.depot.reqs.any (fun r => decide (r.index = ix.toNat) && r.status.isNone
      && decide (r.startedAt.toNat + 100000000 ≤ (now s).toNat)) then
    rqSettle (dropDepotReqs s ix.toNat) ix.toNat stFault
  else s)

/-- Keep what has come of a request's data; the buddy answers, so its 100 ms begin again. -/
def rqHeard (s : State) (r : DepotReq) (data : List Byte) : State :=
  { s with depot := { s.depot with reqs := s.depot.reqs.map (fun x =>
      if x = r then { x with data := data, startedAt := now s } else x) } }

/-- The buddy answers a request of this depot: data of a read, or the outcome of a replica write or commit. A read longer than
one READ may ask for goes on with its next part. -/
def depotReply (s : State) (i status : Nat) (data : List Byte) (last : Bool) : State :=
  match s.depot.reqs.find? (fun r => decide (r.index = i) && r.status.isNone) with
  | none => s
  | some r =>
    if status ≠ 0 then rqSettle (dropDepotReqs s i) i status
    else
      let all := if rqOp r.desc = 3 then r.data ++ data else r.data
      if last then
        let s := dropDepotReqs s i
        if rqOp r.desc = 1 then rqSettle (applyWrite s r.desc all) i 0
        else if rqOp r.desc = 2 then rqSettle (applyCommit s r.desc) i 0
        else if all.length < rqLen r.desc ∧ r.data.length < all.length then
          (askReplica (rqHeard s r all) i r.desc all.length).1
        else
          let (st, s) := jobWrite s (rqMem r.desc) (all.take (rqLen r.desc))
          rqSettle s i st
      else rqHeard s r all

/-! ### Replicas (R473, R474) -/

/-- A REPLICA_WRITE flit stores its data; the last one is answered. -/
def replicaWrite (s : State) (f : Flit) : State :=
  let p := f.payload
  let name := payBytes p 32 32
  let rank := payNat p 24 8 % 2 ^ 20
  let n := min 160 (payNat p 4 4)
  let last := Nat.testBit (payNat p 1 1) 1
  let gpid := BitVec.ofNat 32 (fld (orEntry s f.src.toNat) 32 32)
  let old := findObj s name rank true
  let ok := decide (dpState s = 1) && depotRoom s n && (old.isSome || decide (s.depot.objects.length < 1048576))
    && !old.any (fun o => decide (o.state = 2))
  let s := if ok then putObj s (objPut (old.getD (newObj s name rank f.src.toNat true gpid)) (payNat p 8 8) (payBytes p 64 n)) else s
  if last then sendResp s 12 f (if ok then 0 else stFault) 0 [] else s

/-- A REPLICA_COMMIT compares digests (R473). -/
def replicaCommit (s : State) (f : Flit) : State :=
  let p := f.payload
  match findObj s (payBytes p 32 32) (payNat p 24 8 % 2 ^ 20) true with
  | none => sendResp s 12 f stFault 0 []
  | some o =>
    let (b, s) := objBytes s o 0 o.length
    if dpState s = 1 ∧ sha256 b = payBytes p 64 32 then sendResp (objCommit s o o.flags o.buddy) 12 f 0 0 []
    else sendResp s 12 f stFault 0 []

/-- A READ of the depot engine of another package: the replica of a name that its position created (entry 24). A read of a whole
committed copy recomputes its DIGEST (R473). -/
def replicaRead (s : State) (f : Flit) : State :=
  let p := f.payload
  let n := payNat p 24 8
  match s.depot.objects.find? (fun o => o.replica && decide (o.name = payBytes p 32 32) && decide (o.groupPos = f.src.toNat)) with
  | none => sendResp s 12 f stFault 0 []
  | some o =>
    if o.state = 3 ∨ o.length < payNat p 8 8 + n ∨ dpState s = 0 then sendResp s 12 f stFault 0 []
    else
      let (b, s) := objBytes s o (payNat p 8 8) n
      if decide (o.state = 2) && decide (payNat p 8 8 = 0) && decide (n = o.length) && decide (sha256 b ≠ o.digest) then
        sendResp (damage s o) 12 f stFault 0 []
      else sendResp s 12 f 0 0 b

/-! ### Registers that are written -/

/-- DP_RING_TAIL_WRITE. -/
def execDpRingTailWrite (v : W64) (s : State) : Host.Outcome State Fault Refusal := .next (wr s (dp 0x18) v)

/-- DP_RING_BASE_WRITE (R477). -/
def execDpRingBaseWrite (v : W64) (s : State) : Host.Outcome State Fault Refusal :=
  .next (if rd s (dp 0x20) = rd s (dp 0x18) then wr s (dp 0x10) v else dpEvent s 5)

/-! ### NAND (R460 to R466) -/

/-- Key of a block. -/
def nandKey (ch lun block : Nat) : Nat := ch * 2 ^ 24 + lun * 2 ^ 16 + block

/-- A block. -/
def nand (s : State) (k : Nat) : NandBlock := Store.get NandBlock.fresh s.depot.blocks k

/-- Change a block; DP_ERASE_MAX follows. -/
def setNand (s : State) (k : Nat) (f : NandBlock → NandBlock) : State :=
  let b := f (nand s k)
  let s := { s with depot := { s.depot with blocks := Store.set NandBlock.fresh s.depot.blocks k b } }
  upd s (dp 0x40) (fun w => BitVec.ofNat 64 (max w.toNat b.erases))

/-- The NAND works: the depot is not OFFLINE, the device not without power, and in STABLED the wake has resumed it (R540, R541). -/
def nandOn (s : State) : Bool :=
  decide (dpState s ≠ 0) && (decide (s.dev.state ≠ .stabled) || (s.dev.wakeAt.isSome && decide (5 ≤ s.dev.wakeStep)))
    && decide (s.dev.state ≠ .cold)

/-- A LUN is in service. -/
def lunUp (s : State) (ch lun : Nat) : Bool := decide (lun < 16) && !rdB s (dpCh ch) (7 + lun)

/-- What a lost codeword belongs to becomes DAMAGED or lost (R466). -/
def loseData (s : State) : CodewordOf → State
  | .nothing => s
  | .object name rank replica =>
    match findObj s (leBytes 32 name.toNat) rank.toNat replica with
    | some o => damage s o
    | none => s
  | .page k => dropPage s k

/-- PATROL_READ (R462): the patrol reads a page by the ladder of R460, `x` its hardest codeword and `of` what that belongs to; a
strong codeword (one that needs more than 60 % of the correction capability) sets the block's refresh flag; `oldest` is the age
in days of the patrol's oldest block. -/
def execPatrolRead (x : LadderRead) (strong : Bool) (oldest : W32) (of : CodewordOf) (s : State) :
    Host.Outcome State Fault Refusal :=
  .next (if nandOn s && lunUp s x.ch x.lun then
    let lost := decide (ladderStep s x = 6)
    let s := climb (wr s (dp 0x58) (BitVec.setWidth 64 oldest)) x
    let s := if lost then loseData s of else s
    if strong then setNand s (nandKey x.ch x.lun x.block.toNat) (fun b => { b with refresh := true }) else s
  else s)

/-- A LUN fails (R465): its pages come from their stripes, and its rebuild begins. -/
def lunFail (s : State) (ch lun : Nat) : State :=
  if rdB s (dpCh ch) (7 + lun) then s
  else
    let s := wrF (wrB s (dpCh ch) (7 + lun) true) (dpCh ch) 2 5 (rdF s (dpCh ch) 2 5 - 1)
    let s := wrB (wrF s (dp 0) 2 10 (rdF s (dp 0) 2 10 - 1)) (dp 0) 12 true
    dpEvent (depotSizes { s with depot := { s.depot with rebuilds := s.depot.rebuilds ++ [ch * 16 + lun] } }) 2

/-- One spare block of a channel is taken: DP_SPARE_MIN follows, and below 0.5 % the depot becomes READ_ONLY (R467). -/
def takeSpare (s : State) (ch : Nat) : State :=
  let s := wrF s (dpCh ch) 23 32 (rdF s (dpCh ch) 23 32 - 1)
  let s := wr s (dp 0x38) (BitVec.ofNat 64 ((upTo 32).foldl (fun m c => min m (rdF s (dpCh c) 23 32)) (2 ^ 32 - 1)))
  if dpState s = 1 ∧ rdF s (dpCh ch) 23 32 * 200 < s.depot.chanBlocks then setDepot s 2 else s

/-- One hour and seven days in beats. -/
def hourBeats : Nat := 3600 * 10 ^ 9
def weekBeats : Nat := 7 * 24 * 3600 * 10 ^ 9

/-- A block is retired (R464); the thirty-second of a LUN within one hour fails the LUN (R465). -/
def retireBlock (s : State) (ch lun block : Nat) : State :=
  let k := nandKey ch lun block
  if (nand s k).retired then s
  else
    let s := takeSpare (inc (setNand s k (fun b => { b with retired := true, refresh := false })) (dp 0x48)) ch
    let l := (Store.get (fun _ => []) s.depot.retiredAt (ch * 16 + lun)).filter (fun t => decide ((now s).toNat ≤ t + hourBeats))
      ++ [(now s).toNat]
    let s := { s with depot := { s.depot with retiredAt := Store.set (fun _ => []) s.depot.retiredAt (ch * 16 + lun) l } }
    if 32 ≤ l.length then lunFail s ch lun else s

/-- BLOCK_REFRESH (R462, R464): a flagged block's data moves to a fresh block, and the block is erased; a second refresh
within 7 days that needs step 4 retires it. In READ_ONLY it needs a spare block (R468). -/
def execBlockRefresh (ch : DChanIx) (lun : Fin 16) (block : BitVec 16) (step4 : Bool) (s : State) :
    Host.Outcome State Fault Refusal :=
  let k := nandKey ch lun block.toNat
  let b := nand s k
  .next (if !nandOn s || !lunUp s ch lun || !b.refresh || b.retired
    || (decide (dpState s = 2) && decide (rdF s (dpCh ch) 23 32 = 0)) then s
  else
    let again := step4 && b.step4At.any (fun t => decide ((now s).toNat ≤ t.toNat + weekBeats))
    let s := setNand s k (fun b => { b with refresh := false, erases := b.erases + 1
                                            step4At := if step4 then some (now s) else b.step4At })
    if again then retireBlock s ch lun block.toNat else s)

/-- Mean erase count of a LUN's blocks. -/
def lunMean (s : State) (ch lun : Nat) : Nat :=
  let lo := nandKey ch lun 0
  let total := ((Store.keysIn s.depot.blocks lo (lo + 2 ^ 16)).map (fun k => (nand s k).erases)).sum
  total / max 1 (s.depot.chanBlocks / max 1 (rdF s (dpCh ch) 2 5))

/-- WEAR_LEVEL_MOVE (R463): a block more than 500 erases behind its LUN's mean is moved and erased. -/
def execWearLevelMove (ch : DChanIx) (lun : Fin 16) (block dst : BitVec 16) (s : State) : Host.Outcome State Fault Refusal :=
  let k := nandKey ch lun block.toNat
  .next (if nandOn s && lunUp s ch lun && decide (block ≠ dst) && !(nand s (nandKey ch lun dst.toNat)).retired
      && decide ((nand s k).erases + 500 < lunMean s ch lun) then
    setNand s k (fun b => { b with erases := b.erases + 1, refresh := false })
  else s)

/-- NAND_OPERATION_FAILURE (R464). -/
def execNandOperationFailure (ch : DChanIx) (lun : Fin 16) (block : BitVec 16) (s : State) : Host.Outcome State Fault Refusal :=
  .next (if nandOn s && lunUp s ch lun then retireBlock s ch lun block.toNat else s)

/-- LUN_TIMEOUT (R465). -/
def execLunTimeout (ch : DChanIx) (lun : Fin 16) (s : State) : Host.Outcome State Fault Refusal :=
  .next (if nandOn s then lunFail s ch lun else s)

/-- LUN_REBUILD_DONE (R465). -/
def execLunRebuildDone (ch : DChanIx) (lun : Fin 16) (s : State) : Host.Outcome State Fault Refusal :=
  let k := ch.val * 16 + lun.val
  .next (if s.depot.rebuilds.contains k then
    let s := { s with depot := { s.depot with rebuilds := s.depot.rebuilds.erase k } }
    dpEvent (wrB s (dp 0) 12 (!s.depot.rebuilds.isEmpty)) 3
  else s)

/-- STRIPE_REWRITE_DONE (R476): the channel counts as protecting its stripes again. -/
def execStripeRewriteDone (ch : DChanIx) (s : State) : Host.Outcome State Fault Refusal :=
  .next { s with depot := { s.depot with rewriting := s.depot.rewriting.erase ch.val } }

end Sys2Proof.Machine
end

