-- ==== Sys2Proof/Machine/RvScalar.lean ====
section
/-! DEFINITION. One thread's scalar instructions: RV64IMAFD with Zfh and Zicsr as RISC-V defines them (R236, R237,
R240; what the RISC-V standards define is taken from them, entry 8). -/

namespace Sys2Proof.Machine

/-! ### Instruction fields -/

def rvOp (w : W32) : Nat := fld w 0 7
def rvRd (w : W32) : Nat := fld w 7 5
def rvF3 (w : W32) : Nat := fld w 12 3
def rvRs1 (w : W32) : Nat := fld w 15 5
def rvRs2 (w : W32) : Nat := fld w 20 5
def rvRs3 (w : W32) : Nat := fld w 27 5
def rvF7 (w : W32) : Nat := fld w 25 7

/-- Immediates by type. -/
def immI (w : W32) : W64 := BitVec.signExtend 64 (BitVec.ofNat 12 (fld w 20 12))
def immS (w : W32) : W64 := BitVec.signExtend 64 (BitVec.ofNat 12 (fld w 25 7 * 32 + fld w 7 5))
def immB (w : W32) : W64 :=
  BitVec.signExtend 64 (BitVec.ofNat 13 (fld w 31 1 * 4096 + fld w 7 1 * 2048 + fld w 25 6 * 32 + fld w 8 4 * 2))
def immU (w : W32) : W64 := BitVec.signExtend 64 (BitVec.ofNat 32 (fld w 12 20 * 4096))
def immJ (w : W32) : W64 :=
  BitVec.signExtend 64 (BitVec.ofNat 21 (fld w 31 1 * 1048576 + fld w 12 8 * 4096 + fld w 20 1 * 2048 + fld w 21 10 * 2))

/-- The low 32 bits of a value, sign-extended. -/
def sext32 (v : W64) : W64 := BitVec.signExtend 64 (BitVec.setWidth 32 v)

/-! ### Kill causes (R255) -/

def killIllegal : Nat := 1
def killMisaligned : Nat := 2
def killAccess : Nat := 3
def killPage : Nat := 4
def killSignal : Nat := 5
def killBarrier : Nat := 6
def killExpired : Nat := 7
def killDescriptor : Nat := 8

/-- What an instruction of one thread gives: its registers after it, or a kill cause with SM_KILL_ADDR. -/
abbrev RvResult := Except (Nat × W64) Thread

/-- ILLEGAL, with the instruction bits. -/
def rvIllegal (w : W32) : RvResult := .error (killIllegal, BitVec.setWidth 64 w)

/-- Go on to the next instruction. -/
def Thread.step (h : Thread) : Thread := { h with pc := h.pc + 4 }

/-- Write rd and go on. -/
def Thread.put (h : Thread) (r : Nat) (v : W64) : Thread := (h.wx r v).step

/-- Jump; a target that is not a multiple of 4 is MISALIGNED. -/
def rvJump (h : Thread) (target : W64) : RvResult :=
  if fld target 0 2 = 0 then .ok { h with pc := target } else .error (killMisaligned, target)

/-! ### Integer instructions -/

/-- Division of RISC-V on `n`-bit words: by zero gives all ones, the overflow gives the dividend. -/
def rvDiv {n : Nat} (a b : BitVec n) : BitVec n := if b = 0 then BitVec.allOnes n else a.sdiv b
def rvDivu {n : Nat} (a b : BitVec n) : BitVec n := if b = 0 then BitVec.allOnes n else a / b
def rvRem {n : Nat} (a b : BitVec n) : BitVec n := if b = 0 then a else a.srem b
def rvRemu {n : Nat} (a b : BitVec n) : BitVec n := if b = 0 then a else a % b

/-- Register-register operations on 64 bits. -/
def rvAlu (f7 f3 : Nat) (a b : W64) : Option W64 :=
  let sh := b.toNat % 64
  match f7, f3 with
  | 0, 0 => some (a + b)
  | 32, 0 => some (a - b)
  | 0, 1 => some (a <<< sh)
  | 0, 2 => some (if a.slt b then 1 else 0)
  | 0, 3 => some (if a.ult b then 1 else 0)
  | 0, 4 => some (a ^^^ b)
  | 0, 5 => some (a >>> sh)
  | 32, 5 => some (a.sshiftRight sh)
  | 0, 6 => some (a ||| b)
  | 0, 7 => some (a &&& b)
  | 1, 0 => some (a * b)
  | 1, 1 => some (BitVec.ofInt 64 (a.toInt * b.toInt / 2 ^ 64))
  | 1, 2 => some (BitVec.ofInt 64 (a.toInt * (b.toNat : Int) / 2 ^ 64))
  | 1, 3 => some (BitVec.ofNat 64 (a.toNat * b.toNat / 2 ^ 64))
  | 1, 4 => some (rvDiv a b)
  | 1, 5 => some (rvDivu a b)
  | 1, 6 => some (rvRem a b)
  | 1, 7 => some (rvRemu a b)
  | _, _ => none

/-- Register-register operations on 32 bits. -/
def rvAluW (f7 f3 : Nat) (a b : W64) : Option W64 :=
  let x : W32 := BitVec.setWidth 32 a
  let y : W32 := BitVec.setWidth 32 b
  let sh := b.toNat % 32
  let r : Option W32 :=
    match f7, f3 with
    | 0, 0 => some (x + y)
    | 32, 0 => some (x - y)
    | 0, 1 => some (x <<< sh)
    | 0, 5 => some (x >>> sh)
    | 32, 5 => some (x.sshiftRight sh)
    | 1, 0 => some (x * y)
    | 1, 4 => some (rvDiv x y)
    | 1, 5 => some (rvDivu x y)
    | 1, 6 => some (rvRem x y)
    | 1, 7 => some (rvRemu x y)
    | _, _ => none
  r.map (BitVec.signExtend 64)

/-- OP-IMM. -/
def rvAluI (w : W32) (a : W64) : Option W64 :=
  let f3 := rvF3 w
  let f6 := fld w 26 6
  if f3 = 1 then (if f6 = 0 then rvAlu 0 1 a (BitVec.ofNat 64 (fld w 20 6)) else none)
  else if f3 = 5 then
    (if f6 = 0 then rvAlu 0 5 a (BitVec.ofNat 64 (fld w 20 6))
     else if f6 = 16 then rvAlu 32 5 a (BitVec.ofNat 64 (fld w 20 6)) else none)
  else rvAlu 0 f3 a (immI w)

/-- OP-IMM-32. -/
def rvAluIW (w : W32) (a : W64) : Option W64 :=
  let f3 := rvF3 w
  if f3 = 0 then rvAluW 0 0 a (immI w)
  else if f3 = 1 ∨ f3 = 5 then
    (if rvF7 w = 0 ∨ (rvF7 w = 32 ∧ f3 = 5) then rvAluW (rvF7 w) f3 a (BitVec.ofNat 64 (rvRs2 w)) else none)
  else none

/-- Whether a branch is taken. -/
def rvBranch (f3 : Nat) (a b : W64) : Option Bool :=
  match f3 with
  | 0 => some (decide (a = b))
  | 1 => some (decide (a ≠ b))
  | 4 => some (a.slt b)
  | 5 => some (!a.slt b)
  | 6 => some (a.ult b)
  | 7 => some (!a.ult b)
  | _ => none

/-! ### Floating point (R240) -/

/-- Formats by the fmt field: S, D, H. -/
def rvFmt (x : Nat) : Option Fmt := if x = 0 then some .fp32 else if x = 1 then some .fp64 else if x = 2 then some .fp16 else none

/-- Register f`r`, whole. -/
def Thread.rf (h : Thread) (r : Nat) : W64 := Store.get (fun _ => 0) h.f r

/-- Write f`r`. -/
def Thread.wf (h : Thread) (r : Nat) (v : W64) : Thread := { h with f := Store.set (fun _ => 0) h.f r v }

/-- A number of format `f` in an f register: a value that is not NaN-boxed reads as the canonical NaN. -/
def unbox (f : Fmt) (v : W64) : Nat :=
  if f.bits = 64 then v.toNat
  else if natField v.toNat f.bits (64 - f.bits) = 2 ^ (64 - f.bits) - 1 then v.toNat % 2 ^ f.bits else f.nan

/-- A number boxed into an f register. -/
def box (f : Fmt) (x : Nat) : W64 :=
  BitVec.ofNat 64 (x % 2 ^ f.bits + (2 ^ 64 - 2 ^ f.bits))

/-- fflags bits of arithmetic flags: NX, UF, OF, DZ, NV. -/
def toFflags (f : Flags) : Byte :=
  BitVec.ofNat 8 (b2n (bitOf f 3) + 2 * b2n (bitOf f 2) + 4 * b2n (bitOf f 1) + 16 * b2n (bitOf f 0))

/-- Accrue fflags. -/
def Thread.accrue (h : Thread) (f : Byte) : Thread := { h with fcsr := h.fcsr ||| (f &&& 0x1F) }

/-- The rounding mode of an instruction: its rm field, or frm; none where reserved. -/
def rvRm (h : Thread) (x : Nat) : Option Rm :=
  match (if x = 7 then fld h.fcsr 5 3 else x) with
  | 0 => some .rne
  | 1 => some .rtz
  | 2 => some .rdn
  | 3 => some .rup
  | 4 => some .rmm
  | _ => none

/-- A sum rounded in a mode: an exact zero that its parts do not all agree on is negative when rounding down. -/
def rvSum (f : Fmt) (rm : Rm) (ps : List (FVal × Bool)) : Nat × Flags :=
  match sumV ps with
  | (.fin false 0 e, bad) =>
    if rm = .rdn ∧ !(ps.all (fun p => p.1.isZero && !p.1.neg?)) then (withSign f true 0, 0)
    else deliver f rm (.fin false 0 e, bad)
  | r => deliver f rm r

/-- a / b with fflags: a division of a finite nonzero number by zero raises DZ. -/
def rvFdiv (f : Fmt) (rm : Rm) (a b : FVal) : Nat × Byte :=
  let r := divV f a b
  match r with
  | (.inf s, true) => (withSign f s f.infBits, 8)
  | r => let (x, fl) := deliver f rm r; (x, toFflags fl)

/-- FMIN and FMAX. -/
def rvFminmax (isMax : Bool) (f : Fmt) (a b : Nat) : Nat × Flags :=
  let x := decodeF f a
  let y := decodeF f b
  let fl : Flags := if x.snan || y.snan then flInvalid else 0
  if x.isNan && y.isNan then (f.nan, fl)
  else if x.isNan then (b, fl)
  else if y.isNan then (a, fl)
  else
    let less := if x.isZero && y.isZero then x.neg? else decide (cmpV x y = some .lt)
    (if less != isMax then a else b, fl)

/-- FEQ (2), FLT (1), FLE (0). -/
def rvFcmp (f3 : Nat) (f : Fmt) (a b : Nat) : Bool × Flags :=
  let x := decodeF f a
  let y := decodeF f b
  match cmpV x y with
  | none => (false, if f3 ≠ 2 || x.snan || y.snan then flInvalid else 0)
  | some o => (if f3 = 2 then decide (o = .eq) else if f3 = 1 then decide (o = .lt) else decide (o ≠ .gt), 0)

/-- FCLASS. -/
def rvFclass (f : Fmt) (a : Nat) : Nat :=
  match decodeF f a with
  | .nan s => if s then 2 ^ 8 else 2 ^ 9
  | .inf n => if n then 1 else 2 ^ 7
  | .fin n m _ =>
    if m = 0 then (if n then 2 ^ 3 else 2 ^ 4)
    else if natField a f.mb f.eb = 0 then (if n then 2 ^ 2 else 2 ^ 5)
    else if n then 2 else 2 ^ 6

/-- Convert to an integer between `lo` and `hi` (FCVT): out of range and NaN give the bound and NV. -/
def rvToInt (rm : Rm) (lo hi : Int) (v : FVal) : Int × Flags :=
  match v with
  | .nan _ => (hi, flInvalid)
  | .inf n => (if n then lo else hi, flInvalid)
  | .fin n m e =>
    let (k, inex) := quantize rm n m e 0
    let x : Int := if n then -(k : Int) else k
    if x < lo then (lo, flInvalid) else if hi < x then (hi, flInvalid) else (x, if inex then flInexact else 0)

/-- Bounds of the integer types W, WU, L, LU. -/
def rvIntRange (t : Nat) : Int × Int :=
  if t = 0 then (-2147483648, 2147483647) else if t = 1 then (0, 4294967295)
  else if t = 2 then (-9223372036854775808, 9223372036854775807) else (0, 18446744073709551615)

/-- The integer operand of FCVT from x. -/
def rvIntOf (t : Nat) (v : W64) : Int :=
  if t = 0 then signedOf 32 v.toNat else if t = 1 then (v.toNat % 2 ^ 32 : Nat) else if t = 2 then v.toInt else v.toNat

/-- OP-FP instructions. -/
def rvOpFp (w : W32) (h : Thread) : RvResult :=
  match rvFmt (fld w 25 2) with
  | none => rvIllegal w
  | some f =>
    let a := unbox f (h.rf (rvRs1 w))
    let b := unbox f (h.rf (rvRs2 w))
    let x := decodeF f a
    let y := decodeF f b
    let rd := rvRd w
    let fout (v : Nat) (fl : Byte) : RvResult := .ok ((h.wf rd (box f v)).accrue fl).step
    let iout (v : W64) (fl : Flags) : RvResult := .ok ((h.wx rd v).accrue (toFflags fl)).step
    let round (k : Rm → RvResult) : RvResult :=
      match rvRm h (rvF3 w) with
      | some rm => k rm
      | none => rvIllegal w
    let arith (r : Rm → Nat × Flags) : RvResult := round (fun rm => fout (r rm).1 (toFflags (r rm).2))
    match fld w 27 5 with
    | 0 => arith (fun rm => rvSum f rm [(x, false), (y, false)])
    | 1 => arith (fun rm => rvSum f rm [(x, false), (y.negate, false)])
    | 2 => arith (fun rm => deliver f rm (mulV x y))
    | 3 => round (fun rm => let r := rvFdiv f rm x y; fout r.1 r.2)
    | 11 => if rvRs2 w = 0 then arith (fun rm => deliver f rm (sqrtV f x)) else rvIllegal w
    | 4 =>
      let sb := Nat.testBit b f.signBit
      let sa := Nat.testBit a f.signBit
      let m := a % 2 ^ f.signBit
      (match rvF3 w with
       | 0 => fout (withSign f sb m) 0
       | 1 => fout (withSign f (!sb) m) 0
       | 2 => fout (withSign f (sa != sb) m) 0
       | _ => rvIllegal w)
    | 5 => if rvF3 w ≤ 1 then (let r := rvFminmax (rvF3 w = 1) f a b; fout r.1 (toFflags r.2)) else rvIllegal w
    | 8 =>
      (match rvFmt (rvRs2 w) with
       | some g =>
         if g = f then rvIllegal w
         else round (fun rm =>
           let r := convV f rm (decodeF g (unbox g (h.rf (rvRs1 w))))
           fout r.1 (toFflags r.2))
       | none => rvIllegal w)
    | 20 => if rvF3 w ≤ 2 then (let r := rvFcmp (rvF3 w) f a b; iout (if r.1 then 1 else 0) r.2) else rvIllegal w
    | 24 =>
      if rvRs2 w ≤ 3 then round (fun rm =>
        let r := rvToInt rm (rvIntRange (rvRs2 w)).1 (rvIntRange (rvRs2 w)).2 x
        let v := BitVec.ofInt 64 r.1
        iout (if rvRs2 w ≤ 1 then sext32 v else v) r.2)
      else rvIllegal w
    | 26 =>
      if rvRs2 w ≤ 3 then arith (fun rm => roundV f rm (.ofInt (rvIntOf (rvRs2 w) (h.rx (rvRs1 w))))) else rvIllegal w
    | 28 =>
      if rvRs2 w ≠ 0 then rvIllegal w
      else if rvF3 w = 0 then
        (let raw := (h.rf (rvRs1 w)).toNat % 2 ^ f.bits
         iout (BitVec.ofInt 64 (signedOf f.bits raw)) 0)
      else if rvF3 w = 1 then iout (BitVec.ofNat 64 (rvFclass f a)) 0
      else rvIllegal w
    | 30 => if rvRs2 w = 0 ∧ rvF3 w = 0 then fout (h.rx (rvRs1 w)).toNat 0 else rvIllegal w
    | _ => rvIllegal w

/-- FMADD, FMSUB, FNMSUB, FNMADD. -/
def rvFma (w : W32) (h : Thread) : RvResult :=
  match rvFmt (fld w 25 2), rvRm h (rvF3 w) with
  | some f, some rm =>
    let v (r : Nat) : FVal := decodeF f (unbox f (h.rf r))
    let p := mulV (v (rvRs1 w)) (v (rvRs2 w))
    let c := v (rvRs3 w)
    let op := rvOp w
    let p := if op = 0x4B ∨ op = 0x4F then (p.1.negate, p.2) else p
    let c := if op = 0x47 ∨ op = 0x4F then c.negate else c
    let r := rvSum f rm [p, (c, false)]
    .ok ((h.wf (rvRd w) (box f r.1)).accrue (toFflags r.2)).step
  | _, _ => rvIllegal w

/-! ### CSRs (R237) -/

/-- What the read-only CSRs of a thread read. -/
structure RvEnv where
  cycle : W64
  time : W64
  smtid : Nat
  smsid : Nat
  smfid : Nat
  smfsets : Nat
  smgrid : Nat
  smslot : Nat
  smcluster : Nat
  deriving DecidableEq, Repr

/-- A CSR's value; none where R237 has none. -/
def rvCsr (env : RvEnv) (h : Thread) (n : Nat) : Option W64 :=
  if n = 1 then some (BitVec.ofNat 64 (fld h.fcsr 0 5))
  else if n = 2 then some (BitVec.ofNat 64 (fld h.fcsr 5 3))
  else if n = 3 then some (BitVec.setWidth 64 h.fcsr)
  else if n = 0xC00 then some env.cycle
  else if n = 0xC01 then some env.time
  else if n = 0xC02 then some h.instret
  else if n = 0xCC0 then some (BitVec.ofNat 64 env.smtid)
  else if n = 0xCC1 then some (BitVec.ofNat 64 env.smsid)
  else if n = 0xCC2 then some (BitVec.ofNat 64 env.smfid)
  else if n = 0xCC3 then some (BitVec.ofNat 64 env.smfsets)
  else if n = 0xCC4 then some (BitVec.ofNat 64 env.smgrid)
  else if n = 0xCC5 then some (BitVec.ofNat 64 env.smslot)
  else if n = 0xCC6 then some (BitVec.ofNat 64 env.smcluster)
  else none

/-- Write fflags, frm or fcsr. -/
def rvSetCsr (h : Thread) (n : Nat) (v : W64) : Thread :=
  if n = 1 then { h with fcsr := putFld h.fcsr 0 5 (fld v 0 5) }
  else if n = 2 then { h with fcsr := putFld h.fcsr 5 3 (fld v 0 3) }
  else { h with fcsr := BitVec.setWidth 8 v }

/-- The Zicsr instructions. -/
def rvCsrOp (env : RvEnv) (w : W32) (h : Thread) : RvResult :=
  let n := fld w 20 12
  let f3 := rvF3 w
  let src := if 5 ≤ f3 then BitVec.ofNat 64 (rvRs1 w) else h.rx (rvRs1 w)
  let writes := f3 % 4 = 1 || rvRs1 w ≠ 0
  match rvCsr env h n with
  | none => rvIllegal w
  | some old =>
    if writes && decide (3 < n) then rvIllegal w
    else
      let v := if f3 % 4 = 1 then src else if f3 % 4 = 2 then old ||| src else old &&& ~~~src
      let h := if writes then rvSetCsr h n v else h
      .ok (h.put (rvRd w) old)

/-! ### The instructions without memory -/

/-- One thread executes an instruction that touches neither memory nor the figure (R236, R239). -/
def rvExec (env : RvEnv) (w : W32) (h : Thread) : RvResult :=
  let a := h.rx (rvRs1 w)
  let b := h.rx (rvRs2 w)
  let out (r : Option W64) : RvResult :=
    match r with
    | some v => .ok (h.put (rvRd w) v)
    | none => rvIllegal w
  let link (r : RvResult) : RvResult := r.map (fun t => t.wx (rvRd w) (h.pc + 4))
  match rvOp w with
  | 0x37 => .ok (h.put (rvRd w) (immU w))
  | 0x17 => .ok (h.put (rvRd w) (h.pc + immU w))
  | 0x6F => link (rvJump h (h.pc + immJ w))
  | 0x67 => if rvF3 w = 0 then link (rvJump h (putFld (a + immI w) 0 1 0)) else rvIllegal w
  | 0x63 =>
    (match rvBranch (rvF3 w) a b with
     | some true => rvJump h (h.pc + immB w)
     | some false => .ok h.step
     | none => rvIllegal w)
  | 0x13 => out (rvAluI w a)
  | 0x1B => out (rvAluIW w a)
  | 0x33 => out (rvAlu (rvF7 w) (rvF3 w) a b)
  | 0x3B => out (rvAluW (rvF7 w) (rvF3 w) a b)
  | 0x0F => if rvF3 w = 0 then .ok h.step else rvIllegal w
  | 0x73 => if rvF3 w % 4 = 0 then rvIllegal w else rvCsrOp env w h
  | 0x53 => rvOpFp w h
  | 0x43 => rvFma w h
  | 0x47 => rvFma w h
  | 0x4B => rvFma w h
  | 0x4F => rvFma w h
  | _ => rvIllegal w

/-! ### Classes of instructions, by the row they belong to -/

/-- The rows of set mode. -/
inductive SetRow where
  | plain | memory | combine | serial | barrier | exit | accrd | prefetch | sig (op : Nat) | fadd | cas
  deriving DecidableEq, Repr

/-- The row that an instruction belongs to; one that is not defined is a plain one, which raises its cause (R236,
R241). -/
def setRow (w : W32) : SetRow :=
  let op := rvOp w
  let f3 := rvF3 w
  let f7 := rvF7 w
  let f5 := fld w 27 5
  if op = 0x03 ∧ f3 ≤ 6 ∨ op = 0x07 ∧ 1 ≤ f3 ∧ f3 ≤ 3 ∨ op = 0x23 ∧ f3 ≤ 3 ∨ op = 0x27 ∧ 1 ≤ f3 ∧ f3 ≤ 3 then .memory
  else if op = 0x2F ∧ (f3 = 2 ∨ f3 = 3) then
    if f5 = 1 ∨ f5 = 3 ∨ (f5 = 2 ∧ rvRs2 w = 0) then .serial
    else if [0, 4, 8, 12, 16, 20, 24, 28].contains f5 then .combine else .plain
  else if op = 0x0B then
    if f3 = 0 then (if rvRd w = 0 ∧ rvRs1 w = 0 ∧ fld w 20 12 ≤ 3 then .barrier else .plain)
    else if f3 = 1 then (if w = 0x0000100B then .exit else .plain)
    else if f3 = 2 then (if fld w 22 10 = 0 then .accrd else .plain)
    else if f3 = 3 then (if rvRd w = 0 then .prefetch else .plain)
    else if f3 = 4 then .sig f7
    else .plain
  else if op = 0x2B ∧ (f3 = 2 ∨ f3 = 3) then (if f7 = 0 then .fadd else if f7 = 1 then .cas else .plain)
  else .plain

end Sys2Proof.Machine
end

