-- ==== Sys2Proof/Machine/VectorCluster.lean ====
section
/-! DEFINITION. The orders of the vector clusters (chapter 06), the residue check of their lanes (R178, R589), gather
and scatter windows (R221 to R223), the stream cache's events and registers (R213 to R220), and the unbooked port into
the platform windows (R116, R181, R183). -/

namespace Sys2Proof.Machine

/-! ### Lanes -/

/-- Key of a lane's mark in the start-up history (R178). -/
def laneMark (d c l : Nat) : Nat := 2 ^ 20 + (d * 8 + c) * 2048 + l

/-- The physical lane is out of service: VC_OUT_LANES lists it (R176). -/
def laneOut (s : State) (d c l : Nat) : Bool :=
  (upTo 32).any (fun i => decide (fld (readReg s (vc d c (0x100 + 8 * (i / 4)))) (16 * (i % 4)) 11 = l))

/-- A residue mismatch in physical lane `l`, in service, under the order of `issue` (R178, R589). -/
def laneMismatch (s : State) (d c l issue : Nat) : State :=
  if laneOut s d c l then s
  else
    let s := { s with marks := Store.set (fun _ => false) s.marks (laneMark d c l) true }
    let s :=
      if (eng s d (1 + c)).mismatched then s
      else
        let s := setEng s d (1 + c) (fun e => { e with mismatched := true })
        vcEvent (wr s (vc d c 0x60) (BitVec.ofNat 64 (l + 2 ^ 16 * issue + 2 ^ 63))) d c 0
    failJob s stFault

/-- Issue an order of a cluster. -/
def vcIssue (s : State) (d c op : Nat) (issue : BitVec 24) (ops : BitVec 96) : State :=
  let t := issue.toNat
  if canIssue s d (1 + c) (mkOrder op issue ops) then
    let s := atIssue s d (1 + c) t
    launch s d (1 + c) t (vcStart s d c (mkOrder op issue ops))
  else s

/-- Issue a lane order; `bad` names the physical lanes whose residue checks find a mismatch, in their order. -/
def vcLaneIssue (s : State) (d c op : Nat) (issue : BitVec 24) (ops : BitVec 96) (bad : List (Fin 1056)) : State :=
  if canIssue s d (1 + c) (mkOrder op issue ops) then
    bad.foldl (fun t l => laneMismatch t d c l issue.toNat) (vcIssue s d c op issue ops)
  else s

/-- VCFG (R189). -/
def execVcfg (d : ADie) (c : Cluster) (issue : BitVec 24) (ops : BitVec 96) (s : State) :
    Host.Outcome State Fault Refusal := .next (vcIssue s d c 0x80 issue ops)

/-- VBASE (R189). -/
def execVbase (d : ADie) (c : Cluster) (issue : BitVec 24) (ops : BitVec 96) (s : State) :
    Host.Outcome State Fault Refusal := .next (vcIssue s d c 0x81 issue ops)

/-- VCVT (R194). -/
def execVcvt (d : ADie) (c : Cluster) (issue : BitVec 24) (ops : BitVec 96) (bad : List (Fin 1056))
    (s : State) : Host.Outcome State Fault Refusal := .next (vcLaneIssue s d c 0x82 issue ops bad)

/-- VADD (R193). -/
def execVadd (d : ADie) (c : Cluster) (issue : BitVec 24) (ops : BitVec 96) (bad : List (Fin 1056))
    (s : State) : Host.Outcome State Fault Refusal := .next (vcLaneIssue s d c 0x83 issue ops bad)

/-- VSUB (R193). -/
def execVsub (d : ADie) (c : Cluster) (issue : BitVec 24) (ops : BitVec 96) (bad : List (Fin 1056))
    (s : State) : Host.Outcome State Fault Refusal := .next (vcLaneIssue s d c 0x84 issue ops bad)

/-- VMUL (R193). -/
def execVmul (d : ADie) (c : Cluster) (issue : BitVec 24) (ops : BitVec 96) (bad : List (Fin 1056))
    (s : State) : Host.Outcome State Fault Refusal := .next (vcLaneIssue s d c 0x85 issue ops bad)

/-- VFMA (R193). -/
def execVfma (d : ADie) (c : Cluster) (issue : BitVec 24) (ops : BitVec 96) (bad : List (Fin 1056))
    (s : State) : Host.Outcome State Fault Refusal := .next (vcLaneIssue s d c 0x86 issue ops bad)

/-- VMIN (R193). -/
def execVmin (d : ADie) (c : Cluster) (issue : BitVec 24) (ops : BitVec 96) (bad : List (Fin 1056))
    (s : State) : Host.Outcome State Fault Refusal := .next (vcLaneIssue s d c 0x87 issue ops bad)

/-- VMAX (R193). -/
def execVmax (d : ADie) (c : Cluster) (issue : BitVec 24) (ops : BitVec 96) (bad : List (Fin 1056))
    (s : State) : Host.Outcome State Fault Refusal := .next (vcLaneIssue s d c 0x88 issue ops bad)

/-- VCMP (R193). -/
def execVcmp (d : ADie) (c : Cluster) (issue : BitVec 24) (ops : BitVec 96) (bad : List (Fin 1056))
    (s : State) : Host.Outcome State Fault Refusal := .next (vcLaneIssue s d c 0x89 issue ops bad)

/-- VSEL (R193). -/
def execVsel (d : ADie) (c : Cluster) (issue : BitVec 24) (ops : BitVec 96) (bad : List (Fin 1056))
    (s : State) : Host.Outcome State Fault Refusal := .next (vcLaneIssue s d c 0x8A issue ops bad)

/-- VLOGIC (R184). -/
def execVlogic (d : ADie) (c : Cluster) (issue : BitVec 24) (ops : BitVec 96) (bad : List (Fin 1056))
    (s : State) : Host.Outcome State Fault Refusal := .next (vcLaneIssue s d c 0x8B issue ops bad)

/-- VUNARY (R193). -/
def execVunary (d : ADie) (c : Cluster) (issue : BitVec 24) (ops : BitVec 96) (bad : List (Fin 1056))
    (s : State) : Host.Outcome State Fault Refusal := .next (vcLaneIssue s d c 0x8C issue ops bad)

/-- VDIV (R172). -/
def execVdiv (d : ADie) (c : Cluster) (issue : BitVec 24) (ops : BitVec 96) (bad : List (Fin 1056))
    (s : State) : Host.Outcome State Fault Refusal := .next (vcLaneIssue s d c 0x90 issue ops bad)

/-- VSQRT (R172). -/
def execVsqrt (d : ADie) (c : Cluster) (issue : BitVec 24) (ops : BitVec 96) (bad : List (Fin 1056))
    (s : State) : Host.Outcome State Fault Refusal := .next (vcLaneIssue s d c 0x91 issue ops bad)

/-- VRECIP (R172). -/
def execVrecip (d : ADie) (c : Cluster) (issue : BitVec 24) (ops : BitVec 96) (bad : List (Fin 1056))
    (s : State) : Host.Outcome State Fault Refusal := .next (vcLaneIssue s d c 0x92 issue ops bad)

/-- VRSQRT (R172). -/
def execVrsqrt (d : ADie) (c : Cluster) (issue : BitVec 24) (ops : BitVec 96) (bad : List (Fin 1056))
    (s : State) : Host.Outcome State Fault Refusal := .next (vcLaneIssue s d c 0x93 issue ops bad)

/-- VFUNC (R172, R173). -/
def execVfunc (d : ADie) (c : Cluster) (issue : BitVec 24) (ops : BitVec 96) (bad : List (Fin 1056))
    (s : State) : Host.Outcome State Fault Refusal := .next (vcLaneIssue s d c 0x94 issue ops bad)

/-- VPOW (R172, R173). -/
def execVpow (d : ADie) (c : Cluster) (issue : BitVec 24) (ops : BitVec 96) (bad : List (Fin 1056))
    (s : State) : Host.Outcome State Fault Refusal := .next (vcLaneIssue s d c 0x95 issue ops bad)

/-- VRED (R195). -/
def execVred (d : ADie) (c : Cluster) (issue : BitVec 24) (ops : BitVec 96) (bad : List (Fin 1056))
    (s : State) : Host.Outcome State Fault Refusal := .next (vcLaneIssue s d c 0x98 issue ops bad)

/-- VDOTL (R196). -/
def execVdotl (d : ADie) (c : Cluster) (issue : BitVec 24) (ops : BitVec 96) (bad : List (Fin 1056))
    (s : State) : Host.Outcome State Fault Refusal := .next (vcLaneIssue s d c 0xA0 issue ops bad)

/-- VGEMV (R198 to R200). -/
def execVgemv (d : ADie) (c : Cluster) (issue : BitVec 24) (ops : BitVec 96) (bad : List (Fin 1056))
    (s : State) : Host.Outcome State Fault Refusal := .next (vcLaneIssue s d c 0xA1 issue ops bad)

/-- VACC (R202 to R204). -/
def execVacc (d : ADie) (c : Cluster) (issue : BitVec 24) (ops : BitVec 96) (bad : List (Fin 1056))
    (s : State) : Host.Outcome State Fault Refusal := .next (vcLaneIssue s d c 0xA2 issue ops bad)

/-- VLSADD (R201). -/
def execVlsadd (d : ADie) (c : Cluster) (issue : BitVec 24) (ops : BitVec 96) (bad : List (Fin 1056))
    (s : State) : Host.Outcome State Fault Refusal := .next (vcLaneIssue s d c 0xA3 issue ops bad)

/-- VPERM (R205). -/
def execVperm (d : ADie) (c : Cluster) (issue : BitVec 24) (ops : BitVec 96) (bad : List (Fin 1056))
    (s : State) : Host.Outcome State Fault Refusal := .next (vcLaneIssue s d c 0xA8 issue ops bad)

/-- VSHUF (R206). -/
def execVshuf (d : ADie) (c : Cluster) (issue : BitVec 24) (ops : BitVec 96) (bad : List (Fin 1056))
    (s : State) : Host.Outcome State Fault Refusal := .next (vcLaneIssue s d c 0xA9 issue ops bad)

/-- VPACK (R207). -/
def execVpack (d : ADie) (c : Cluster) (issue : BitVec 24) (ops : BitVec 96) (bad : List (Fin 1056))
    (s : State) : Host.Outcome State Fault Refusal := .next (vcLaneIssue s d c 0xAA issue ops bad)

/-- VUNPACK (R207). -/
def execVunpack (d : ADie) (c : Cluster) (issue : BitVec 24) (ops : BitVec 96) (bad : List (Fin 1056))
    (s : State) : Host.Outcome State Fault Refusal := .next (vcLaneIssue s d c 0xAB issue ops bad)

/-- VSLEXP (R208). -/
def execVslexp (d : ADie) (c : Cluster) (issue : BitVec 24) (ops : BitVec 96) (bad : List (Fin 1056))
    (s : State) : Host.Outcome State Fault Refusal := .next (vcLaneIssue s d c 0xAC issue ops bad)

/-- VSLICE (R209). -/
def execVslice (d : ADie) (c : Cluster) (issue : BitVec 24) (ops : BitVec 96) (bad : List (Fin 1056))
    (s : State) : Host.Outcome State Fault Refusal := .next (vcLaneIssue s d c 0xAD issue ops bad)

/-- VRECOMB (R210). -/
def execVrecomb (d : ADie) (c : Cluster) (issue : BitVec 24) (ops : BitVec 96) (bad : List (Fin 1056))
    (s : State) : Host.Outcome State Fault Refusal := .next (vcLaneIssue s d c 0xAE issue ops bad)

/-! ### Gather, scatter and range orders (R220 to R223) -/

/-- WIN, and START and LENGTH of VSCOP's range. -/
def winLen (o : Order) : Nat := if fld o 24 8 = 0xB2 then fld o 37 16 else fld o 106 16
def scopBase (o : Order) (cfg : List Nat) : Nat := cfgOf cfg (5 + 2 * fld o 32 3)
def scopLen (o : Order) : Nat := fld o 64 64

/-- The cause and address of a translation fault that the work of a window meets. -/
def winFault (s : State) (d c : Nat) (w : GatherWin) : Option (Nat × Nat) :=
  let op := fld w.order 24 8
  if op = 0xB2 then none else gsFault s d c w.order w.cfg w.got (op = 0xB1)

/-- The work meets a fault: its record is filled or joined, and the order waits for it (R223, R319). -/
def winHeld (s : State) (d c : Nat) (w : GatherWin) (f : Nat × Nat) : State :=
  let va := BitVec.ofNat 64 f.2
  let write := decide (fld w.order 24 8 = 0xB1)
  let s := afterTranslate s d (1 + c) va write
  let k := faultKey s d va
  let s := faultRecord s d (1 + c) k false f.1 write va
  setEng s d (1 + c) (fun e => { e with win := some { w with wait := some k } })

/-- The work of an open window goes on until it meets a fault. -/
def winWalk (s : State) (d c : Nat) : State :=
  match (eng s d (1 + c)).win with
  | some w => match winFault s d c w with
    | some f => winHeld s d c w f
    | none => s
  | none => s

/-- A range operation waits for the engine of its cluster, which is busy from now on (R220). -/
def rangeStart (s : State) (r : RangeOp) : State :=
  wrB { s with scRange := s.scRange ++ [r] } (vc (r.cl / 8) (r.cl % 8) 0x38) 0 true

/-- Open the window of a gather, scatter or range order: indices and data are read at ISSUE, and VSCOP's operation starts when
the range engine is free (R220). -/
def winIssue (s : State) (d c op : Nat) (issue : BitVec 24) (ops : BitVec 96) : State :=
  let t := issue.toNat
  let o := mkOrder op issue ops
  if canIssue s d (1 + c) o then
    let s := atIssue s d (1 + c) t
    let idx := if op = 0xB2 then [] else (upTo (vN o)).map (readEl s d c .u32 false (vA o))
    let dat := if op = 0xB1 then (upTo (vN o)).map (readEl s d c (vFmt (vCode o)) false (vDst o)) else []
    let w : GatherWin := { issue := t, stop := t + winLen o, order := o, cfg := vcCfg s d c, got := idx ++ dat, wait := none }
    let s := setEng s d (1 + c) (fun e =>
      { e with win := some w, spans := e.spans ++ [{ path := 2, issue := t, lo := t, hi := t + winLen o - 1, period := 1 }] })
    if op = 0xB2 then
      rangeStart s { cl := clIx d c, op := fld o 35 2, base := scopBase o w.cfg, len := scopLen o, order := true }
    else winWalk s d c
  else s

/-- Issue a gather or scatter; `bad` names the physical lanes whose residue checks find a mismatch (R178). -/
def gsIssue (s : State) (d c op : Nat) (issue : BitVec 24) (ops : BitVec 96) (bad : List (Fin 1056)) : State :=
  if canIssue s d (1 + c) (mkOrder op issue ops) then
    bad.foldl (fun t l => laneMismatch t d c l issue.toNat) (winIssue s d c op issue ops)
  else s

/-- VGATHER (R221 to R223). -/
def execVgather (d : ADie) (c : Cluster) (issue : BitVec 24) (ops : BitVec 96) (bad : List (Fin 1056)) (s : State) :
    Host.Outcome State Fault Refusal := .next (gsIssue s d c 0xB0 issue ops bad)

/-- VSCATTER (R221 to R223). -/
def execVscatter (d : ADie) (c : Cluster) (issue : BitVec 24) (ops : BitVec 96) (bad : List (Fin 1056)) (s : State) :
    Host.Outcome State Fault Refusal := .next (gsIssue s d c 0xB1 issue ops bad)

/-- VSCOP (R189, R220, R223). -/
def execVscop (d : ADie) (c : Cluster) (issue : BitVec 24) (ops : BitVec 96) (s : State) :
    Host.Outcome State Fault Refusal := .next (winIssue s d c 0xB2 issue ops)

/-- The range engine has done the operation of a cluster's VSCOP. -/
def scopDone (s : State) (d c : Nat) : Bool := !s.scRange.any (fun r => r.order && decide (r.cl = clIx d c))

/-- The work of a gather or scatter window, and its results at c + WIN; a VSCOP's work is the range engine's. -/
def winWork (s : State) (d c : Nat) (w : GatherWin) : State :=
  let o := w.order
  let op := fld o 24 8
  let range (s : State) (bad : Bool) : State :=
    if bad then vcEvent (orVcFlags s d c (vFgrp o) flInvalid) d c 4 else s
  if op = 0xB2 then s
  else if op = 0xB0 then
    let (s, vs, bad) := gatherAll s d c o w.cfg w.got
    let puts := (vs.zip (upTo vs.length)).flatMap (fun x => writeEl d c (vFmt (vCode o)) false (vDst o) x.2 x.1)
    range (puts.foldl (fun s p => applyPut s d (1 + c) p) s) bad
  else
    let (s, bad) := scatterAll s d c o w.cfg w.got
    range s bad

/-- Close a window. -/
def winClose (s : State) (d c : Nat) : State := setEng s d (1 + c) (fun e => { e with win := none })

/-- GATHER_WINDOW_END (R223): at c + WIN the finished work's results are written, or the cluster holds; `finished` says
whether the memory's answers were all in. -/
def execGatherWindowEnd (d : ADie) (c : Cluster) (finished : Bool) (s : State) : Host.Outcome State Fault Refusal :=
  .next (match (eng s d (1 + c)).win with
  | none => s
  | some w =>
    if (eng s d (1 + c)).hold.isSome then s
    else
      let s := reach s d (1 + c) w.stop
      let scop := decide (fld w.order 24 8 = 0xB2)
      if w.wait.isSome then setHold s d (1 + c) (some .overrun)
      else
        match winFault s d c w with
        | some f => setHold (winHeld s d c w f) d (1 + c) (some .overrun)
        | none =>
          if if scop then scopDone s d c else finished then winClose (winWork s d c w) d c
          else setHold s d (1 + c) (some .overrun))

/-- GATHER_WORK_DONE (R223): the overrunning work ends and the cluster resumes, late under WINDOW_OVERRUN; while a fault
record that it waits for stands, it cannot end. -/
def execGatherWorkDone (d : ADie) (c : Cluster) (s : State) : Host.Outcome State Fault Refusal :=
  .next (match (eng s d (1 + c)).win, (eng s d (1 + c)).hold with
  | some w, some .overrun =>
    if w.wait.isSome || (decide (fld w.order 24 8 = 0xB2) && !scopDone s d c) then s
    else
      match winFault s d c w with
      | some f => winHeld s d c w f
      | none => countHold (setHold (winClose (winWork s d c w) d c) d (1 + c) none) d causeOverrun
  | _, _ => s)

/-! ### Stream-cache events and registers -/

/-- STREAM_CACHE_FILL (R213, R219): a prefetched sector arrives over the narrow path. -/
def execStreamCacheFill (d : ADie) (c : Cluster) (va : W64) (s : State) : Host.Outcome State Fault Refusal :=
  let cl := clIx d c
  let a := va.toNat / 32 * 32
  .next (if s.scPre.contains (cl, a) then
    let s := inc { s with scPre := s.scPre.erase (cl, a) } (vc d c 0x50)
    match translate s d (1 + c) (BitVec.ofNat 64 a) false with
    | .ok p =>
      let s := afterTranslate s d (1 + c) (BitVec.ofNat 64 a) false
      let (s, i) := scAlloc s cl (a / 4096) (p / 4096)
      scRefresh (scTouch (scFill s cl i (a % 4096 / 32)) cl i) cl
    | .error _ => s
  else s)

/-- VC_SC_CFG (R214): accepted while the job is IDLE or ARMING with no image loaded on the die, and with MEM_STEPS up
to 5; entries that become memory are written back first, and converted entries read 0. -/
def execVcScCfgWrite (d : ADie) (c : Cluster) (v : W64) (s : State) : Host.Outcome State Fault Refusal :=
  let free := (s.job.state = .idle || s.job.state = .arming) && (upTo 8).all (fun x => (dieTT s x).stations.isEmpty)
  .next (if free && decide (fld v 0 3 ≤ 5) then
    let s := scFlush s (clIx d c)
    let s := wr s (vc d c 0x18) (BitVec.ofNat 64 (fld v 0 3))
    let lo := winBase d c + 0x1800000
    scRefresh { s with mem := Store.eraseRange s.mem lo (lo + 0x800000) } (clIx d c)
  else vcEvent s d c 5)

/-- VC_SC_RANGE_CMD (R220). -/
def execVcScRangeCmd (d : ADie) (c : Cluster) (v : W64) (s : State) : Host.Outcome State Fault Refusal :=
  .next (if rdB s (vc d c 0x38) 0 || decide (fld v 0 2 = 0) then vcEvent s d c 3
  else
    rangeStart s { cl := clIx d c, op := fld v 0 2, base := (rd s (vc d c 0x20)).toNat, len := (rd s (vc d c 0x28)).toNat
                   order := false })

/-- RANGE_DONE (R220): the oldest operation of a cluster has visited every entry; BUSY clears unless another waits, and one
that the registers started is reported. -/
def execRangeDone (d : ADie) (c : Cluster) (s : State) : Host.Outcome State Fault Refusal :=
  .next (match s.scRange.find? (fun r => decide (r.cl = clIx d c)) with
  | some r =>
    let s := scRangeOp { s with scRange := s.scRange.erase r } r.cl r.op r.base r.len
    let s := wrB s (vc d c 0x38) 0 (s.scRange.any (fun x => decide (x.cl = r.cl)))
    if r.order then s else vcEvent s d c 2
  | none => s)

/-! ### The platform windows (R116, R181, R183, R308) -/

/-- A byte of die `d`'s 4 GiB of platform windows: SRAM and converted entries, plane entries, 0 elsewhere. -/
def windowByte (s : State) (d off : Nat) : Byte :=
  if off < 0x10000000 then
    if inWindow s d (off / 0x2000000) (off % 0x2000000) then rdByte s (winBase d 0 + off) else 0
  else if off < 0x10100000 then
    let x := off - 0x10000000
    let c := cellAt s d (x / 0x40000) (x % 0x40000 / 16)
    BitVec.ofNat 8 (cellBits c / 256 ^ (x % 16))
  else 0

/-- A hart's accesses to platform SRAM and control space: of the sizes given, naturally aligned; any other takes an access
fault at the hart and does nothing here (R309). -/
def hartAccess (sizes : List Nat) (a n : Nat) : Bool := sizes.contains n && decide (a % n = 0)

/-- PLATFORM_WINDOW_ACCESS (R116, R181, R183, R309) of a hart or of a privileged agent: a read of `len` bytes answers them; a
write reaches SRAM and converted entries, is ignored in the reserved parts, and is ignored and counted in the planes. An access
that faults at its hart answers nothing. -/
def execPlatformWindowAccess (hart : Bool) (d : ADie) (off : W32) (len : BitVec 13) (write : Option (List Byte)) (s : State) :
    Host.Outcome State Fault Refusal :=
  .next (if hart && !hartAccess [1, 2, 4, 8] off.toNat len.toNat then { s with answer := [] } else match write with
  | none => { s with answer := (upTo len.toNat).map (fun i => windowByte s d (off.toNat + i)) }
  | some l =>
    if 0x10000000 ≤ off.toNat ∧ off.toNat < 0x10100000 then inc s (ma d 0x58)
    else (l.zip (upTo l.length)).foldl (fun s x =>
      let a := off.toNat + x.2
      if decide (a < 0x10000000) && inWindow s d (a / 0x2000000) (a % 0x2000000) then wrBytes s (winBase d 0 + a) [x.1]
      else s) s)

end Sys2Proof.Machine
end

