-- ==== Sys2Proof/Machine/SetMode.lean ====
section
/-! DEFINITION. Set mode (chapter 07): calls and their windows (R228 to R234), threads in lock-step (R239), memory and
ordered operations (R245 to R251), barriers (R252, R253), kills (R255 to R257). -/

namespace Sys2Proof.Machine

/-! ### Calls -/

/-- The open call of a cluster. -/
def openCall (s : State) (d c : Nat) : Option Call :=
  s.calls.find? (fun k => decide (k.die = d) && decide (k.cluster = c) && k.opened && !k.ended)

/-- Change the open call of a cluster. -/
def updCall (s : State) (d c : Nat) (f : Call → Call) : State :=
  { s with calls := s.calls.map (fun k =>
      if decide (k.die = d) && decide (k.cluster = c) && k.opened && !k.ended then f k else k) }

/-- SM_EVENT bit `i` of a cluster (R260, R444). -/
def smEvent (s : State) (d c i : Nat) : State :=
  raise s d (0x2001050 + c * 0x100000) i (reg (sm d c 0x10)) (reg (sm d c 0x18)) (reg (sm d c 0x20)) (reg (sm d c 0x28))

/-- Count a choice: SM_CHOICES, the job's counter (R520), and the event of the first since the load (R251, R259). -/
def smChoice (s : State) (d c : Nat) : State :=
  let first := decide (rd s (sm d c 0x28) = 0)
  let s := inc (inc s (sm d c 0x28)) (hp 0x120)
  if first then smEvent s d c 2 else s

/-- Thread keys of a slot. -/
def slotKeys (d c slot : Nat) : List Nat := (upTo 32).map (thKey (clIx d c) slot)

/-- Live threads of slot `slot`, by key. -/
def liveOf (s : State) (d c slot : Nat) : List Nat := (slotKeys d c slot).filter (fun k => (thread s k).live)

/-- Seats of a call, and the slots of a seat (R234). -/
def Call.seatCount (k : Call) : Nat := 64 / k.fsets
def Call.seatSlots (k : Call) (q : Nat) : List Nat := (upTo k.fsets).map (fun i => q * k.fsets + i)

/-- The seat that slot `slot` belongs to, and the figure in it. -/
def Call.seatOf (k : Call) (slot : Nat) : Option Seat := k.seats.find? (fun x => decide (x.seat = slot / k.fsets))
def Call.figOf (k : Call) (slot : Nat) : Nat := match k.seatOf slot with
  | some x => x.fig
  | none => 0

/-- SM_STATUS.LIVE_SETS and FIG_DONE follow the call (R259). -/
def smRefresh (s : State) (d c : Nat) : State :=
  let n := ((upTo 64).filter (fun i => !(liveOf s d c i).isEmpty)).length
  let done := match openCall s d c with
    | some k => k.figDone
    | none => rdF s (sm d c 0) 16 24
  wrF (wrF s (sm d c 0) 2 7 n) (sm d c 0) 16 24 done

/-- No thread of these keys waits any longer for the value before a signal operation of its own. -/
def dropAsks (s : State) (ks : List Nat) : State :=
  { s with sigOps := s.sigOps.map (fun o => if o.asker = 3 ∧ ks.contains (o.askId / 32) then { o with asker := 0 } else o) }

/-- Stop every thread of a cluster, keeping the flags they have accrued (R240, R255). -/
def stopThreads (s : State) (d c : Nat) : State :=
  let lo := thKey (clIx d c) 0 0
  let ks := Store.keysIn s.threads lo (lo + 2048)
  let fl : BitVec 5 := ks.foldl (fun a k => if (thread s k).live then a ||| BitVec.setWidth 5 (thread s k).fcsr else a) 0
  let s := dropAsks s ks
  let s := updCall s d c (fun k => { k with fflags := k.fflags ||| fl })
  { s with threads := Store.eraseRange s.threads lo (lo + 2048)
           resv := s.resv.filter (fun r => !(decide (lo ≤ r.1) && decide (r.1 < lo + 2048))) }

/-- A kill (R255): every thread stops, the fault is recorded, and the call's end begins. What the spec does not give a
cause (a pc for a kill without a thread, an address for one without) is free. -/
def smKill (s : State) (d c cause : Nat) (who : Option (Nat × Nat × Nat)) (pc addr : Option W64) : State :=
  let (w0, s) := drawWord s
  let (w1, s) := drawWord s
  let (w2, s) := drawWord s
  let (fig, sid, tid) := who.getD (fld w0 0 24, fld w0 24 5, fld w0 29 5)
  let s := wr s (sm d c 0x10) (BitVec.ofNat 64 (cause + 2 ^ 4 * tid + 2 ^ 9 * sid + 2 ^ 16 * (fig % 2 ^ 24) + 2 ^ 63))
  let s := wr (wr s (sm d c 0x18) (pc.getD w1)) (sm d c 0x20) (addr.getD w2)
  let s := stopThreads s d c
  let s := updCall s d c (fun k => { k with killed := true, ready := true, heldSlots := [] })
  smEvent (smRefresh (wrB s (sm d c 0) 1 true) d c) d c 0

/-- Kill by the thread with key `key` of a slot. -/
def smKillAt (s : State) (d c : Nat) (k : Call) (slot key cause : Nat) (addr : Option W64) : State :=
  smKill s d c cause (some (k.figOf slot, slot % k.fsets, key % 32)) (some (thread s key).pc) addr

/-- SM_CALL (R228): the update sequencer requests a window, and holds until it opens (R230). -/
def execSmCall (d : ADie) (issue : BitVec 24) (ops : BitVec 96) (s : State) : Host.Outcome State Fault Refusal :=
  let o := mkOrder 0xEF issue ops
  .next (if canIssue s d 14 o then
    let s := holdAt s d 14 issue.toNat .opening
    let k : Call := { die := d, cluster := fld o 32 3, issue := issue.toNat, desc := fld o 36 20, win := fld o 56 24
                      endSig := fld o 80 14, endEn := bitOf o 94, opened := false, ready := false, flushed := false
                      expired := false, ended := false, killed := false, entry := 0, grid := 0, fsets := 1, fgrp := 0
                      grace := 0, arg0 := 0, arg1 := 0, stack := 0, stackBytes := 0, seats := [], figDone := 0
                      fflags := 0, lastOps := [], heldSlots := [] }
    { s with calls := s.calls ++ [k] }
  else s)

/-- First address of the local window (R238). -/
def localBase : Nat := 0xFFFFFFFFFE000000

/-- The descriptor keeps the rules of R233. -/
def descOk (b : List Byte) : Bool :=
  decide (localBase ≤ leAt b 0 8) && decide (leAt b 0 8 % 4 = 0) && decide (1 ≤ leAt b 8 4) && decide (leAt b 8 4 < 2 ^ 24)
    && decide (1 ≤ leAt b 12 1) && decide (leAt b 12 1 ≤ 32) && decide (leAt b 13 1 < 16) && decide (leAt b 32 8 % 16 = 0)
    && decide (leAt b 40 4 % 16 = 0) && decide (leAt b 44 20 = 0)

/-- CALL_WINDOW_OPEN (R229, R230, R233): SM_CALL has issued and the cluster has reached c, now or before, so the window opens, the
write-back starts and the descriptor is read; `waited` says whether the update sequencer held for a cycle or more. -/
def execCallWindowOpen (d : ADie) (c : Cluster) (waited : Bool) (s : State) : Host.Outcome State Fault Refusal :=
  .next (match s.calls.find? (fun k => decide (k.die = d.val) && decide (k.cluster = c.val) && !k.opened) with
  | none => s
  | some k =>
    let e := eng s d (1 + c)
    if decide (ttState s d ≠ 4) || (openCall s d c).isSome || !(decide (k.issue ≤ e.cycle) || mayReach s d (1 + c) k.issue) then s
    else
      let s := if k.issue ≤ e.cycle then s else reach s d (1 + c) k.issue
      let b := rdBytes s (winBase d c + k.desc * 32) 64
      let v : Call := { k with opened := true, entry := BitVec.ofNat 64 (leAt b 0 8), grid := leAt b 8 4
                               fsets := max 1 (leAt b 12 1), fgrp := leAt b 13 1 % 16, grace := leAt b 14 2
                               arg0 := BitVec.ofNat 64 (leAt b 16 8), arg1 := BitVec.ofNat 64 (leAt b 24 8)
                               stack := BitVec.ofNat 64 (leAt b 32 8), stackBytes := leAt b 40 4 }
      let cs := s.calls.map (fun x => if x = k then v else x)
      let s := { s with calls := cs }
      let s := wr s (sm d c 8) (BitVec.ofNat 64 (k.issue + 2 ^ 24 * k.desc))
      let s := wr s (sm d c 0) 3
      let s := letGo s d 14
      let s := if waited then countHold s d causeOverrun else s
      if descOk b then s else smKill s d c killDescriptor none none none)

/-- FIGURE_START (R234, R235): the next figure of a free seat starts. -/
def execFigureStart (d : ADie) (c : Cluster) (seat : BitVec 6) (s : State) : Host.Outcome State Fault Refusal :=
  .next (match openCall s d c with
  | none => s
  | some k =>
    let q := seat.toNat
    let next := match k.seats.find? (fun x => decide (x.seat = q)) with
      | none => some q
      | some x => if x.ended then some (x.fig + k.seatCount) else none
    match next with
    | none => s
    | some f =>
      if !k.ready || k.killed || decide (k.seatCount ≤ q) || decide (k.grid ≤ f) then s
      else
        let s := updCall s d c (fun k =>
          { k with seats := { seat := q, fig := f, ended := false } :: k.seats.filter (fun x => !decide (x.seat = q)) })
        let s := (k.seatSlots q).foldl (fun s slot => (upTo 32).foldl (fun s t =>
          let sp := k.stack.toNat + (32 * slot + t + 1) * k.stackBytes
          setThread s (thKey (clIx d c) slot t) (fun _ =>
            let h : Thread := { live := true, pc := k.entry, x := [], f := [], fcsr := 0, instret := 0, block := .none, awaits := [] }
            ((h.wx 10 k.arg0).wx 11 k.arg1).wx 2 (BitVec.ofNat 64 sp))) s) s
        smRefresh s d c)

/-! ### Stepping a set (R239) -/

/-- Threads of a set that may issue: live and not blocked. -/
def eligible (s : State) (d c slot : Nat) : List Nat :=
  (liveOf s d c slot).filter (fun k => decide ((thread s k).block = .none))

/-- The least pc among some threads. -/
def minPc (s : State) (ks : List Nat) : Nat := (minOf (ks.map (fun k => (thread s k).pc.toNat))).getD 0

/-- What a set is about to issue: the call, the threads at the lowest pc in lane order, and the instruction there; no
instruction where the fetch leaves the local window. -/
structure SetIssue where
  call : Call
  keys : List Nat
  instr : Option W32
  deriving DecidableEq, Repr

/-- Offset in the local window that [a, a + n) names, where it exists there (R238). -/
def localOff (s : State) (d c a n : Nat) : Option Nat :=
  if localBase ≤ a ∧ inWindow s d c (a - localBase) ∧ inWindow s d c (a - localBase + n - 1) then some (a - localBase) else none

/-- An instruction reads or writes register x`r` (R239): its fields rd, rs1 and rs2, where its format has them. -/
def rvTouches (w : W32) (r : Nat) : Bool :=
  let op := rvOp w
  (decide (rvRd w = r) && !([0x23, 0x27, 0x63].contains op))
    || (decide (rvRs1 w = r) && !([0x37, 0x17, 0x6F].contains op))
    || (decide (rvRs2 w = r) && [0x23, 0x63, 0x33, 0x3B, 0x2F, 0x0B, 0x2B].contains op)

/-- The next issue of slot `slot`; none while the call is not running, the set is held, no thread is eligible, or a thread at the
lowest pc waits for a register that the instruction names (R239). -/
def setIssue (s : State) (d c slot : Nat) : Option SetIssue :=
  match openCall s d c with
  | none => none
  | some k =>
    let es := eligible s d c slot
    if !k.ready || k.killed || k.heldSlots.any (fun h => decide (h.1 = slot)) || es.isEmpty || decide (ttState s d ≠ 4) then none
    else
      let pc := minPc s es
      let keys := es.filter (fun x => decide ((thread s x).pc.toNat = pc))
      let instr : Option W32 := (localOff s d c pc 4).map (fun o => BitVec.ofNat 32 (rdNat s (winBase d c + o) 4))
      let waits := match instr with
        | some w => keys.any (fun x => (thread s x).awaits.any (rvTouches w))
        | none => false
      if waits then none else some { call := k, keys := keys, instr := instr }

/-- Count one instruction of a set (SM_INSTR). -/
def countInstr (s : State) (d c : Nat) : State := inc s (sm d c 0x30)

/-- Retire an instruction in a thread. -/
def retire (s : State) (k : Nat) (h : Thread) : State := setThread s k (fun _ => { h with instret := h.instret + 1 })

/-- A set issues an instruction of row `row`, if that is what stands next. -/
def onRow (s : State) (d c slot : Nat) (row : SetRow) (act : SetIssue → W32 → State → State) : State :=
  match setIssue s d c slot with
  | some i =>
    match i.instr with
    | some w => if setRow w = row then act i w (countInstr s d c) else s
    | none => s
  | none => s

/-- What stops a thread's access: a kill with its address, or a translation fault by cause and address. -/
inductive Stop where
  | kill (cause : Nat) (addr : W64)
  | page (cause va : Nat) (write : Bool)
  deriving DecidableEq, Repr

/-- The stops of some accesses, in lane order: a kill comes before a held set. -/
def firstStop (xs : List (Nat × Option Stop)) : Option (Nat × Stop) :=
  let stops := xs.filterMap (fun x => x.2.map (fun p => (x.1, p)))
  match stops.find? (fun x => match x.2 with
    | .kill _ _ => true
    | _ => false) with
  | some x => some x
  | none => stops.head?

/-- A stop takes effect: the call is killed, or the set is held on its fault record (R255, R256). -/
def doStop (s : State) (d c slot : Nat) (k : Call) (x : Nat × Stop) : State :=
  match x.2 with
  | .kill cause addr => smKillAt s d c k slot x.1 cause (some addr)
  | .page cause va write =>
    let va := BitVec.ofNat 64 va
    let s := afterTranslate s d (1 + c) va write
    let key := faultKey s d va
    updCall (faultRecord s d (1 + c) key false cause write va) d c (fun k =>
      { k with heldSlots := k.heldSlots ++ [(slot, key, x.1, va)] })

/-- The parts of [a, a + n) below the local window and in it (R238). -/
def accessParts (a n : Nat) : List (Nat × Nat) :=
  if a < localBase ∧ localBase < a + n then [(a, localBase - a), (localBase, a + n - localBase)] else [(a, n)]

/-- Whether one part may be accessed (R238). -/
def partStop (s : State) (d c a n : Nat) (write : Bool) : Option Stop :=
  if localBase ≤ a then (if (localOff s d c a n).isSome then none else some (.kill killAccess (BitVec.ofNat 64 a)))
  else match virtPieces s d (1 + c) a n write with
    | .ok _ => none
    | .error e => some (.page e.1 e.2 write)

/-- Whether [a, a + n) may be accessed (R238). -/
def accessStop (s : State) (d c a n : Nat) (write : Bool) : Option Stop :=
  (accessParts a n).findSome? (fun p => partStop s d c p.1 p.2 write)

/-- A set issues an instruction without memory, or one that is illegal (R236, R239, R240); `cycles` is what the cycle CSR reads. -/
def setPlain (s : State) (d c slot : Nat) (cycles : W64) : State :=
  match setIssue s d c slot with
  | none => s
  | some i =>
    let k := i.call
    let first := i.keys.headD 0
    match i.instr with
    | none => smKillAt s d c k slot first killAccess (some (thread s first).pc)
    | some w =>
      match setRow w with
      | .plain =>
        let s := countInstr s d c
        let env (key : Nat) : RvEnv :=
          { cycle := cycles, time := BitVec.ofNat 64 (dieNow s d), smtid := key % 32, smsid := slot % k.fsets, smfid := k.figOf slot
            smfsets := k.fsets, smgrid := k.grid, smslot := 32 * slot + key % 32, smcluster := clIx d c }
        let rs := i.keys.map (fun key => (key, rvExec (env key) w (thread s key)))
        let bad := rs.findSome? (fun r => match r.2 with
          | .error e => some (r.1, e)
          | .ok _ => none)
        (match bad with
         | some (key, e) => smKillAt s d c k slot key e.1 (some e.2)
         | none => rs.foldl (fun s r => match r.2 with
           | .ok h => retire s r.1 h
           | .error _ => s) s)
      | .sig n => if 4 < n then smKillAt (countInstr s d c) d c k slot first killSignal none else s
      | _ => s

/-- SET_INSTRUCTION (R236, R239, R240): the instructions without memory, and whatever is illegal; `cycles` is what the
cycle CSR reads. `bad` names the physical lanes whose residue checks find a mismatch in the set's next operation, of whatever row:
it is recorded under the ISSUE of the call (R178). -/
def execSetInstruction (d : ADie) (c : Cluster) (slot : SlotIx) (cycles : W64) (bad : List (Fin 1056)) (s : State) :
    Host.Outcome State Fault Refusal :=
  .next (match setIssue s d c slot with
  | some i => bad.foldl (fun t l => laneMismatch t d c l i.call.issue) (setPlain s d c slot cycles)
  | none => s)

/-! ### Loads and stores (R245, R246) -/

/-- Address, bytes and direction of a load or store. -/
def memIsStore (w : W32) : Bool := decide (rvOp w = 0x23) || decide (rvOp w = 0x27)
def memSize (w : W32) : Nat := 2 ^ (rvF3 w % 4)
def memAddr (w : W32) (h : Thread) : Nat := (h.rx (rvRs1 w) + (if memIsStore w then immS w else immI w)).toNat

/-- Stream of a slot (R234). -/
def slotStream (slot : Nat) : Nat := slot % 16

/-- Read [a, a + n) as a thread does, after its checks: its part in the local window directly, the rest through the stream cache. -/
def threadLoad (s : State) (d c slot a n : Nat) : Nat × State :=
  let r := (accessParts a n).foldl (fun (x : List Byte × State) p =>
    match localOff x.2 d c p.1 p.2 with
    | some o => (x.1 ++ rdBytes x.2 (winBase d c + o) p.2, x.2)
    | none => let (l, s) := scLoad x.2 d c (slotStream slot) p.1 p.2; (x.1 ++ l, s)) ([], s)
  (leNat r.1, r.2)

/-- Write them. -/
def threadStore (s : State) (d c slot a n v : Nat) : State :=
  let b := leBytes n v
  (accessParts a n).foldl (fun s p =>
    let l := slice b (p.1 - a) p.2
    match localOff s d c p.1 p.2 with
    | some o => wrBytes s (winBase d c + o) l
    | none => scStore s d c (slotStream slot) p.1 l) s

/-- A loaded value in its register. -/
def loadInto (w : W32) (h : Thread) (v : Nat) : Thread :=
  let n := 8 * memSize w
  if rvOp w = 0x07 then
    (h.wf (rvRd w) (BitVec.ofNat 64 (v + (2 ^ 64 - 2 ^ n)))).step
  else h.put (rvRd w) (if 4 ≤ rvF3 w then BitVec.ofNat 64 v else BitVec.ofInt 64 (signedOf n v))

/-- The distinct sectors that some accesses touch. -/
def sectorCount (xs : List (Nat × Nat)) : Nat := ((xs.flatMap (fun x => sectors x.1 x.2)).dedup).length

/-- SET_MEMORY_ACCESS (R245): one load or store of every thread at the pc, in lane order. -/
def execSetMemoryAccess (d : ADie) (c : Cluster) (slot : SlotIx) (s : State) : Host.Outcome State Fault Refusal :=
  .next (onRow s d c slot .memory (fun i w s =>
    let n := memSize w
    let st := memIsStore w
    match firstStop (i.keys.map (fun k => (k, accessStop s d c (memAddr w (thread s k)) n st))) with
    | some x => doStop s d c slot i.call x
    | none =>
      let s := incBy s (sm d c 0x38) (max 1 (sectorCount (i.keys.map (fun k => (memAddr w (thread s k), n)))))
      i.keys.foldl (fun s k =>
        let h := thread s k
        let a := memAddr w h
        if st then
          let v := if rvOp w = 0x27 then (h.rf (rvRs2 w)).toNat else (h.rx (rvRs2 w)).toNat
          retire (threadStore s d c slot a n v) k h.step
        else
          let (v, s) := threadLoad s d c slot a n
          retire s k (loadInto w h v)) s))

/-! ### Ordered operations (R247 to R251) -/

/-- The physical place of an ordered operation at `a`. -/
def orderedPa (s : State) (d c a n : Nat) (write : Bool) : Nat :=
  match localOff s d c a n with
  | some o => winBase d c + o
  | none => match translate s d (1 + c) (BitVec.ofNat 64 a) write with
    | .ok p => p
    | .error _ => 0

/-- An ordered operation on [a, a + n) begins, and its physical place: on a virtual address, its sector leaves the stream cache,
and the home junction cache takes the line in M (R247, R335). -/
def orderedStart (s : State) (d c a n : Nat) (write : Bool) : State × Nat :=
  if localBase ≤ a then (s, orderedPa s d c a n write)
  else
    let s := scRangeOp (afterVirt s d (1 + c) a n write) (clIx d c) 3 (a / 32 * 32) 32
    let pa := orderedPa s d c a n write
    (ownLine s (homeOf s pa) (pa / 64) id, pa)

/-- The old value at a place: at the home for unified memory, at the cluster for the local window. -/
def orderedGet (s : State) (pa n : Nat) : Nat := if inUnified pa n then leNat (cohBytes s pa n) else rdNat s pa n

/-- Write there. -/
def orderedPut (s : State) (pa n v : Nat) : State :=
  if inUnified pa n then
    ownLine { s with resv := keepResv s.resv pa n } (homeOf s pa) (pa / 64) (fun old =>
      BitVec.ofNat 512 (leNat (mergeLine (leBytes 64 old.toNat) (pa / 64) pa (leBytes n v))))
  else wrBytes s pa (leBytes n v)

/-- An ordered operation in a possession leaves no line in a cache and no directory entry: the line goes back to memory at once
(R339; entry 124). -/
def orderedEnd (s : State) (pa n : Nat) : State :=
  if inUnified pa n && possessed s pa n then invalidateLine s (pa / 64) true else s

/-- An ordered operation of the set in `slot` on a word or signal: a choice is counted when another set or agent came
before it, unless both combine; every other open call sees it as another agent's (R251). -/
def orderedNote (s : State) (d c slot key kind : Nat) : State :=
  match openCall s d c with
  | none => s
  | some k =>
    let me := k.figOf slot * 32 + slot % k.fsets + 1
    let choice := match k.lastOps.find? (fun o => decide (o.1 = key)) with
      | some o => decide (o.2.1 ≠ me) && !(decide (kind ≠ 0) && decide (o.2.2 = kind))
      | none => false
    let s := otherOp (updCall s d c (fun k => k.noteOp key me kind))
      (fun x => decide (x.die = d) && decide (x.cluster = c)) key kind
    if choice then smChoice s d c else s

/-- Address and size of an atomic. -/
def amoAddr (w : W32) (h : Thread) : Nat := (h.rx (rvRs1 w)).toNat
def amoSize (w : W32) : Nat := if rvF3 w = 2 then 4 else 8

/-- What stops a thread's atomic: misalignment first (R245). -/
def amoStop (s : State) (d c : Nat) (w : W32) (h : Thread) (write : Bool) : Option Stop :=
  let a := amoAddr w h
  if a % amoSize w ≠ 0 then some (.kill killMisaligned (BitVec.ofNat 64 a)) else accessStop s d c a (amoSize w) write

/-- An old value in rd: the .W forms sign-extend. -/
def amoOld (w : W32) (v : Nat) : W64 := if rvF3 w = 2 then BitVec.ofInt 64 (signedOf 32 v) else BitVec.ofNat 64 v

/-- One integer combination on `n`-bit words (RISC-V A). -/
def amoOp {n : Nat} (f5 : Nat) (x y : BitVec n) : BitVec n :=
  if f5 = 0 then x + y
  else if f5 = 4 then x ^^^ y
  else if f5 = 8 then x ||| y
  else if f5 = 12 then x &&& y
  else if f5 = 16 then (if y.slt x then y else x)
  else if f5 = 20 then (if x.slt y then y else x)
  else if f5 = 24 then (if y.ult x then y else x)
  else (if x.ult y then y else x)

/-- The same on numbers of the instruction's width. -/
def amoNat (w : W32) (x y : Nat) : Nat :=
  let f5 := fld w 27 5
  if rvF3 w = 2 then (amoOp f5 (BitVec.ofNat 32 x) (BitVec.ofNat 32 y)).toNat
  else (amoOp f5 (BitVec.ofNat 64 x) (BitVec.ofNat 64 y)).toNat

/-- The distinct addresses of a set's atomic, in ascending order of their lowest lane, each with its threads (R248). -/
def amoGroups (s : State) (w : W32) (keys : List Nat) : List (Nat × List Nat) :=
  let addrs := (keys.map (fun k => amoAddr w (thread s k))).foldl (fun l a => if l.contains a then l else l ++ [a]) []
  addrs.map (fun a => (a, keys.filter (fun k => decide (amoAddr w (thread s k) = a))))

/-- Kind of a combining operation for R251: only with rd = x0. -/
def amoKind (w : W32) : Nat := if rvRd w = 0 then fld w 27 5 + 1 else 0

/-- Retire a combined operation in each of its threads with the value it receives. -/
def giveAll (s : State) (w : W32) (ks : List Nat) (vals : List W64) (fl : Byte) : State :=
  (ks.zip vals).foldl (fun s x => retire s x.1 (((thread s x.1).put (rvRd w) x.2).accrue fl)) s

/-- One memory operation for the threads `ks` at address `a`: `f` gives the new value and what each thread receives. -/
def combineAt (s : State) (d c slot : Nat) (w : W32) (ks : List Nat) (a kind : Nat)
    (f : Nat → List (Nat × Nat) → Nat × List W64 × Byte) : State :=
  let n := amoSize w
  let (s, pa) := orderedStart s d c a n true
  let old := orderedGet s pa n
  let ops := ks.map (fun k => (k % 32, (thread s k).rx (rvRs2 w) |>.toNat |> (· % 2 ^ (8 * n))))
  let (new, vals, fl) := f old ops
  let s := orderedEnd (orderedPut s pa n new) pa n
  let s := incBy (inc s (sm d c 0x40)) (sm d c 0x48) (ks.length - 1)
  giveAll (orderedNote s d c slot (pa / 8) kind) w ks vals fl

/-- The integer combination (R248): the new value, and the old value with the operands of the lanes below each. -/
def combineInt (w : W32) (old : Nat) (ops : List (Nat × Nat)) : Nat × List W64 × Byte :=
  let r := ops.foldl (fun (a : Nat × List W64) o => (amoNat w a.1 o.2, a.2 ++ [amoOld w a.1])) (old, [])
  (r.1, r.2, 0)

/-- SET_AMO_COMBINE (R248). -/
def execSetAmoCombine (d : ADie) (c : Cluster) (slot : SlotIx) (s : State) : Host.Outcome State Fault Refusal :=
  .next (onRow s d c slot .combine (fun i w s =>
    match firstStop (i.keys.map (fun k => (k, amoStop s d c w (thread s k) true))) with
    | some x => doStop s d c slot i.call x
    | none => (amoGroups s w i.keys).foldl (fun s g => combineAt s d c slot w g.2 g.1 (amoKind w) (combineInt w)) s))

/-- One level of the tree of R249: absent lanes pass their partner through. -/
def faddLevel (f : Fmt) : List (Option Nat) → List (Option Nat) × Flags
  | a :: b :: t =>
    let (r, fl) := faddLevel f t
    match a, b with
    | none, x => (x :: r, fl)
    | x, none => (x :: r, fl)
    | some x, some y =>
      let (v, g) := deliver f .rne (addV (decodeF f x) (decodeF f y))
      (some v :: r, fl ||| g)
  | l => (l, 0)

/-- tree(S) of R249, with the flags of its roundings. -/
def faddTree (f : Fmt) (vals : List (Option Nat)) : Option Nat × Flags :=
  let (l, fl) := (upTo 5).foldl (fun (a : List (Option Nat) × Flags) _ =>
    let (l, g) := faddLevel f a.1
    (l, a.2 ||| g)) (vals, 0)
  (l.headD none, fl)

/-- Lanes 0 to 31 with the addends of those that `pick` selects. -/
def faddLanes (ops : List (Nat × Nat)) (pick : Nat → Bool) : List (Option Nat) :=
  (upTo 32).map (fun i => if pick i then (ops.find? (fun o => decide (o.1 = i))).map Prod.snd else none)

/-- RN(old + tree), old itself where the tree is absent. -/
def faddOn (f : Fmt) (old : Nat) (t : Option Nat × Flags) : Nat × Flags :=
  match t.1 with
  | none => (old, t.2)
  | some v => let (r, g) := deliver f .rne (addV (decodeF f old) (decodeF f v)); (r, t.2 ||| g)

/-- SM.FADD's combination (R249). -/
def combineFadd (w : W32) (old : Nat) (ops : List (Nat × Nat)) : Nat × List W64 × Byte :=
  let f : Fmt := if rvF3 w = 2 then .fp32 else .fp64
  let new := faddOn f old (faddTree f (faddLanes ops (fun _ => true)))
  let outs := ops.map (fun o => faddOn f old (faddTree f (faddLanes ops (fun i => decide (i < o.1)))))
  let fl := outs.foldl (fun a x => a ||| x.2) new.2
  (new.1, outs.map (fun x => amoOld w x.1), toFflags fl)

/-- SM_FADD (R249). -/
def execSmFadd (d : ADie) (c : Cluster) (slot : SlotIx) (s : State) : Host.Outcome State Fault Refusal :=
  .next (onRow s d c slot .fadd (fun i w s =>
    match firstStop (i.keys.map (fun k => (k, amoStop s d c w (thread s k) true))) with
    | some x => doStop s d c slot i.call x
    | none => (amoGroups s w i.keys).foldl (fun s g => combineAt s d c slot w g.2 g.1 0 (combineFadd w)) s))

/-- One thread's AMOSWAP, LR or SC (R250). -/
def serialOne (s : State) (d c slot : Nat) (w : W32) (k : Nat) : State :=
  let f5 := fld w 27 5
  let h := thread s k
  let n := amoSize w
  let a := amoAddr w h
  let (s, pa) := orderedStart s d c a n (f5 ≠ 2)
  let old := orderedGet s pa n
  let v := (h.rx (rvRs2 w)).toNat % 2 ^ (8 * n)
  let mine (r : Nat × Nat) : Bool := decide (r.1 = k)
  let s :=
    if f5 = 2 then
      let s := { s with resv := (k, pa / 8) :: s.resv.filter (fun r => !mine r) }
      retire (inc s (sm d c 0x40)) k (h.put (rvRd w) (amoOld w old))
    else if f5 = 3 then
      let ok := s.resv.any (fun r => mine r && decide (r.2 = pa / 8))
      let s := if ok then inc (orderedPut s pa n v) (sm d c 0x40) else s
      let s := { s with resv := s.resv.filter (fun r => !mine r) }
      retire s k (h.put (rvRd w) (if ok then 0 else 1))
    else retire (inc (orderedPut s pa n v) (sm d c 0x40)) k (h.put (rvRd w) (amoOld w old))
  orderedNote (orderedEnd s pa n) d c slot (pa / 8) 0

/-- SET_SERIAL_ATOMIC (R250): one thread after the other in lane order. -/
def execSetSerialAtomic (d : ADie) (c : Cluster) (slot : SlotIx) (s : State) : Host.Outcome State Fault Refusal :=
  .next (onRow s d c slot .serial (fun i w s =>
    let write := decide (fld w 27 5 ≠ 2)
    match firstStop (i.keys.map (fun k => (k, amoStop s d c w (thread s k) write))) with
    | some x => doStop s d c slot i.call x
    | none => i.keys.foldl (fun s k => serialOne s d c slot w k) s))

/-- One thread's SM.CAS (R241, R250): rd carries the value compared and receives the old one. -/
def casOne (s : State) (d c slot : Nat) (w : W32) (k : Nat) : State :=
  let h := thread s k
  let n := amoSize w
  let a := amoAddr w h
  let (s, pa) := orderedStart s d c a n true
  let old := orderedGet s pa n
  let m := 2 ^ (8 * n)
  let s := if old = (h.rx (rvRd w)).toNat % m then orderedPut s pa n ((h.rx (rvRs2 w)).toNat % m) else s
  orderedNote (retire (inc (orderedEnd s pa n) (sm d c 0x40)) k (h.put (rvRd w) (amoOld w old))) d c slot (pa / 8) 0

/-- SM_CAS (R250). -/
def execSmCas (d : ADie) (c : Cluster) (slot : SlotIx) (s : State) : Host.Outcome State Fault Refusal :=
  .next (onRow s d c slot .cas (fun i w s =>
    match firstStop (i.keys.map (fun k => (k, amoStop s d c w (thread s k) true))) with
    | some x => doStop s d c slot i.call x
    | none => i.keys.foldl (fun s k => casOne s d c slot w k) s))

/-! ### Barriers and exits (R252 to R254) -/

/-- Live threads of the figure that sits with slot `slot`. -/
def figureLive (s : State) (d c slot : Nat) (k : Call) : List Nat :=
  (k.seatSlots (slot / k.fsets)).flatMap (liveOf s d c)

/-- The barrier a thread is blocked at. -/
def barrierOf (h : Thread) : Option Nat :=
  match h.block with
  | .barrier id => some id
  | _ => none

/-- Every live thread of the figure is blocked at a barrier, and no single id has them all (R253). -/
def barrierStuck (s : State) (d c slot : Nat) (k : Call) : Bool :=
  let ids := (figureLive s d c slot k).map (fun x => barrierOf (thread s x))
  !ids.isEmpty && ids.all Option.isSome && decide (1 < ids.dedup.length)

/-- Kill a call whose barrier can never complete, by the thread `key` that made it so at `pc`. -/
def checkBarrier (s : State) (d c slot key : Nat) (pc : W64) (k : Call) : State :=
  if barrierStuck s d c slot k then smKill s d c killBarrier (some (k.figOf slot, slot % k.fsets, key % 32)) (some pc) none else s

/-- SM_BARRIER (R252, R253). -/
def execSmBarrier (d : ADie) (c : Cluster) (slot : SlotIx) (s : State) : Host.Outcome State Fault Refusal :=
  .next (onRow s d c slot .barrier (fun i w s =>
    let key := i.keys.headD 0
    let pc := (thread s key).pc
    let s := i.keys.foldl (fun s k => retire s k { (thread s k).step with block := .barrier (fld w 20 2) }) s
    checkBarrier s d c slot key pc i.call))

/-- BARRIER_RELEASE (R252): a completed barrier of the figure that sits with `slot` lets its threads go. -/
def execBarrierRelease (d : ADie) (c : Cluster) (slot : SlotIx) (s : State) : Host.Outcome State Fault Refusal :=
  .next (match openCall s d c with
  | none => s
  | some k =>
    let ks := figureLive s d c slot k
    let ids := ks.map (fun x => barrierOf (thread s x))
    if !ids.isEmpty && ids.all Option.isSome && decide (ids.dedup.length = 1) then
      ks.foldl (fun s x => setThread s x (fun h => { h with block := .none })) s
    else s)

/-- SM_EXIT (R254): the threads leave; the figure ends with its last one, and its seat is free. -/
def execSmExit (d : ADie) (c : Cluster) (slot : SlotIx) (s : State) : Host.Outcome State Fault Refusal :=
  .next (onRow s d c slot .exit (fun i _w s =>
    let key := i.keys.headD 0
    let fl : BitVec 5 := i.keys.foldl (fun a k => a ||| BitVec.setWidth 5 (thread s k).fcsr) 0
    let pc := (thread s key).pc
    let s := i.keys.foldl (fun s k => retire s k { (thread s k) with live := false }) s
    let s := dropAsks { s with resv := s.resv.filter (fun r => !i.keys.contains r.1) } i.keys
    let s := updCall s d c (fun k => { k with fflags := k.fflags ||| fl })
    if (figureLive s d c slot i.call).isEmpty then
      let q := slot.val / i.call.fsets
      let s := updCall s d c (fun k =>
        { k with figDone := k.figDone + 1
                 seats := k.seats.map (fun x => if x.seat = q then { x with ended := true } else x) })
      let s := match openCall s d c with
        | some k => if k.figDone = k.grid then wrB s (sm d c 0) 1 true else s
        | none => s
      smRefresh s d c
    else
      checkBarrier (smRefresh s d c) d c slot key pc i.call))

/-! ### Accumulator reads, prefetches and signals (R242 to R244) -/

/-- What SM.ACCRD reads (R242): forms 0 and 1 convert as VACC, 2 and 3 give the halves of a long sum. -/
def accrdVal (s : State) (d q ix form : Nat) : Nat × Flags :=
  let mode := planeMode s d q
  let cl := cellAt s d q ix
  if form ≤ 1 then accVal mode (planeAnchor s d q) form cl
  else
    let (l, sat, fl) : Nat × Bool × Flags := if mode = 3 then (cl.l.toNat, cl.sat, 0) else (nfCell.toNat, false, flInvalid)
    (if form = 2 then l % 2 ^ 64 else l / 2 ^ 64 + 2 ^ 32 * b2n sat, fl)

/-- SM_ACCRD (R242). -/
def execSmAccrd (d : ADie) (c : Cluster) (slot : SlotIx) (s : State) : Host.Outcome State Fault Refusal :=
  .next (onRow s d c slot .accrd (fun i w s =>
    match i.keys.find? (fun k => decide (65536 ≤ ((thread s k).rx (rvRs1 w)).toNat)) with
    | some k => smKillAt s d c i.call slot k killAccess (some ((thread s k).rx (rvRs1 w)))
    | none => i.keys.foldl (fun s k =>
      let h := thread s k
      let e := (h.rx (rvRs1 w)).toNat
      let (v, fl) := accrdVal s d (e / 16384) (e % 16384) (fld w 20 2)
      retire s k ((h.put (rvRd w) (BitVec.ofNat 64 v)).accrue (toFflags fl))) s))

/-- SM_PREFETCH (R244). -/
def execSmPrefetch (d : ADie) (c : Cluster) (slot : SlotIx) (s : State) : Host.Outcome State Fault Refusal :=
  .next (onRow s d c slot .prefetch (fun i w s =>
    let s := incBy s (sm d c 0x38) (max 1 (sectorCount (i.keys.map (fun k => (memAddr w (thread s k), 1)))))
    i.keys.foldl (fun s k =>
      let h := thread s k
      let a := (h.rx (rvRs1 w) + immI w).toNat
      retire (if localBase ≤ a then s else prefetch s (clIx d c) a) k h.step) s))

/-- SM.SIG SET or ADD of the threads of a set (R243): unbooked operations of agents; the register that takes the value before a
thread's own operation waits for it, and the thread stays eligible (R239). -/
def setSignal (s : State) (d c slot : Nat) (op : Nat) : State :=
  onRow s d c slot (.sig op) (fun i w s =>
    match i.keys.find? (fun k => decide (16384 ≤ ((thread s k).rx (rvRs1 w)).toNat)) with
    | some k => smKillAt s d c i.call slot k killSignal none
    | none =>
      let s := ((i.keys.map (fun k => ((thread s k).rx (rvRs1 w)).toNat)).dedup).foldl (fun s n =>
        orderedNote s d c slot (2 ^ 62 + n) (if op = 1 ∧ rvRd w = 0 then 64 else 0)) s
      i.keys.foldl (fun s k =>
        let h := thread s k
        let o : SigOp := { sig := (h.rx (rvRs1 w)).toNat, add := decide (op = 1), value := h.rx (rvRs2 w), order := none
                           asker := if rvRd w = 0 then 0 else 3, askId := 32 * k + rvRd w, setMode := true }
        retire (sendSig s o) k { h.step with awaits := if rvRd w = 0 then h.awaits else rvRd w :: h.awaits }) s)

/-- SM.SIG waits (R243): operation 0 GE, 1 EQ, 2 MASK, on a signal hosted by this die. -/
def setWait (s : State) (d c slot : Nat) (op : Nat) : State :=
  onRow s d c slot (.sig (op + 2)) (fun i w s =>
    let bad (n : Nat) : Bool := decide (16384 ≤ n) || decide (sigHost n ≠ d)
    match i.keys.find? (fun k => bad ((thread s k).rx (rvRs1 w)).toNat) with
    | some k => smKillAt s d c i.call slot k killSignal none
    | none => i.keys.foldl (fun s k =>
      let h := thread s k
      let n := (h.rx (rvRs1 w)).toNat
      let x := h.rx (rvRs2 w)
      let v := sigVal s n
      if waitHolds op v x then retire s k (h.put (rvRd w) v)
      else retire s k { h.step with block := .signal op n x (rvRd w) none }) s)

/-- SM_SIG_SET. -/
def execSmSigSet (d : ADie) (c : Cluster) (slot : SlotIx) (s : State) : Host.Outcome State Fault Refusal :=
  .next (setSignal s d c slot 0)
/-- SM_SIG_ADD. -/
def execSmSigAdd (d : ADie) (c : Cluster) (slot : SlotIx) (s : State) : Host.Outcome State Fault Refusal :=
  .next (setSignal s d c slot 1)
/-- SM_SIG_WAIT_GE. -/
def execSmSigWaitGe (d : ADie) (c : Cluster) (slot : SlotIx) (s : State) : Host.Outcome State Fault Refusal :=
  .next (setWait s d c slot 0)
/-- SM_SIG_WAIT_EQ. -/
def execSmSigWaitEq (d : ADie) (c : Cluster) (slot : SlotIx) (s : State) : Host.Outcome State Fault Refusal :=
  .next (setWait s d c slot 1)
/-- SM_SIG_WAIT_MASK. -/
def execSmSigWaitMask (d : ADie) (c : Cluster) (slot : SlotIx) (s : State) : Host.Outcome State Fault Refusal :=
  .next (setWait s d c slot 2)

/-! ### The ends of a call (R216, R229, R230, R257) -/

/-- The figures of a call have all ended, or it was killed. -/
def Call.workDone (k : Call) : Bool := k.killed || decide (k.figDone = k.grid)

/-- STREAM_CACHE_WRITEBACK_DONE (R216): the write-back at the start of a call, at its end, or at a station, where it
may end after SEG_LEN (`late`). -/
def execStreamCacheWritebackDone (d : ADie) (c : Cluster) (late : Bool) (s : State) : Host.Outcome State Fault Refusal :=
  .next (match openCall s d c with
  | some k =>
    if !k.ready then
      updCall (wrB (scFlush s (clIx d c)) (sm d c 0) 1 false) d c (fun k => { k with ready := true })
    else if k.workDone && !k.flushed then
      updCall (wrB (scFlush s (clIx d c)) (sm d c 0) 1 false) d c (fun k => { k with flushed := true })
    else s
  | none =>
    let e := eng s d (1 + c)
    if decide (ttState s d = 4) && e.hold.isNone && e.win.isNone && !e.arrived
        && mayReach s d (1 + c) (segLen s d)
        && !s.calls.any (fun k => decide (k.die = d.val) && decide (k.cluster = c.val) && !k.ended) then
      let s := scFlush (reach s d (1 + c) (segLen s d)) (clIx d c)
      if late then countHold s d causeOverrun else s
    else s)

/-- The call's addition to END_SIG, and its removal, once it has ended and its window has expired. -/
def callSettle (s : State) (d c : Nat) : State :=
  match s.calls.find? (fun k => decide (k.die = d) && decide (k.cluster = c) && k.ended && k.expired) with
  | some k =>
    let s := if k.endEn then sendAdd1 s d 14 k.endSig else s
    { s with calls := s.calls.erase k }
  | none => s

/-- CALL_END (R229, R230, R240): after the end write-back the flags are ORed, and the call is closed; `held` says whether
the cluster had reached the ISSUE of its next order. -/
def execCallEnd (d : ADie) (c : Cluster) (held : Bool) (s : State) : Host.Outcome State Fault Refusal :=
  .next (match openCall s d c with
  | none => s
  | some k =>
    if k.workDone && k.flushed then
      let f := k.fflags
      let fl : Flags := (if bitOf f 4 || bitOf f 3 then flInvalid else 0) ||| (if bitOf f 2 then flOverflow else 0)
        ||| (if bitOf f 1 then flUnderflow else 0) ||| (if bitOf f 0 then flInexact else 0)
      let s := orVcFlags s d c k.fgrp fl
      let s := updCall s d c (fun k => { k with ended := true })
      let s := wrB (wrB s (sm d c 0) 0 false) (sm d c 0) 1 false
      let s := if k.expired then smEvent s d c 1 else s
      let s := if held then countHold s d causeOverrun else s
      callSettle s d c
    else s)

/-- CALL_WINDOW_EXPIRY (R229): c + WIN is reached. -/
def execCallWindowExpiry (d : ADie) (c : Cluster) (s : State) : Host.Outcome State Fault Refusal :=
  let s := match s.calls.find? (fun k => decide (k.die = d.val) && decide (k.cluster = c.val) && k.opened) with
    | some k => if mayReach s d (1 + c) (k.issue + k.win) then reach s d (1 + c) (k.issue + k.win) else s
    | none => s
  .next (callSettle { s with calls := s.calls.map (fun k =>
    if decide (k.die = d.val) && decide (k.cluster = c.val) && k.opened then { k with expired := true } else k) } d c)

/-- CALL_GRACE_EXPIRY (R257). -/
def execCallGraceExpiry (d : ADie) (c : Cluster) (s : State) : Host.Outcome State Fault Refusal :=
  .next (match openCall s d c with
  | none => s
  | some k =>
    if decide (k.grace ≠ 0) && k.expired && !k.killed then smKill (smChoice s d c) d c killExpired none none none
    else s)

end Sys2Proof.Machine
end

