-- ==== Sys2Proof/Machine/Faults.lean ====
section
/-! DEFINITION. How the runtime resolves translation faults (R321, R322), and the fences of the harts (R317, R318). -/

namespace Sys2Proof.Machine

/-- The units that wait for the key of a record of die `d`: what each does on a resolve. -/
structure Waiters where
  trains : List Train
  gathers : List Nat
  /-- Clusters with held sets: the lowest of their slots, the thread that faulted there, and its address (R255). -/
  sets : List (Nat × Nat × Nat × W64)

/-- Who waits for key `k` of die `d` (R319). -/
def waitersOf (s : State) (d : Nat) (k : W64) (window : Bool) : Waiters :=
  { trains := s.trains.filter (fun t => decide (t.die = d) && !t.dead && decide (t.wait = some (k, window)))
    gathers := (upTo 8).filter (fun c => !window && (match (eng s d (1 + c)).win with
      | some w => decide (w.wait = some k)
      | none => false))
    sets := (upTo 8).filterMap (fun c => if window then none
      else (s.calls.find? (fun x => decide (x.die = d) && decide (x.cluster = c) && !x.ended
        && x.heldSlots.any (fun h => decide (h.2.1 = k)))).bind (fun x =>
          (((x.heldSlots.filter (fun h => decide (h.2.1 = k))).argmin (fun h => h.1)).map (fun h => (c, h.1, h.2.2))))) }

/-- A gather or scatter no longer waits for a record: it walks again. -/
def gatherRelease (s : State) (d c : Nat) : State :=
  winWalk (setEng s d (1 + c) (fun e => { e with win := e.win.map (fun w => { w with wait := none }) })) d c

/-- The sets held on key `k` are held no longer (R256). -/
def setsRelease (s : State) (d c : Nat) (k : W64) : State :=
  updCall s d c (fun x => { x with heldSlots := x.heldSlots.filter (fun h => !decide (h.2.1 = k)) })

/-- A write that resolves nothing (R321). -/
def resolveIgnored (s : State) (d : Nat) : State := tuEvent s d 2

/-- TU_RESOLVE with RETRY: the record is free, and every waiter walks again (R321). -/
def resolveRetry (s : State) (d i : Nat) : State :=
  if recValid s d i then
    let k := rd s (recKey d i 0)
    let window := rdB s (recKey d i 1) 7
    let va := (rd s (recKey d i 3)).toNat
    let w := waitersOf s d k window
    let s := freeRec s d i
    let s := w.gathers.foldl (fun s c => gatherRelease s d c) s
    let s := w.sets.foldl (fun s c => setsRelease s d c.1 k) s
    w.trains.foldl (fun s t => trainRetry s t va) s
  else resolveIgnored s d

/-- TU_RESOLVE with FATAL: the record is free, and every waiter takes its fatal consequence: a train under R86, a
gather under R223, a set-mode call killed with cause PAGE under R256 (R321). -/
def resolveFatal (s : State) (d i : Nat) : State :=
  if recValid s d i then
    let k := rd s (recKey d i 0)
    let window := rdB s (recKey d i 1) 7
    let va := rd s (recKey d i 3)
    let w := waitersOf s d k window
    let s := freeRec s d i
    let s := w.sets.foldl (fun s c =>
      match openCall s d c.1 with
      | some call => smKillAt s d c.1 call c.2.1 c.2.2.1 killPage (some c.2.2.2)
      | none => s) s
    let s := w.trains.foldl (fun s t => trainFatal s t va) s
    w.gathers.foldl (fun s _ => failJob s stFault) s
  else resolveIgnored s d

/-- TU_RESOLVE_RETRY (R321). -/
def execTuResolveRetry (d : ADie) (i : BitVec 10) (s : State) : Host.Outcome State Fault Refusal :=
  .next (resolveRetry s d i.toNat)

/-- TU_RESOLVE_FATAL (R321). -/
def execTuResolveFatal (d : ADie) (i : BitVec 10) (s : State) : Host.Outcome State Fault Refusal :=
  .next (resolveFatal s d i.toNat)

/-! ### Fences (R317, R318) -/

/-- The ASID of the job as die `d` has it (R313). -/
def jobAsid (s : State) (d : Nat) : BitVec 16 := BitVec.ofNat 16 (rdF s (tu d 0) 44 16)

/-- A TLB entry that rs1, rs2 and the G bit of a fence select, as the RISC-V privileged architecture says (PRESUMED,
entry 8): an ASID spares global entries. -/
def fenceHits (s : State) (va : Option W64) (asid : Option (BitVec 16)) (e : TlbEntry) : Bool :=
  (match va with
    | some a => decide (e.base ≤ a.toNat) && decide (a.toNat < e.base + e.size)
    | none => true)
  && (match asid with
    | some n => !e.global && decide (n = jobAsid s e.die)
    | none => true)

/-- Broadcast a fence: every unit removes what it selects, and owes an acknowledgement (R317, R318). -/
def broadcastFence (s : State) (hart : Nat) (va : Option W64) (asid : Option (BitVec 16)) : State :=
  let gone := s.trans.tlb.filter (fenceHits s va asid)
  let f : Fence := { id := s.trans.nextFence, hart := hart, va := va, asid := asid, pendingDies := 0xFF
                     removed := gone.map (fun e => (e.die, e.base, e.size)) }
  let s := { s with trans := { s.trans with tlb := s.trans.tlb.filter (fun e => !fenceHits s va asid e)
                                            fences := s.trans.fences ++ [f], nextFence := s.trans.nextFence + 1 } }
  (upTo 8).foldl (fun s d => wrB s (tu d 8) 11 true) s

/-- A hart's wait for fences; a wait for nothing has ended. -/
def hartWaits (s : State) (hart : Nat) (ids : List Nat) : State :=
  if ids.isEmpty then s else { s with trans := { s.trans with waiting := s.trans.waiting ++ [(hart, ids)] } }

/-- SFENCE.VMA (R317, R318): broadcast; it retires after every acknowledgement. A hart that waits issues nothing. -/
def execSfenceVma (hart : Fin 144) (va : Option W64) (asid : Option (BitVec 16)) (s : State) :
    Host.Outcome State Fault Refusal :=
  .next (if s.trans.waiting.any (fun w => decide (w.1 = hart.val)) then s
  else
    let n := s.trans.nextFence
    hartWaits (broadcastFence s hart.val va asid) hart.val [n])

/-- SINVAL.VMA (R317, R318): broadcast; it retires without waiting. -/
def execSinvalVma (hart : Fin 144) (va : Option W64) (asid : Option (BitVec 16)) (s : State) :
    Host.Outcome State Fault Refusal :=
  .next (if s.trans.waiting.any (fun w => decide (w.1 = hart.val)) then s else broadcastFence s hart.val va asid)

/-- SFENCE.INVAL.IR (R318): it retires after every unit has acknowledged every earlier SINVAL.VMA of its hart. -/
def execSfenceInvalIr (hart : Fin 144) (s : State) : Host.Outcome State Fault Refusal :=
  .next (if s.trans.waiting.any (fun w => decide (w.1 = hart.val)) then s
  else hartWaits s hart.val ((s.trans.fences.filter (fun f => decide (f.hart = hart.val))).map Fence.id))

/-- A stream-cache entry of die `d` that a fence covers: its page was removed, or the fence names it (R215, R318). -/
def fenceCovers (s : State) (d : Nat) (f : Fence) (page : Nat) : Bool :=
  let a := page * 4096
  let kept := f.asid.isSome && s.trans.tlb.any (fun e => decide (e.die = d) && e.global && decide (e.base ≤ a)
    && decide (a < e.base + e.size))
  let named := (match f.va with
      | some v => decide (v.toNat / 4096 = page)
      | none => true)
    && (match f.asid with
      | some n => decide (n = jobAsid s d) && !kept
      | none => true)
  named || f.removed.any (fun r => decide (r.1 = d) && decide (r.2.1 ≤ a) && decide (a < r.2.1 + r.2.2))

/-- FENCE_ACK (R318): the unit's stream-cache entries under the fence are written back and invalid, and it
acknowledges; a hart whose fences are all acknowledged goes on. -/
def execFenceAck (d : ADie) (id : Nat) (s : State) : Host.Outcome State Fault Refusal :=
  .next (match s.trans.fences.find? (fun f => decide (f.id = id) && f.pendingDies.getLsbD d) with
  | none => s
  | some f =>
    let s := (upTo 8).foldl (fun s c =>
      let cl := clIx d c
      let is := (upTo 48).filter (fun i => !decide ((scGet s cl i).valid = 0) && fenceCovers s d f (scGet s cl i).page)
      let s := is.foldl (fun s i => scDrop (scWriteBack s cl i (fun _ => true)) cl i (fun _ => true)) s
      if is.isEmpty then s else scRefresh s cl) s
    let s := inc s (tu d 0x50)
    let fs := (s.trans.fences.map (fun g => if g.id = id then { g with pendingDies := putBit g.pendingDies d false } else g)).filter
      (fun g => !decide (g.pendingDies = 0))
    let waiting := (s.trans.waiting.map (fun w => (w.1, w.2.filter (fun n => fs.any (fun g => decide (g.id = n)))))).filter
      (fun w => !w.2.isEmpty)
    let s := { s with trans := { s.trans with fences := fs, waiting := waiting } }
    wrB s (tu d 8) 11 (fs.any (fun g => g.pendingDies.getLsbD d)))

end Sys2Proof.Machine
end

