-- ==== Sys2Proof/Machine/LoadChecks.lean ====
section
/-! DEFINITION. The load checks of single orders (R583): the tables of R138, R224, R232, R278 and R407, in their order.
A check is a condition and the status of R447 with which the load fails where it does not hold. -/

namespace Sys2Proof.Machine

/-- A check: the condition, and the status where it fails. -/
abbrev Check := Bool × Nat

/-- The status of the first check that fails. -/
def firstFail (l : List Check) : Option Nat := (l.find? (fun c => !c.1)).map Prod.snd

/-- Field [lo + len - 1 : lo] is zero. -/
def zeroBits {n : Nat} (o : BitVec n) (lo len : Nat) : Bool := decide (fld o lo len = 0)

/-- Cycles in which an order occupies something, by segment: engine and resource. The main array has its step path 0,
drain path 1, writes of plane q 8 + q and drain reads of plane q 12 + q; a cluster its lane path 2; a die its accumulator
port 3; every engine the issue cycles 4 of its orders and the windows 5 of others on it; the collective engine its own
windows 6. -/
structure Occ where
  seg : Nat
  eng : Nat
  res : Nat
  lo : Nat
  hi : Nat
  deriving DecidableEq, Repr

/-- What the load knows of its die: index, memory entries of each cluster's stream cache, booking section, and the
possessions of the package image as (base, granules, START, END). -/
structure ChkDie where
  die : Nat
  conv : List Nat
  books : List (BitVec 128)
  poss : List (Nat × Nat × Nat × Nat)
  deriving DecidableEq, Repr

/-- What the load follows through the orders of one die (R138, R278, R583): occupied cycles, the planes' modes and
anchors, the contribution units of each plane since its last initialisation (R162), the configuration of each engine by
(engine, field). -/
structure Chk where
  occ : List Occ
  planes : List (Nat × Nat)
  units : List Nat
  cfg : Store Nat
  deriving DecidableEq, Repr

/-- Nothing followed yet. -/
def Chk.start : Chk := { occ := [], planes := List.replicate 4 (0, 0), units := List.replicate 4 0, cfg := [] }

/-- A followed configuration field. -/
def chkCfg (k : Chk) (e ix : Nat) : Nat := Store.get (fun _ => 0) k.cfg (e * 64 + ix)

/-- Follow a configuration write. -/
def setChk (k : Chk) (e ix v : Nat) : Chk := { k with cfg := Store.set (fun _ => 0) k.cfg (e * 64 + ix) v }

/-- Mode and anchor of a plane. -/
def chkPlane (k : Chk) (q : Nat) : Nat × Nat := k.planes.getD q (0, 0)

/-- A plane takes a mode and an anchor. -/
def setPlanes (k : Chk) (qs : List Nat) (v : Nat × Nat) : Chk :=
  { k with planes := (upTo 4).map (fun q => if qs.contains q then v else chkPlane k q) }

/-- Contribution units of a plane. -/
def chkUnits (k : Chk) (q : Nat) : Nat := k.units.getD q 0

/-- Planes count their contribution units anew by `f`. -/
def setUnits (k : Chk) (qs : List Nat) (f : Nat → Nat) : Chk :=
  { k with units := (upTo 4).map (fun q => if qs.contains q then f (chkUnits k q) else chkUnits k q) }

/-- Occupy cycles. -/
def occupy (k : Chk) (l : List Occ) : Chk := { k with occ := k.occ ++ l }

/-- Cycles lo to hi meet an occupied span of a resource. -/
def meets (k : Chk) (seg e res lo hi : Nat) : Bool :=
  k.occ.any (fun x => decide (x.seg = seg) && decide (x.eng = e) && decide (x.res = res) && decide (lo ≤ x.hi) && decide (x.lo ≤ hi))

/-! ### The main array (R138) -/

/-- A region of `n` bytes from an address in the form of R117 lies in one cluster's 24 MiB. -/
def maRegion (field n : Nat) : Bool := decide (field % 2 ^ 19 * 64 + n ≤ 24 * 2 ^ 20)

/-- An address field of R117 names a unit of its cluster's 24 MiB. -/
def maOffset (field : Nat) : Bool := decide (field % 2 ^ 19 ≤ 0x5FFFF)

/-- Size of a matrix in panel form, elements of `bits` bits (R118). -/
def panelSize (r c k bits : Nat) : Nat := ceilDiv r 128 * ceilDiv c k * (128 * k * bits / 8)

/-- Size of a scale region (R587). -/
def scaleSize (sd bs rmax K : Nat) : Nat := if sd = 0 then ceilDiv rmax 128 * ceilDiv K bs * 128 else K * ceilDiv rmax bs

/-- The panel address lies on 1 KiB. -/
def onKib (field : Nat) : Bool := decide (field % 16 = 0)

/-- The pair of plane mode and format code is one of R133. -/
def pairOk (mode f : Nat) : Bool :=
  if mode = 1 then decide (f ≤ 4) else if mode = 2 then f = 0 || f = 5 else if mode = 3 then decide (f ≤ 6) else false

/-- The followed configuration of the main array, in the order of `maCfg`. -/
def chkMaCfg (k : Chk) : List Nat := (upTo 12).map (chkCfg k 0)

/-- Bytes of the output of an m by n drain under the configuration (R128). -/
def outSize (cfg : List Nat) (m n : Nat) : Nat :=
  let bits := (cFmt (cfgOf cfg 2)).bits
  let kd := panelDepth (cfgOf cfg 2)
  if cfgOf cfg 1 = 1 then panelSize m n kd bits
  else if cfgOf cfg 1 = 2 then panelSize n m kd bits
  else (m - 1) * cfgOf cfg 3 * 64 + n * bits / 8

/-- The pitch covers a row, where the output is row-major. -/
def pitchOk (cfg : List Nat) (n : Nat) : Bool :=
  decide (cfgOf cfg 1 ≠ 0) || decide (n * (cFmt (cfgOf cfg 2)).bits ≤ cfgOf cfg 3 * 512)

/-- A 16-bit anchor lies in its range (R160). -/
def anchorOk (a : Nat) : Bool := decide (-512 ≤ signedOf 16 a) && decide (signedOf 16 a ≤ 511)

/-- The order's use of the array meets no other order's (R136). -/
def maClear (k : Chk) (l : List Occ) : Bool :=
  l.all (fun x =>
    let m (r : Nat) := meets k x.seg 0 r x.lo x.hi
    if x.res < 2 then !m x.res
    else if x.res < 12 then !m x.res && !m (x.res + 4)
    else !m (x.res - 4))

/-- Scales agree with the operand format (R121). -/
def scaleOk (f sc : Nat) : Bool := if f = 0 then sc = 1 else if f = 1 ∨ f = 2 then true else sc = 0

/-- What an order occupies (R135). -/
def maOcc (k : Chk) (seg : Nat) (o : Order) : List Occ :=
  let c := fld o 0 24
  let op := fld o 24 8
  let cfg := chkMaCfg k
  let sp (res lo hi : Nat) : Occ := { seg := seg, eng := 0, res := res, lo := lo, hi := hi }
  if op = 0x40 then
    let q := mmaOf o
    let P := q.period (cfgOf cfg 2)
    let n := q.passes
    sp 0 (c + 6) (c + 6 + (n - 1) * P + q.time - 1) :: (upTo n).flatMap (fun p =>
      let f := c + 6 + p * P
      let w := f + q.time + 63
      let dp := q.drain (cfgOf cfg 2) p
      sp (8 + q.planeOf p) (f + 64) w
        :: (if q.dst = 1 then [sp 1 (w + 1) (w + dp), sp (12 + q.planeOf p) (w + 1) (w + dp)] else []))
  else if op = 0x43 then ((upTo 4).filter (fun q => bitOf o (32 + q))).map (fun q => sp (8 + q) (c + 2) (c + 2))
  else if op = 0x44 then
    let d := ceilDiv ((fld o 34 7 + 1) * (fld o 41 7 + 1) * (cFmt (cfgOf cfg 2)).bits) 4096
    [sp 1 (c + 1) (c + d), sp (12 + fld o 32 2) (c + 1) (c + d)]
  else if op = 0x45 then
    let d := ceilDiv ((fld o 36 7 + 1) * (fld o 43 7 + 1) * (cFmt (fld o 50 4)).bits) 4096
    [sp 1 c (c + d - 1), sp (8 + fld o 32 2) (c + 7) (c + d + 6)]
  else []

/-- The last write cycle of an order. -/
def maEnd (k : Chk) (o : Order) : Nat :=
  let c := fld o 0 24
  let op := fld o 24 8
  let cfg := chkMaCfg k
  if op = 0x40 then
    let q := mmaOf o
    (upTo q.passes).foldl (fun a p =>
      let w := c + 6 + p * q.period (cfgOf cfg 2) + q.time + 63
      max a (if q.dst = 1 then w + q.drain (cfgOf cfg 2) p + 4 else w)) 0
  else if op = 0x43 then c + 2
  else if op = 0x44 then c + ceilDiv ((fld o 34 7 + 1) * (fld o 41 7 + 1) * (cFmt (cfgOf cfg 2)).bits) 4096 + 4
  else if op = 0x45 then c + ceilDiv ((fld o 36 7 + 1) * (fld o 43 7 + 1) * (cFmt (fld o 50 4)).bits) 4096 + 6
  else c + 1

/-- Planes that an MA_MMA writes, and the units of a plane after it (R162). -/
def mmaPlanes (q : Mma) : List Nat := (upTo q.passes).map q.planeOf
def mmaUnits (q : Mma) (before : Nat) : Nat := (if q.init = 1 then 0 else before) + q.k

/-- The checks of R138 on MA_MMA before those of occupancy. -/
def mmaChecks (k : Chk) (o : Order) : List Check :=
  let q := mmaOf o
  let cfg := chkMaCfg k
  let mode := fmtMode q.fmt
  let bits := (aFmt q.fmt).bits
  let n := q.passes
  let planes := if q.dst = 1 then [q.plane] else (upTo n).map q.planeOf
  [ (decide (fld o 68 3 = fld o 71 3), stBadField),
    (scaleOk q.fmt q.sc && (decide (mode = 3) || decide (cfgOf cfg 5 = 0)), stBadField),
    (decide (q.dst = 0) || pitchOk cfg q.n, stBadField),
    (decide (q.dst = 0) || decide (n ≤ 1) || decide (q.init = 1), stBadField),
    (maRegion (fld o 75 22) (panelSize q.m q.k q.depth bits), stRange),
    (maRegion (fld o 97 22) (if q.bl = 1 then panelSize q.k q.n q.depth bits else panelSize q.n q.k q.depth bits), stRange),
    (decide (q.sc = 0) || (maRegion (cfgOf cfg 6) (scaleSize (cfgOf cfg 9) (blockSize (cfgOf cfg 8)) q.m q.k)
      && maRegion (cfgOf cfg 7) (scaleSize (cfgOf cfg 11) (blockSize (cfgOf cfg 10)) q.n q.k)), stRange),
    (decide (q.dst = 0) || maRegion (cfgOf cfg 0) (outSize cfg q.m q.n), stRange),
    (decide (q.dst = 1) || decide (q.plane + n ≤ 4), stRange),
    (decide (mode ≠ 3) || (mmaPlanes q).all (fun p => decide (mmaUnits q (chkUnits k p) ≤ 2 ^ 31)), stRange),
    (onKib (fld o 75 22) && onKib (fld o 97 22), stAlign),
    (decide (q.init = 1) || planes.all (fun p => decide ((chkPlane k p).1 = mode)
      && (decide (mode ≠ 3) || decide ((chkPlane k p).2 = cfgOf cfg 4))), stConflict),
    (decide (q.dst = 0) || pairOk mode (cfgOf cfg 2), stConflict) ]

/-- The checks of R138 on the other orders of the main array, before those of occupancy. -/
def maChecks (k : Chk) (o : Order) : List Check :=
  let op := fld o 24 8
  let cfg := chkMaCfg k
  if op = 0x40 then mmaChecks k o
  else if op = 0x41 then
    [ (decide (fld o 54 2 ≠ 3) && decide (fld o 56 4 ≤ 6), stBadField),
      (decide (fld o 56 4 ≠ 6) || decide (fld o 54 2 = 0), stBadField),
      (maOffset (fld o 32 22), stRange), (anchorOk (fld o 80 16), stRange),
      (decide (fld o 54 2 = 0) || onKib (fld o 32 22), stAlign) ]
  else if op = 0x42 then
    [(decide (fld o 76 3 < 6) && decide (fld o 80 3 < 6), stBadField), (maOffset (fld o 32 22) && maOffset (fld o 54 22), stRange)]
  else if op = 0x43 then
    [ (decide (fld o 32 4 ≠ 0) && decide (fld o 36 2 ≠ 0), stBadField),
      (decide (fld o 36 2 = 3) || zeroBits o 38 16, stBadField),
      (anchorOk (fld o 38 16), stRange) ]
  else if op = 0x44 then
    let m := fld o 34 7 + 1
    let n := fld o 41 7 + 1
    [ (pitchOk cfg n, stBadField), (maRegion (cfgOf cfg 0) (outSize cfg m n), stRange),
      (pairOk (chkPlane k (fld o 32 2)).1 (cfgOf cfg 2), stConflict) ]
  else if op = 0x45 then
    let m := fld o 36 7 + 1
    let n := fld o 43 7 + 1
    let bits := (cFmt (fld o 50 4)).bits
    [ (decide (fld o 50 4 ≤ 6) && decide (fld o 34 2 ≠ 0), stBadField),
      (decide (n * bits ≤ fld o 76 20 * 512), stBadField),
      (maRegion (fld o 54 22) ((m - 1) * fld o 76 20 * 64 + n * bits / 8), stRange),
      (pairOk (fld o 34 2) (fld o 50 4), stConflict) ]
  else []

/-- What follows an order of the main array: configuration, plane modes, contribution units, occupied cycles. -/
def maFollow (k : Chk) (seg : Nat) (o : Order) : Chk :=
  let op := fld o 24 8
  let cfg := chkMaCfg k
  let k' := occupy k (maOcc k seg o)
  if op = 0x40 then
    let q := mmaOf o
    let k' := setUnits k' (mmaPlanes q) (mmaUnits q)
    if q.init = 1 then setPlanes k' (mmaPlanes q) (fmtMode q.fmt, cfgOf cfg 4) else k'
  else if op = 0x41 then ((maCfgFields.take 6).zip (upTo 6)).foldl (fun k x => setChk k 0 x.2 (fld o x.1.1 x.1.2)) k'
  else if op = 0x42 then ((maCfgFields.drop 6).zip (upTo 6)).foldl (fun k x => setChk k 0 (6 + x.2) (fld o x.1.1 x.1.2)) k'
  else if op = 0x43 then
    let qs := (upTo 4).filter (fun q => bitOf o (32 + q))
    setPlanes (setUnits k' qs (fun _ => 0)) qs (fld o 36 2, fld o 38 16)
  else if op = 0x45 then
    setPlanes (setUnits k' [fld o 32 2] (fun _ => if fld o 50 4 = 6 then 2 ^ 30 else 1)) [fld o 32 2] (fld o 34 2, cfgOf cfg 4)
  else k'

/-- All checks of R138 on an order. -/
def maAll (k : Chk) (seg segLen : Nat) (o : Order) : List Check :=
  maChecks k o ++ [(maClear k (maOcc k seg o), stConflict), (decide (maEnd k o < segLen), stBadField)]

/-! ### The vector clusters (R224) -/

/-- A region of `n` bytes from an SRAM address lies in platform SRAM or in the converted entries of its cluster
(R182). -/
def vcRegion (conv loc n : Nat) : Bool :=
  let a := loc * 32
  decide (a + n ≤ 0x1800000) || (decide (0x1800000 ≤ a) && decide (a + n ≤ 0x1800000 + 4096 * conv))

/-- Bytes of `n` elements. -/
def elBytes (n : Nat) (f : Fmt) : Nat := ceilDiv (n * f.bits) 8

/-- KIND of an operand: 3 is reserved; 2 only where `scalar`; a register's LOC holds its number alone. -/
def kindOk (x : Nat) (scalar : Bool) : Bool :=
  decide (opKind x ≠ 3) && (scalar || decide (opKind x ≠ 2)) && (decide (opKind x ≠ 0) || decide (opLoc x < 64))

/-- A register operand holds `n` elements in its form, and a pair or quad starts on its boundary (R179, R188). -/
def regOk (x n : Nat) (f : Fmt × Bool) : Bool :=
  decide (opKind x ≠ 0)
    || (decide (n ≤ if f.2 then 1024 * (32 / f.1.bits) else 1024)
      && (f.2 || decide (f.1 ≠ .fp64) || decide (opLoc x % 2 = 0)) && (decide (f.1 ≠ .ls) || decide (opLoc x % 4 = 0)))

/-- An SRAM operand lies in its cluster's window. -/
def sramOk (conv x n : Nat) (f : Fmt × Bool) : Bool :=
  if opKind x = 1 then vcRegion conv (opLoc x) (elBytes n f.1)
  else if opKind x = 2 then vcRegion conv (opLoc x) (elBytes 1 f.1) else true

/-- The pairs of R194. -/
def cvtOk (f t : Nat) : Bool :=
  let fl := [0, 1, 2, 3, 4, 5]
  (fl.contains f && fl.contains t) || ((f = 6 || f = 7) && [0, 1, 2, 3].contains t) || ((f = 0 || f = 1) && t = 8)
    || (f = 8 && (t = 0 || t = 1)) || (f = 10 && fl.contains t) || (fl.contains f && t = 10)

/-- FMT and MOD are permitted for an order of the general layout (R184, R194 to R196, R205 to R210, R584). -/
def fmtModOk (op f mod : Nat) : Bool :=
  let arith := [0, 1, 2, 3, 8, 9]
  if op = 0x82 then decide (mod < 16) && cvtOk f mod
  else if 0x83 ≤ op ∧ op ≤ 0x88 then arith.contains f && decide (mod = 0)
  else if op = 0x89 then arith.contains f && decide (mod ≤ 3)
  else if op = 0x8A then decide (f ≤ 10) && decide (mod = 0)
  else if op = 0x8B then (f = 8 || f = 9) && decide (mod ≤ 6)
  else if op = 0x8C then (if mod = 0 then decide (f ≤ 10) else decide (mod ≤ 2) && [0, 1, 2, 3, 4, 5, 6, 8].contains f)
  else if 0x90 ≤ op ∧ op ≤ 0x95 then decide (f ≤ 3) && (if op = 0x94 then decide (mod ≤ 11) else decide (mod = 0))
  else if op = 0x98 then (arith.contains f || (f = 10 && mod = 0)) && decide (mod ≤ 2)
  else if op = 0xA0 then [2, 3, 4, 5, 7].contains f && decide (mod = 0)
  else if op = 0xA3 then f = 10 && decide (mod = 0)
  else if op = 0xA8 then decide (f ≤ 9) && decide (mod = 0)
  else if op = 0xA9 then decide (f ≤ 10)
  else if op = 0xAA ∨ op = 0xAB then [2, 3, 4, 5, 6, 7].contains f && decide (mod = 0)
  else f = 10 && decide (mod = 0)

/-- VSHUF's parameter (R206). -/
def shufOk (mod : Nat) : Bool :=
  let p := mod / 8
  if mod % 8 = 0 ∨ mod % 8 = 2 then decide (p ≤ 9) else if mod % 8 = 1 then decide (p ≤ 10) else decide (p = 0)

/-- The checks on the general layout up to those of regions (R224). -/
def genChecks (conv : Nat) (o : Order) : List Check :=
  let op := fld o 24 8
  let sh := vShape o
  let n := vN o
  let perm := op = 0xA8
  let nd := if op = 0x98 then 1 else n
  let opt (p : Option (Fmt × Bool)) (f : Fmt × Bool → Bool) : Bool := match p with
    | some x => f x
    | none => true
  [ (fmtModOk op (vCode o) (vMod o), stBadField),
    (kindOk (vA o) true && kindOk (vDst o) false && opt sh.b (fun _ => kindOk (vB o) true), stBadField),
    (sh.b.isSome || decide (vB o = 0), stBadField),
    (!perm || (decide (opKind (vA o) = 0) && decide (opKind (vB o) = 0) && decide (opKind (vDst o) = 0)), stBadField),
    (regOk (vA o) n sh.a && opt sh.b (regOk (vB o) n) && regOk (vDst o) nd sh.dst && opt sh.dsrc (regOk (vDst o) n), stBadField),
    (sramOk conv (vA o) n sh.a && opt sh.b (sramOk conv (vB o) n) && sramOk conv (vDst o) nd sh.dst, stRange),
    (op ≠ 0xA9 || shufOk (vMod o), stRange) ]

/-- The checks on VGEMV, VSLEXP and VSLICE up to those of alignment. -/
def lineChecks (k : Chk) (e conv : Nat) (o : Order) : List Check :=
  let op := fld o 24 8
  let f := fld o 56 3
  let K := lK o
  let L := lLines o
  let dst := lDst o
  if op = 0xA1 then
    let bs := blockSize (chkCfg k e 1)
    let nb := ceilDiv K bs
    let g := 32 / (lFmt o).bits
    [ (decide (f ≤ 5) && scaleOk f (lSc o) && (decide (f ≤ 3) || decide (lMode o = 1)) && kindOk dst false, stBadField),
      (regOk dst L (gemvD o, false), stBadField),
      (vcRegion conv (lSrc o) (ceilDiv K g * L * 4) && vcRegion conv (lAux o) (elBytes K (lFmt o))
        && sramOk conv dst L (gemvD o, false), stRange),
      (decide (lSc o = 0) || (vcRegion conv (chkCfg k e 2) (nb * L) && vcRegion conv (chkCfg k e 3) nb), stRange) ]
  else
    let slexp := op = 0xAC
    [ (decide (f = 7) && zeroBits o 63 1 && zeroBits o 126 2 && (if slexp then zeroBits o 106 20 else zeroBits o 115 11)
        && (if slexp then decide (opKind dst = 0) && decide (opLoc dst < 64) else decide (opKind dst = 1)), stBadField),
      (vcRegion conv (lSrc o) (K * L * 8) && (slexp || vcRegion conv (opLoc dst) (panelSize L K 8 8)), stRange),
      (slexp || decide (opLoc dst % 32 = 0), stAlign) ]

/-- The checks on VACC up to those of regions. -/
def vaccChecks (conv : Nat) (o : Order) : List Check :=
  let f := (vFmt (vCode o), false)
  [ ([0, 1, 2, 3, 4, 5, 10].contains (vCode o) && kindOk (vDst o) false && zeroBits o 92 36, stBadField),
    (regOk (vDst o) (vN o) f, stBadField),
    (sramOk conv (vDst o) (vN o) f && decide (fld o 78 14 + vN o ≤ 16384), stRange) ]

/-- The checks on VGATHER and VSCATTER up to those of regions. -/
def gatherChecks (conv : Nat) (o : Order) : List Check :=
  let f := (vFmt (vCode o), false)
  let idx : Fmt × Bool := (.u32, false)
  let scat := fld o 24 8 = 0xB1
  [ (decide (vCode o ≤ 10) && decide (vCode o ≠ 6) && kindOk (vDst o) scat && kindOk (vA o) true && decide (fld o 106 16 ≠ 0)
      && zeroBits o 105 1 && zeroBits o 122 6, stBadField),
    (regOk (vDst o) (vN o) f && regOk (vA o) (vN o) idx, stBadField),
    (sramOk conv (vDst o) (vN o) f && sramOk conv (vA o) (vN o) idx, stRange) ]

/-- The checks of R224 on a vector order up to those of occupancy. -/
def vcChecks (k : Chk) (e conv : Nat) (o : Order) : List Check :=
  let op := fld o 24 8
  if op = 0x80 then
    [ (decide (fld o 48 3 < 6) && zeroBits o 51 1 && zeroBits o 92 36, stBadField), (anchorOk (fld o 32 16), stRange) ]
  else if op = 0x81 then [(zeroBits o 36 28, stBadField), (decide (fld o 64 64 % 16 = 0), stAlign)]
  else if op = 0xB2 then
    [(decide (chkCfg k e (16 + fld o 32 3) = 0) && decide (fld o 35 2 ≠ 0) && decide (fld o 37 16 ≠ 0) && zeroBits o 53 11, stBadField)]
  else if op = 0xB0 ∨ op = 0xB1 then gatherChecks conv o
  else if op = 0xA2 then vaccChecks conv o
  else if op = 0xA1 ∨ op = 0xAC ∨ op = 0xAD then lineChecks k e conv o
  else genChecks conv o

/-- The window of a gather, scatter or range operation. -/
def vWin (o : Order) : Nat := if fld o 24 8 = 0xB2 then fld o 37 16 else fld o 106 16

/-- Lane path and accumulator port (R192, R204). -/
def vcOcc (seg e : Nat) (o : Order) : List Occ :=
  let c := fld o 0 24
  let op := fld o 24 8
  let n := if op = 0xB0 ∨ op = 0xB1 ∨ op = 0xB2 then vWin o else max 1 (vBusy o)
  { seg := seg, eng := e, res := 2, lo := c, hi := c + n - 1 }
    :: (if op = 0xA2 then [{ seg := seg, eng := 0, res := 3, lo := c, hi := c + n - 1 }] else [])

/-- The last write cycle or window end. -/
def vcEnd (o : Order) : Nat :=
  let c := fld o 0 24
  let op := fld o 24 8
  if op = 0x80 ∨ op = 0x81 then c + 1
  else if op = 0xB0 ∨ op = 0xB1 ∨ op = 0xB2 then c + vWin o
  else if op = 0xA2 then c + ceilDiv (vN o) 256 - 1 + (if opKind (vDst o) = 1 then 6 else 4)
  else if op = 0xA1 then
    c + gemvT o + (if opKind (lDst o) = 1 then 13 + ceilDiv (elBytes (lLines o) (gemvD o)) 4096 else 12)
  else if op = 0xAC then c + 2 * lK o + 12
  else if op = 0xAD then c + 2 * lK o + 14
  else if op = 0x98 then c + vM o * vQ o + 24
  else c + (vM o - 1) * vQ o + vLat o

/-- Every check of R224 on an order. -/
def vcAll (k : Chk) (x : ChkDie) (e seg segLen : Nat) (o : Order) : List Check :=
  vcChecks k e (x.conv.getD (e - 1) 0) o
    ++ [ ((vcOcc seg e o).all (fun y => !meets k seg y.eng y.res y.lo y.hi), stConflict), (decide (vcEnd o < segLen), stBadField) ]

/-- What follows a vector order: VCFG's fields 0 ANCHOR, 1 BS, 2 WSADDR, 3 XSADDR, and 16 + G the SPACE of base G. -/
def vcFollow (k : Chk) (e seg : Nat) (o : Order) : Chk :=
  let op := fld o 24 8
  let k := occupy k (vcOcc seg e o)
  if op = 0x80 then setChk (setChk (setChk (setChk k e 0 (fld o 32 16)) e 1 (fld o 48 3)) e 2 (fld o 52 20)) e 3 (fld o 72 20)
  else if op = 0x81 then setChk k e (16 + fld o 32 3) (fld o 35 1)
  else k

/-! ### The update sequencer (R232, R278) -/

/-- Fields of UP_ADDR (0 to 3, in 256 bytes or as they stand) and UP_SHAPE as the load follows them. -/
def chkRanges (k : Chk) : List (Nat × Nat) :=
  let rows := chkCfg k 14 4 + 1
  let cols := chkCfg k 14 5 + 1
  let n := rows * cols
  let w (b : Nat) : Nat := if b = 0 then 4 else 2
  [ (chkCfg k 14 0, n * w (chkCfg k 14 6)), (chkCfg k 14 1, n * w (chkCfg k 14 7)),
    (chkCfg k 14 2, if chkCfg k 14 8 = 0 then ceilDiv n 8 else 2 * n) ]
    ++ (if chkCfg k 14 9 = 1 then [(chkCfg k 14 3, ceilDiv rows 8)] else [])

/-- A range lies in unified memory, or in the platform SRAM of one of the die's clusters (R271). -/
def chkSpace (d : Nat) (r : Nat × Nat) : Bool :=
  decide (r.1 + r.2 ≤ unifiedEnd)
    || (upTo 8).any (fun c => decide (winBase d c ≤ r.1) && decide (r.1 + r.2 ≤ winBase d c + 0x1800000))

/-- A range of unified memory lies inside a possession held across segment `seg` (R271). -/
def chkHeld (x : ChkDie) (seg : Nat) (r : Nat × Nat) : Bool :=
  decide (unifiedEnd < r.1 + r.2)
    || x.poss.any (fun p => decide (p.1 ≤ r.1) && decide (r.1 + r.2 ≤ p.1 + p.2.1 * 0x200000) && decide (p.2.2.1 < seg)
      && decide (seg ≤ p.2.2.2))

/-- Engines in an update's window: the clusters of CMASK, and the main array when MIX is 1. -/
def chkEngines (o : Order) : List Nat :=
  ((upTo 8).filter (fun c => bitOf o (38 + c))).map (· + 1) ++ (if bitOf o 89 then [0] else [])

/-- Cycles lo to hi of an engine are free of its own orders and of other windows. -/
def engineFree (k : Chk) (seg e lo hi : Nat) : Bool :=
  ([0, 1, 2, 4, 5].all (fun r => !meets k seg e r lo hi))

/-- END_SIG is hosted on this die (R232, R278, R408), whatever END_EN says. -/
def endSigOk (d sig : Nat) : Bool := decide (sig / 2048 = d)

/-- The checks of R278 and R232 on an order of the update sequencer. -/
def usAll (k : Chk) (x : ChkDie) (seg segLen : Nat) (o : Order) : List Check :=
  let op := fld o 24 8
  let c := fld o 0 24
  if op = 0xE0 then
    let a := fld o 64 52
    [ (zeroBits o 34 30 && zeroBits o 116 12, stBadField),
      (decide (a % (if fld o 32 2 = 3 then 64 else 256) = 0), stAlign) ]
  else if op = 0xE1 then
    [ (zeroBits o 95 33 && decide (fld o 70 2 ≠ 3) && decide (fld o 73 22 < 2 ^ 19), stBadField),
      (decide ((fld o 32 20 + 1) * (fld o 52 16 + 1) ≤ 2 ^ 31), stRange) ]
  else if op = 0xE2 then
    [ (zeroBits o 61 67, stBadField), (vcRegion (x.conv.getD (fld o 38 3) 0) (fld o 41 20) 128, stRange),
      (decide (fld o 41 20 % 4 = 0), stAlign) ]
  else if op = 0xE3 then
    let win := fld o 46 24
    let mix := bitOf o 89
    let rows := chkCfg k 14 4 + 1
    let cols := chkCfg k 14 5 + 1
    let cs := ((upTo 8).filter (fun j => bitOf o (38 + j))).length
    let book := x.books.getD (fld o 90 24) 0
    [ (zeroBits o 114 14 && decide (cs ≠ 0) && decide (win ≠ 0), stBadField),
      (!mix || (decide (chkCfg k 14 9 = 0) && decide (4 ≤ cs)), stBadField),
      ((chkRanges k).all (chkSpace x.die), stRange),
      (!mix || (decide (min rows cols ≤ 1024) && decide (rows * cols ≤ 4194304)
        && decide (chkCfg k 14 10 * 64 + 0x800000 ≤ 0x1800000)), stRange),
      (endSigOk x.die (fld o 70 14), stRange),
      ((chkRanges k).all (chkHeld x seg) && decide (fld o 90 24 < x.books.length) && decide (fld book 0 16 = 1), stConflict),
      ((chkEngines o).all (fun e => engineFree k seg e c (c + win - 1)), stConflict),
      (decide (c + win < segLen), stBadField) ]
  else
    let cl := fld o 32 3
    let win := fld o 56 24
    [ (decide (fld o 36 20 % 2 = 0), stAlign),
      (vcRegion (x.conv.getD cl 0) (fld o 36 20) 64 && endSigOk x.die (fld o 80 14), stRange),
      (decide (win ≠ 0) && zeroBits o 35 1 && zeroBits o 95 33, stBadField),
      (engineFree k seg (1 + cl) c (c + win - 1), stConflict),
      (decide (c + win < segLen), stBadField) ]

/-- What follows an order of the update sequencer. -/
def usFollow (k : Chk) (seg : Nat) (o : Order) : Chk :=
  let op := fld o 24 8
  let c := fld o 0 24
  let win (es : List Nat) (n : Nat) : Chk :=
    occupy k (es.map (fun e => { seg := seg, eng := e, res := 5, lo := c, hi := c + n - 1 }))
  if op = 0xE0 then setChk k 14 (fld o 32 2) (fld o 64 52)
  else if op = 0xE1 then
    ([(4, 32, 20), (5, 52, 16), (6, 68, 1), (7, 69, 1), (8, 70, 2), (9, 72, 1), (10, 73, 22)] : List (Nat × Nat × Nat)).foldl
      (fun k f => setChk k 14 f.1 (fld o f.2.1 f.2.2)) k
  else if op = 0xE3 then win (chkEngines o) (fld o 46 24)
  else if op = 0xEF then win [1 + fld o 32 3] (fld o 56 24)
  else k

/-! ### The collective engine (R407), trains (R82, R84) and signal orders (R76) -/

/-- The checks of R407. -/
def ceAll (k : Chk) (x : ChkDie) (seg segLen : Nat) (o : Order) : List Check :=
  let c := fld o 0 24
  let win := fld o 54 24
  [ (decide (win ≠ 0) && zeroBits o 97 31, stBadField), (endSigOk x.die (fld o 78 14), stRange),
    (!meets k seg 13 6 c (c + win - 1), stConflict), (decide (c + win < segLen), stBadField) ]

/-- A signal wait names a signal of its own die (R76). -/
def sigAll (d : Nat) (o : Order) : List Check :=
  [(decide (fld o 24 8 < 0x12) || decide (fld o 32 14 / 2048 = d), stBadField)]

/-- What a TRAIN_TRANSPOSE asks of its descriptor (R82, R84). R84 asks for even rows and elements of a 4-bit element and names
no status: ST_BAD_FIELD (entry 106). -/
def transposeAll (descs : List (BitVec 512)) (o : Order) : List Check :=
  match descs[fld o 32 20]? with
  | some x =>
    let e := elemBits (tdNat x 41 1)
    [ (decide (tdNat x 41 1 ≤ 4), stBadField), (decide (tdRowBytes x * 8 % max 1 e = 0), stBadField),
      (decide (tdNat x 41 1 ≠ 0) || decide (tdRows x % 2 = 0), stBadField) ]
  | none => []

/-- The checks of one order of engine `e` in segment `seg` (R583). -/
def orderChecks (k : Chk) (x : ChkDie) (descs : List (BitVec 512)) (e seg segLen : Nat) (o : Order) : List Check :=
  let op := fld o 24 8
  if op = 0 then []
  else if op < 0x20 then
    let c := fld o 0 24
    sigAll x.die o ++ (if 1 ≤ e ∧ e ≤ 8 then [(!meets k seg e 2 c c, stConflict)] else [])
  else if op = 0x20 then []
  else if op = 0x21 then transposeAll descs o
  else if op < 0x80 then maAll k seg segLen o
  else if op < 0xC0 then vcAll k x e seg segLen o
  else if op < 0xE0 then ceAll k x seg segLen o
  else usAll k x seg segLen o

/-- What the load follows past one order: besides its own effects, its issue cycle. -/
def orderFollow (k : Chk) (e seg : Nat) (o : Order) : Chk :=
  let op := fld o 24 8
  let c := fld o 0 24
  let k := if op < 0x40 then
      (if 0x10 ≤ op ∧ op < 0x20 ∧ 1 ≤ e ∧ e ≤ 8 then occupy k [{ seg := seg, eng := e, res := 2, lo := c, hi := c }] else k)
    else if op < 0x80 then maFollow k seg o
    else if op < 0xC0 then vcFollow k e seg o
    else if op < 0xE0 then occupy k [{ seg := seg, eng := 13, res := 6, lo := c, hi := c + fld o 54 24 - 1 }]
    else usFollow k seg o
  occupy k [{ seg := seg, eng := e, res := 4, lo := c, hi := c }]

/-- The first failure in a stream: segment numbers and offsets go with the orders. -/
def streamFail (x : ChkDie) (descs : List (BitVec 512)) (e : Nat) (segLen : Nat → Nat) :
    Chk → List (Nat × Nat × Order) → Chk × Option (Nat × Nat)
  | k, [] => (k, none)
  | k, (seg, off, o) :: rest =>
    match firstFail (orderChecks k x descs e seg (segLen seg) o) with
    | some st => (k, some (st, off))
    | none => streamFail x descs e segLen (orderFollow k e seg o) rest

end Sys2Proof.Machine
end

