-- ==== Sys2Proof/Machine/Update.lean ====
section
/-! DEFINITION. The update engine (chapter 08): its orders, the recurrence of R261 and the mixing of R276, the update
window (R273). -/

namespace Sys2Proof.Machine

/-- UP_EVENT bit `i` of A-die `d` (R279, R280). -/
def upEvent (s : State) (d i : Nat) : State :=
  raise s d 0xB000038 i (reg (up d 8)) (reg (up d 0)) (reg (up d 0x10)) (reg (up d 0x30))

/-- Issue an order of the update sequencer that only writes configuration or a rule row. -/
def usIssue (s : State) (d op : Nat) (issue : BitVec 24) (ops : BitVec 96) : State :=
  let c := issue.toNat
  if canIssue s d 14 (mkOrder op issue ops) then
    let s := atIssue s d 14 c
    launch s d 14 c (usStart s d (mkOrder op issue ops))
  else s

/-- UP_ADDR (R270). -/
def execUpAddr (d : ADie) (issue : BitVec 24) (ops : BitVec 96) (s : State) : Host.Outcome State Fault Refusal :=
  .next (usIssue s d 0xE0 issue ops)

/-- UP_SHAPE (R270). -/
def execUpShape (d : ADie) (issue : BitVec 24) (ops : BitVec 96) (s : State) : Host.Outcome State Fault Refusal :=
  .next (usIssue s d 0xE1 issue ops)

/-- UP_RULE (R270). -/
def execUpRule (d : ADie) (issue : BitVec 24) (ops : BitVec 96) (s : State) : Host.Outcome State Fault Refusal :=
  .next (usIssue s d 0xE2 issue ops)

/-- UP_RULE_j by control space (R267): word `w` of row `j`, while the job is ARMING or ARMED. -/
def execUpRuleWrite (d : ADie) (j : BitVec 6) (w : BitVec 4) (v : W64) (s : State) : Host.Outcome State Fault Refusal :=
  .next (if s.job.state = .arming ∨ s.job.state = .armed then wr s (up d (0x1000 + 128 * j.toNat + 8 * w.toNat)) v
  else upEvent (inc s (up d 0x30)) d 3)

/-! ### FP32 arithmetic of the recurrence (R261) -/

def rn32 (r : FVal × Bool) : Nat × Flags := deliver .fp32 .rne r
def val32 (w : Nat) : FVal := decodeF .fp32 w
def mul32 (a b : Nat) : Nat × Flags := rn32 (mulV (val32 a) (val32 b))
def add32 (a b : Nat) : Nat × Flags := rn32 (addV (val32 a) (val32 b))
def fma32 (a b c : Nat) : Nat × Flags := rn32 (fmaV (val32 a) (val32 b) (val32 c))
def neg32 (a : Nat) : Nat := Nat.xor a (2 ^ 31)

/-- 1 and -1 in FP32. -/
def one32 : Nat := 0x3F800000
def minusOne32 : Nat := 0xBF800000

/-- sign(x): -1, 0 or +1, and the canonical NaN. -/
def sign32 (w : Nat) : Nat :=
  match val32 w with
  | .nan _ => Fmt.fp32.nan
  | .inf n => if n then minusOne32 else one32
  | .fin n m _ => if m = 0 then 0 else if n then minusOne32 else one32

/-- A coefficient of a rule row at byte `off`. -/
def ruleF (u : Upd) (off : Nat) : Nat := leAt u.rule off 4
def ruleFlag (u : Upd) (i : Nat) : Bool := Nat.testBit (leAt u.rule 32 1) i
def ruleMixk (u : Upd) : Nat := leAt u.rule 33 1

/-- Shape and places of the layer (R263, R270). -/
def upRows (u : Upd) : Nat := cfgOf u.cfg 4 + 1
def upCols (u : Upd) : Nat := cfgOf u.cfg 5 + 1
def upFmt (code : Nat) : Fmt := if code = 0 then .fp32 else .bf16
def upW (u : Upd) : Fmt := upFmt (cfgOf u.cfg 6)
def upM (u : Upd) : Fmt := upFmt (cfgOf u.cfg 7)

/-- The row in force is one that an UP_APPLY may use (R268). -/
def ruleOk (u : Upd) : Bool :=
  decide (leAt u.rule 32 1 < 8) && decide (leAt u.rule 34 6 = 0) && decide (leAt u.rule 124 4 = 0) && decide (ruleMixk u ≤ 7)
    && decide (bitOf u.order 89 = decide (0 < ruleMixk u))

/-- The rows that are present (R265). -/
def presentRows (s : State) (u : Upd) : List Nat :=
  (upTo (upRows u)).filter (fun r => cfgOf u.cfg 9 = 0 || Nat.testBit (rdByte s (cfgOf u.cfg 3 + r / 8)).toNat (r % 8))

/-- The input s of element `i` (R264). -/
def upInput (s : State) (u : Upd) (i : Nat) : Nat × Flags :=
  let g := cfgOf u.cfg 2
  let kind := cfgOf u.cfg 8
  if kind = 0 then (if Nat.testBit (rdByte s (g + i / 8)).toNat (i % 8) then minusOne32 else one32, 0)
  else if kind = 1 then
    let v := signedOf 16 (rdNat s (g + 2 * i) 2)
    let x : FVal := .ofInt v
    if ruleFlag u 1 then (if v = 0 then 0 else if v < 0 then minusOne32 else one32, 0)
    else rn32 (mulV x (val32 (ruleF u 24)))
  else
    let x := rdNat s (g + 2 * i) 2
    match decodeF .bf16 x with
    | .nan _ => (0, flInvalid)
    | v => (sign32 (convV .fp32 .rne v).1, 0)

/-- Phase 1 for one element: the stored momentum, d, and the flags. -/
def upPhase1 (s : State) (u : Upd) (i : Nat) : Nat × Nat × Flags :=
  let (x, f0) := upInput s u i
  let nomom := ruleFlag u 2
  let em := (upM u).bits / 8
  let (m0, f1) := if nomom then (0, 0) else convV .fp32 .rne (decodeF (upM u) (rdNat s (cfgOf u.cfg 1 + i * em) em))
  let (bs, f2) := mul32 (ruleF u 4) x
  let (m1, f3) := fma32 (ruleF u 0) m0 bs
  let (es, f4) := mul32 (ruleF u 12) x
  let (dd, f5) := fma32 (ruleF u 8) m1 es
  let dd := if ruleFlag u 0 then sign32 dd else dd
  let (ms, f6) := if nomom then (0, 0) else convV (upM u) .rne (val32 m1)
  (ms, dd, f0 ||| f1 ||| f2 ||| f3 ||| f4 ||| f5 ||| f6)

/-! ### Mixing (R276) -/

/-- A matrix by rows. -/
abbrev Mat := List (List Nat)

/-- The transpose of a matrix of `n` columns. -/
def matT (n : Nat) (x : Mat) : Mat := (upTo n).map (fun j => x.map (fun r => r.getD j 0))

/-- Apply an operation to every element, gathering flags. -/
def matMap (f : Nat → Nat × Flags) (x : Mat) : Mat × Flags :=
  let ys := x.map (fun r => r.map f)
  (ys.map (fun r => r.map Prod.fst), ys.foldl (fun a r => r.foldl (fun a y => a ||| y.2) a) 0)

/-- Combine two matrices element by element. -/
def matZip (f : Nat → Nat → Nat × Flags) (x y : Mat) : Mat × Flags :=
  let zs := (x.zip y).map (fun r => (r.1.zip r.2).map (fun e => f e.1 e.2))
  (zs.map (fun r => r.map Prod.fst), zs.foldl (fun a r => r.foldl (fun a y => a ||| y.2) a) 0)

/-- One element of a product of BF16 operands in FP32: groups of 4 terms (R158, R112). -/
def dotBf16 (x y : List Nat) : Nat × Flags :=
  let ts := (x.zip y).map (fun e => mulV (decodeF .bf16 e.1) (decodeF .bf16 e.2))
  (groups 4 (ts.length + 1) ts).foldl (fun a g => let (w, f) := chainGroup .fp32 a.1 g; (w, a.2 ||| f)) (0, 0)

/-- X · Y for Y given by its columns. -/
def matMul (x cols : Mat) : Mat × Flags :=
  let zs := x.map (fun r => cols.map (dotBf16 r))
  (zs.map (fun r => r.map Prod.fst), zs.foldl (fun a r => r.foldl (fun a y => a ||| y.2) a) 0)

/-- To BF16, and a BF16 value in FP32. -/
def toBf16 (w : Nat) : Nat × Flags := convV .bf16 .rne (val32 w)
def ofBf16 (w : Nat) : Nat := (convV .fp32 .rne (decodeF .bf16 w)).1

/-- One iteration on X (r × c, BF16). -/
def mixStep (u : Upd) (c : Nat) (x : Mat × Flags) (i : Nat) : Mat × Flags :=
  let k (n : Nat) : Nat := ruleF u (40 + 12 * i + 4 * n)
  let (af, f1) := matMul x.1 x.1
  let (ab, f2) := matMap toBf16 af
  let (a2, f3) := matMul ab (matT ab.length ab)
  let (b1, f4) := matMap (mul32 (k 1)) af
  let (b2, f5) := matZip (fma32 (k 2)) a2 b1
  let (bb, f6) := matMap toBf16 b2
  let (pf, f7) := matMul bb (matT c x.1)
  let (x1, f8) := matZip (fun a p => fma32 (k 0) (ofBf16 a) p) x.1 pf
  let (x2, f9) := matMap toBf16 x1
  (x2, x.2 ||| f1 ||| f2 ||| f3 ||| f4 ||| f5 ||| f6 ||| f7 ||| f8 ||| f9)

/-- mix(D): FP32 in, BF16 values in FP32 out, by rows. -/
def mixAll (u : Upd) (dm : Mat) : Mat × Flags :=
  let rows := upRows u
  let cols := upCols u
  let (sq, f1) := matMap (fun x => mul32 x x) dm
  let (q, f2) := reduce 0 .fp32 sq.flatten
  let (qe, f3) := add32 q (ruleF u 28)
  let (g, f4) := bounded172 0x93 0 0 qe 0
  let x0 := if rows ≤ cols then dm else matT cols dm
  let (x1, f5) := matMap (fun x => mul32 x g) x0
  let (x2, f6) := matMap toBf16 x1
  let c := if rows ≤ cols then cols else rows
  let (x, f7) := (upTo (ruleMixk u)).foldl (mixStep u c) (x2, f1 ||| f2 ||| f3 ||| f4 ||| f5 ||| f6)
  let out := x.map (fun r => r.map ofBf16)
  (if rows ≤ cols then out else matT rows out, f7)

/-! ### The whole update -/

/-- Phase 3 for one element. -/
def upPhase3 (s : State) (u : Upd) (rho i dd : Nat) : Nat × Flags :=
  let ew := (upW u).bits / 8
  let (w0, f0) := convV .fp32 .rne (decodeF (upW u) (rdNat s (cfgOf u.cfg 0 + i * ew) ew))
  let (rw, f1) := mul32 rho w0
  let (w1, f2) := fma32 (neg32 (ruleF u 20)) dd rw
  let (w2, f3) := convV (upW u) .rne (val32 w1)
  (w2, f0 ||| f1 ||| f2 ||| f3)

/-- The recurrence over the layer: what it leaves, and its flags (R261). -/
def upRun (s : State) (u : Upd) : State × Flags :=
  let cols := upCols u
  let rs := presentRows s u
  let (le, f0) := mul32 (ruleF u 16) (ruleF u 20)
  let (rho, f1) := add32 one32 (neg32 le)
  let p1 := rs.map (fun r => (upTo cols).map (fun k => upPhase1 s u (r * cols + k)))
  let f2 : Flags := p1.foldl (fun a r => r.foldl (fun a x => a ||| x.2.2) a) 0
  let em := (upM u).bits / 8
  let ew := (upW u).bits / 8
  let row (l : List Nat) (n : Nat) : List Byte := l.flatMap (leBytes n)
  let s1 := if ruleFlag u 2 then s
    else (rs.zip p1).foldl (fun s x => wrBytes s (cfgOf u.cfg 1 + x.1 * cols * em) (row (x.2.map Prod.fst) em)) s
  let dm := p1.map (fun r => r.map (fun x => x.2.1))
  let (dm, f3) := if ruleMixk u = 0 then (dm, 0) else mixAll u dm
  let p3 := (rs.zip dm).map (fun x => (x.1, ((upTo cols).zip x.2).map (fun e => upPhase3 s1 u rho (x.1 * cols + e.1) e.2)))
  let f4 : Flags := p3.foldl (fun a r => r.2.foldl (fun a x => a ||| x.2) a) 0
  let s2 := p3.foldl (fun s x => wrBytes s (cfgOf u.cfg 0 + x.1 * cols * ew) (row (x.2.map Prod.fst) ew)) s1
  (s2, f0 ||| f1 ||| f2 ||| f3 ||| f4)

/-- Bytes that an update moves (R275). -/
def upBytes (u : Upd) (present : Nat) : Nat :=
  let n := present * upCols u
  let mask := if cfgOf u.cfg 9 = 1 then ceilDiv (upRows u) 8 else 0
  mask + 2 * n * ((upW u).bits / 8) + (if ruleFlag u 2 then 0 else 2 * n * ((upM u).bits / 8))
    + (if cfgOf u.cfg 8 = 0 then ceilDiv n 8 else 2 * n)

/-- After mixing the planes are UNDEFINED and the workspace holds free bytes (R272). -/
def mixLeavings (s : State) (u : Upd) : State :=
  let s := (upTo 4).foldl (fun s q => setPlane s u.die q 0 0) s
  ((upTo 8).filter (fun j => bitOf u.order (38 + j))).foldl (fun s j =>
    let off := cfgOf u.cfg 10 * 64
    let (b, s) := drawBytes s (0x1800000 - off)
    wrBytes s (winBase u.die j + off) b) s

/-! ### The window (R273) -/

/-- The engines of an update's window. -/
def upEngines (u : Upd) : List Nat :=
  ((upTo 8).filter (fun j => bitOf u.order (38 + j))).map (· + 1) ++ (if bitOf u.order 89 then [0] else [])

/-- UP_APPLY (R268, R273): the rule row and the configuration are kept as they stand, and a window is requested; an
invalid row fails the job and the update does nothing. -/
def execUpApply (d : ADie) (issue : BitVec 24) (ops : BitVec 96) (s : State) : Host.Outcome State Fault Refusal :=
  let o := mkOrder 0xE3 issue ops
  .next (if canIssue s d 14 o then
    let row := (upTo 16).flatMap (fun i => leBytes 8 (rd s (up d (0x1000 + 128 * fld o 32 6 + 8 * i))).toNat)
    let u : Upd := { die := d, issue := issue.toNat, order := o, rule := row, cfg := usCfg s d, opened := false
                     openedAt := 0, marks := [], expired := false, ended := false, bad := false }
    if ruleOk u then { holdAt s d 14 issue.toNat .opening with upds := s.upds ++ [u] }
    else
      let s := atIssue s d 14 issue.toNat
      failJob (upEvent { s with upds := s.upds ++ [{ u with bad := true, ended := true }] } d 2) stFault
  else s)

/-- Where the phases of an update end, in nominal engine cycles from the opening of its window (R275, R277). -/
def upMarks (s : State) (u : Upd) : List Nat :=
  let book := (dieTT s u.die).books.getD (fld u.order 90 24) 0
  let n := upRows u * upCols u
  let f := ceilDiv n (1024 * max 1 ((upTo 8).filter (fun j => bitOf u.order (38 + j))).length)
  let stream (bytes : Nat) : Nat :=
    max (ceilDiv (bytes * bkPeriod book * s.job.tempo) (max 1 (256 * bkCount book * (if s.guard.ordering = 0 then 10 else 9)))) f
  let all := upBytes u (upRows u)
  if bitOf u.order 89 then
    let back := 2 * n * ((upW u).bits / 8)
    let r := min (upRows u) (upCols u)
    let c := max (upRows u) (upCols u)
    let k (x : Nat) : Nat := ceilDiv x 128
    let iter := k r ^ 2 * ceilDiv c 4 + k r ^ 2 * ceilDiv r 4 + k r * k c * ceilDiv r 4 + 600
    let p1 := 372 + stream (all - back)
    [p1, p1 + 2 * f + 64, iter, p1 + 2 * f + 64 + ruleMixk u * iter]
  else [stream all, 0, 0, stream all]

/-- UPDATE_WINDOW_OPEN (R273): UP_APPLY has issued and every engine of the window has reached c, now or before; `waited` says
whether the update sequencer held. -/
def execUpdateWindowOpen (d : ADie) (waited : Bool) (s : State) : Host.Outcome State Fault Refusal :=
  .next (match s.upds.find? (fun u => decide (u.die = d.val) && !u.opened && !u.bad) with
  | none => s
  | some u =>
    let es := upEngines u
    let free (e : Nat) : Bool := (decide (u.issue ≤ (eng s d e).cycle) || mayReach s d e u.issue)
      && !s.calls.any (fun k => decide (k.die = d.val) && decide (k.cluster + 1 = e) && k.opened && !k.ended)
      && !s.upds.any (fun v => decide (v.die = d.val) && v.opened && !v.ended && (upEngines v).contains e)
    if decide (ttState s d ≠ 4) || !es.all free then s
    else
      let s := es.foldl (fun s e => if u.issue ≤ (eng s d e).cycle then s else reach s d e u.issue) s
      let v : Upd := { u with opened := true, openedAt := dieNow s d, marks := upMarks s u }
      let s := letGo { s with upds := s.upds.map (fun x => if x = u then v else x) } d 14
      if waited then countHold s d causeOverrun else s)

/-- The update's addition to END_SIG, and its removal, once it has ended and its window has expired. -/
def updSettle (s : State) (d issue : Nat) : State :=
  match s.upds.find? (fun u => decide (u.die = d) && decide (u.issue = issue) && u.ended && u.expired) with
  | some u =>
    let s := if bitOf u.order 84 then sendAdd1 s d 14 (fld u.order 70 14) else s
    { s with upds := s.upds.erase u }
  | none => s

/-- UPDATE_END (R273): the recurrence's writes are visible; `held` says whether an engine of the window had reached its
next order. -/
def execUpdateEnd (d : ADie) (issue : BitVec 24) (held : Bool) (s : State) : Host.Outcome State Fault Refusal :=
  .next (match s.upds.find? (fun u => decide (u.die = d.val) && decide (u.issue = issue.toNat) && u.opened && !u.ended) with
  | none => s
  | some u =>
    let present := (presentRows s u).length
    let (s, fl) := upRun s u
    let s := ((upTo 8).filter (fun j => bitOf u.order (38 + j))).foldl (fun s j => orVcFlags s d j (fld u.order 85 4) fl) s
    let s := if ruleMixk u = 0 then s else mixLeavings s u
    let s := { s with upds := s.upds.map (fun v => if v = u then { v with ended := true } else v) }
    let s := wr (wr s (up d 8) (BitVec.ofNat 64 (u.issue + 2 ^ 24 * fld u.order 32 6))) (up d 0x10) (BitVec.ofNat 64 present)
    let s := incBy (incBy (inc s (up d 0x18)) (up d 0x20) (present * upCols u)) (up d 0x28) (upBytes u present)
    let s := upEvent s d 0
    let s := if u.expired then upEvent s d 1 else s
    let s := if held then countHold s d causeOverrun else s
    updSettle s d issue.toNat)

/-- UPDATE_WINDOW_EXPIRY (R273): c + WIN is reached. -/
def execUpdateWindowExpiry (d : ADie) (issue : BitVec 24) (s : State) : Host.Outcome State Fault Refusal :=
  .next (updSettle { s with upds := s.upds.map (fun u =>
    if decide (u.die = d.val) && decide (u.issue = issue.toNat) && (u.opened || u.bad) then { u with expired := true } else u) }
    d issue.toNat)

end Sys2Proof.Machine
end

