-- ==== Sys2Proof/Machine/Timetable.lean ====
section
/-! DEFINITION. Stations and departures (R87 to R90), late running at departures (R91), possessions (R93 to R98). -/

namespace Sys2Proof.Machine

/-! ### A die's timetable -/

/-- A-die `d` has an image loaded. -/
def ttLoaded (s : State) (d : Nat) : Bool := !(dieTT s d).stations.isEmpty

/-- STATIONS of the die's image. -/
def ttCount (s : State) (d : Nat) : Nat := (dieTT s d).stations.length

/-- Timetable station `k`, 1 to STATIONS (R63). -/
def station (s : State) (d k : Nat) : Option Station := if k = 0 then none else (dieTT s d).stations[k - 1]?

/-- Right-away and DEPART(k); DEPART(0) is 0 (R63). -/
def dueAt (s : State) (d k : Nat) : Nat :=
  (rd s (tt d 0x28)).toNat + ((station s d k).map (fun x => x.depart.toNat)).getD 0

/-- The station that the die stands at or runs toward: 0 before it has departed from right-away. -/
def atStation (s : State) (d : Nat) : Nat := (dieTT s d).next

/-- TT_STATUS.STATE. -/
def setTtState (s : State) (d st : Nat) : State := wrF s (tt d 0) 0 4 st

/-- TT_STATUS.DIES_SEEN: the dies whose arrival at the next station has reached this die (R106). -/
def showSeen (s : State) (d : Nat) : State :=
  let x := dieTT s d
  wrF s (tt d 0) 35 8 (((upTo 8).filter (fun y => x.seen.contains (x.next, y))).map (fun y => 2 ^ y)).sum

/-- The arrival of die `src` at station `k` has reached die `d`. -/
def noteSeen (s : State) (d k src : Nat) : State :=
  showSeen (setDie s d (fun x => if x.seen.contains (k, src) then x else { x with seen := x.seen ++ [(k, src)] })) d

/-- Something that station `k` of die `d` waits for beside its own arrival has come now (R89). -/
def noteRemote (s : State) (d k : Nat) : State :=
  setDie s d (fun x => { x with remoteAt := Store.set (fun _ => 0) x.remoteAt k (BitVec.ofNat 64 (dieNow s d)) })

/-- A timetable port reports an arrival, or a departure, of its unit at station `k` with the MTC (R21). -/
def portReport (s : State) (unit : Nat) (departure : Bool) (k mtc : Nat) : State :=
  { s with reports := Store.set (fun _ => (0, 0)) s.reports (2 * unit + departure.toNat) (k, BitVec.ofNat 64 mtc) }

/-! ### Possessions (R93 to R98, R339) -/

/-- Home dies of a range: every A-die under PACKAGE interleave, else those whose 256 GiB it meets (R311). -/
def homesOf (s : State) (base granules : Nat) : List Nat :=
  if s.img.package then upTo 8
  else (upTo 8).filter (fun d => decide (base < (d + 1) * 2 ^ 38) && decide (d * 2 ^ 38 < base + granules * 0x200000))

/-- Granule numbers of a possession. -/
def possGranules (p : Poss) : List Nat := (upTo p.granules).map (fun i => p.base / 0x200000 + i)

/-- Those of which some part is homed on die `d` (R339). -/
def homeGranules (s : State) (d : Nat) (p : Poss) : List Nat :=
  (possGranules p).filter (fun g => s.img.package || decide (g / 131072 = d))

/-- TT_STATUS.POSS_FLUSH of every die. -/
def showFlush (s : State) : State :=
  (upTo 8).foldl (fun s d => wrB s (tt d 0) 4 (s.ttx.poss.any (fun p => bitOf p.flushing d))) s

/-- A possession begins: its granules enter the maps of its homes, and each home's flush starts (R94, R95). -/
def possBegin (s : State) (p : Poss) : State :=
  let hs := homesOf s p.base p.granules
  let m := hs.foldl (fun m d => (homeGranules s d p).foldl (fun m g => Store.set (fun _ => false) m (possKey d g) true) m) s.possMap
  let q : Poss := { p with begun := true, flushing := BitVec.ofNat 8 ((hs.map (fun d => 2 ^ d)).sum) }
  showFlush { s with possMap := m, ttx := { s.ttx with poss := s.ttx.poss.map (fun x => if x = p then q else x) } }

/-- Possessions with START = `k` begin. -/
def possStart (s : State) (k : Nat) : State :=
  (s.ttx.poss.filter (fun p => decide (p.start = k) && !p.begun)).foldl possBegin s

/-- A possession ends: its granules leave the maps, but for those that another possession in force covers (R97). -/
def possEnd (s : State) (p : Poss) : State :=
  let others := s.ttx.poss.filter (fun x => x.begun && !x.ended && !decide (x = p))
  let kept (g : Nat) : Bool := others.any (fun x => (possGranules x).contains g)
  let gone := (possGranules p).filter (fun g => !kept g)
  let m := (homesOf s p.base p.granules).foldl (fun m d => gone.foldl (fun m g => Store.erase (possKey d g) m) m) s.possMap
  { s with possMap := m, ttx := { s.ttx with poss := s.ttx.poss.map (fun x => if x = p then { p with ended := true } else x) } }

/-- Die `d` has departed from station `k`: a possession with END = k ends when every die has (R97). -/
def possLeave (s : State) (d k : Nat) : State :=
  let s := { s with ttx := { s.ttx with poss := s.ttx.poss.map (fun p =>
    if p.stop = k then { p with left := putBit p.left d true } else p) } }
  let all (p : Poss) : Bool := (upTo 8).all (fun x => !ttLoaded s x || bitOf p.left x)
  (s.ttx.poss.filter (fun p => decide (p.stop = k) && p.begun && !p.ended && all p)).foldl possEnd s

/-- The flush of a home die: every line of the range that its directory tracks is written back and invalidated
(R95). -/
def flushHome (s : State) (d base granules : Nat) : State :=
  let hit (l : Nat) : Bool := decide (base ≤ 64 * l) && decide (64 * l < base + granules * 0x200000) && decide (lineHome s l = d)
  let ls := ((s.dir.map Prod.fst) ++ (s.jlines.map Prod.fst).map (· % 2 ^ 35)).dedup.filter hit
  ls.foldl (fun s l => invalidateLine s l true) s

/-! ### Arrivals (R87, R88) -/

/-- Nothing of engine `e` is in flight: its orders have passed their write cycles, and its trains have arrived. -/
def engineClear (s : State) (d e : Nat) : Bool :=
  let x := eng s d e
  x.reads.isEmpty && x.writes.isEmpty && x.hold.isNone && x.win.isNone
    && !(decide (9 ≤ e) && decide (e ≤ 12) && s.trains.any (fun t => decide (t.die = d) && decide (t.engine + 9 = e)))
    && !(decide (1 ≤ e) && decide (e ≤ 8) && !scEmpty s (clIx d (e - 1)))
    && !(decide (e = 13) && s.colls.any (fun k => decide (k.die = d) && !k.ended))
    && !(decide (e = 14) && s.upds.any (fun u => decide (u.die = d) && !u.ended))

/-- A die has arrived at its next station: it tells the dies that name it in DIE_MASK, and the packages `named`, whose
PKG_MASK names this one, and a possession with START here begins with the first die (R88, R94). The images of other packages
are not this package's, so the command says which name it (entry 117). -/
def dieArrive (s : State) (d : Nat) (named : BitVec 256) : State :=
  let k := atStation s d
  let t := dieNow s d
  let s := setTtState (setDie s d (fun x => { x with arrivedAt := some (BitVec.ofNat 64 t) })) d 5
  let s := portReport s (120 + d) false k t
  let s := if (upTo 8).all (fun x => !ttLoaded s x || decide (k < atStation s x) || decide (ttState s x = 5 ∧ atStation s x = k)) then
      portReport s 128 false k t else s
  let s := noteSeen s d k d
  let tells := (upTo 8).filter (fun x => decide (x ≠ d) && (match station s x k with
    | some y => bitOf y.dieMask d
    | none => false))
  let s := { s with ttx := { s.ttx with msgs := s.ttx.msgs ++ tells.map (fun x => (x, d, k)) } }
  let n := ((upTo 8).filter (ttLoaded s)).length
  let pk := (upTo 256).filter (fun g => decide (g ≠ ownPos s) && bitOf named g)
  let s := pk.foldl (fun s g => (sendUnbooked s d 3 s.job.tag g (arrivalPayload k d n)).1) s
  possStart s k

/-- ENGINE_ARRIVAL (R87): a cluster's stream cache is empty, and its detectors start again (R216); `named` has the packages that name this one in PKG_MASK of the station (R88). -/
def execEngineArrival (d : ADie) (e : EngineIx) (named : BitVec 256) (s : State) : Host.Outcome State Fault Refusal :=
  .next (if decide (ttState s d = 4) && !(eng s d e).arrived && !windowBlocks s d e (segLen s d)
      && mayReach s d e (segLen s d) then
    let t := reach s d e (segLen s d)
    if engineClear t d e then
      let t := if 1 ≤ e.val ∧ e.val ≤ 8 then scFlush t (clIx d (e - 1)) else t
      let t := wrB (setEng t d e (fun x => { x with arrived := true })) (tt d 0) (20 + e) true
      let t := portReport t (15 * d + e) false (atStation t d) (dieNow t d)
      if (upTo 15).all (fun x => (eng t d x).arrived) then dieArrive t d named else t
    else s
  else s)

/-- ARRIVAL_MESSAGE (R88): the oldest message from die `src` on its way to die `d`. -/
def execArrivalMessage (d src : ADie) (s : State) : Host.Outcome State Fault Refusal :=
  .next (match s.ttx.msgs.find? (fun m => decide (m.1 = d.val) && decide (m.2.1 = src.val)) with
  | some m => noteRemote (noteSeen { s with ttx := { s.ttx with msgs := s.ttx.msgs.erase m } } d m.2.2 src) d m.2.2
  | none => s)

/-- An ARRIVAL flit of position `src`: a package has arrived at a station when all of its dies have (R88). -/
def packageArrival (s : State) (src k die n : Nat) : State :=
  let x := s.ttx
  let ds := if x.pkgDies.contains (k, src, die) then x.pkgDies else x.pkgDies ++ [(k, src, die)]
  let all := decide (n ≤ (ds.filter (fun y => decide (y.1 = k) && decide (y.2.1 = src))).length)
  let waits := (upTo 8).filter (fun d => all && !x.pkgSeen.contains (k, src) && (match station s d k with
    | some y => bitOf y.pkgMask src
    | none => false))
  let s := waits.foldl (fun s d => noteRemote s d k) s
  { s with ttx := { x with pkgDies := ds
                           pkgSeen := if all && !x.pkgSeen.contains (k, src) then x.pkgSeen ++ [(k, src)] else x.pkgSeen } }

/-! ### Departures (R89, R91) -/

/-- The conditions of R89 beside time: every arrival that the masks name has come, and every flush that must finish. -/
def mayDepart (s : State) (d k : Nat) : Bool :=
  match station s d k with
  | some y =>
    decide (ttState s d = 5)
      && (upTo 8).all (fun x => !bitOf y.dieMask x || (dieTT s d).seen.contains (k, x))
      && (upTo 256).all (fun g => !bitOf y.pkgMask g || decide (g = ownPos s) || s.ttx.pkgSeen.contains (k, g))
      && s.ttx.poss.all (fun p => !decide (p.start = k) || (p.begun && decide (p.flushing = 0)))
  | none => decide (k = 0) && decide (ttState s d = 3)

/-- The first beat of its copy of the MTC at which the conditions of R89 hold for die `d`, at a departure from station `k`:
the later of DEPART, its own arrival, and the last thing it waited for. A die that stands at right-away departs now. -/
def departBeat (s : State) (d k : Nat) : Nat :=
  if k = 0 then dieNow s d
  else
    let own := match (dieTT s d).arrivedAt with
      | some t => t.toNat
      | none => 0
    max (dueAt s d k) (max own (Store.get (fun _ => 0) (dieTT s d).remoteAt k).toNat)

/-- Late departure (R91, R92): REMOTE where what the die waited for beside its own arrival came after DEPART (R98), or
right-away was withheld (R510); CLOCK_DRIFT where the die itself came late while the count ran fast against TREF (R57,
entry 119); THROTTLE where it came late while its compute duty was below 64 (R534, R536). -/
def lateDeparture (s : State) (d k beats : Nat) : State :=
  let due := dueAt s d k
  let remote := decide (k = 0) || decide (due < (Store.get (fun _ => 0) (dieTT s d).remoteAt k).toNat)
  let own := match (dieTT s d).arrivedAt with
    | some t => decide (due < t.toNat)
    | none => false
  let drift := own && decide (0 < (rd s (mtc 0x18)).toInt)
  let throttled := own && decide (rdF s (pw d 0) 0 7 < 64)
  countLate s d k beats ((if remote then causeRemote else 0) ||| (if drift then causeClockDrift else 0)
    ||| (if throttled then causeThrottle else 0))

/-- An engine at the start of a segment: cycle 0, nothing in flight; its configuration stays. -/
def engineStart (x : Engine) : Engine :=
  { x with cycle := 0, next := 0, reads := [], writes := [], spans := [], hold := none, win := none, arrived := false }

/-- A departure as the timetable ports report it (R21): of the die's engines, of the die, and, with its last die, of the
package. -/
def reportDeparture (s : State) (d k beat : Nat) : State :=
  let s := (upTo 15).foldl (fun s e => portReport s (15 * d + e) true k beat) s
  let s := portReport s (120 + d) true k beat
  if (upTo 8).all (fun x => decide (x = d) || !ttLoaded s x || decide (k < atStation s x)
      || (decide (k = ttCount s x) && decide (ttState s x = 6))) then portReport s 128 true k beat else s

/-- The trains of the segment that die `d` begins, in ISSUE order: engine Tj and order (R316). -/
def segTrains (s : State) (d : Nat) : List (Nat × Order) :=
  let l := (upTo 4).flatMap (fun j => ((curOrders s d (9 + j)).filter (fun o => fld o 24 8 = 0x20 ∨ fld o 24 8 = 0x21)).map (fun o => (j, o)))
  l.mergeSort (fun a b => decide (fld a.2 0 24 ≤ fld b.2 0 24))

/-- At a departure the translation unit translates the first pages of the segment's trains, in ISSUE order (R316). -/
def preTranslateAll (s : State) (d : Nat) : State :=
  (segTrains s d).foldl (fun s x => match trainOf s d x.1 x.2 with
    | some t => preTranslate s t
    | none => s) s

/-- The payload slots of a segment are counted from its departure on each port of the die (R396). -/
def slotsAgain (s : State) (d : Nat) : State :=
  [2 * d, 2 * d + 1].foldl (fun s p => setPort s p (fun x => { x with slot := 0 })) s

/-- A die departs from station `k`: its engines begin the next segment, or it is DONE (R63, R68, R97, R362). -/
def departDie (s : State) (d k : Nat) : State :=
  let due := dueAt s d k
  let beat := departBeat s d k
  let s := if due < beat then lateDeparture s d k (beat - due) else s
  let s := reportDeparture s d k beat
  let s := remapDie (possLeave s d k) d
  let s := wrF (wrF s (tt d 0) 20 15 0) (tt d 0) 5 15 0
  if k = ttCount s d then ttEvent (setTtState s d 6) d 3
  else
    let s := setDie s d (fun x => { x with next := k + 1, arrivedAt := none, remoteAt := Store.erase k x.remoteAt })
    let s := (upTo 15).foldl (fun s e => setEng s d e engineStart) (slotsAgain s d)
    preTranslateAll (showSeen (wrF (setTtState s d 4) (tt d 0x20) 0 16 (k + 1)) d) d

/-- Die `d` stands at its station although its departure is `after` beats past due (R506). -/
def overdue (s : State) (d after : Nat) : Bool :=
  decide (ttState s d = 5) && decide (dueAt s d (atStation s d) + after ≤ (now s).toNat)
    || decide (ttState s d = 3) && decide (dueAt s d 0 ≤ (now s).toNat)

/-- A HELD job is DEPARTED again once every die has departed from its station (R506). -/
def releaseHeld (s : State) : State :=
  if s.job.state = .held && !(upTo 8).any (fun d => overdue s d 1000000) then setJob s .departed 0 else s

/-- DEPARTURE (R89): at count `t`, at or after the first beat at which the conditions hold; what the departure counts and
reports is that first beat (entry 118). -/
def execDeparture (d : ADie) (t : W64) (s : State) : Host.Outcome State Fault Refusal :=
  let s := advance s t
  let k := atStation s d
  .next (if (s.job.state = .departed || s.job.state = .held) && decide (0 < k) && mayDepart s d k
      && decide (dueAt s d k ≤ dieNow s d) then releaseHeld (departDie s d k) else s)

/-- STATION_TIMEOUT (R90): a die has not departed when the station timeout has run out. -/
def execStationTimeout (d : ADie) (t : W64) (s : State) : Host.Outcome State Fault Refusal :=
  let s := advance s t
  let st := ttState s d
  let k := if st = 3 then 0 else atStation s d
  .next (if (st = 3 || st = 4 || st = 5) && decide (dueAt s d k + s.job.stationTimeout ≤ (now s).toNat)
    then failJob s stFault else s)

/-- DEPARTURE_OVERDUE (R506): a die is still at a station 1 ms after its DEPART. -/
def execDepartureOverdue (d : ADie) (t : W64) (s : State) : Host.Outcome State Fault Refusal :=
  let s := advance s t
  .next (if s.job.state = .departed && decide (ttState s d = 5) && overdue s d 1000000 then setJob s .held 0 else s)

end Sys2Proof.Machine
end

