-- ==== Sys2Proof/Machine/Load.lean ====
section
/-! DEFINITION. Loading a timetable image (R102 to R107, R583): its headers and sections, the rows of R105 in their order,
the bookings of every level (R30, R291, R356, R397), and what a successful load leaves. -/

namespace Sys2Proof.Machine

/-! ### Images and sections (R102) -/

/-- An image inside the bytes that are loaded: where its header stands, its bytes, its level, and the directory entry
that names it (position, offset of the entry). -/
structure Img where
  off : Nat
  len : Nat
  level : Nat
  pos : Nat
  ent : Nat
  deriving DecidableEq, Repr

/-- A header field. -/
def hdr (b : List Byte) (i : Img) (o n : Nat) : Nat := leAt b (i.off + o) n

/-- Stations and children that the header announces. -/
def nStations (b : List Byte) (i : Img) : Nat := hdr b i 12 4
def nChildren (b : List Byte) (i : Img) : Nat := hdr b i 16 2

/-- Offsets of the section fields in the header: stations, children, orders, descriptors, bookings, possessions, signal
initial values. -/
def sectionFields : List Nat := [32, 36, 40, 44, 48, 52, 56]

/-- Directory entries as (offset of the entry, POSITION, OFFSET, LENGTH). -/
def dirEntries (b : List Byte) (i : Img) : List (Nat × Nat × Nat × Nat) :=
  let o := hdr b i 36 4
  if i.level = 0 ∨ o = 0 then []
  else ((upTo (nChildren b i)).map (fun j => i.off + o + 16 * j)).filterMap (fun e =>
    if e + 16 ≤ i.off + i.len then some (e, leAt b e 2, leAt b (e + 4) 4, leAt b (e + 8) 4) else none)

/-- A directory entry names bytes inside its image. -/
def entryInside (i : Img) (e : Nat × Nat × Nat × Nat) : Bool :=
  decide (64 ≤ e.2.2.1) && decide (e.2.2.1 % 64 = 0) && decide (64 ≤ e.2.2.2) && decide (e.2.2.1 + e.2.2.2 ≤ i.len)

/-- The children of an image that lie inside it, in ascending position. -/
def children (b : List Byte) (i : Img) : List Img :=
  let l := ((dirEntries b i).filter (entryInside i)).map (fun e =>
    { off := i.off + e.2.2.1, len := e.2.2.2, level := i.level - 1, pos := e.2.1, ent := e.1 : Img })
  l.mergeSort (fun x y => decide (x.pos ≤ y.pos))

/-- End of the section that starts at offset `o` of an image: the next section or child, or the image's end. -/
def sectionEnd (b : List Byte) (i : Img) (o : Nat) : Nat :=
  let starts := sectionFields.map (fun f => hdr b i f 4) ++ (dirEntries b i).map (fun e => e.2.2.1)
  (starts.filter (fun x => decide (o < x))).foldl min i.len

/-- Entries of `n` bytes of the section that header field `f` names, as offsets of the loaded bytes. -/
def entriesOf (b : List Byte) (i : Img) (f n : Nat) : List Nat :=
  let o := hdr b i f 4
  if o = 0 then [] else (upTo ((sectionEnd b i o - o) / n)).map (fun j => i.off + o + n * j)

/-- An entry of `n` bytes is not padding. -/
def notPad (b : List Byte) (n e : Nat) : Bool := decide (leAt b e n ≠ 0)

/-- Offset of station entry `k`, 0 to STATIONS - 1. -/
def stationAt (b : List Byte) (i : Img) (k : Nat) : Nat := i.off + hdr b i 32 4 + 48 * k

/-- DEPART and SEG_LEN of a station entry. -/
def departOf (b : List Byte) (i : Img) (k : Nat) : Nat := leAt b (stationAt b i k) 8
def segLenOf (b : List Byte) (i : Img) (k : Nat) : Nat := leAt b (stationAt b i k + 8) 4

/-- The order at an offset. -/
def orderAt (b : List Byte) (e : Nat) : Order := BitVec.ofNat 128 (leAt b e 16)

/-- Cut a stream into its orders with their segment, up to the last marker, and the offsets of the markers; what follows
the last marker and is not zero is listed with segment 0. -/
def splitStream (b : List Byte) (n : Nat) : Nat → List Nat → List (Nat × Nat × Order) × List Nat
  | _, [] => ([], [])
  | k, e :: rest =>
    let o := orderAt b e
    let (os, ms) := splitStream b n (if fld o 24 8 = 1 then k + 1 else k) rest
    if fld o 24 8 = 1 then (os, e :: ms)
    else if n < k then (if o = 0 then (os, ms) else ((0, e, o) :: os, ms))
    else ((k, e, o) :: os, ms)

/-- Orders of an engine image with segment (from 1) and offset, and its markers. -/
def stream (b : List Byte) (i : Img) : List (Nat × Nat × Order) × List Nat :=
  splitStream b (nStations b i) 1 (entriesOf b i 40 16)

/-- The orders alone. -/
def ordersOf (b : List Byte) (i : Img) : List (Nat × Nat × Order) := (stream b i).1

/-- Train descriptors of an engine image, with offsets. -/
def descsOf (b : List Byte) (i : Img) : List (Nat × BitVec 512) :=
  (entriesOf b i 44 64).map (fun e => (e, BitVec.ofNat 512 (leAt b e 64)))

/-- Booking entries of an image with offsets; padding at the end is left out. -/
def booksOf (b : List Byte) (i : Img) : List (Nat × BitVec 128) :=
  let l := (entriesOf b i 48 16).map (fun e => (e, BitVec.ofNat 128 (leAt b e 16)))
  (l.reverse.dropWhile (fun x => decide (x.2 = 0))).reverse

/-- Possession entries: offset, BASE, granules, START, END. -/
def possOf (b : List Byte) (i : Img) : List (Nat × Nat × Nat × Nat × Nat) :=
  ((entriesOf b i 52 16).filter (notPad b 16)).map (fun e => (e, leAt b e 8, leAt b (e + 8) 4, leAt b (e + 12) 2, leAt b (e + 14) 2))

/-- Signal initial values: offset, signal, value. -/
def sigInitOf (b : List Byte) (i : Img) : List (Nat × Nat × W64) :=
  ((entriesOf b i 56 16).filter (notPad b 16)).map (fun e => (e, leAt b e 2, BitVec.ofNat 64 (leAt b (e + 8) 8)))

/-- The images that one load reads: the group image if there is one, the package image, its die images. -/
structure Tree where
  bytes : List Byte
  group : Option Img
  pkg : Img
  dies : List Img
  deriving DecidableEq, Repr

/-- Engine images of a die image. -/
def engines (t : Tree) (d : Img) : List Img := children t.bytes d

/-- Every image, in the order of R583. -/
def Tree.all (t : Tree) : List Img :=
  t.group.toList ++ t.pkg :: t.dies.flatMap (fun d => d :: engines t d)

/-- A failure of a load: status, table of R519, offset of the item. -/
abbrev LoadFail := Nat × Nat × Nat

/-- Fail where a condition does not hold. -/
def failIf (bad : Bool) (st off : Nat) : Option LoadFail := if bad then some (st, 0, off) else none

/-- The first failure over a list. -/
def firstOf {α : Type} (l : List α) (f : α → Option LoadFail) : Option LoadFail := l.findSome? f

/-! ### The rows of R105 -/

/-- Row 2 for one header. -/
def magicFail (b : List Byte) (i : Img) : Option LoadFail :=
  failIf (decide (hdr b i 0 4 ≠ 0x39475454) || decide (hdr b i 4 2 ≠ 1) || decide (hdr b i 6 1 ≠ i.level)) stBadField i.off

/-- Row 2: MAGIC, VERSION, LEVEL. -/
def rowMagic (t : Tree) : Option LoadFail := firstOf t.all (magicFail t.bytes)

/-- The directory entries of an image that the package checks: all of them, and of a group image that of its own child alone
(R103). -/
def Tree.entries (t : Tree) (i : Img) : List (Nat × Nat × Nat × Nat) :=
  if i.level = 3 then (dirEntries t.bytes i).filter (fun e => decide (e.1 = t.pkg.ent)) else dirEntries t.bytes i

/-- The booking entries of an image that the package checks: those of a group image are not its own (R103). -/
def Tree.books (t : Tree) (i : Img) : List (Nat × BitVec 128) := if i.level = 3 then [] else booksOf t.bytes i

/-- Row 3 for one image: LENGTH, offsets, sections and children inside. -/
def lengthFail (t : Tree) (i : Img) : Option LoadFail :=
  let b := t.bytes
  let sec (f : Nat) := hdr b i f 4
  firstFailAt [ (decide (sec 32 = 0), 32), (decide (hdr b i 8 4 ≠ i.len) || decide (i.len % 64 ≠ 0) || decide (i.len < 64), 8) ]
    <|> firstOf sectionFields (fun f =>
      failIf (decide (sec f ≠ 0) && (decide (sec f < 64) || decide (sec f % 64 ≠ 0) || decide (i.len ≤ sec f))) stBadLength (i.off + f))
    <|> failIf (decide (sectionEnd b i (sec 32) < sec 32 + 48 * nStations b i)) stBadLength (i.off + 32)
    <|> failIf (decide (i.level ≠ 0) && decide (nChildren b i ≠ 0)
      && (decide (sec 36 = 0) || decide (sectionEnd b i (sec 36) < sec 36 + 16 * nChildren b i))) stBadLength (i.off + 36)
    <|> firstOf (t.entries i) (fun e => failIf (!entryInside i e) stBadLength e.1)
where
  firstFailAt (l : List (Bool × Nat)) : Option LoadFail := firstOf l (fun x => failIf x.1 stBadLength (i.off + x.2))

/-- Row 3. -/
def rowLength (t : Tree) : Option LoadFail := firstOf t.all (lengthFail t)

/-- Section fields that an image of a level and position may have (R102). -/
def allowed (level pos : Nat) : List Nat :=
  if level = 3 then [32, 36, 48] else if level = 2 then [32, 36, 48, 52] else if level = 1 then [32, 36, 48, 56]
  else if 9 ≤ pos ∧ pos ≤ 12 then [32, 40, 44] else [32, 40]

/-- Reserved bits of an order of chapters 03 and 04; those of other chapters stand in their tables. -/
def orderReserved (o : Order) : Bool :=
  let op := fld o 24 8
  if 0x10 ≤ op ∧ op ≤ 0x14 then
    zeroBits o 47 1 && (if bitOf o 46 then decide (op ≤ 0x11) else zeroBits o 48 16)
  else if op = 0x20 ∨ op = 0x21 then zeroBits o 67 5 && zeroBits o 96 32
  else if op = 0x40 then zeroBits o 124 4
  else if op = 0x41 then zeroBits o 104 24
  else if op = 0x42 then zeroBits o 84 44
  else if op = 0x43 then zeroBits o 54 74
  else if op = 0x44 then zeroBits o 48 80
  else if op = 0x45 then zeroBits o 96 32
  else true

/-- Reserved fields of a booking entry (R99, R290, R355). An entry of zeros books nothing wherever it stands (entry 111): the
spec gives KIND 1 to 3 and no status for another. -/
def bookReserved (x : BitVec 128) : Bool :=
  let k := fld x 0 16
  x = 0 || (k = 1 && zeroBits x 19 13) || (k = 2 && zeroBits x 22 10) || k = 3

/-- Row 7 for one image. -/
def reservedFail (t : Tree) (i : Img) : Option LoadFail :=
  let b := t.bytes
  failIf (decide (hdr b i 20 4 ≠ 0)) stBadField (i.off + 20)
    <|> failIf (decide (hdr b i 60 4 ≠ 0)) stBadField (i.off + 60)
    <|> firstOf (sectionFields.filter (fun f => !(allowed i.level i.pos).contains f)) (fun f =>
      failIf (decide (hdr b i f 4 ≠ 0)) stBadField (i.off + f))
    <|> firstOf (upTo (nStations b i)) (fun k => failIf (decide (leAt b (stationAt b i k + 13) 3 ≠ 0)) stBadField (stationAt b i k + 13))
    <|> firstOf (t.entries i) (fun e => failIf (decide (leAt b (e.1 + 2) 2 ≠ 0) || decide (leAt b (e.1 + 12) 4 ≠ 0)) stBadField e.1)
    <|> (if i.level = 1 then firstOf (sigInitOf b i) (fun x => failIf (decide (leAt b (x.1 + 2) 6 ≠ 0)) stBadField x.1) else none)
    <|> firstOf (t.books i) (fun x => failIf (!bookReserved x.2) stBadField x.1)
    <|> (if i.level = 0 then
      firstOf (descsOf b i) (fun x => failIf (decide (fld x.2 324 4 ≠ 0) || decide (fld x.2 368 144 ≠ 0)) stBadField x.1)
        <|> firstOf (stream b i).2 (fun e => failIf (decide (orderAt b e ≠ BitVec.ofNat 128 (2 ^ 24))) stBadField e)
        <|> firstOf (ordersOf b i) (fun x => failIf (!orderReserved x.2.2) stBadField x.2.1)
      else none)

/-- Row 8: CHILDREN and positions within the level's limit. -/
def rangeFail (t : Tree) (i : Img) : Option LoadFail :=
  let b := t.bytes
  let n := if i.level = 0 then 0 else if i.level = 1 then 15 else if i.level = 2 then 8 else 256
  failIf (decide (n < nChildren b i)) stRange (i.off + 16)
    <|> firstOf (t.entries i) (fun e => failIf (decide (n ≤ e.2.1)) stRange e.1)

/-- Row 9: the header of every child that the load reads agrees with its entry; no position repeats. -/
def positionFail (t : Tree) (i : Img) : Option LoadFail :=
  let es := t.entries i
  firstOf (t.all.filter (fun c => decide (c.level + 1 = i.level) && es.any (fun e => decide (e.1 = c.ent)))) (fun c =>
    failIf (decide (hdr t.bytes c 18 2 ≠ c.pos)) stConflict c.ent)
    <|> firstOf es (fun e => failIf (es.any (fun x => decide (x.1 < e.1) && decide (x.2.1 = e.2.1))) stConflict e.1)

/-- The opcode is defined, and its class is the engine's (R67, R123, R184, R269, R401). -/
def opcodeOk (e op : Nat) : Bool :=
  if op = 0 ∨ (0x10 ≤ op ∧ op ≤ 0x14) then true
  else if op = 0x20 ∨ op = 0x21 then decide (9 ≤ e) && decide (e ≤ 12)
  else if 0x40 ≤ op ∧ op < 0x80 then decide (e = 0) && decide (op ≤ 0x45)
  else if 0x80 ≤ op ∧ op < 0xC0 then decide (1 ≤ e) && decide (e ≤ 8)
    && (decide (op ≤ 0x8C) || (decide (0x90 ≤ op) && decide (op ≤ 0x95)) || [0x98, 0xA0, 0xA1, 0xA2, 0xA3].contains op
      || (decide (0xA8 ≤ op) && decide (op ≤ 0xAE)) || (decide (0xB0 ≤ op) && decide (op ≤ 0xB2)))
  else if op = 0xC0 then e = 13
  else if (0xE0 ≤ op ∧ op ≤ 0xE3) ∨ op = 0xEF then e = 14
  else false

/-- Engine images with the die image they stand in. -/
def enginesOf (t : Tree) : List (Img × Img) := t.dies.flatMap (fun d => (engines t d).map (fun e => (d, e)))

/-- Row 10: opcodes. -/
def rowOpcode (t : Tree) : Option LoadFail :=
  firstOf (enginesOf t) (fun x => firstOf (ordersOf t.bytes x.2) (fun o =>
    failIf (!opcodeOk x.2.pos (fld o.2.2 24 8)) stBadOpcode o.2.1))

/-- Row 11 for the orders of a stream: ISSUE rises within its segment and lies below SEG_LEN. -/
def issueFail (b : List Byte) (i : Img) : List (Nat × Nat × Order) → Option LoadFail
  | [] => none
  | (k, off, o) :: rest =>
    let next := match rest with
      | (k', off', o') :: _ => failIf (decide (k' = k) && decide (fld o' 0 24 ≤ fld o 0 24)) stBadField off'
      | [] => none
    failIf (decide (k = 0) || decide (segLenOf b i (k - 1) ≤ fld o 0 24)) stBadField off <|> next <|> issueFail b i rest

/-- Row 11. STATIONS outside 1 to 65,535 fails here too: R102 gives the range and no status (entry 108). -/
def rowIssue (t : Tree) : Option LoadFail :=
  let b := t.bytes
  firstOf t.all (fun i =>
    failIf (decide (nStations b i = 0) || decide (65535 < nStations b i)) stBadField (i.off + 12)
      <|> firstOf (upTo (nStations b i)) (fun k =>
        failIf (decide (2 ^ 24 ≤ segLenOf b i k) || (decide (0 < k) && decide (departOf b i k ≤ departOf b i (k - 1)))) stBadField (stationAt b i k))
      <|> (if i.level = 0 then
        failIf (decide ((stream b i).2.length ≠ nStations b i)) stBadField (i.off + 40) <|> issueFail b i (ordersOf b i) else none))

/-- Row 12: per-opcode checks, order by order over the engines of each die in turn (R583). -/
def rowOrders (s : State) (t : Tree) : Option LoadFail :=
  let b := t.bytes
  let poss := (possOf b t.pkg).map Prod.snd
  firstOf t.dies (fun d =>
    let x : ChkDie := { die := d.pos, conv := (upTo 8).map (memEntries s d.pos), books := (booksOf b d).map Prod.snd, poss := poss }
    let run := (engines t d).foldl (fun (a : Chk × Option (Nat × Nat)) e =>
      match a.2 with
      | some f => (a.1, some f)
      | none => streamFail x ((descsOf b e).map Prod.snd) e.pos (fun k => segLenOf b e (k - 1)) a.1 (ordersOf b e)) (Chk.start, none)
    run.2.map (fun f => (f.1, 0, f.2)))

/-- Row 13: signal, descriptor and window numbers; ROWS and ROW_BYTES. A BOOK index beyond the die image's booking section fails
here too: R81 and R105 name no status for it (entry 107). -/
def rowNumbers (t : Tree) : Option LoadFail :=
  let b := t.bytes
  firstOf t.dies (fun d => firstOf (sigInitOf b d) (fun x => failIf (decide (16383 < x.2.1)) stRange x.1))
    <|> firstOf (enginesOf t) (fun x =>
      let ds := descsOf b x.2
      firstOf ds (fun y => failIf (decide (tdRows y.2 = 0) || decide (65536 < tdRows y.2) || decide (tdRowBytes y.2 = 0)
          || decide (2 ^ 24 < tdRowBytes y.2)
          || ((decide (tdSrcSpace y.2 = 2) || decide (tdDstSpace y.2 = 2)) && decide (255 < tdWindow y.2))) stRange y.1)
        <|> firstOf (ordersOf b x.2) (fun o =>
          let op := fld o.2.2 24 8
          failIf ((op = 0x20 || op = 0x21) && (decide (ds.length ≤ fld o.2.2 32 20) || decide ((booksOf b x.1).length ≤ fld o.2.2 72 24)))
            stRange o.2.1))

/-- Row 14: privileged spaces (R83). -/
def rowPrivileged (s : State) (t : Tree) : Option LoadFail :=
  if s.job.privTrains then none
  else firstOf (enginesOf t) (fun x => firstOf (descsOf t.bytes x.2) (fun y =>
    failIf (decide (tdSrcSpace y.2 = 3) || decide (tdDstSpace y.2 = 3)) stDenied y.1))

/-- Rows 15 to 17: possessions (R93, R409). -/
def rowPoss (s : State) (t : Tree) : Option LoadFail :=
  let ps := possOf t.bytes t.pkg
  let lo := (rd s (np 8)).toNat
  let hi := lo + (rd s (np 0x10)).toNat * 0x200000
  firstOf ps (fun p => failIf (decide (p.2.1 % 0x200000 ≠ 0)) stAlign p.1)
    <|> firstOf ps (fun p => failIf (decide (unifiedEnd < p.2.1 + p.2.2.1 * 0x200000) || decide (p.2.2.2.2 ≤ p.2.2.2.1)
      || decide (nStations t.bytes t.pkg < p.2.2.2.2)) stRange p.1)
    <|> firstOf ps (fun p => failIf (decide (lo < hi) && decide (0 < p.2.2.1) && decide (p.2.1 < hi)
      && decide (lo < p.2.1 + p.2.2.1 * 0x200000)) stConflict p.1)

/-! ### Bookings (R30, R291, R356, R397) -/


/-- Grants in slots `a` to `a + n - 1` of a pattern. -/
def grants (f : Nat → Nat) (a n : Nat) : Nat := ((upTo n).map (fun i => f (a + i))).sum

/-- A pattern of period `L` keeps the limit of R30: `cap` grants in every `w` slots of the pattern, and in every interval
that joins the end of a segment at any phase to the start of the next. -/
def keepsLimit (f : Nat → Nat) (L w cap : Nat) : Bool :=
  (upTo L).all (fun x => (upTo (w + 1)).all (fun a => decide (grants f x a + grants f 0 (w - a) ≤ cap)))

/-- The period of several bookings together. -/
def lcmOf (l : List (BitVec 128)) : Nat := l.foldl (fun a x => Nat.lcm a (max 1 (bkPeriod x))) 1

/-- Slots of a memory stack in 1 µs (R290). -/
def memSlots (s : State) : Nat := if s.guard.ordering = 0 then 1000 else 900

/-- Blocks granted on home `d` in memory slot `n` (R290). -/
def memGrants (l : List (BitVec 128)) (n : Nat) : Nat :=
  (l.map (fun x => if n % max 1 (bkPeriod x) = bkOffset x then bkCount x else 0)).sum

/-- R291 for one home with the bookings so far. -/
def memOk (s : State) (l : List (BitVec 128)) : Bool :=
  let w := memSlots s
  (upTo (lcmOf l)).all (fun n => decide (memGrants l n ≤ 128)) && keepsLimit (memGrants l) (lcmOf l) w (120 * w)

/-- Narrowest link of a route. -/
def routeWidth (a b : Nat) : Nat := ((routeLinks a b).map (fun l => linkWidth l.1 l.2)).foldl min 8

/-- R356 for one link with the bookings so far: its pattern begins once every grant of slot 0 has come to it. -/
def linkOk (l : List (BitVec 128)) (a b : Nat) : Bool :=
  let f (n : Nat) : Nat := (l.map (fun x => cwGrant x a b n)).sum
  let per (n : Nat) : Nat := (l.map (fun x => cwGrant x a b (n + 14 * 8 * max 1 (bkPeriod x)))).sum
  let L := lcmOf l
  let w := linkWidth a b
  (upTo (L + 112)).all (fun n => decide (f n ≤ w))
    && (upTo L).all (fun x => (upTo 4001).all (fun k => decide (grants per x k + grants f 0 (4000 - k) ≤ 3750 * w)))

/-- Payload slots that a path's booking grants: COUNT consecutive ones from OFFSET in every PERIOD (R396). -/
def pathGrant (x : BitVec 128) (n : Nat) : Nat :=
  let p := max 1 (bkPeriod x)
  if bkOffset x ≤ n then (if (n - bkOffset x) % p < bkCount x then 1 else 0) else 0

/-- The same in the pattern repeated without end. -/
def pathPattern (x : BitVec 128) (n : Nat) : Nat :=
  let p := max 1 (bkPeriod x)
  if (n + p - bkOffset x % p) % p < bkCount x then 1 else 0

/-- No two grants in one slot of a port. -/
def portClear (l : List (BitVec 128)) : Bool :=
  (upTo (lcmOf l)).all (fun n => decide ((l.map (fun x => pathPattern x n)).sum ≤ 1))

/-- No more than 75 grants in 80 slots of a port (R397). -/
def portOk (l : List (BitVec 128)) : Bool :=
  let f (n : Nat) : Nat := (l.map (fun x => pathGrant x n)).sum
  let g (n : Nat) : Nat := (l.map (fun x => pathPattern x n)).sum
  (upTo (lcmOf l)).all (fun x => (upTo 81).all (fun a => decide (grants g x a + grants f 0 (80 - a) ≤ 75)))

/-- The checks of one booking entry of the die image `d` (8 for the package image), with the entries before it. -/
def bookChecks (s : State) (before : List (Nat × BitVec 128)) (d : Nat) (x : BitVec 128) : List Check :=
  let k := bkKind x
  let r := bkRes x
  let all := (before ++ [(d, x)]).map Prod.snd
  let per (n : Nat) : Bool := decide (1 ≤ bkPeriod x) && decide (bkPeriod x ≤ n) && decide (bkOffset x < bkPeriod x)
  if k = 1 then
    let mine := all.filter (fun y => decide (bkKind y = 1) && decide (bkRes y % 8 = r % 8))
    [(per 1024 && decide (1 ≤ bkCount x) && decide (bkCount x ≤ 128), stRange), (memOk s mine, stRange)]
  else if k = 2 then
    let a := r % 8
    let b := r / 8 % 8
    let cws := all.filter (fun y => decide (bkKind y = 2))
    [ (decide (a ≠ b), stBadField),
      (per 4096 && decide (1 ≤ bkCount x) && decide (bkCount x ≤ routeWidth a b), stRange),
      ((routeLinks a b).all (fun l => linkOk (cws.filter (fun y => (routeLinks (bkRes y % 8) (bkRes y / 8 % 8)).contains l)) l.1 l.2), stRange) ]
  else if k = 3 then
    let path := r % 256
    let dst := r / 256
    let port (y : BitVec 128) : Option Nat := pathPort s (bkRes y % 256) (bkRes y / 256)
    let paths := (all.filter (fun y => decide (bkKind y = 3)))
    let mine := paths.filter (fun y => decide (port y = port x))
    [ (per 65536 && decide (1 ≤ bkCount x) && decide (bkCount x ≤ 80) && decide (path % 32 ≠ 0) && decide (path / 32 = d), stRange),
      (bitOf (orEntry s dst) 19 && (port x).isSome, stConflict),
      (portOk mine, stRange),
      (decide ((paths.filter (fun y => decide (bkRes y % 256 = path))).length = 1) && portClear mine, stConflict) ]
  else []

/-- The first booking that fails, entry by entry. -/
def booksFail (s : State) : List (Nat × BitVec 128) → List (Nat × Nat × BitVec 128) → Option LoadFail
  | _, [] => none
  | before, (d, off, x) :: rest =>
    match firstFail (bookChecks s before d x) with
    | some st => some (st, 0, off)
    | none => booksFail s (before ++ [(d, x)]) rest

/-- Row 18: bookings of the die images in ascending order, then of the package image. -/
def rowBooks (s : State) (t : Tree) : Option LoadFail :=
  let ds := t.dies.flatMap (fun d => (booksOf t.bytes d).map (fun x => (d.pos, x.1, x.2)))
  let ps := (booksOf t.bytes t.pkg).map (fun x => (8, x.1, x.2))
  booksFail s [] (ds ++ ps)

/-- Row 19: station tables agree (R103). -/
def rowStations (t : Tree) : Option LoadFail :=
  let b := t.bytes
  let same (x y : Img) : Bool := decide (nStations b x = nStations b y)
    && (upTo (nStations b x)).all (fun k => decide (departOf b x k = departOf b y k))
  (match t.group with
    | some g => failIf (!same g t.pkg) stConflict (t.pkg.off + 32)
    | none => none)
    <|> firstOf t.dies (fun d => failIf (!same t.pkg d) stConflict (d.off + 32))
    <|> firstOf (enginesOf t) (fun x =>
      failIf (decide (nStations b x.1 ≠ nStations b x.2)
        || decide (slice b (stationAt b x.1 0) (48 * nStations b x.1) ≠ slice b (stationAt b x.2 0) (48 * nStations b x.1))) stConflict (x.2.off + 32))

/-- Row 20: capacities, with the table's identifier (R519). -/
def rowCapacity (t : Tree) : Option LoadFail :=
  let full (bad : Bool) (table off : Nat) : Option LoadFail := if bad then some (stExhausted, table, off) else none
  firstOf t.dies (fun d => full (decide (64 * 2 ^ 20 < d.len)) 9 d.off)
    <|> firstOf t.dies (fun d => full (decide (1048576 < ((engines t d).map (fun e => (descsOf t.bytes e).length)).sum)) 10 d.off)
    <|> firstOf t.dies (fun d => full (decide (65536 < (booksOf t.bytes d).length)) 11 d.off)
    <|> full (decide (4096 < (possOf t.bytes t.pkg).length)) 12 t.pkg.off

/-- The part's arithmetic fingerprint (R174). -/
def fingerprint : Nat := 0x00000001000300B0

/-- All rows of R105 after the first, in their order. -/
def loadFail (s : State) (t : Tree) : Option LoadFail :=
  let b := t.bytes
  rowMagic t <|> rowLength t
    <|> failIf (decide (sha256 (slice b t.pkg.off t.pkg.len) ≠ s.job.ttMeasure)) stDenied t.pkg.off
    <|> firstOf t.all (fun i => failIf (decide (hdr b i 7 1 ≠ s.job.tempo)) stConflict (i.off + 7))
    <|> firstOf t.all (fun i => failIf (decide (hdr b i 24 8 ≠ 0) && decide (hdr b i 24 8 ≠ fingerprint)) stDenied (i.off + 24))
    <|> firstOf t.all (reservedFail t) <|> firstOf t.all (rangeFail t) <|> firstOf t.all (positionFail t)
    <|> rowOpcode t <|> rowIssue t <|> rowOrders s t <|> rowNumbers t <|> rowPrivileged s t <|> rowPoss s t
    <|> rowBooks s t <|> rowStations t <|> rowCapacity t

/-- The images at TT_IMAGE_ADDR of die `d` (R104): a package image, or the child at this package's position of a group
image (R103). The low six bits of the address are taken as 0 (entry 109). Where the group image has no child at the position,
or an image runs past unified memory, the load fails with ST_BAD_LENGTH once the headers that stand there have passed their
row (entry 110). -/
def readTree (s : State) (d : Nat) : Except LoadFail Tree :=
  let a := (rd s (tt d 0x10)).toNat / 64 * 64
  let n := leNat (cohBytes s (a + 8) 4)
  let room := unifiedEnd - a
  let b := cohBytes s a (min (max 64 n) room)
  let group := leAt b 6 1 = 3
  let top : Img := { off := 0, len := n, level := if group then 3 else 2, pos := 0, ent := 0 }
  let pkg := if group then (children b top).find? (fun i => decide (i.pos = ownPos s)) else some top
  match pkg with
  | none =>
    let e := ((dirEntries b top).find? (fun e => decide (e.2.1 = ownPos s))).map (fun e => e.1)
    .error ((magicFail b top).getD (stBadLength, 0, e.getD 8))
  | some p =>
    let t : Tree := { bytes := b, group := if group then some top else none, pkg := p, dies := children b p }
    if room < max 64 n then
      .error ((firstOf (t.all.filter (fun i => decide (i.off + 64 ≤ room))) (magicFail b)).getD (stBadLength, 0, 8))
    else .ok t

/-! ### What a load leaves -/

/-- TT_LOAD_RESULT (R106). -/
def loadResult (s : State) (d : Nat) (f : LoadFail) : State :=
  wr s (tt d 0x18) (BitVec.ofNat 64 (f.1 + 2 ^ 16 * f.2.1 + 2 ^ 32 * f.2.2))

/-- No image is loaded, and no possession is in force: the state of IDLE. -/
def unload (s : State) : State :=
  let s := (upTo 8).foldl (fun s d => wrB (setTtState s d 0) (tt d 8) 0 false) s
  { s with dies := [], possMap := [], ttx := { msgs := [], pkgDies := [], pkgSeen := [], poss := [], pkgBooks := [], lineMask := 0 } }

/-- ARM_JOB fails while the job is ARMING (R104, R506): it completes with the status, the keys are destroyed and the job
is IDLE. -/
def armAbort (s : State) (status detail : Nat) : State :=
  if s.job.state = .arming then
    let s := match s.job.armSeq with
      | some q => doneCmd s q status detail 0 []
      | none => s
    let s := wrF (wrF (wr s (hp 0x108) 0) (mtc 0x70) 0 8 20) (mtc 0x70) 8 8 0
    let s := setJob (unload (destroyKeys { s with job := { s.job with armSeq := none } })) .idle status
    setSelf { s with job := { s.job with tag := 0, rank := 0, ranges := [] } } s.guard.gpid s.img.groupPos 0 false
  else s

/-- Counters and flags that count from the last successful load (R107, R110, R145, R146, R211, R225, R259, R279, R408). -/
def clearAtLoad (s : State) (d : Nat) : State :=
  let zero (s : State) (l : List Nat) : State := l.foldl (fun s k => wr s k 0) s
  let s := wrF (zero s [tt d 0x30, tt d 0x38, tt d 0x40]) (tt d 0) 48 10 0
  let s := zero s [ma d 8, ma d 0x38, ma d 0x40, ma d 0x48, ma d 0x58]
  let s := (upTo 8).foldl (fun s c =>
    zero s ([vc d c 8, vc d c 0x40, vc d c 0x48, vc d c 0x50, vc d c 0x58, sm d c 0x28, sm d c 0x30, sm d c 0x38,
        sm d c 0x40, sm d c 0x48]
      ++ (upTo 16).map (fun g => vc d c (0x80 + 8 * g)))) s
  let s := (upTo 4).foldl (fun s j => zero s [tr d j 8, tr d j 0x10, tr d j 0x18, tr d j 0x20]) s
  let s := zero s ([ce d 8] ++ (upTo 16).map (fun g => ce d (0x80 + 8 * g)))
  let s := zero s [up d 0x18, up d 0x20, up d 0x28, up d 0x30]
  let s := { s with lateFlags := Store.erase d s.lateFlags }
  (upTo 15).foldl (fun s e => setEng s d e (fun x =>
    { x with flagged := false, mismatched := if 9 ≤ e ∧ e ≤ 12 then false else x.mismatched })) s

/-- The station entries of an image. -/
def stationsOf (b : List Byte) (i : Img) : List Station :=
  (upTo (nStations b i)).map (fun k =>
    let e := stationAt b i k
    { depart := BitVec.ofNat 64 (leAt b e 8), segLen := leAt b (e + 8) 4, dieMask := BitVec.ofNat 8 (leAt b (e + 12) 1)
      pkgMask := BitVec.ofNat 256 (leAt b (e + 16) 32) })

/-- What die `d` loads; without an image of its own it runs the package's stations with no orders. -/
def dieOf (t : Tree) (d : Nat) : DieTT :=
  let b := t.bytes
  match t.dies.find? (fun i => decide (i.pos = d)) with
  | none => { DieTT.none d with stations := stationsOf b t.pkg }
  | some i =>
    let es := engines t i
    { stations := stationsOf b i
      descs := (upTo 4).map (fun j => match es.find? (fun e => decide (e.pos = 9 + j)) with
        | some e => (descsOf b e).map Prod.snd
        | none => [])
      books := (booksOf b i).map Prod.snd
      orders := es.map (fun e => (e.pos, (entriesOf b e 40 16).map (orderAt b)))
      next := 0, seen := [], late := false, arrivedAt := none, remoteAt := [] }

/-- Possessions of the package image come into force with the first die's load: those with START = 0 begin (R94). -/
def loadPoss (s : State) (t : Tree) : State :=
  let ps := (possOf t.bytes t.pkg).map (fun p =>
    { base := p.2.1, granules := p.2.2.1, start := p.2.2.2.1, stop := p.2.2.2.2, begun := false, flushing := 0, ended := false
      left := 0 : Poss })
  let same := s.ttx.poss.map (fun p => (p.base, p.granules, p.start, p.stop)) = ps.map (fun p => (p.base, p.granules, p.start, p.stop))
  let s := { s with ttx := { s.ttx with pkgBooks := (booksOf t.bytes t.pkg).map Prod.snd
                                        lineMask := BitVec.ofNat 256 (leAt t.bytes (stationAt t.bytes t.pkg 0 + 16) 32) } }
  if same then s else possStart { s with possMap := [], ttx := { s.ttx with poss := ps } } 0

/-- A successful load of die `d` (R105 to R107): what the image says, its signals' initial values, and LOADED. -/
def installLoad (s : State) (d : Nat) (t : Tree) : State :=
  let b := t.bytes
  let x := dieOf t d
  let s := clearAtLoad s d
  let s := setDie s d (fun _ => x)
  let sigs := match t.dies.find? (fun i => decide (i.pos = d)) with
    | some i => sigInitOf b i
    | none => []
  let s := { s with signals := sigs.foldl (fun m y => Store.set (fun _ => 0) m y.2.1 y.2.2) s.signals }
  let h := sha256 (slice b t.pkg.off t.pkg.len)
  let s := (upTo 4).foldl (fun s i => wr s (tt d (0x50 + 8 * i)) (BitVec.ofNat 64 (leAt h (8 * i) 8))) s
  let s := wr s (tt d 0x20) (BitVec.ofNat 64 (2 ^ 16 * x.stations.length))
  let s := setTtState (wrB (loadResult s d (0, 0, 0)) (tt d 8) 0 false) d 2
  ttEvent (loadPoss s t) d 0

/-- TT_LOAD (R104): TT_CTRL.LOAD starts a load while the job is ARMING; in any other state the load fails. -/
def execTtLoad (d : ADie) (v : W64) (s : State) : Host.Outcome State Fault Refusal :=
  .next (if !bitOf v 0 || rdB s (tt d 8) 0 then s
  else if s.job.state = .arming then setTtState (wrB s (tt d 8) 0 true) d 1
  else ttEvent (loadResult s d (stState, 0, 0)) d 1)

end Sys2Proof.Machine
end

