-- ==== Sys2Proof/Machine/Power.lean ====
section
/-! DEFINITION. Power, heat and the stabled state (chapter "Power, heat and the stabled state"). -/

namespace Sys2Proof.Machine

/-- A die's power control before any report: full duties, no grant. -/
def powerNone : Nat → PowerDie := fun _ =>
  { floor1 := 0, floor2 := 0, floor3 := 0, dem1 := 0, dem2 := 0, dem3 := 0, grant := none, arrived := none
    arrivedIn := 0, sent := 0, answer := 0, grantC := 64, grantM := 64, grantL := 64, thermC := 64, thermM := 64, thermAt := none
    procMult := 34, drooping := false, drooped := false, leak := none, capSeen := false, thermSeen := false }

/-- Power control of die `d`. -/
def pwGet (s : State) (d : Nat) : PowerDie := Store.get powerNone s.power.dies d

/-- Change it. -/
def pwUpd (s : State) (d : Nat) (f : PowerDie → PowerDie) : State :=
  { s with power := { s.power with dies := Store.set powerNone s.power.dies d (f (pwGet s d)) } }

/-- PW_EVENT bit `i` of die `d` (R544). -/
def pwEvent (s : State) (d i : Nat) : State :=
  raise s d 0x9000008 i (reg (pw d 0)) (reg (pw d 0x18)) (reg (pw d 0x28)) (reg (pw 0 0x1000))

/-- Demand of class `k` of a die, and its floor. -/
def demandOf (p : PowerDie) (k : Nat) : Int := if k = 1 then p.dem1 else if k = 2 then p.dem2 else p.dem3
def floorOf (p : PowerDie) (k : Nat) : Int := if k = 1 then p.floor1 else if k = 2 then p.floor2 else p.floor3

/-- The grants of one class and what stays available (R532). -/
def classGrant (dies : List PowerDie) (k : Nat) (avail : Int) : List Int × Int :=
  let extra := (dies.map (fun p => demandOf p k - floorOf p k)).sum
  if extra ≤ avail then (dies.map (fun p => demandOf p k), avail - extra)
  else (dies.map (fun p => floorOf p k + (demandOf p k - floorOf p k) * avail / extra), 0)

/-- The grants of a period in the order of R529: for each class in priority order its grants over the dies. -/
def grantRun (dies : List PowerDie) : List Nat → Int → List (Nat × List Int)
  | [], _ => []
  | k :: ks, avail =>
    let r := classGrant dies k avail
    (k, r.1) :: grantRun dies ks r.2

/-- The grants of R532 for cap and fixed power in 1/8 W: per die, classes 1 to 3. -/
def powerGrants (dies : List PowerDie) (prio : List Nat) (cap fixed : Int) : List (Nat × Nat × Nat) :=
  let floors := (dies.map (fun p => floorOf p 1 + floorOf p 2 + floorOf p 3)).sum
  let run := grantRun dies prio (cap - fixed - floors)
  let cls (k i : Nat) : Nat := match run.find? (fun r => decide (r.1 = k)) with
    | some r => (r.2.getD i 0).toNat
    | none => 0
  (upTo dies.length).map (fun i => (cls 1 i, cls 2 i, cls 3 i))

/-- Fields of (width, value), the lowest first. -/
def packFields : List (Nat × Nat) → Nat
  | [] => 0
  | f :: l => f.2 % 2 ^ f.1 + 2 ^ f.1 * packFields l

/-- A B message (R530). -/
def budgetMessage (die kind period c1 c2 c3 measured floor tMax flags : Nat) : BitVec 256 :=
  BitVec.ofNat 256 (packFields [(8, die), (8, kind), (16, period), (16, c1), (16, c2), (16, c3), (16, measured), (16, floor),
    (8, tMax), (8, flags)])

/-- BUDGET_PERIOD (R530, R532): a period ends, the controller answers the latest demands, and the next begins. `fixed` is the fixed power measured, in 1/8 W, `watts` the VIN power over the last 1 ms,
`energy` the µJ drawn since the last period (R538). -/
def execBudgetPeriod (fixed watts : BitVec 16) (energy : BitVec 32) (s : State) : Host.Outcome State Fault Refusal :=
  let st := rd s (pw 0 0x1000)
  let dies := (upTo 12).map (pwGet s)
  let gs := powerGrants dies [fld st 32 2, fld st 34 2, fld st 36 2] (8 * fld st 0 16 : Nat) fixed.toNat
  let answer (d : Nat) : BitVec 256 := match gs[d]? with
    | some g => budgetMessage d 2 s.power.period g.1 g.2.1 g.2.2 0 0 0 0
    | none => 0
  let s := (upTo 12).foldl (fun s d => pwUpd s d (fun p => { p with grant := gs[d]?, answer := answer d })) s
  let s := incBy (wrF s (pw 0 0x1000) 16 16 watts.toNat) (pw 0 0x1008) energy.toNat
  .next { s with power := { s.power with period := s.power.period + 1 } }

/-- The duties in force: the lower of the grant's and the thermal limit's (R536). -/
def setDuties (s : State) (d : Nat) : State :=
  let p := pwGet s d
  let s := wrF s (pw d 0) 0 7 (min p.grantC p.thermC)
  let s := if d < 8 then wrF s (pw d 0) 7 7 (min p.grantM p.thermM) else s
  if d < 8 ∧ (min p.grantC p.thermC < 64 ∨ min p.grantM p.thermM < 64) then noteCause s d 3 else s

/-- GRANT_APPLY (R532, R534): once a period boundary has passed since its grant arrived, a die sets the duties that meet it.
Links have a duty only behind another class in the priority order. -/
def execGrantApply (d : Fin 12) (dutyC dutyM dutyL procMult : BitVec 7) (withheld slots : BitVec 16) (s : State) :
    Host.Outcome State Fault Refusal :=
  .next (match (pwGet s d).arrived with
  | none => s
  | some g =>
    if s.power.period ≤ (pwGet s d).arrivedIn then s else
    let clamp (x : BitVec 7) : Nat := max 8 (min 64 x.toNat)
    let links := if fld (rd s (pw 0 0x1000)) 32 2 = 1 then 64 else clamp dutyL
    let s := pwUpd s d (fun p => { p with
      arrived := none, grantC := clamp dutyC, grantM := if d.val < 8 then clamp dutyM else 64
      grantL := if d.val < 8 then links else 64
      procMult := if d.val < 8 then p.procMult else max 20 (min 34 procMult.toNat) })
    let s := wr s (pw d 0x18) (BitVec.ofNat 64 (g.1 % 2 ^ 16 + 2 ^ 16 * (g.2.1 % 2 ^ 16) + 2 ^ 32 * (g.2.2 % 2 ^ 16)))
    let s := incBy s (pw d 0x28) withheld.toNat
    let s := if d.val < 8 then incBy s (pw d 0x30) slots.toNat else s
    let s := setDuties s d
    let dem := rd s (pw d 0x10)
    if !(pwGet s d).capSeen && (decide (g.1 < fld dem 0 16) || decide (g.2.1 < fld dem 16 16)
        || decide (g.2.2 < fld dem 32 16)) then
      pwEvent (pwUpd s d (fun p => { p with capSeen := true })) d 0
    else s)

/-- DROOP (R535). -/
def execDroop (d : Fin 12) (cycles : BitVec 16) (s : State) : Host.Outcome State Fault Refusal :=
  let s := incBy (pwUpd s d (fun p => { p with drooping := true, drooped := true })) (pw d 0x20) cycles.toNat
  .next (if d.val < 8 then noteCause s d 2 else s)

/-- RAIL_RECOVERY (R535). -/
def execRailRecovery (d : Fin 12) (s : State) : Host.Outcome State Fault Refusal :=
  .next (pwUpd s d (fun p => { p with drooping := false }))

/-- A thermal duty after one step of 1/64 from the duty in force (R536): down to 8 above `hi`, up below `lo` until it meets the
duty `cap` of R534, where the limit ceases to act. -/
def thermStep (duty temp hi lo cap : Nat) : Nat :=
  if hi < temp then max 8 (min duty cap - 1)
  else if temp < lo then (if duty + 1 < cap then duty + 1 else 64)
  else duty

/-- The thermal duties take a step, not within 100 µs of the last one (R536). -/
def thermMove (s : State) (d tl ts : Nat) : State :=
  let p := pwGet s d
  let c := thermStep p.thermC tl 105 102 p.grantC
  let m := if d < 8 then thermStep p.thermM ts 95 92 p.grantM else 64
  if !sinceOk s p.thermAt 100000 || (decide (c = p.thermC) && decide (m = p.thermM)) then s
  else pwUpd s d (fun p => { p with thermC := c, thermM := m, thermAt := some (now s) })

/-- THERMAL_STEP (R536): at count `t` the hottest sensors of a die read `logic` and `stack`. -/
def execThermalStep (d : Fin 12) (logic stack : Byte) (t : W64) (s : State) : Host.Outcome State Fault Refusal :=
  let s := advance s t
  let tl := logic.toNat
  let ts := stack.toNat
  let s := wrF (wrF s (pw d 0) 16 8 tl) (pw d 0) 24 8 (if d.val < 8 then ts else 0)
  let s := thermMove s d tl ts
  let p := pwGet s d
  let s := setDuties (wrB s (pw d 0) 14 (decide (p.thermC < 64) || decide (p.thermM < 64))) d
  let crossed := decide (105 < tl) || (decide (d.val < 8) && decide (95 < ts))
  .next (refreshAlerts (if crossed && !p.thermSeen then
    pwEvent (pwUpd s d (fun p => { p with thermSeen := true })) d 1 else s))

/-- THERMAL_TRIP (R537): the sensor's die signals TRIP where it has a power block. -/
def execThermalTrip (d : Die) (s : State) : Host.Outcome State Fault Refusal :=
  .next (if !s.dev.vaux then s
  else
    let s := if d.val < 12 then pwEvent s d 2 else s
    let s := { s with dev := { s.dev with thermTrip := true, rails := false } }
    failDevice (failJob s stFault))

/-- The die models use the leakage that the history holds (R533, R541). -/
def storedLeakage (s : State) : State :=
  s.hist.leak.foldl (fun s x => wrB (pwUpd s x.1 (fun p => { p with leak := some x.2 })) (pw x.1 0) 15 false) s

/-- LEAKAGE_LEARNED (R533): `leak` is what a die measured in the start; it is in use from 10 ms after the start. -/
def execLeakageLearned (d : Fin 12) (leak : BitVec 16) (t : W64) (s : State) : Host.Outcome State Fault Refusal :=
  let s := advance s t
  .next (if s.dev.state = .cold ∨ s.dev.state = .starting then s
  else if !sinceOk s s.dev.steps.head? 10000000 then s
  else
    let s := wrB (pwUpd s d (fun p => { p with leak := some leak })) (pw d 0) 15 false
    let s := { s with hist := { s.hist with leak := Store.set (fun _ => 0) s.hist.leak d.val leak } }
    pwEvent s d 3)

/-- B_MESSAGE_DUE (R358, R530): the die reports its demands; PW_DEMAND holds them. -/
def execBMessageDue (d : Fin 12) (r : PowerReport) (s : State) : Host.Outcome State Fault Refusal :=
  let st := rd s (pw d 0)
  let s := wr s (pw d 0x10)
    (BitVec.ofNat 64 (r.dem1.toNat + 2 ^ 16 * r.dem2.toNat + 2 ^ 32 * r.dem3.toNat))
  let period := s.power.period
  .next (pwUpd s d (fun p => { p with
    floor1 := r.floor1.toNat, floor2 := r.floor2.toNat, floor3 := r.floor3.toNat, drooped := p.drooping
    sent := budgetMessage d 1 period r.dem1.toNat r.dem2.toNat r.dem3.toNat r.measured.toNat
      (r.floor1.toNat + r.floor2.toNat + r.floor3.toNat) (max (fld st 16 8) (fld st 24 8))
      (b2n (p.drooping || p.drooped) + 2 * b2n (bitOf st 14)) }))

/-- B (R530): a demand that reaches X0 becomes the controller's latest; a grant that reaches its die waits for the
next period boundary; at any other die the message is only forwarded. KIND values other than 1 and 2 are reserved
and have no effect. -/
def execBMessage (d : Die) (msg : BitVec 256) (s : State) : Host.Outcome State Fault Refusal :=
  let die := fld msg 0 8
  let kind := fld msg 8 8
  .next (if 12 ≤ die then s
  else if kind = 1 && decide (d.val = 12) then
    pwUpd s die (fun p => { p with dem1 := fld msg 32 16, dem2 := fld msg 48 16, dem3 := fld msg 64 16 })
  else if kind = 2 && decide (d.val = die) then
    pwUpd s die (fun p => { p with arrived := some (fld msg 32 16, fld msg 48 16, fld msg 64 16), arrivedIn := s.power.period })
  else s)

/-! ### Stabled (R539 to R542) -/

/-- Write back every dirty line of every junction cache and empty the caches and directories (R540). -/
def writeBackAll (s : State) : State :=
  let dirty := s.jlines.filter (fun p => decide (3 ≤ p.2.moesi))
  let s := dirty.foldl (fun s p => putLine s (p.1 % 2 ^ 35) p.2.data) s
  let s := { s with jlines := [], dir := [], deferred := [] }
  (upTo 8).foldl (fun s d => wr s (jn d 8) 0) s

end Sys2Proof.Machine
end

