-- ==== Sys2Proof/Machine/Jobs.lean ====
section
/-! DEFINITION. Jobs (R504 to R512, R525, R526): the manifest and its checks, arming, right-away and line clear, teardown,
tags and their quarantine. -/

namespace Sys2Proof.Machine

/-! ### The manifest (R504) -/

/-- HP_JOB_EVENT.WRITE_IGNORED with its notice (R526). -/
def jobIgnored (s : State) : State :=
  raise s 12 0x130 2 (reg (hp 0x100)) (reg (hp 0x118)) (reg (hp 0x120)) (reg (hp 0x128))

/-- HP_JOB_MANIFEST_WRITE (R525). -/
def execHpJobManifestWrite (v : W64) (s : State) : Host.Outcome State Fault Refusal :=
  .next (if s.job.state = .idle then wr s (hp 0x110) (v / 4096 * 4096) else jobIgnored s)

/-- Bytes of the signature. -/
def sigBytes : Nat := 7856

/-- Base and bytes of the landing area (R435). -/
def landBase (s : State) : Nat := (rd s (hp 0)).toNat
def landBytes (s : State) : Nat := (rd s (hp 8)).toNat * 65536

/-- What a command reads of the landing area at SRC, as coherent reads: a status, the bytes, and what the reads leave. A possessed
range refuses it, and a poisoned block is an uncorrectable-data error (R302, R339; entry 132). -/
def landRead (s : State) (src n : Nat) : Nat × List Byte × State :=
  let pa := landBase s + src
  if possessed s pa n then (stConflict, [], deny s pa 12 1)
  else if poisonedRange s pa n then (stFault, [], cohTouch s pa n)
  else (0, cohBytes s pa n, cohTouch s pa n)

/-- LENGTH of a manifest, and its fields by offset. -/
def mfLen (m : List Byte) : Nat := leAt m 8 4
def mfTempo (m : List Byte) : Nat := leAt m 6 1
def mfTag (m : List Byte) : BitVec 16 := BitVec.ofNat 16 (leAt m 12 2)
def mfPos (m : List Byte) : Nat := leAt m 24 1
def mfSize (m : List Byte) : Nat := leAt m 26 2

/-- A section of `n` bytes from offset `o` starts on 8 bytes and lies between the header and the signature. -/
def mfSection (m : List Byte) (o n : Nat) : Bool := decide (o % 8 = 0) && decide (192 ≤ o) && decide (o + n + sigBytes ≤ mfLen m)

/-- Granule ranges: base, granules. -/
def mfRanges (m : List Byte) : List (Nat × Nat) :=
  (upTo (leAt m 60 4)).map (fun i => (leAt m (leAt m 128 4 + 16 * i) 8, leAt m (leAt m 128 4 + 16 * i + 8) 4))

/-- The key envelope (R493). -/
def mfEnvelope (m : List Byte) : List Byte := slice m (leAt m 132 4) 1280

/-- MAGIC, VERSION, reserved fields, values within their ranges, sections inside LENGTH, GROUP_POS below GROUP_SIZE. -/
def mfFields (m : List Byte) : Bool :=
  let nr := leAt m 60 4
  let timeout := leAt m 48 8
  let limit := leAt m 56 4
  decide (leAt m 0 4 = 0x3947424A) && decide (leAt m 4 2 = 1) && decide (leAt m 7 1 < 2) && decide (mfTag m ≠ 0)
    && decide (leAt m 14 2 = 0) && decide (leAt m 16 8 / 2 ^ 52 = 0) && decide (leAt m 25 1 = 0)
    && decide (1000000 ≤ timeout) && decide (timeout ≤ 2 ^ 40) && decide (1 ≤ limit) && decide (limit ≤ 600000)
    && decide (nr ≤ 4096) && decide (leAt m 144 48 = 0)
    && (decide (nr = 0) || mfSection m (leAt m 128 4) (16 * nr)) && mfSection m (leAt m 132 4) 1280
    && (decide (leAt m 140 4 = 0) || mfSection m (leAt m 136 4) (leAt m 140 4))
    && (upTo nr).all (fun i => decide (leAt m (leAt m 128 4 + 16 * i + 12) 4 = 0))
    && decide (mfPos m < mfSize m)

/-- Tempos of the ordering code (R8), in the order of the bits of IDENTIFY.TEMPOS. -/
def tempoList : List Nat := [20, 24, 26, 27, 28, 30]
def tempoOf (ordering : Nat) : List Nat := if ordering = 0 then [20, 24, 26, 28, 30] else [20, 24, 26, 27]

/-- The tempo check: a tempo of the part (R8), permitted by the configuration image (R59). -/
def tempoFail (s : State) (t : Nat) : Nat :=
  if !(tempoOf s.guard.ordering).contains t then stRange
  else if (upTo 6).any (fun i => decide (tempoList.getD i 0 = t) && bitOf s.img.tempos i) then 0 else stDenied

/-- The first table of R519 that the manifest's needs exceed; 0 for none. -/
def mfTable (s : State) (m : List Byte) : Nat :=
  if 65536 < leAt m 32 4 then 1 else if 256 < mfSize m then 2 else if 256 < leAt m 36 4 then 3
  else if 16384 < leAt m 40 4 then 4 else if 65536 < leAt m 44 4 then 5
  else if s.job.quarantine.any (fun q => decide (q.1 = mfTag m)) then 7 else if 1048576 < leAt m 28 4 then 8 else 0

/-- The envelope names this package and the current arm key (R494 step 2). -/
def envelopeOk (s : State) (e : List Byte) : Bool :=
  decide (leAt e 0 4 = 0x3947454B) && decide (leAt e 4 2 = 1) && decide (leAt e 6 2 = 0) && decide (leAt e 12 4 = 0)
    && decide (leAt e 8 4 = s.guard.gpid.toNat) && s.guard.armEk.any (fun k => decide (slice e 16 32 = sha256 k))

/-- The checks of R505 after the copy and before the envelope: status and table. -/
def manifestFail (s : State) (m : List Byte) (sigOk : Bool) : Nat × Nat :=
  if !sigOk then (stSignature, 0)
  else if !mfFields m then (stBadField, 0)
  else if leAt m 16 4 ≠ s.guard.gpid.toNat then (stDenied, 0)
  else if tempoFail s (mfTempo m) ≠ 0 then (tempoFail s (mfTempo m), 0)
  else if mfTable s m ≠ 0 then (stExhausted, mfTable s m)
  else (0, 0)

/-- The checks of R505 on the granule ranges. -/
def rangesFail (s : State) (m : List Byte) : Nat :=
  let rs := mfRanges m
  let hits (b n : Nat) : Bool := rs.any (fun r => rangesMeet r.1 (r.2 * 0x200000) b n)
  if rs.any (fun r => decide (r.1 % 0x200000 ≠ 0)) then stAlign
  else if rs.any (fun r => decide (unifiedEnd < r.1 + r.2 * 0x200000)) then stRange
  else if hits (landBase s) (landBytes s) || hits (sealBase s) (sealBytes s) || hits (rd s (hp 0x110)).toNat 0x100000 then stConflict
  else 0

/-! ### Keys (R492, R494) -/

/-- A refused envelope or authorisation: counted, with its notice (R502, R503). -/
def authRefused (s : State) : State := gdEvent (inc s (gd 0x40)) 3

/-- A new arm key pair: its public key is drawn (R492). -/
def newArmKey (s : State) : State :=
  let (k, s) := drawBytes s 1184
  { s with guard := { s.guard with armEk := some k } }

/-- The arm key is consumed: the next pair stands in its place, and ARM_COUNT rises. -/
def consumeArmKey (s : State) : State := upd (newArmKey s) (gd 0) (fun w => satIncFld w 32 32)

/-! ### What a new job starts from -/

/-- Platform state that ARM_JOB and TEARDOWN both set to 0: planes (R115), vector registers (R180), stream-cache entries that are memory (R214), signals (R80), rule rows
(R266); and every fault record is freed (R323). -/
def zeroJobState (s : State) : State :=
  let s := freeAllRecs { s with signals := [], vregs := [] }
  let s := (upTo 64).foldl (fun s cl =>
    let lo := winBase (cl / 8) (cl % 8) + 0x1800000
    { s with mem := Store.eraseRange s.mem lo (lo + 0x800000) }) s
  (upTo 8).foldl (fun s d =>
    let s := (upTo 4).foldl (fun s q => setPlane s d q 0 0) s
    { s with regs := Store.eraseRange s.regs (up d 0x1000) (up d 0x3000) }) s

/-- What counts from ARM_JOB starts again: configuration fields (R127, R189, R270), first mismatches (R588, R589), the
counters of the translation units (R346), first power events (R535, R536), pair counters (R382), tag drops (R376), the job's
registers (R525), frame counters (R411, R438). -/
def armReset (s : State) : State :=
  let s := zeroJobState s
  let s := (upTo 8).foldl (fun s d =>
    let s := (upTo 15).foldl (fun s e => setEng s d e (fun x => { x with cfg := [], mismatched := false })) s
    let s := wr (wr s (tt d 0x28) 0) (ma d 0x50) 0
    let s := (upTo 8).foldl (fun s c => wr (wr (wr s (vc d c 0x60) 0) (sm d c 0x28) 0) (sm d c 0x10) 0) s
    (upTo 6).foldl (fun s i => wr s (tu d (0x30 + 8 * i)) 0) s) s
  let s := (upTo 12).foldl (fun s d => pwUpd s d (fun p => { p with capSeen := false, thermSeen := false })) s
  let s := [0x118, 0x120, 0x128, 0x140, 0x148, 0x150, 0x158].foldl (fun s o => wr s (hp o) 0) s
  let s := (upTo 16).foldl (fun s p => setPort s p (fun x => { x with tagSeen := false })) s
  { s with om := { s.om with pairTx := [], pairRx := [], refused := [] }
           colls := [], collRx := []
           job := { s.job with hostFrames := 0, sealTx := 0, sealRx := [], notClear := none } }

/-- What the manifest says comes into force, and the job is ARMING (R505). -/
def enterArming (s : State) (q : W32) (m : List Byte) : State :=
  let s := armReset (applyStep s)
  let s := (mfRanges m).foldl (fun s r => forgetGranules s r.1 r.2) s
  let s := setSelf s s.guard.gpid (mfPos m) (leAt m 20 4) true
  let s := wrF s (mtc 0x70) 8 8 (mfTempo m)
  let s := wr s (pw 0 0x1010) (rd s (pw 0 0x1008))
  let s := { s with job := { s.job with
    tag := mfTag m, armSeq := some q, armedAt := now s, tempo := mfTempo m, privTrains := Nat.testBit (leAt m 7 1) 0
    rank := leAt m 20 4, groupPos := mfPos m, groupSize := mfSize m, stationTimeout := leAt m 48 8
    armLimit := leAt m 56 4, ranges := mfRanges m, ttMeasure := slice m 64 32, ownerHash := sha256 (slice m 96 32)
    measure := sha256 m } }
  setJob s .arming 0

/-- The keys of an opened bundle are installed, and with them a fresh job memory key (R490, R493, R494). -/
def installKeys (s : State) (b : BitVec 1024) : State :=
  let (k, s) := drawBytes s 64
  let s := { s with job := { s.job with linkKey := BitVec.ofNat 256 (fld b 0 256), sealKey := BitVec.ofNat 256 (fld b 256 256)
                                        ckKey := BitVec.ofNat 512 (fld b 512 512), memKey := BitVec.ofNat 512 (leNat k) } }
  wrB s (gd 0) 4 true

/-- ARM_JOB after its manifest has been copied to the buffer (R505). -/
def armCopied (s : State) (q : W32) (m : List Byte) (sigOk : Bool) (bundle : Option (BitVec 1024)) : State :=
  let f := manifestFail s m sigOk
  if f.1 ≠ 0 then doneCmd s q f.1 f.2 0 []
  else if !envelopeOk s (mfEnvelope m) then failCmd (authRefused s) q stDenied
  else
    let s := consumeArmKey s
    match bundle with
    | none => failCmd (authRefused s) q stDenied
    | some b =>
      let s := installKeys { s with job := { s.job with ranges := [] } } b
      if rangesFail s m ≠ 0 then failCmd (destroyKeys s) q (rangesFail s m) else enterArming s q m

/-- ARM_JOB (R505): `sigOk` says whether the owner's signature verifies, `bundle` what the envelope opens to. -/
def execArmJob (seq : W32) (sigOk : Bool) (bundle : Option (BitVec 1024)) (s : State) : Host.Outcome State Fault Refusal :=
  .next (startCmd s seq 0x20 (fun _ => true) (fun b s =>
    let src := leAt b 32 4
    let len := leAt b 36 4
    let buf := (rd s (hp 0x110)).toNat
    let n := leNat (cohBytes s (landBase s + src + 8) 4)
    if buf = 0 ∨ !inUnified buf 0x100000 then failCmd s seq stState
    else if landBytes s < src + 12 then failCmd s seq stRange
    else if len < n ∨ n < 192 + sigBytes ∨ 2 ^ 20 < n then failCmd s seq stBadLength
    else if landBytes s < src + len then failCmd s seq stRange
    else
      match landRead s src n with
      | (0, m, s) => armCopied (cohWrite s buf m) seq m sigOk bundle
      | (st, _, s) => failCmd s seq st))

/-! ### Armed (R506, R507, R509) -/

/-- Group positions below GROUP_SIZE other than the package's own. -/
def groupOthers (s : State) : List Nat := (upTo s.job.groupSize).filter (fun g => decide (g ≠ s.job.groupPos))

/-- Flits of kinds 6 and 7 leave only under the group control key (R491). -/
def groupKeyed (s : State) : Bool := rdB s (gd 0) 3

/-- An ARMED flit to every position of the group (R509). -/
def announceArmed (s : State) : State :=
  let s := { s with job := { s.job with announcedAt := now s } }
  if groupKeyed s then
    (groupOthers s).foldl (fun s g =>
      let port := (routePort s 12 g).getD 0
      (sendUnbooked s 12 7 0 g (ctrlPayload 1 0 s.job.tag s.guard.gpid port (rd s (hp 0x118)))).1) s
  else s

/-- Every die has its image loaded, and the flush of every possession with START = 0 has finished (R98, R104). -/
def dieSetLoaded (s : State) : Bool :=
  (upTo 8).all (ttLoaded s) && s.ttx.poss.all (fun p => !decide (p.start = 0) || (p.begun && decide (p.flushing = 0)))

/-- Virtual addresses of the descriptors are the job's: bytes 42 and 43 name its ASID (R82). -/
def asidsOk (s : State) : Bool :=
  (upTo 8).all (fun d => (dieTT s d).descs.all (fun l => l.all (fun x =>
    (decide (tdSrcSpace x ≠ 0) && decide (tdDstSpace x ≠ 0)) || decide (tdNat x 42 2 = rdF s (tu d 0) 44 16))))

/-- The conditions of R313, R395 and R507 that ARM_DONE checks at once. -/
def armDoneOk (s : State) : Bool :=
  let satp := rd s (tu 0 0)
  (groupOthers s).all (fun g => bitOf (orEntry s g) 19) && !peersClash s
    && (upTo 8).all (fun d => decide (rd s (tu d 0) = satp)) && (decide (fld satp 60 4 = 9) || decide (fld satp 60 4 = 10))

/-- The job becomes ARMED once the runtime has said so, every load and flush is done (R506) and MAIN runs at its tempo (R60); what
R313 and R507 ask of it is asked again then, since writes go on while it is ARMING. -/
def tryArmed (s : State) : State :=
  if s.job.state = .arming && rdB s (hp 0x108) 0 && dieSetLoaded s && decide (rdF s (mtc 0x70) 0 8 = s.job.tempo) then
    if asidsOk s && armDoneOk s then
      let s := match s.job.armSeq with
        | some q => doneCmd s q 0 0 0 []
        | none => s
      let s := { s with job := { s.job with armSeq := none } }
      announceArmed (setJob (wr s (hp 0x108) 0) .armed 0)
    else armAbort s stConflict 0
  else s

/-- ARM_DONE (R507). -/
def execArmDone (s : State) : Host.Outcome State Fault Refusal :=
  .next (if s.job.state ≠ .arming then jobIgnored s
  else if armDoneOk s then tryArmed (wrB s (hp 0x108) 0 true)
  else armAbort s stConflict 0)

/-- POSSESSION_FLUSH_DONE (R95, R98). -/
def execPossessionFlushDone (d : ADie) (base : W64) (s : State) : Host.Outcome State Fault Refusal :=
  .next (match s.ttx.poss.find? (fun p => decide (p.base = base.toNat) && bitOf p.flushing d) with
  | none => s
  | some p =>
    let s := flushHome s d p.base p.granules
    let q := { p with flushing := putBit p.flushing d false }
    let s := if q.flushing = 0 ∧ 0 < p.start then (upTo 8).foldl (fun s x => noteRemote s x p.start) s else s
    tryArmed (showFlush { s with ttx := { s.ttx with poss := s.ttx.poss.map (fun x => if x = p then q else x) } }))

/-- TT_LOAD_COMPLETE (R104, R105): the checks in their order; a failure leaves the die as it was and ends ARM_JOB. -/
def execTtLoadComplete (d : ADie) (s : State) : Host.Outcome State Fault Refusal :=
  .next (if !rdB s (tt d 8) 0 then s
  else
    let r : Except LoadFail Tree := if s.job.state ≠ .arming then .error (stState, 0, 0) else match readTree s d with
      | .error f => .error f
      | .ok t => match loadFail s t with
        | some f => .error f
        | none => .ok t
    match r with
    | .ok t => tryArmed (installLoad s d t)
    | .error f =>
      let s := loadResult (wrB s (tt d 8) 0 false) d f
      let s := setTtState s d (if (dieTT s d).stations.isEmpty then 0 else 2)
      armAbort (ttEvent s d 1) f.1 f.2.1)

/-- MAIN_RELOCK (R60): MAIN runs at the manifest's tempo. -/
def execMainRelock (s : State) : Host.Outcome State Fault Refusal :=
  .next (if s.job.state = .arming then tryArmed (wrF s (mtc 0x70) 0 8 s.job.tempo) else s)

/-- FAIL (R506, R507). -/
def execFail (s : State) : Host.Outcome State Fault Refusal := .next (if jobLive s then failJob s stFault else jobIgnored s)

/-- ARM_LIMIT_EXPIRY (R506). -/
def execArmLimitExpiry (t : W64) (s : State) : Host.Outcome State Fault Refusal :=
  let s := advance s t
  .next (if s.job.state = .arming && decide (s.job.armedAt.toNat + s.job.armLimit * 1000000 ≤ (now s).toNat) then
    armAbort s stFault 0
  else s)

/-- ARMED_ANNOUNCE (R509): from ARMED until the package departs, 1 ms after the last announcement, at count `t`. -/
def execArmedAnnounce (t : W64) (s : State) : Host.Outcome State Fault Refusal :=
  let s := advance s t
  .next (if (now s).toNat < s.job.announcedAt.toNat + 1000000 then s
  else if s.job.state = .armed || (s.job.state = .held && rdB s (hp 0x100) 5) then announceArmed s else s)

/-! ### Right-away and line clear (R508, R510) -/

/-- RIGHT_AWAY (R508): every die waits for it; the peers are asked again, and their ARMED flits with another right-away no
longer count. -/
def execRightAway (seq : W32) (s : State) : Host.Outcome State Fault Refusal :=
  .next (startCmd s seq 0x21 (fun _ => true) (fun b s =>
    let r := leAt b 32 8
    if r < (now s).toNat + 5000000 then failCmd s seq stRange
    else
      let v := BitVec.ofNat 64 r
      let s := wr s (hp 0x118) v
      let s := (upTo 8).foldl (fun s d => setTtState (wr s (tt d 0x28) v) d 3) s
      let s := (upTo 4).foldl (fun s i => wr s (hp (0x140 + 8 * i)) 0) s
      doneCmd (announceArmed s) seq 0 0 0 []))

/-- The lowest port that leads to a position; 0 where none does. -/
def portToward (s : State) (g : Nat) : Nat := ((upTo 16).find? (fun p => bitOf (orEntry s g) p)).getD 0

/-- LINE_NOT_CLEAR for the lowest failing position, when it or its reason has changed (R510, R443). -/
def noteNotClear (s : State) : State :=
  match lineFailing s with
  | none => s
  | some (g, why) =>
    if s.job.notClear = some (g, why) then s
    else
      let s := wrB { s with job := { s.job with notClear := some (g, why) } } (hp 0x130) 1 true
      post s 5 0 (sourceOf 12 0x130) 0 (BitVec.ofNat 64 (why + 2 ^ 8 * g + 2 ^ 16 * portToward s g)) 0 0 0

/-- Every die that waits for right-away departs. -/
def departAll (s : State) : State :=
  (upTo 8).foldl (fun s d => if decide (ttState s d = 3) && mayDepart s d 0 then departDie s d 0 else s) s

/-- While departure is withheld: the package departs at the first beat at which line clear holds, else it says why not
(R510). -/
def lineAgain (s : State) : State :=
  if s.job.state = .held && rdB s (hp 0x100) 5 then
    if (lineFailing s).isNone then
      releaseHeld (departAll (wrB { s with job := { s.job with notClear := none } } (hp 0x100) 5 false))
    else noteNotClear s
  else s

/-- RIGHT_AWAY_REACHED (R506, R510). -/
def execRightAwayReached (t : W64) (s : State) : Host.Outcome State Fault Refusal :=
  let s := advance s t
  .next (if s.job.state = .armed && decide (rd s (hp 0x118) ≠ 0) && decide ((rd s (hp 0x118)).toNat ≤ (now s).toNat) then
    if (lineFailing s).isNone then departAll (setJob s .departed 0)
    else noteNotClear (wrB (setJob s .held 0) (hp 0x100) 5 true)
  else s)

/-! ### Teardown (R511) -/

/-- Every engine stops: what is in flight is abandoned (R511 step 1). -/
def stopEngines (s : State) : State :=
  let s := (upTo 8).foldl (fun s d =>
    (upTo 15).foldl (fun s e => setEng (setHold s d e none) d e (fun x => { x with reads := [], writes := [], spans := [], win := none })) s) s
  let s := (upTo 16).foldl (fun s p => setPort s p (fun x => { x with queue := x.queue.filter (fun f => !(decide (1 ≤ f.kind) && decide (f.kind ≤ 3))) })) s
  let s := { s with om := { s.om with reqs := s.om.reqs.filter (fun r => decide (r.agent ≠ 3)) } }
  let s := (upTo 64).foldl (fun s cl => wrB s (vc (cl / 8) (cl % 8) 0x38) 0 false) s
  { s with trains := [], calls := [], threads := [], resv := [], upds := [], colls := [], scRange := [], scPre := []
           sigOps := s.sigOps.filter (fun o => o.order.isNone && !o.setMode) }

/-- TEARDOWN (R511): step 1. -/
def execTeardown (seq : W32) (s : State) : Host.Outcome State Fault Refusal :=
  .next (startCmd s seq 0x22 (fun _ => true) (fun _ s =>
    let old := jobCode s.job.state
    let s := match s.job.armSeq with
      | some q => failCmd s q stWithdrawn
      | none => s
    let s := { s with job := { s.job with lastState := old, tdSeq := some seq, armSeq := none, tdAt := now s } }
    stopEngines (refreshAlerts (setJob (wrB (wr s (hp 0x108) 0) (hp 0x100) 5 false) .tearingDown 0))))

/-- Accepted commands that work for the job: PUT, GET and SIGNAL. -/
def jobCmd (c : Cmd) : Bool := [0x11, 0x12, 0x23].contains (slotOp c.slot)

/-- Unbooked work of the job: its commands that run, its signal operations, requests of the depot and seal engines, and REQs
(R511 step 2). Page requests are the runtime's, not the job's. -/
def jobWork (s : State) : Bool :=
  s.port.cmds.any (fun c => jobCmd c && decide (c.phase = .running)) || !s.sigOps.isEmpty
    || s.depot.reqs.any (fun r => decide (rqOp r.desc < 6)) || (npNext s).isSome || !s.om.reqs.isEmpty

/-- Whatever remains of the job's unbooked work completes with ST_WITHDRAWN (R511 step 2, R512). -/
def withdrawWork (s : State) : State :=
  let s := (s.port.cmds.filter (fun c => jobCmd c && decide (c.phase = .running))).foldl (fun s c => failCmd s c.seq stWithdrawn) s
  let s := { s with sigOps := []
                    om := { s.om with reqs := [] }
                    depot := { s.depot with reqs := s.depot.reqs.map (fun r =>
                      if rqOp r.desc < 6 && r.status.isNone then { r with status := some stWithdrawn, ids := [] } else r) } }
  (upTo (npRingSize s)).foldl (fun s _ => if (npNext s).isSome then npDone s stWithdrawn else s) s

/-- 100 ms have run since TEARDOWN, or since CLEAR. -/
def tdOver (s : State) : Bool := decide (s.job.tdAt.toNat + 100000000 ≤ (now s).toNat)

/-- TEARDOWN_WITHDRAW (R511): 100 ms have run at count `t`. -/
def execTeardownWithdraw (t : W64) (s : State) : Host.Outcome State Fault Refusal :=
  let s := advance s t
  .next (if s.job.state = .tearingDown && tdOver s then withdrawWork s else s)

/-- A link-local CTRL flit on every port that is UP or DEGRADED (R388). -/
def sendLinkLocal (s : State) (ctrl : Nat) (tag : BitVec 16) : State :=
  if groupKeyed s then
    (upTo 16).foldl (fun s p =>
      if linkUp s p then enqueue s p (txFlit s 7 0 0 (ownPos s) 0 (ctrlPayload ctrl 1 tag s.guard.gpid p 0)) else s) s
  else s

/-- Lines of the job's granules leave every coherent cache, and its sectors every stream cache, without write-back (R511 step
3); sectors of other memory are written back, and leave with the virtual addresses that name them (entry 134). -/
def dropJobLines (s : State) : State :=
  let hit (l : Nat) : Bool := s.job.ranges.any (fun r => decide (r.1 ≤ 64 * l) && decide (64 * l < r.1 + r.2 * 0x200000))
  let ls := ((s.dir.map Prod.fst) ++ (s.jlines.map Prod.fst).map (· % 2 ^ 35)).dedup.filter hit
  let s := ls.foldl (fun s l => invalidateLine s l false) s
  let mine (p : Nat × SCEntry) : Bool := s.job.ranges.any (fun r => decide (r.1 < p.2.ppage * 4096 + 4096)
    && decide (p.2.ppage * 4096 < r.1 + r.2 * 0x200000))
  let s := (upTo 64).foldl (fun s cl => if scEmpty s cl then s else scFlush s cl) { s with scEntries := s.scEntries.filter (fun p => !mine p) }
  (upTo 64).foldl scRefresh { s with scEntries := [], scStreams := [] }

/-- Steps 3 to 5 of R511. -/
def teardownSteps (s : State) : State :=
  let s := sendLinkLocal s 2 s.job.tag
  let s := dropJobLines (s.ttx.poss.filter (fun p => p.begun && !p.ended) |>.foldl possEnd s)
  let s := { s with mem := Store.eraseRange s.mem 0x4000000000000 (0x4000000000000 + 2 ^ 35) }
  let s := zeroJobState s
  let s := (upTo 8).foldl (fun s d => wr s (tu d 0) 0) s
  let s := { s with trans := { s.trans with tlb := [], walks := [], winCache := [] }, collRx := [] }
  let s := wr s (pw 0 0x1018) (rd s (pw 0 0x1008))
  destroyKeys s

/-- Put a tag into the quarantine; a newer tag displaces the oldest entry of a full one (R512). -/
def quarantineAdd (s : State) (tag : BitVec 16) : State :=
  let q := s.job.quarantine.filter (fun x => !decide (x.1 = tag)) ++ [(tag, now s)]
  { s with job := { s.job with quarantine := q.drop (q.length - 256) } }

/-- Take a tag out of the quarantine. -/
def quarantineDrop (s : State) (tag : BitVec 16) : State :=
  { s with job := { s.job with quarantine := s.job.quarantine.filter (fun x => !decide (x.1 = tag)) } }

/-! ### Figures of a job (R91, R432, R433) -/

/-- The sum of a field of one register over the A-dies. -/
def dieSum (s : State) (off lo len : Nat) : Nat := ((upTo 8).map (fun d => rdF s (tt d off) lo len)).sum

/-- The die with the largest lateness, the lowest on a tie. -/
def worstDie (s : State) : Nat :=
  (upTo 8).foldl (fun b d => if rdF s (tt b 0x40) 16 48 < rdF s (tt d 0x40) 16 48 then d else b) 0

/-- Bytes of the figures that GET_STATUS and TEARDOWN share: LATE_TOTAL, HOLDS, LATE_DEPARTURES, WORST_STATION, WORST_DIE. -/
def lateBytes (s : State) : List Byte :=
  leBytes 8 (min (dieSum s 0x30 0 64) (2 ^ 64 - 1)) ++ leBytes 4 (min (dieSum s 0x38 0 32) (2 ^ 32 - 1))
    ++ leBytes 4 (min (dieSum s 0x38 32 32) (2 ^ 32 - 1)) ++ leBytes 2 (rdF s (tt (worstDie s) 0x40) 0 16) ++ leBytes 1 (worstDie s)

/-- The TEARDOWN result (R433). -/
def teardownResult (s : State) : List Byte :=
  slice (leBytes 8 ((rd s (pw 0 0x1018)) - (rd s (pw 0 0x1010)) : W64).toNat ++ lateBytes s ++ leBytes 1 s.job.lastState ++ leBytes 4 0
    ++ leBytes 8 (rdF s (tt (worstDie s) 0x40) 16 48) ++ leBytes 8 (choices s) ++ leBytes 2 s.job.tag.toNat) 0 64

/-- TEARDOWN_COMPLETE (R511): the job's unbooked work is gone. -/
def execTeardownComplete (s : State) : Host.Outcome State Fault Refusal :=
  .next (if s.job.state = .tearingDown && !jobWork s then
    let s := teardownSteps s
    let r := teardownResult s
    let s := match s.job.tdSeq with
      | some q => doneCmd s q 0 0 0 r
      | none => s
    let s := unload s
    let s := { s with job := { s.job with tdSeq := none, ranges := [], tdAt := now s } }
    let s := wrF (wrF s (mtc 0x70) 0 8 20) (mtc 0x70) 8 8 0
    quarantineAdd (setJob s .clear 0) s.job.tag
  else s)

/-! ### Tags (R512) -/

/-- Something of the old tag remains: a command, a request, a REQ, or a flit in a retry or reorder buffer. -/
def tagCarried (s : State) : Bool :=
  let t := s.job.tag
  jobWork s || s.om.ports.any (fun p => p.2.queue.any (fun f => decide (f.tag = t)) || p.2.unacked.any (fun f => decide (f.tag = t))
    || p.2.held.any (fun f => decide (f.tag = t)))

/-- The package enters IDLE: CLEAR flits leave, the tag is gone, and the position is the configured one (R390, R512). -/
def enterIdle (s : State) : State :=
  let s := sendLinkLocal s 3 s.job.tag
  let s := setJob s .idle 0
  let s := { s with job := { s.job with tag := 0, rank := 0 } }
  setSelf s s.guard.gpid s.img.groupPos 0 false

/-- TAG_CLEARED (R512). -/
def execTagCleared (s : State) : Host.Outcome State Fault Refusal :=
  .next (if s.job.state = .clear && !tagCarried s then enterIdle s else s)

/-- CLEAR_TIMEOUT (R512): what is still tagged is withdrawn; flits of each port count in its OM_WITHDRAWN. -/
def execClearTimeout (t : W64) (s : State) : Host.Outcome State Fault Refusal :=
  let s := advance s t
  .next (if s.job.state = .clear && tdOver s then
    let t := s.job.tag
    let s := withdrawWork s
    let s := (upTo 16).foldl (fun s p =>
      let x := omPort s p
      let n := (x.queue.filter (fun f => decide (f.tag = t))).length + (x.unacked.filter (fun f => decide (f.tag = t))).length
        + (x.held.filter (fun f => decide (f.tag = t))).length
      let s := incBy s (omP p 0x60) n
      setPort s p (fun x => { x with queue := x.queue.filter (fun f => !decide (f.tag = t))
                                     unacked := x.unacked.filter (fun f => !decide (f.tag = t))
                                     held := x.held.filter (fun f => !decide (f.tag = t)) })) s
    enterIdle s
  else s)

/-- QUARANTINE_EXPIRY (R512): a tag leaves 1 s after it entered. -/
def execQuarantineExpiry (tag : BitVec 16) (t : W64) (s : State) : Host.Outcome State Fault Refusal :=
  let s := advance s t
  .next (if s.job.quarantine.any (fun x => decide (x.1 = tag) && decide (x.2.toNat + sec ≤ (now s).toNat)) then quarantineDrop s tag else s)

/-- An ARMED flit of position `src` (R509): its bit is set when tag, GPID and right-away agree. -/
def noteArmed (s : State) (src : Nat) (pl : BitVec 1792) : State :=
  if s.job.tag ≠ 0 && decide (payNat pl 2 2 = s.job.tag.toNat) && decide (payNat pl 4 4 = fld (orEntry s src) 32 32)
      && bitOf (orEntry s src) 19 && decide (payNat pl 16 8 = (rd s (hp 0x118)).toNat) then
    lineAgain (wrB s (hp (0x140 + 8 * (src / 64))) (src % 64) true)
  else s

end Sys2Proof.Machine
end

