-- ==== Sys2Proof/Machine/Functions.lean ====
section
/-! DEFINITION. Functions and their disable (R413, R451, R476, R513 to R515). -/

namespace Sys2Proof.Machine

/-- FUNC encodings. -/
def funcOf (v : Nat) : FuncState := if v = 0 then .enabled else if v = 1 then .draining else .disabled

/-- A path of a loaded timetable is booked on port `p` (R413). -/
def portBooked (s : State) (p : Nat) : Bool :=
  (upTo 8).any (fun d => (dieTT s d).books.any (fun x => decide (fld x 0 16 = 3) && decide (pathPort s (fld x 16 8) (fld x 24 8) = some p)))

/-- State of a function, by SET_FUNCTION's KIND and INDEX. -/
def funcState (s : State) (kind i : Nat) : FuncState :=
  if kind = 1 then funcOf (portFunc s i)
  else if kind = 2 then funcOf (Store.get (fun _ => 0) s.npFunc i)
  else funcOf (rdF s (dpCh i) 0 2)

/-- NPERST_N of port Nn is driven low while the port is DISABLED, and released when it is enabled (R571). -/
def holdNport (s : State) (n : Nat) (low : Bool) : State :=
  let b := BitVec.ofNat 4 (2 ^ n)
  { s with dev := { s.dev with npRst := if low then s.dev.npRst &&& ~~~b else s.dev.npRst ||| b } }

/-- Move a function; its FUNCTION notice, and FUNC_CHANGED of an Ommet port (R414, R443). -/
def setFunc (s : State) (kind i : Nat) (st : FuncState) (withdrawn : Nat) : State :=
  let old := funcState s kind i
  let v := funcCode st
  let s := if kind = 1 then wrF s (omP i 0) 2 2 v
    else if kind = 2 then holdNport { s with npFunc := Store.set (fun _ => 0) s.npFunc i v } i (v = 2)
    else wrF s (dpCh i) 0 2 v
  let s := functionNotice (noteDrain s (256 * kind + i) (v = 1)) kind i old st withdrawn
  if kind = 1 then omEvent s i 6 else s

/-- SET_FUNCTION in progress on a function completes with ST_OK (R434). -/
def endSetFunction (s : State) (kind i : Nat) : State :=
  match s.port.cmds.find? (fun c => decide (slotOp c.slot = 0x30) && decide (c.phase = .running) && decide (leAt c.slot 32 1 = kind)
      && decide (leAt c.slot 33 1 = i)) with
  | some c => doneCmd s c.seq 0 0 0 []
  | none => s

/-- Why a disable of an ENABLED function is refused; 0 where it is not (R413, R476). -/
def disableFail (s : State) (kind i : Nat) : Nat :=
  if kind = 1 && portBooked s i then stConflict
  else if kind = 3 && (!s.depot.rebuilds.isEmpty || !s.depot.rewriting.isEmpty
      || (upTo 32).any (fun c => decide (c ≠ i) && decide (rdF s (dpCh c) 0 2 ≠ 0))) then stConflict
  else 0

/-- Request a disable: the status it has at once, none while it drains. -/
def requestDisable (s : State) (kind i : Nat) : State × Option Nat :=
  match funcState s kind i with
  | .enabled => if disableFail s kind i = 0 then (setFunc s kind i .draining 0, none) else (s, some (disableFail s kind i))
  | .draining => (s, some stBusy)
  | .disabled => (s, some 0)

/-- A depot channel that returns rewrites its stripes first (R476). -/
def stripesBehind (s : State) (i : Nat) : State := { s with depot := { s.depot with rewriting := s.depot.rewriting ++ [i] } }

/-- Request an enable (R413, R476, R515): an Ommet port returns to TRAINING. -/
def requestEnable (s : State) (kind i : Nat) : State × Nat :=
  match funcState s kind i with
  | .enabled => (s, 0)
  | .draining => (s, stBusy)
  | .disabled =>
    let s := setFunc s kind i .enabled 0
    if kind = 1 then (wrF s (omP i 0) 0 2 1, 0) else if kind = 3 then (stripesBehind s i, 0) else (s, 0)

/-- Units of a KIND. -/
def kindUnits (kind : Nat) : Nat := if kind = 1 then 16 else if kind = 2 then 4 else 32

/-- SET_FUNCTION with ACTION 0. -/
def execSetFunctionDisable (seq : W32) (s : State) : Host.Outcome State Fault Refusal :=
  .next (startCmd s seq 0x30 (fun b => decide (leAt b 34 1 = 0)) (fun b s =>
    if kindUnits (leAt b 32 1) ≤ leAt b 33 1 then failCmd s seq stRange
    else
      match requestDisable s (leAt b 32 1) (leAt b 33 1) with
      | (s, some st) => failCmd s seq st
      | (s, none) => s))

/-- SET_FUNCTION with ACTION 1. -/
def execSetFunctionEnable (seq : W32) (s : State) : Host.Outcome State Fault Refusal :=
  .next (startCmd s seq 0x30 (fun b => decide (leAt b 34 1 = 1)) (fun b s =>
    if kindUnits (leAt b 32 1) ≤ leAt b 33 1 then failCmd s seq stRange
    else
      let (s, st) := requestEnable s (leAt b 32 1) (leAt b 33 1)
      failCmd s seq st))

/-- OM_CTRL_DISABLE (R413): a refused request changes nothing. -/
def execOmCtrlDisable (p : PortIx) (s : State) : Host.Outcome State Fault Refusal := .next (requestDisable s 1 p.val).1

/-- OM_CTRL_ENABLE (R413). -/
def execOmCtrlEnable (p : PortIx) (s : State) : Host.Outcome State Fault Refusal := .next (requestEnable s 1 p.val).1

/-! ### The end of draining -/

/-- Outstanding REQs that left by port `p`. -/
def portReqs (s : State) (p : Nat) : List OutReq := s.om.reqs.filter (fun r => decide (r.port = p))

/-- GETs that route to port Nn and have not completed (R515). -/
def nportGets (s : State) (n : Nat) : List Cmd :=
  s.port.cmds.filter (fun c => decide (slotOp c.slot = 0x12) && decide (leAt c.slot 44 1 = n + 1) && !decide (c.phase = .waiting)
    && decide (c.status = 0))

/-- Work left on a function. -/
def funcWork (s : State) (kind i : Nat) : Nat :=
  if kind = 1 then (omPort s i).queue.length + (omPort s i).unacked.length + (portReqs s i).length
  else if kind = 2 then (nportGets s i).length
  else 0

/-- A REQ completes with ST_WITHDRAWN at its agent. -/
def reqWithdrawn (s : State) (r : OutReq) : State :=
  let s := { s with om := { s.om with reqs := s.om.reqs.filter (fun x => !decide (x.id = r.id)) } }
  if r.agent = 2 then depotReply s r.owner stWithdrawn [] true else s

/-- The link of an Ommet port goes DOWN; in-band time on it loses its source (R413, R48). -/
def ommetDown (s : State) (p : Nat) : State :=
  let s := wrF (wrF s (omP p 0) 0 2 0) (omP p 0) 4 9 0
  let s := wrB s (omP p 0x10) 63 false
  let s := if rdB s (omP p 0) 13 then sourceLost (wrB (wrB s (omP p 0) 13 false) (mtc 8) 5 false) else s
  setPort s p (fun x => { x with change := none, agreed := false })

/-- A port sends PORT_DISABLE as its last flit (R389, R413). -/
def sendPortDisable (s : State) (p : Nat) : State :=
  if linkUp s p then
    let pos := BitVec.ofNat 8 (ownPos s)
    let f : Flit := { lseq := BitVec.ofNat 12 (omPort s p).nextTx, lack := BitVec.ofNat 12 ((omPort s p).nextRx + 4095), ackKind := 0
                      kind := 8, path := 0, tag := 0, dst := pos, src := pos, pseq := 0, payload := linkPayload 3 0 0 0
                      fecOk := true, macOk := true, ts := 0 }
    inc (setPort s p (fun x => { x with last := some f, wire := flitWire s f 0, nextTx := (x.nextTx + 1) % 4096 })) (omP p 0x50)
  else s

/-- Draining ends, and what is left is withdrawn (R413, R476, R513, R515); `nand` is how many operations a depot channel had in
flight. -/
def drainEnd (s : State) (kind i nand : Nat) : State :=
  let n := if kind = 3 then nand else funcWork s kind i
  let s :=
    if kind = 1 then
      let s := (portReqs s i).foldl reqWithdrawn s
      let s := incBy (setPort s i (fun x => { x with queue := [], unacked := [], held := [] })) (omP i 0x60) n
      ommetDown (sendPortDisable s i) i
    else if kind = 2 then nportDown ((nportGets s i).foldl (fun s c => failCmd s c.seq stWithdrawn) s) i
    else incBy s (dp 0x60) n
  endSetFunction (setFunc s kind i .disabled n) kind i

/-- KIND and INDEX of a function in this package. -/
def funcKind : FunctionId → Nat × Nat
  | .ommet p => (1, p.val)
  | .nport n => (2, n.val)
  | .depot c => (3, c.val)
  | .host => (4, 0)

/-- FUNCTION_DRAINED (R513): no work is left. -/
def execFunctionDrained (f : FunctionId) (s : State) : Host.Outcome State Fault Refusal :=
  let k := funcKind f
  .next (if k.1 = 4 then
    if s.port.func = .draining && s.port.cmds.all (fun c => decide (c.phase = .waiting)) then hostDrainEnd s else s
  else if funcState s k.1 k.2 = .draining && decide (funcWork s k.1 k.2 = 0) then drainEnd s k.1 k.2 0 else s)

/-- The 100 ms in which a function drains have run (R513). -/
def drainOver (s : State) (kind i : Nat) : Bool :=
  decide (Store.get (fun _ => 0) s.dev.drainAt (256 * kind + i) + 100000000 ≤ (now s).toNat)

/-- FUNCTION_DRAIN_EXPIRY (R513): 100 ms have run at count `t`; `nand` NAND operations were still in flight on a depot channel
(R476). -/
def execFunctionDrainExpiry (f : FunctionId) (t : W64) (nand : W32) (s : State) : Host.Outcome State Fault Refusal :=
  let k := funcKind f
  let s := advance s t
  .next (if !drainOver s k.1 k.2 then s
  else if k.1 = 4 then (if s.port.func = .draining then hostDrainEnd s else s)
  else if funcState s k.1 k.2 = .draining then drainEnd s k.1 k.2 nand.toNat else s)

/-- A fault takes a port down (R381, R514): a DRAINING port is then DISABLED, and a booked path fails the job. -/
def portFault (s : State) (p : Nat) : State :=
  let booked := portBooked s p
  let s := omEvent (ommetDown s p) p 3
  let s := if portFunc s p = 1 then endSetFunction (setFunc s 1 p .disabled (funcWork s 1 p)) 1 p else s
  lineAgain (if booked then failJob s stFault else s)

end Sys2Proof.Machine
end

