-- ==== Sys2Proof/Machine/Lands.lean ====
section
/-! DEFINITION. Supplies and the management target (chapter "Lands, signals and electrical limits"), and what a
restart leaves (R561). -/

namespace Sys2Proof.Machine

/-- The registers a restart and a loss of VIN leave: the MTC block (R36), the fused security count (R483), the
package energy counter (R538) and what the depot counts from its first format (R477). -/
def keptRegs (s : State) : Store W64 :=
  s.regs.filter (fun p => (decide (mtc 0 ≤ p.1) && decide (p.1 < mtc 0x80)) || decide (p.1 = gd 0x18)
    || decide (p.1 = pw 0 0x1008) || (decide (dp 0x40 ≤ p.1) && decide (p.1 < dp 0x68)))

/-- Every part at its reset state but the MTC, the fuses, the NOR, the NAND, the management target on VAUX, and
what lies outside the package (R561, R568). -/
def wipe (s : State) : State :=
  let r := State.reset
  let s' : State := { r with
    pending := s.pending, regs := keptRegs s, hostMem := s.hostMem, nportMem := s.nportMem, mtcx := s.mtcx
    guard := { r.guard with
      deviceSeed := s.guard.deviceSeed, gpid := s.guard.gpid, ordering := s.guard.ordering
      operatorHash := s.guard.operatorHash, norFw := s.guard.norFw, norCfg := s.guard.norCfg
      norCert := s.guard.norCert, aliveX0 := s.guard.aliveX0, aliveX1 := s.guard.aliveX1 }
    depot := { r.depot with objects := s.depot.objects, pages := s.depot.pages, blocks := s.depot.blocks
                            retiredAt := s.depot.retiredAt }
    hist := s.hist, marks := s.marks, sweeps := s.sweeps
    dev := { r.dev with vaux := s.dev.vaux, vin := s.dev.vin, service := s.dev.service, badSites := s.dev.badSites
                        thermTrip := s.dev.thermTrip }
    mgmt := s.mgmt, freeIx := s.freeIx }
  wr s' (mtc 0x70) 20

/-- Begin a start: step 1 is in progress (R545). -/
def beginStart (s : State) : State :=
  let s := { s with dev := { s.dev with state := .starting, rails := true, restarting := false } }
  refreshAlerts (wr (wr { s with dev := { s.dev with steps := [now s] } } (hp 0x200) 1) (hp 0x208) (now s))

/-- VAUX_VALID (R567). -/
def execVauxValid (serviceHigh : Bool) (s : State) : Host.Outcome State Fault Refusal :=
  .next (if s.dev.vaux then s
  else
    let s := wr (wr (wr (wr s (mtc 0) 0) (mtc 8) (regReset (mtc 8))) (mtc 0x18) 0) (mtc 0x58) 0
    { wr s (mtc 0x60) 0 with
      mtcx := State.reset.mtcx
      dev := { s.dev with vaux := true, state := .cold, rails := false, service := !serviceHigh } })

/-- VIN_VALID (R567). -/
def execVinValid (s : State) : Host.Outcome State Fault Refusal :=
  .next { s with dev := { s.dev with vin := true } }

/-- RAILS_IN_REGULATION (R567) at count `t`: regulation has started at beat 1,000,000 or later, with VIN in range. -/
def execRailsInRegulation (t : W64) (s : State) : Host.Outcome State Fault Refusal :=
  let s := advance s t
  .next (if s.dev.vaux && s.dev.vin && !s.dev.service && s.dev.state = .cold && decide (1000000 ≤ (now s).toNat) then beginStart s else s)

/-- VIN_LOSS (R568). -/
def execVinLoss (s : State) : Host.Outcome State Fault Refusal :=
  .next (if s.dev.state = .cold || !s.dev.vaux then { s with dev := { s.dev with vin := false } }
  else
    let s := wipe (destroyKeys s)
    refreshAlerts { s with dev := { s.dev with state := .cold, vin := false, rails := false } })

/-- VAUX_LOSS: the whole package stops; when VAUX returns the MTC restarts at 0 (R568). -/
def execVauxLoss (s : State) : Host.Outcome State Fault Refusal :=
  .next (if !s.dev.vaux then s
  else
    let w := wipe s
    let kept := w.regs.filter (fun p => decide (p.1 = gd 0x18) || (decide (dp 0x40 ≤ p.1) && decide (p.1 < dp 0x68)))
    let w := { w with regs := kept, mtcx := State.reset.mtcx
                      mgmt := State.reset.mgmt }
    { w with dev := { w.dev with state := .cold, vaux := false, rails := false, thermTrip := false } })

/-- MANAGEMENT_READY (R567), at beat 20,000,000. -/
def execManagementReady (s : State) : Host.Outcome State Fault Refusal :=
  let s := advance s 20000000
  .next (if s.dev.vaux then { s with mgmt := { s.mgmt with ready := true } } else s)

/-- RESTART (R561): every part resets but the MTC and the fuses, and start step 1 begins. -/
def execRestart (s : State) : Host.Outcome State Fault Refusal :=
  .next (if s.dev.restarting then beginStart (wipe s) else s)

/-! ### The management target (R575 to R577) -/

/-- The six bytes of the provisioned identifier, most significant first: its low 32 bits are those of the GPID. -/
def i3cPid (s : State) : List Byte := (leBytes 6 (s.guard.gpid.toNat + 2 ^ 32 * Config.i3cPidHigh.toNat)).reverse

/-- Change the management target when it answers. -/
def mgmtDo (s : State) (f : Mgmt → Mgmt) : State :=
  if s.dev.vaux && s.mgmt.ready then { s with mgmt := f s.mgmt } else s

/-- ENTDAA (R575). -/
def execEntdaa (addr : BitVec 7) (s : State) : Host.Outcome State Fault Refusal :=
  .next (mgmtDo s (fun m => if m.dynAddr.isNone then
    { m with dynAddr := some addr, answer := i3cPid s ++ [Config.i3cBcr, Config.i3cDcr] } else m))

/-- SETDASA (R575), to the target at a static address. -/
def execSetdasa (target addr : BitVec 7) (s : State) : Host.Outcome State Fault Refusal :=
  .next (mgmtDo s (fun m => if m.dynAddr.isNone && decide (target = s.img.i3cAddr) then { m with dynAddr := some addr } else m))

/-- RSTDAA (R575). -/
def execRstdaa (s : State) : Host.Outcome State Fault Refusal :=
  .next (mgmtDo s (fun m => { m with dynAddr := none }))

/-- GETPID (R575). -/
def execGetpid (s : State) : Host.Outcome State Fault Refusal :=
  .next (mgmtDo s (fun m => { m with answer := i3cPid s }))

/-- GETBCR (R575). -/
def execGetbcr (s : State) : Host.Outcome State Fault Refusal :=
  .next (mgmtDo s (fun m => { m with answer := [Config.i3cBcr] }))

/-- GETDCR (R575). -/
def execGetdcr (s : State) : Host.Outcome State Fault Refusal :=
  .next (mgmtDo s (fun m => { m with answer := [Config.i3cDcr] }))

/-- GETSTATUS: the two status bytes, whose contents the spec does not give, are free bytes. -/
def execGetstatus (s : State) : Host.Outcome State Fault Refusal :=
  let (b, s) := drawBytes s 2
  .next (mgmtDo s (fun m => { m with answer := b }))

/-- ENEC (R575). -/
def execEnec (s : State) : Host.Outcome State Fault Refusal := .next (mgmtDo s (fun m => { m with ibiOn := true }))
/-- DISEC (R575). -/
def execDisec (s : State) : Host.Outcome State Fault Refusal := .next (mgmtDo s (fun m => { m with ibiOn := false }))

/-- A write of any other byte count or index is acknowledged and ignored (R576). -/
def execManagementIndexWrite (bytes : List Byte) (s : State) : Host.Outcome State Fault Refusal :=
  .next (match bytes with
  | [i] => if i.toNat ≤ 8 then mgmtDo s (fun m => { m with index := some i }) else s
  | _ => s)

/-- The hottest logic junction and the hottest stack (R432, R576). -/
def hottest (s : State) (lo : Nat) : Nat := ((upTo 12).map (fun d => rdF s (pw d 0) lo 8)).foldl max 0

/-- The management register at an index (R576). -/
def mgmtReg (s : State) (i : Nat) : W64 :=
  if i = 0 then BitVec.ofNat 64 ((if s.dev.service then 6 else deviceCode s.dev.state) + 8 * jobCode s.job.state)
  else if i = 1 then BitVec.setWidth 64 s.guard.gpid
  else if i = 2 then readReg s (hp 0x200)
  else if i = 3 then rd s (hp 0x208)
  else if i = 4 then rd s (pw 0 0x1000)
  else if i = 5 then rd s (pw 0 0x1008)
  else if i = 6 then BitVec.ofNat 64 (hottest s 16 + 2 ^ 8 * hottest s 24)
  else if i = 7 then now s
  else BitVec.ofNat 64 s.mgmt.lastReason

/-- A private read before any index write answers free bytes: the spec gives them no value. -/
def execManagementPrivateRead (s : State) : Host.Outcome State Fault Refusal :=
  .next (match s.mgmt.index with
  | some i => mgmtDo s (fun m => { m with answer := leBytes 8 (mgmtReg s i.toNat).toNat })
  | none =>
    let (b, s) := drawBytes s 8
    mgmtDo s (fun m => { m with answer := b }))

/-- CORE_FAULT (R516): the core at a site stops; the site counts as faulty from the next start (R342). -/
def execCoreFault (p : Fin 4) (site : Fin 40) (s : State) : Host.Outcome State Fault Refusal :=
  let m := Store.set (fun _ => false) s.dev.badSites (p.val * 64 + site.val) true
  .next { s with dev := { s.dev with badSites := m } }

end Sys2Proof.Machine
end

