-- ==== Sys2Proof/Machine/Identity.lean ====
section
/-! DEFINITION. What the package tells of itself: the unit map (R558), IDENTIFY (R431, R550), GET_STATUS (R432) and the
attestation report (R488). -/

namespace Sys2Proof.Machine

/-- The part's GPID as bytes, and the running firmware's version and SVN (R502). -/
def fwVersion (s : State) : Nat := rdF s (gd 0x10) 0 32
def fwSvn (s : State) : Nat := rdF s (gd 0x10) 32 32

/-- GD_STATUS.ACTIVE. -/
def activeGuard (s : State) : Nat := rdF s (gd 0) 0 1

/-! ### The unit map (R558) -/

/-- Physical core site of a hart (R342). -/
def coreSite (s : State) (h : Nat) : Nat := Store.get (fun h => h % 36) s.dev.cores h

/-- The register that lists the spares of the bundle which die `r` receives from die `x`; what an X-die receives stands in the
block of its neighbour. -/
def rxBundle (r x b i : Nat) : Nat := if r < 12 then cwRepair r x b i else cwRepair x (r + 2) b i

/-- The CHAWEN part: by receiving die, sending die and bundle, the position that each spare carries. -/
def chawenMap (s : State) : List Byte :=
  (upTo 14).flatMap (fun r => (upTo 14).flatMap (fun x => (upTo (linkWidth r x)).flatMap (fun b => (upTo 32).flatMap (fun n =>
    let w := rdF s (rxBundle r x b (n / 4)) (16 * (n % 4)) 16
    leBytes 2 (if 2 ^ 15 ≤ w then w % 1024 else 0xFFFF)))))

/-- The unit map record with SEQ as 0, as its digest covers it. -/
def unitMap (s : State) : List Byte :=
  leBytes 4 0x39474D55 ++ leBytes 2 1 ++ leBytes 2 0 ++ leBytes 8 0
    ++ (upTo 8).flatMap (fun d => leBytes 1 (rdF s (ma d 0x10) 0 6) ++ leBytes 1 (rdF s (ma d 0x10) 8 6))
    ++ (upTo 64).flatMap (fun k => (upTo 32).flatMap (fun e =>
      leBytes 2 (rdF s (vc (k / 8) (k % 8) (0x100 + 8 * (e / 4))) (16 * (e % 4)) 11)))
    ++ (upTo 144).flatMap (fun h => leBytes 1 (coreSite s h))
    ++ (upTo 32).flatMap (fun n => (upTo 288).flatMap (fun k => leBytes 2 (rdF s (bkSlot n (k / 9) (k % 9)) 0 9)))
    ++ chawenMap s
    ++ (upTo 16).flatMap (fun p => (upTo 8).flatMap (fun l => leBytes 1 (rdF s (omP p 0x18) (4 * l) 4)))
    ++ leBytes 1 (activeGuard s) ++ leBytes 7 0

/-- UNITMAP_DIGEST. -/
def unitDigest (s : State) : List Byte := sha256 (unitMap s)

/-! ### Results -/

/-- The start has ended step `k`; after READY every step has (R550). -/
def stepDone (s : State) (k : Nat) : Bool := s.dev.everReady || decide (k < rdF s (hp 0x200) 0 4)

/-- A value of `n` bytes, 0 until step `k` has ended. -/
def fromStep (s : State) (k n v : Nat) : List Byte := leBytes n (if stepDone s k then v else 0)

/-- TEMPOS: what R8 and the configuration image both allow (R554). -/
def temposOf (s : State) : Nat :=
  ((upTo 6).map (fun i =>
    if (tempoOf s.guard.ordering).contains (tempoList.getD i 0) && bitOf s.img.tempos i then 2 ^ i else 0)).sum

/-- LUNs in service. -/
def depotLuns (s : State) : Nat := rdF s (dp 0) 2 10

/-- The IDENTIFY result (R431). -/
def identifyBytes (s : State) : List Byte :=
  slice (leBytes 2 1 ++ leBytes 2 0xB0 ++ leBytes 1 s.guard.ordering ++ fromStep s 2 1 (temposOf s) ++ leBytes 2 0
    ++ leBytes 8 fingerprint ++ leBytes 4 s.guard.gpid.toNat ++ fromStep s 2 4 (fwVersion s)
    ++ slice (if stepDone s 2 then s.guard.fwMeasure else []) 0 32 ++ slice (if stepDone s 2 then s.guard.cfgMeasure else []) 0 32
    ++ fromStep s 5 8 2199023255552 ++ fromStep s 5 2 144 ++ fromStep s 4 2 (depotLuns s)
    ++ fromStep s 4 4 ((rd s (dp 0x28)).toNat / 10 ^ 9) ++ fromStep s 2 1 s.img.groupPos) 0 128

/-- Lowest next station over the A-dies. -/
def nextStation (s : State) : Nat := ((upTo 8).map (fun d => rdF s (tt d 0x20) 0 16)).foldl min (2 ^ 16 - 1)

/-- PORTS and NPORTS of GET_STATUS. -/
def portByte (s : State) (p : Nat) : Nat := linkState s p + 4 * portFunc s p + 16 * rdF s (omP p 0x18) 32 4
def nportByte (s : State) (n : Nat) : Nat := rdF s (np 0) (4 * n) 2 + 4 * Store.get (fun _ => 0) s.npFunc n

/-- The GET_STATUS result (R432). -/
def statusBytes (s : State) : List Byte :=
  slice (leBytes 1 (deviceCode s.dev.state) ++ leBytes 1 (jobCode s.job.state) ++ leBytes 1 (mtcState s) ++ leBytes 1 0
    ++ leBytes 2 s.job.tag.toNat ++ leBytes 2 (nextStation s) ++ leBytes 8 (now s).toNat ++ lateBytes s ++ leBytes 5 0
    ++ leBytes 8 (rdF s (tt (worstDie s) 0x40) 16 48) ++ leBytes 8 (choices s) ++ leBytes 8 (rd s (pw 0 0x1008)).toNat
    ++ fromStep s 2 2 (rdF s (pw 0 0x1000) 0 16) ++ leBytes 2 (rdF s (pw 0 0x1000) 16 16)
    ++ leBytes 1 (hottest s 16) ++ leBytes 1 (hottest s 24) ++ leBytes 10 0
    ++ slice (if stepDone s 5 then unitDigest s else []) 0 32
    ++ (upTo 32).flatMap (fun n => fromStep s 5 1 (rdF s (bkS n 0) 2 4)) ++ (upTo 16).flatMap (fun p => fromStep s 8 1 (portByte s p))
    ++ (upTo 4).flatMap (fun n => fromStep s 8 1 (nportByte s n)) ++ fromStep s 4 2 (depotLuns s)
    ++ leBytes 1 (b2n (decide (dpState s = 2))) ++ leBytes 1 (activeGuard s)) 0 256

/-- Bytes 0 to 10,631 of the report (R488). -/
def reportBody (s : State) (nonce : List Byte) : List Byte :=
  let job (l : List Byte) : List Byte := slice (if s.job.tag = 0 then [] else l) 0 32
  leBytes 4 0x39475441 ++ leBytes 2 1 ++ leBytes 1 (deviceCode s.dev.state) ++ leBytes 1 (jobCode s.job.state) ++ leBytes 4 27720
    ++ leBytes 1 (mtcState s) ++ leBytes 1 (activeGuard s) ++ leBytes 2 s.job.tag.toNat ++ leBytes 4 s.guard.gpid.toNat
    ++ leBytes 4 (ownRank s) ++ leBytes 1 (ownPos s) ++ leBytes 3 0 ++ leBytes 4 (fwVersion s) ++ leBytes 8 (now s).toNat
    ++ leBytes 8 fingerprint ++ leBytes 4 (fwSvn s) ++ leBytes 4 (rdF s (gd 0) 32 32) ++ slice nonce 0 32
    ++ slice s.guard.challenge 0 32 ++ slice s.guard.fwMeasure 0 32 ++ slice s.guard.cfgMeasure 0 32
    ++ slice (s.guard.operatorHash.getD []) 0 32 ++ job s.job.measure
    ++ (upTo 4).flatMap (fun i => leBytes 8 (rd s (tt 0 (0x50 + 8 * i))).toNat) ++ job s.job.ownerHash ++ unitDigest s
    ++ slice (s.guard.armEk.getD []) 0 1184 ++ slice (if rdB s (gd 0) 2 then s.guard.norCert.getD [] else []) 0 9104

/-- The report: its body and the identity signature over it. -/
def report (s : State) (nonce : List Byte) : List Byte :=
  let b := reportBody s nonce
  b ++ (upTo 17088).map (idSign s b)

end Sys2Proof.Machine
end

