-- ==== Sys2Proof/Machine/Images.lean ====
section
/-! DEFINITION. Signed images and the boot checks (R480 to R482), the configuration image and its records (R551 to R555). -/

namespace Sys2Proof.Machine

/-! ### The wrapper (R480) -/

/-- BODY_LEN, IMAGE_VERSION, SVN, GPID, SIGNER_PK of an image, the bytes its signature covers, and its length. -/
def imLen (b : List Byte) : Nat := leAt b 8 4
def imVersion (b : List Byte) : Nat := leAt b 12 4
def imSvn (b : List Byte) : Nat := leAt b 16 4
def imGpid (b : List Byte) : Nat := leAt b 20 4
def imKey (b : List Byte) : List Byte := slice b 24 32
def imSigned (b : List Byte) : List Byte := slice b 0 (64 + imLen b)
def imBytes (b : List Byte) : Nat := 64 + imLen b + sigBytes

/-- The measurement of an image. -/
def imMeasure (b : List Byte) : List Byte := sha256 (imSigned b)

/-- MAGIC, VERSION, KIND, reserved fields and length, in a region of `room` bytes. -/
def wrapperOk (b : List Byte) (kind room : Nat) : Bool :=
  decide (leAt b 0 4 = 0x39474D49) && decide (leAt b 4 2 = 1) && decide (leAt b 6 1 = kind) && decide (leAt b 7 1 = 0)
    && decide (leAt b 56 8 = 0) && decide (imBytes b ≤ b.length) && decide (imBytes b ≤ room)

/-- Regions of the NOR (R479). -/
def fwRoom : Nat := 48 * 2 ^ 20
def cfgRoom : Nat := 15 * 2 ^ 20

/-- The boot checks of a firmware image (R481): 0, or the first that fails. -/
def fwCheck (s : State) (b : List Byte) (sigOk : Bool) : Nat :=
  if !wrapperOk b 1 fwRoom then 1
  else if sha256 (imKey b) ≠ Config.romFwKeyHash then 2
  else if !sigOk then 3
  else if imSvn b < rdF s (gd 0x18) 0 7 ∨ 64 < imSvn b then 4
  else 0

/-! ### Records (R551, R552) -/

/-- The records of a body from offset `o`, as (type, value), up to the list's end at the body's end; none where the layout
breaks R551. -/
def records (b : List Byte) : Nat → Nat → Option (List (Nat × List Byte))
  | 0, _ => none
  | fuel + 1, o =>
    if b.length < o + 4 then none
    else
      let ty := leAt b o 2
      let n := leAt b (o + 2) 2
      let next := o + ceilDiv (4 + n) 8 * 8
      if ty = 0 then
        if n = 0 ∧ b.length = next ∧ leAt b (o + 4) 4 = 0 then some [] else none
      else if b.length < next ∨ leNat (slice b (o + 4 + n) (next - (o + 4 + n))) ≠ 0 then none
      else (records b fuel next).map (fun l => (ty, slice b (o + 4) n) :: l)

/-- The records of an image's body. -/
def recordsOf (b : List Byte) : Option (List (Nat × List Byte)) :=
  let body := slice b 64 (imLen b)
  records body (body.length / 8 + 1) 0

/-- LENGTH, value range and reserved bytes of one record (R552, R553). -/
def recordOk (s : State) (r : Nat × List Byte) : Bool :=
  let v := r.2
  let n := v.length
  let ty := r.1
  if ty = 1 then decide (n = 4) && decide (1500 ≤ leAt v 0 2) && decide (leAt v 0 2 ≤ 5600) && decide (leAt v 2 2 = 0)
  else if ty = 2 then
    let p := [leAt v 0 1, leAt v 1 1, leAt v 2 1]
    decide (n = 4) && [1, 2, 3].all (fun x => p.contains x) && decide (leAt v 3 1 = 0)
  else if ty = 3 then decide (n = 4) && decide (leAt v 0 1 ≤ 1) && decide (leAt v 1 3 = 0)
  else if ty = 4 then
    decide (n = 16) && decide (leAt v 0 1 ≤ 2) && decide (leAt v 1 1 ≤ 15) && decide (leAt v 2 1 ≤ 1) && decide (leAt v 3 1 = 0)
      && decide (leAt v 7 1 = 0) && decide (leAt v 10 2 = 0) && decide (1 ≤ leAt v 12 4)
  else if ty = 5 then decide (n = 4) && decide (leAt v 2 1 < 16) && decide (leAt v 3 1 = 0)
  else if ty = 6 then decide (n = 4) && decide (leAt v 1 3 = 0)
  else if ty = 7 then decide (n = 8) && decide (70 ≤ leAt v 0 2) && decide (leAt v 0 2 ≤ 500) && decide (leAt v 2 1 ≤ 1) && decide (leAt v 3 1 = 0)
  else if ty = 8 then
    decide (n = 4) && decide (leAt v 0 1 < 64) && decide (leAt v 1 3 = 0)
      && (upTo 6).any (fun i => Nat.testBit (leAt v 0 1) i && (tempoOf s.guard.ordering).contains (tempoList.getD i 0))
  else if ty = 9 then decide (n = 4) && decide (8 ≤ leAt v 0 1) && decide (leAt v 0 1 ≤ 0x77) && decide (leAt v 1 3 = 0)
  else if ty = 10 then decide (n = 4) && decide (leAt v 0 1 ≤ 5) && decide (leAt v 1 3 = 0)
  else if ty = 11 then decide (n = 1136)
  else decide (2 ^ 15 ≤ ty)

/-- The boot checks of a configuration image (R481, R553). With the operator fuses blank, an image whose own signature
verifies passes check 6 (R482). -/
def cfgCheck (s : State) (b : List Byte) (sigOk : Bool) : Nat :=
  let format := match recordsOf b with
    | none => false
    | some l => l.all (recordOk s) && decide ((l.map Prod.fst).dedup.length = l.length)
  let known := match s.guard.operatorHash with
    | some h => decide (sha256 (imKey b) = h)
    | none => sigOk
  if !wrapperOk b 2 cfgRoom || decide (imSvn b ≠ 0) || !format then 5
  else if !known then 6
  else if !sigOk then 7
  else if imGpid b ≠ 0 ∧ imGpid b ≠ s.guard.gpid.toNat then 8
  else 0

/-- Value of a record, if the image has it. -/
def recordOf (l : List (Nat × List Byte)) (ty : Nat) : Option (List Byte) := (l.find? (fun r => decide (r.1 = ty))).map Prod.snd

/-- The values in force under an image's records (R552, R555). -/
def cfgOfRecords (l : List (Nat × List Byte)) : CfgImage :=
  let num (ty off n dflt : Nat) : Nat := match recordOf l ty with
    | some v => leAt v off n
    | none => dflt
  { valid := true, cap := num 1 0 2 5000, prio1 := num 2 0 1 1, prio2 := num 2 1 1 2, prio3 := num 2 2 1 3
    package := decide (num 3 0 1 0 = 1), portMask := BitVec.ofNat 16 (num 5 0 2 0xFFFF), nportMask := BitVec.ofNat 4 (num 5 2 1 0xF)
    groupPos := num 6 0 1 0, overprov := num 7 0 2 70, format := decide (num 7 2 1 0 = 1), layoutId := BitVec.ofNat 32 (num 7 4 4 0)
    tempos := BitVec.ofNat 8 (num 8 0 1 0x3F), i3cAddr := BitVec.ofNat 7 (num 9 0 1 0x4C), scDefault := num 10 0 1 0
    operator := l.filter (fun r => decide (2 ^ 15 ≤ r.1)) }

/-- Registers that take their values from the image (R555): the cap and its priorities (R527, R529), the MTC's four (R61),
the stream caches' default (R214), the function states of ports that it leaves out (R553), and OR_SELF (R390). -/
def applyCfg (s : State) (l : List (Nat × List Byte)) : State :=
  let c := cfgOfRecords l
  let s := { s with img := c }
  let s := wrF (wr s (pw 0 0x1000) (BitVec.ofNat 64 (c.cap + 2 ^ 32 * (c.prio1 + 4 * c.prio2 + 16 * c.prio3)))) (pw 0 0x1000) 16 16
    (rdF s (pw 0 0x1000) 16 16)
  let m := (recordOf l 4).getD (leBytes 12 0 ++ leBytes 4 86400)
  let old := rd s (mtc 0x10)
  let s := wr s (mtc 0x10) (BitVec.ofNat 64 (leAt m 0 1 + 4 * leAt m 1 1 + 64 * leAt m 2 1))
  let s := wr (wr (wr s (mtc 0x28) (BitVec.ofNat 64 (leAt m 4 3))) (mtc 0x30) (BitVec.ofNat 64 (leAt m 8 2))) (mtc 0x38)
    (BitVec.ofNat 64 (leAt m 12 4))
  let s := sourceChanged s old
  let s := (upTo 16).foldl (fun s p =>
    let s := if bitOf c.portMask p then s else wrF s (omP p 0) 2 2 2
    wrB s (omP p 0) 13 (decide (leAt m 0 1 = 2) && decide (leAt m 1 1 = p))) s
  let s := { s with npFunc := (upTo 4).foldl (fun f n => if bitOf c.nportMask n then f else Store.set (fun _ => 0) f n 2) s.npFunc }
  let s := (upTo 64).foldl (fun s k => scRefresh (wr s (vc (k / 8) (k % 8) 0x18) (BitVec.ofNat 64 c.scDefault)) k) s
  setSelf s s.guard.gpid c.groupPos 0 false

end Sys2Proof.Machine
end

