-- ==== Sys2Proof/Machine/Commands.lean ====
section
/-! DEFINITION. Host commands but for ARM_JOB, RIGHT_AWAY, TEARDOWN and SET_FUNCTION (R430 to R440), maintenance and update
(R498, R499), attestation (R488), and the two Guards (R501). -/

namespace Sys2Proof.Machine

/-- IDENTIFY (R431). -/
def execIdentify (seq : W32) (s : State) : Host.Outcome State Fault Refusal :=
  .next (startCmd s seq 0x01 (fun _ => true) (fun _ s => doneCmd s seq 0 0 0 (identifyBytes s)))

/-- GET_STATUS (R432). -/
def execGetStatus (seq : W32) (s : State) : Host.Outcome State Fault Refusal :=
  .next (startCmd s seq 0x02 (fun _ => true) (fun _ s => doneCmd s seq 0 0 0 (statusBytes s)))

/-- MAP_LANDING (R434, R436). -/
def execMapLanding (seq : W32) (s : State) : Host.Outcome State Fault Refusal :=
  .next (startCmd s seq 0x10 (fun _ => true) (fun b s =>
    let first := leAt b 32 4
    let n := leAt b 36 4
    let off := leAt b 40 8
    if n = 0 ∨ 4096 < first + n ∨ landBytes s < off + n * 65536 then failCmd s seq stRange
    else if off % 65536 ≠ 0 then failCmd s seq stAlign
    else
      let unmap := Nat.testBit (leAt b 48 1) 0
      let m := (upTo n).foldl (fun m i => Store.set (fun _ => 0) m (first + i) (if unmap then 0 else off / 65536 + i + 1)) s.port.pages
      failCmd { s with port := { s.port with pages := m } } seq 0))

/-- The frame that a PUT opens, inline or in the landing area: a status, the frame, and what its read leaves. -/
def putFrame (s : State) (b : List Byte) : Nat × List Byte × State :=
  if Nat.testBit (slotFlags b) 2 then (0, slice b 64 (leAt b 36 4), s) else landRead s (leAt b 32 4) (leAt b 36 4)

/-- PUT (R434, R438, R439): `opened` is what the frame decrypts to if its MAC verifies. -/
def execPut (seq : W32) (opened : Option (List Byte)) (s : State) : Host.Outcome State Fault Refusal :=
  .next (startCmd s seq 0x11 (fun _ => true) (fun b s =>
    let n := leAt b 36 4
    let inl := Nat.testBit (slotFlags b) 2
    if n < 49 ∨ 65584 < n then failCmd s seq stRange
    else if inl = false ∧ landBytes s < leAt b 32 4 + n then failCmd s seq stRange
    else if inl = true ∧ n ≠ slotInline b then failCmd s seq stBadLength
    else
      match putFrame s b with
      | (0, f, s) =>
        match frameOk s true f opened with
        | none => failCmd s seq stDenied
        | some p =>
          let (st, t) := jobWrite s (leAt b 40 8) p
          failCmd (if st = 0 then counterTake t (2 ^ 20) (leAt f 16 8) else t) seq st
      | (st, _, s) => failCmd s seq st))

/-- GET (R434, R440): a package frame to the owner. -/
def execGet (seq : W32) (s : State) : Host.Outcome State Fault Refusal :=
  .next (startCmd s seq 0x12 (fun _ => true) (fun b s =>
    let n := leAt b 40 4
    let route := leAt b 44 1
    if n = 0 ∨ 65536 < n then failCmd s seq stRange
    else if route ≠ 0 ∧ Store.get (fun _ => 0) s.npFunc (route - 1) = 1 then failCmd s seq stState
    else if route ≠ 0 ∧ rdB s (np 0) (4 * (route - 1)) = false then failCmd s seq stRange
    else
      match jobRead s (leAt b 32 8) n with
      | (0, data, s) =>
        let f := sealFrame s true 0 s.job.hostFrames 0 data
        doneCmd { s with job := { s.job with hostFrames := s.job.hostFrames + 1 } } seq 0 0 0 f
      | (st, _, s) => failCmd s seq st))

/-- SIGNAL with OP READ. -/
def execSignalRead (seq : W32) (s : State) : Host.Outcome State Fault Refusal :=
  .next (startCmd s seq 0x23 (fun b => decide (leAt b 32 1 = 0)) (fun b s =>
    if 16383 < leAt b 34 2 then failCmd s seq stRange else doneCmd s seq 0 0 (sigVal s (leAt b 34 2)) []))

/-- SIGNAL with OP SET or ADD: the operation leaves for its signal, and the command completes with the value before it. -/
def hostSignal (s : State) (seq : W32) (b : List Byte) (add : Bool) : State :=
  if 16383 < leAt b 34 2 then failCmd s seq stRange
  else sendSig s { sig := leAt b 34 2, add := add, value := BitVec.ofNat 64 (leAt b 40 8), order := none, asker := 1
                   askId := seq.toNat, setMode := false }

/-- SIGNAL with OP SET. -/
def execSignalSet (seq : W32) (s : State) : Host.Outcome State Fault Refusal :=
  .next (startCmd s seq 0x23 (fun b => decide (leAt b 32 1 = 1)) (fun b s => hostSignal s seq b false))

/-- SIGNAL with OP ADD. -/
def execSignalAdd (seq : W32) (s : State) : Host.Outcome State Fault Refusal :=
  .next (startCmd s seq 0x23 (fun b => decide (leAt b 32 1 = 2)) (fun b s => hostSignal s seq b true))

/-- STABLE (R539): it completes, and entry begins. -/
def execStable (seq : W32) (s : State) : Host.Outcome State Fault Refusal :=
  .next (startCmd s seq 0x40 (fun _ => true) (fun _ s =>
    failCmd { s with dev := { s.dev with entering := true, wakePending := false, stableSeq := some seq } } seq 0))

/-! ### Maintenance (R498 to R500) -/

/-- What a command finds at SRC in the landing area; nothing where SRC reaches beyond it. -/
def landFile (s : State) (src n : Nat) : Nat × List Byte × State :=
  if landBytes s < src + n then (stSignature, [], s) else landRead s src n

/-- The checks of R498 on an authorisation. -/
def authorised (s : State) (a : List Byte) (sigOk : Bool) : Bool :=
  decide (a.length = 7936) && decide (leAt a 0 4 = 0x3947414D) && decide (leAt a 4 2 = 1) && decide (leAt a 8 4 = s.guard.gpid.toNat)
    && decide (slice a 16 32 = s.guard.challenge) && s.guard.operatorHash.any (fun h => decide (sha256 (slice a 48 32) = h)) && sigOk

/-- A new maintenance challenge. -/
def newChallenge (s : State) : State :=
  let (c, s) := drawBytes s 32
  { s with guard := { s.guard with challenge := c } }

/-- MAINTENANCE with ACTION 1 (R498): `sigOk` says whether the authorisation's signature verifies. -/
def execMaintenanceEnter (seq : W32) (sigOk : Bool) (s : State) : Host.Outcome State Fault Refusal :=
  .next (startCmd s seq 0x41 (fun b => decide (leAt b 32 1 = 1)) (fun b s =>
    let (st, a, s) := landFile s (leAt b 36 4) (leAt b 40 4)
    if st = stFault then failCmd s seq stFault
    else if authorised s a sigOk then
      let s := newChallenge { s with guard := { s.guard with perms := BitVec.ofNat 16 (leAt a 6 2) } }
      let s := setDevice s .maintenance 0
      failCmd (if bitOf s.guard.perms 2 then openGates s else s) seq 0
    else failCmd (authRefused s) seq stSignature))

/-- MAINTENANCE with ACTION 2 (R561): its COMPLETION announces the restart. -/
def execMaintenanceRestart (seq : W32) (s : State) : Host.Outcome State Fault Refusal :=
  .next (startCmd s seq 0x41 (fun b => decide (leAt b 32 1 = 2)) (fun _ s => failCmd s seq 0))

/-- UPDATE (R499): the image's check, then its region of the NOR is written and read back. A reserved byte of a configuration
record is ST_SIGNATURE (R499, R553; entry 113: R15 asks ST_BAD_FIELD of every structure). -/
def update (s : State) (seq : W32) (target : Nat) (check : List Byte → Nat) (readBackOk : Bool)
    (store : GuardX → Option (List Byte) → GuardX) : State :=
  startCmd s seq 0x42 (fun b => decide (leAt b 40 1 = target)) (fun b s =>
    match landFile s (leAt b 32 4) (leAt b 36 4) with
    | (0, im, s) =>
      if !bitOf s.guard.perms (target - 1) || decide (check im ≠ 0) then failCmd s seq stSignature
      else if readBackOk then failCmd { s with guard := store s.guard (some im) } seq 0
      else failCmd { s with guard := store s.guard none } seq stFault
    | (st, _, s) => failCmd s seq st)

/-- UPDATE with TARGET 1. -/
def execUpdateFirmware (seq : W32) (sigOk readBackOk : Bool) (s : State) : Host.Outcome State Fault Refusal :=
  .next (update s seq 1 (fun b => fwCheck s b sigOk) readBackOk (fun g x => { g with norFw := x }))

/-- UPDATE with TARGET 2. -/
def execUpdateConfiguration (seq : W32) (sigOk readBackOk : Bool) (s : State) : Host.Outcome State Fault Refusal :=
  .next (update s seq 2 (fun b => cfgCheck s b sigOk) readBackOk (fun g x => { g with norCfg := x }))

/-- ATTEST (R488). -/
def execAttest (seq : W32) (s : State) : Host.Outcome State Fault Refusal :=
  .next (startCmd s seq 0x50 (fun _ => true) (fun b s => doneCmd s seq 0 0 0 (report s (slice b 32 32))))

/-- HEARTBEAT_MISS (R501): the Guard on X1, or the one on X0, has missed three heartbeats. -/
def execHeartbeatMiss (x1 : Bool) (s : State) : Host.Outcome State Fault Refusal :=
  let s := { s with guard := if x1 then { s.guard with aliveX1 := false } else { s.guard with aliveX0 := false } }
  let active := rdB s (gd 0) 0
  .next (if !(s.guard.aliveX0 || s.guard.aliveX1) then failDevice s
  else if active = x1 then gdEvent (unitChanged (wrB (wrB s (gd 0) 0 (!x1)) (gd 0) 1 false)) 0
  else gdEvent (wrB s (gd 0) 1 false) 1)

end Sys2Proof.Machine
end

