-- ==== Sys2Proof/Machine/Lanes.lean ====
section
/-! DEFINITION. Lanes and link states of an Ommet port (R369 to R372, R379 to R381, R389), and its routing entries (R391 to
R393). -/

namespace Sys2Proof.Machine

/-- Physical lane of logical lane `n`; 0xF while none carries it. -/
def laneOf (s : State) (p n : Nat) : Nat := rdF s (omP p 0x18) (4 * n) 4

/-- Physical lane `l` is trained and has not failed (LANES_OK). -/
def laneOk (s : State) (p l : Nat) : Bool := rdB s (omP p 0) (4 + l)

/-- The spare lane, if it is free: a trained lane that carries no logical lane. -/
def spareLane (s : State) (p : Nat) : Option Nat :=
  (upTo 9).find? (fun l => laneOk s p l && (upTo 8).all (fun n => decide (laneOf s p n ≠ l)))

/-- OM_LANEMAP from the map of logical lanes and the lane out of service. -/
def laneMap (m : List Nat) (out : Nat) : W64 :=
  BitVec.ofNat 64 (((m.zip (upTo m.length)).map (fun x => x.1 * 16 ^ x.2)).sum + out * 2 ^ 32)

/-- Send a LINK flit to the port's partner (R389). -/
def sendLink (s : State) (p link logical phys delay : Nat) : State :=
  enqueue s p (txFlit s 8 0 0 (ownPos s) 0 (linkPayload link logical phys delay))

/-- Ask the partner for a lane change of logical lane `n` (R379, R389); DELAY is 4 to 255 frames. -/
def askLane (s : State) (p n delay : Nat) : State :=
  let ph := (spareLane s p).getD 0xF
  sendLink (setPort s p (fun x => { x with change := some (n, ph, true), agreed := false })) p 1 n ph (max 4 delay)

/-- The lowest logical lane on a failed physical lane. -/
def failedLogical (s : State) (p : Nat) : Option Nat :=
  (upTo 8).find? (fun n => decide (laneOf s p n ≠ 0xF) && !laneOk s p (laneOf s p n))

/-- PARTNER_DETECT (R380). -/
def execPartnerDetect (p : PortIx) (s : State) : Host.Outcome State Fault Refusal :=
  .next (if linkState s p = 0 ∧ portFunc s p = 0 then wrF s (omP p 0) 0 2 1 else s)

/-- TRAINING_DONE (R371, R372, R380): the lanes that trained, and the partner with its GPID and port and whether it is a
switch. Logical lanes stand on their own physical lanes; lane 8 takes the lowest that did not train. -/
def execTrainingDone (p : PortIx) (lanes : BitVec 9) (partner : Option (W32 × Fin 16 × Bool)) (s : State) :
    Host.Outcome State Fault Refusal :=
  let bad := (upTo 9).filter (fun l => !lanes.getLsbD l)
  .next (if linkState s p = 1 then
    let s := wrF s (omP p 0) 4 9 lanes.toNat
    if bad.length ≤ 2 then
      let data := bad.filter (fun l => decide (l < 8))
      let on (n : Nat) : Nat :=
        if !data.contains n then n else if lanes.getLsbD 8 ∧ data.head? = some n then 8 else 0xF
      let s := wr s (omP p 0x18) (laneMap ((upTo 8).map on) (bad.headD 0xF))
      let s := match partner with
        | some x => wr s (omP p 0x10) (BitVec.ofNat 64 (x.1.toNat + 2 ^ 32 * x.2.1.val + 2 ^ 36 * b2n x.2.2 + 2 ^ 63))
        | none => wr s (omP p 0x10) 0
      let s := wrF s (omP p 0) 0 2 (if bad.length = 2 then 3 else 2)
      let s := { s with hist := { s.hist with omEq := putBit s.hist.omEq p true } }
      lineAgain (omEvent (unitChanged s) p 0)
    else s
  else s)

/-- Physical lane `lane` of port `p` is declared failed (R379, R380): a further lane takes a degraded port DOWN, the spare
itself leaves no lane to change. -/
def laneFails (s : State) (p lane delay : Nat) : State :=
  if linkUp s p && laneOk s p lane then
    let carries := (upTo 8).find? (fun n => decide (laneOf s p n = lane))
    let s := wrB s (omP p 0) (4 + lane) false
    match carries with
    | none => wrF s (omP p 0x18) 32 4 lane
    | some n =>
      if linkState s p = 3 then portFault s p
      else if (omPort s p).change.isSome then s
      else askLane s p n delay
  else s

/-- LANE_FAILED (R379). -/
def execLaneFailed (p : PortIx) (lane : Fin 9) (delay : Byte) (s : State) : Host.Outcome State Fault Refusal :=
  .next (laneFails s p.val lane.val delay.toNat)

/-! ### The port's own declarations (R379) -/

/-- One millisecond in beats. -/
def fecWindow : Nat := 1000000

/-- Symbols of physical lane `l` that FEC corrected in the last millisecond. -/
def laneSymbols (s : State) (p l : Nat) : Nat :=
  (((omPort s p).fec.filter (fun x => decide ((now s).toNat < x.1 + fecWindow) && decide (x.2.1 = l))).map (fun x => x.2.2)).sum

/-- A lane that the port itself declares failed; the DELAY of its LANE_CHANGE is free from 4 to 255 (R389). -/
def declareLane (s : State) (p lane : Nat) : State :=
  let (w, s) := drawWord s
  laneFails s p lane (4 + w.toNat % 252)

/-- FEC corrects symbols, by physical lane: they are counted, and a lane with more than 4,096 of them in 1 ms fails. -/
def fecCorrect (s : State) (p : Nat) (corr : List (Fin 9 × BitVec 16)) : State :=
  let new := (corr.filter (fun x => decide (x.2 ≠ 0))).map (fun x => ((now s).toNat, x.1.val, x.2.toNat))
  let keep (l : List (Nat × Nat × Nat)) : List (Nat × Nat × Nat) := l.filter (fun x => decide ((now s).toNat < x.1 + fecWindow))
  let s := setPort (incBy s (omP p 0x20) (new.map (fun x => x.2.2)).sum) p (fun x => { x with fec := keep x.fec ++ new })
  ((upTo 9).filter (fun l => decide (4096 < laneSymbols s p l))).foldl (fun s l => if laneOk s p l then declareLane s p l else s) s

/-- The lane that fails when a flit has been NAKed 8 times: the one in service with the most corrected symbols of the last
millisecond, the lowest of several. -/
def worstLane (s : State) (p : Nat) : Nat :=
  ((upTo 9).filter (fun l => laneOk s p l)).foldl (fun b l => if b = 9 ∨ laneSymbols s p b < laneSymbols s p l then l else b) 9

/-- A flit has been NAKed 8 times (R379). -/
def nakedOut (s : State) (p : Nat) : State := declareLane s p (worstLane s p)

/-- LANE_CHANGE_EFFECT (R380): the frame that DELAY names begins; a lane that failed meanwhile is asked for next (R389). -/
def execLaneChangeEffect (p : PortIx) (delay : Byte) (s : State) : Host.Outcome State Fault Refusal :=
  .next (match (omPort s p).change with
  | some (n, ph, _) =>
    if (omPort s p).agreed && linkUp s p then
      let old := laneOf s p n
      let s := setPort s p (fun x => { x with change := none, agreed := false })
      if ph = 0xF ∧ linkState s p = 3 then portFault s p
      else
        let s := if old < 9 then wrB s (omP p 0) (4 + old) false else s
        let s := unitChanged (wrF s (omP p 0x18) (4 * n) 4 ph)
        let s := if ph = 0xF then omEvent (wrF s (omP p 0) 0 2 3) p 2 else omEvent (wrF s (omP p 0x18) 32 4 old) p 1
        match failedLogical s p with
        | some m => askLane s p m delay.toNat
        | none => s
    else s
  | none => s)

/-- A LANE_CHANGE of the partner (R389): it is answered with the same fields, unless this end has asked for a lower logical
lane, or a field names no lane. -/
def laneChange (s : State) (p : Nat) (pl : BitVec 1792) : State :=
  let n := payNat pl 1 1
  let ph := payNat pl 2 1
  let d := payNat pl 3 1
  let mine := match (omPort s p).change with
    | some (m, _, own) => own && decide (m < n) && !(omPort s p).agreed
    | none => false
  if n < 8 ∧ (ph < 9 ∨ ph = 0xF) ∧ 4 ≤ d ∧ !mine then
    sendLink (setPort s p (fun x => { x with change := some (n, ph, false), agreed := true })) p 2 n ph d
  else s

/-- A LANE_ACK of the partner: the change is scheduled. -/
def laneAck (s : State) (p : Nat) (pl : BitVec 1792) : State :=
  if (omPort s p).change = some (payNat pl 1 1, payNat pl 2 1, true) then setPort s p (fun x => { x with agreed := true }) else s

/-- OR_ENTRY_WRITE (R391, R393): a write elsewhere or at another time is ignored, and the routing block's die says so on its
first port. -/
def execOrEntryWrite (d : ADie) (g : Byte) (v : W64) (s : State) : Host.Outcome State Fault Refusal :=
  .next (if d.val = 0 ∧ (s.job.state = .idle ∨ s.job.state = .arming) then
    wr s (key 0 (0x7200000 + 8 * g.toNat)) (v &&& 0xFFFFFFFF000FFFFF)
  else omEvent s (2 * d.val) 7)

end Sys2Proof.Machine
end

