-- ==== Sys2Proof/Machine/MainArray.lean ====
section
/-! DEFINITION. The main array's orders (chapter 04) and the residue check of its cubes (R143, R588). -/

namespace Sys2Proof.Machine

/-- Key of a cube's mark in the start-up history (R143). -/
def cubeMark (d row col : Nat) : Nat := d * 4096 + row * 64 + col

/-- A residue mismatch in physical cube (row, col), in service, while the order of `issue` steps: the cube is marked,
the first mismatch since ARM_JOB is recorded and noticed, and the job fails (R143, R588). -/
def cubeMismatch (s : State) (d row col issue : Nat) : State :=
  if row = rdF s (ma d 0x10) 0 6 ∨ col = rdF s (ma d 0x10) 8 6 then s
  else
    let s := { s with marks := Store.set (fun _ => false) s.marks (cubeMark d row col) true }
    let s :=
      if (eng s d 0).mismatched then s
      else
        let s := setEng s d 0 (fun e => { e with mismatched := true })
        maEvent (wr s (ma d 0x50) (BitVec.ofNat 64 (row + 2 ^ 8 * col + 2 ^ 16 * issue + 2 ^ 63))) d 0
    failJob s stFault

/-- Issue an order of the main array. -/
def maIssue (s : State) (d op : Nat) (issue : BitVec 24) (ops : BitVec 96) : State :=
  let c := issue.toNat
  if canIssue s d 0 (mkOrder op issue ops) then
    let s := atIssue s d 0 c
    launch s d 0 c (maStart s d (mkOrder op issue ops))
  else s

/-- MA_MMA (R124 to R126, R134); `bad` names the physical cubes whose residue checks find a mismatch, in the order in which
they find it (R143, R588). -/
def execMaMma (d : ADie) (issue : BitVec 24) (ops : BitVec 96) (bad : List (Fin 33 × Fin 33)) (s : State) :
    Host.Outcome State Fault Refusal :=
  .next (if canIssue s d 0 (mkOrder 0x40 issue ops) then
    bad.foldl (fun t x => cubeMismatch t d x.1 x.2 issue.toNat) (maIssue s d 0x40 issue ops)
  else s)

/-- MA_OUTCFG (R127). -/
def execMaOutcfg (d : ADie) (issue : BitVec 24) (ops : BitVec 96) (s : State) : Host.Outcome State Fault Refusal :=
  .next (maIssue s d 0x41 issue ops)

/-- MA_SCALECFG (R129). -/
def execMaScalecfg (d : ADie) (issue : BitVec 24) (ops : BitVec 96) (s : State) : Host.Outcome State Fault Refusal :=
  .next (maIssue s d 0x42 issue ops)

/-- MA_ZERO (R130). -/
def execMaZero (d : ADie) (issue : BitVec 24) (ops : BitVec 96) (s : State) : Host.Outcome State Fault Refusal :=
  .next (maIssue s d 0x43 issue ops)

/-- MA_DRAIN (R131). -/
def execMaDrain (d : ADie) (issue : BitVec 24) (ops : BitVec 96) (s : State) : Host.Outcome State Fault Refusal :=
  .next (maIssue s d 0x44 issue ops)

/-- MA_LOAD (R132). -/
def execMaLoad (d : ADie) (issue : BitVec 24) (ops : BitVec 96) (s : State) : Host.Outcome State Fault Refusal :=
  .next (maIssue s d 0x45 issue ops)

end Sys2Proof.Machine
end

