-- ==== Sys2Proof/Machine/TimeTransfer.lean ====
section
/-! DEFINITION. In-band time transfer (R45 to R47): the frames, the request every 2^23 beats, and what a received frame does.
Timestamps are in 1/256 beat. -/

namespace Sys2Proof.Machine

/-- A time-transfer payload (R45). -/
def timePayload (kind st depth t1 t2 : Nat) : BitVec 1792 :=
  payloadOf (leBytes 2 kind ++ leBytes 1 st ++ leBytes 1 depth ++ leBytes 8 (t1 / 256) ++ leBytes 1 (t1 % 256) ++ leBytes 3 0
    ++ leBytes 8 (t2 / 256) ++ leBytes 1 (t2 % 256))

/-- T1 and T2 of a payload. -/
def timeT1 (p : BitVec 1792) : Nat := 256 * payNat p 4 8 + payNat p 12 1
def timeT2 (p : BitVec 1792) : Nat := 256 * payNat p 16 8 + payNat p 24 1

/-- The payload with its T1 set. -/
def timeStamp (p : BitVec 1792) (t1 : Nat) : BitVec 1792 :=
  timePayload (payNat p 0 2) (payNat p 2 1) (payNat p 3 1) t1 (timeT2 p)

/-- A frame is taken, not discarded: a defined KIND, a state and a depth that the layout defines, and zeros where it reserves
them (entry 102: the spec counts discarded frames and names no test). -/
def timeFormed (p : BitVec 1792) : Bool :=
  (decide (payNat p 0 2 = 1) && decide (payNat p 16 9 = 0) || decide (payNat p 0 2 = 2))
    && decide (payNat p 2 1 ≤ 3) && decide (payNat p 3 1 ≤ 4) && decide (payNat p 13 3 = 0) && decide (payNat p 25 199 = 0)

/-- Depth that this package names in its frames: 0 when wired. -/
def ownDepth (s : State) : Nat := if mtcSource s = 1 then 0 else rdF s (mtc 8) 12 3

/-- MTC_CTRL.IB_PORT. -/
def ibPort (s : State) : Nat := rdF s (mtc 0x10) 2 4

/-- The group position that port `p` leads to: the one whose entry names the partner's GPID, else the lowest one whose entry
names the port; free where no entry does, since no field names the upstream partner's position. -/
def partnerPos (s : State) (p : Nat) : Nat × State :=
  let here (g : Nat) : Bool := bitOf (orEntry s g) 19 && bitOf (orEntry s g) p
  match (upTo 256).find? (fun g => here g && rdB s (omP p 0x10) 63 && decide (fld (orEntry s g) 32 32 = rdF s (omP p 0x10) 0 32)),
      (upTo 256).find? here with
  | some g, _ => (g, s)
  | none, some g => (g, s)
  | none, none =>
    let (w, s) := drawWord s
    (fld w 0 8, s)

/-- TIME_TRANSFER_REQUEST (R45): at count `t`, on the port that the configuration names. -/
def execTimeTransferRequest (t : W64) (s : State) : Host.Outcome State Fault Refusal :=
  let s := advance s t
  let p := ibPort s
  let due := match s.mtcx.ibLast with
    | some a => decide (a.toNat + 2 ^ 23 ≤ (now s).toNat)
    | none => true
  .next (if mtcSource s = 2 && linkUp s p && rdB s (gd 0) 3 && due then
    let s := { s with mtcx := { s.mtcx with ibLast := some (now s) } }
    let (g, s) := partnerPos s p
    let s := wrF (wrB s (omP p 0) 13 true) (mtc 8) 8 4 p
    enqueue s p (txFlit s 6 0 0 g 0 (timePayload 1 (mtcState s) (ownDepth s) 0 0))
  else s)

/-- What sending a TIME flit at `ts` puts into its payload and leaves behind: a request carries its departure; a response
carries the departure of the response to this requester before it, which is free for the first. A request that finds the one
before it unanswered gives up the exchange that waits for its T3 (entry 25). -/
def stampTime (s : State) (p dst ts : Nat) (pl : BitVec 1792) : BitVec 1792 × State :=
  if payNat pl 0 2 = 1 then
    (timeStamp pl ts, { s with mtcx := { s.mtcx with ibT1 := some ts
                                                     ibPrev := if s.mtcx.ibT1.isSome then none else s.mtcx.ibPrev } })
  else
    let k := p * 256 + dst
    let (t3, s) := match s.mtcx.ibT3.find? (fun e => decide (e.1 = k)) with
      | some e => (e.2, s)
      | none =>
        let (w, s) := drawWord s
        (w.toNat, s)
    (timeStamp pl t3, { s with mtcx := { s.mtcx with ibT3 := Store.set (fun _ => 0) s.mtcx.ibT3 k ts } })

/-- Count a discarded time-transfer frame (R61). -/
def timeDiscard (s : State) : State := upd s (mtc 0x50) (fun w => satIncFld w 48 16)

/-- The offset of the partner from this package's count, from an exchange and the departure T3 of its response (R45), less
the configured asymmetry of the two directions (R47). -/
def ibOffset (s : State) (t1 t2 t3 t4 : Nat) : Int :=
  (((t2 : Int) - t1) - ((t4 : Int) - t3) - (BitVec.ofNat 16 (rdF s (mtc 0x30) 0 16)).toInt) / 2

/-- One-way delay of an exchange (R45). -/
def ibOneWay (t1 t2 t3 t4 : Nat) : Int := (((t2 : Int) - t1) + ((t4 : Int) - t3)) / 2

/-- A response of the upstream partner (R45, R46): an eligible partner is a present source (R48), the exchange before it is
complete and measured, and this one waits for its T3. -/
def timeResponse (s : State) (t1 t4 : Nat) (pl : BitVec 1792) : State :=
  let x := s.mtcx
  let st := payNat pl 2 1
  let depth := payNat pl 3 1
  let s := { s with mtcx := { x with ibT1 := none, ibPrev := some (t1, timeT2 pl, t4) } }
  if (st = 2 ∨ st = 3) ∧ depth ≤ 3 then
    let s := wrF (wrB s (mtc 8) 5 true) (mtc 8) 12 3 (depth + 1)
    let s := if mtcState s = 0 || mtcState s = 3 then mtcMove s 1 else s
    match x.ibPrev with
    | some e =>
      let s := { s with mtcx := { s.mtcx with ibDelay := some (ibOneWay e.1 e.2.1 (timeT1 pl) e.2.2) } }
      ibMeasure s (ibOffset s e.1 e.2.1 (timeT1 pl) e.2.2)
    | none => s
  else sourceLost (wrB s (mtc 8) 5 false)

/-- A TIME flit that passed its checks (R45). -/
def timeReceive (s : State) (p : Nat) (f : Flit) : State :=
  let s := advance s (BitVec.ofNat 64 (f.ts.toNat / 256))
  let pl := f.payload
  if !timeFormed pl then timeDiscard s
  else if payNat pl 0 2 = 1 then
    enqueue s p (txFlit s 6 0 0 f.src.toNat 0 (timePayload 2 (mtcState s) (ownDepth s) 0 f.ts.toNat))
  else match s.mtcx.ibT1 with
    | some t1 => if mtcSource s = 2 ∧ ibPort s = p then timeResponse s t1 f.ts.toNat pl else timeDiscard s
    | none => timeDiscard s

end Sys2Proof.Machine
end

