-- ==== Sys2Proof/Machine/Slots.lean ====
section
/-! DEFINITION. Payload slots (R398): which waiting flit a port sends, its numbers (R374, R377, R382, R383, R388), what its link
word carries, and what a missed grant leaves (R100). -/

namespace Sys2Proof.Machine

/-- A BOOKED or COLL flit. -/
def TxFlit.booked (f : TxFlit) : Bool := decide (f.kind = 1) || decide (f.kind = 2)

/-- Class of an unbooked flit under R398: 3 ARRIVAL, 4 TIME, CTRL and LINK, 6 REQ and RESP. -/
def TxFlit.cls (f : TxFlit) : Nat := if f.booked then 2 else if f.kind = 3 then 3 else if 6 ≤ f.kind then 4 else 6

/-- The path that holds slot `n` of port `p`, while its die runs (R396). -/
def slotPath (s : State) (p n : Nat) : Option Nat :=
  if ttState s (p / 2) = 4 ∨ ttState s (p / 2) = 5 then
    (((dieTT s (p / 2)).books).find? (fun b => decide (fld b 0 16 = 3) && decide (pathPort s (fld b 16 8) (fld b 24 8) = some p)
      && decide (0 < pathGrant b n))).map (fun b => fld b 16 8)
  else none

/-- What a port sends in a slot: nothing but the link word, a flit for the first time, or a flit again. -/
inductive SlotPick where
  | idle
  | new (f : TxFlit)
  | again (f : TxFlit)
  deriving DecidableEq, Repr

/-- The pick of R398. A slot that a booking holds takes that booking's flit or one of classes 3, 4 and 6; resent and delayed
flits take only slots that no booking holds (R100, R377); with 1,024 unacknowledged flits no new flit goes (R378). -/
def slotPick (x : OmPort) (path : Option Nat) : SlotPick :=
  let full := decide (1024 ≤ x.unacked.length)
  let new (q : TxFlit → Bool) : Option SlotPick := if full then none else (x.queue.find? q).map .new
  let again (c : Nat) : Option SlotPick :=
    if path.isSome then none else (x.unacked.find? (fun f => f.resend && decide (f.cls = c))).map .again
  let granted := path.bind (fun q => new (fun f => f.booked && decide (f.path = q)))
  let late := if path.isSome then none else new (fun f => f.booked && f.delayed)
  ([granted, again 2, late, again 3, new (fun f => decide (f.cls = 3)), again 4, new (fun f => decide (f.cls = 4)), again 6,
    new (fun f => decide (f.cls = 6))].findSome? id).getD .idle

/-- Class of a pick, 1 to 7. -/
def SlotPick.cls (path : Option Nat) : SlotPick → Nat
  | .idle => 7
  | .new f => if f.booked then (if path.isSome then 1 else 2) else f.cls
  | .again f => if f.cls = 6 then 5 else f.cls

/-- The link word that the next flit carries, and the port after it: a NAK first, else an ACK that is due (R374, R377). -/
def linkWordOut (x : OmPort) : BitVec 2 × BitVec 12 × OmPort :=
  match x.nakDue with
  | n :: rest => (2, BitVec.ofNat 12 n, { x with nakDue := rest })
  | [] => if x.ackDue then (1, BitVec.ofNat 12 (x.nextRx + 4095), { x with ackDue := false }) else (0, 0, x)

/-- A flit as it leaves. -/
def flitOut (ack : BitVec 2) (lack : BitVec 12) (ts : Nat) (f : TxFlit) : Flit :=
  { lseq := BitVec.ofNat 12 f.lseq, lack := lack, ackKind := ack, kind := BitVec.ofNat 8 f.kind, path := BitVec.ofNat 8 f.path
    tag := f.tag, dst := BitVec.ofNat 8 f.dst, src := BitVec.ofNat 8 f.src, pseq := BitVec.ofNat 48 f.pseq, payload := f.payload
    fecOk := true, macOk := true, ts := BitVec.ofNat 72 ts }

/-- The counter that a flit takes (R382, R383, R388). -/
def takeCounter (s : State) (f : TxFlit) : Nat × State :=
  let x := s.om
  if f.kind = 8 then (0, s)
  else if localKind f.kind f.dst f.src then (x.localTx, { s with om := { x with localTx := x.localTx + 1 } })
  else if 6 ≤ f.kind then
    let n := Store.get (fun _ => 0) x.ctlTx f.dst
    (n, { s with om := { x with ctlTx := Store.set (fun _ => 0) x.ctlTx f.dst (n + 1) } })
  else
    let n := Store.get (fun _ => 0) x.pairTx f.dst
    (n, { s with om := { x with pairTx := Store.set (fun _ => 0) x.pairTx f.dst (n + 1) } })

/-- Send the pick at timestamp `ts`. -/
def sendPick (s : State) (p ts : Nat) : SlotPick → State
  | .idle =>
    setPort s p (fun x =>
      let (a, l, x) := linkWordOut x
      let f : Flit := { lseq := 0, lack := l, ackKind := a, kind := 0, path := 0, tag := 0, dst := 0, src := 0, pseq := 0
                        payload := 0, fecOk := true, macOk := true, ts := BitVec.ofNat 72 ts }
      { x with last := some f, wire := flitWire s f 0 })
  | .new f =>
    let (pl, s) := if f.kind = 6 then stampTime s p f.dst ts f.payload else (f.payload, s)
    let (n, s) := takeCounter s f
    let s := setPort s p (fun x =>
      let (a, l, x) := linkWordOut x
      let g := { f with payload := pl, pseq := n, lseq := x.nextTx, delayed := false, resend := false }
      { x with last := some (flitOut a l ts g), wire := flitWire s (flitOut a l ts g) g.pseq, queue := x.queue.erase f, unacked := x.unacked ++ [g]
               nextTx := (x.nextTx + 1) % 4096 })
    inc s (omP p 0x50)
  | .again f =>
    let s := setPort s p (fun x =>
      let (a, l, x) := linkWordOut x
      let us := x.unacked.map (fun g => if g.lseq = f.lseq then { g with resend := false } else g)
      { x with last := some (flitOut a l ts f), wire := flitWire s (flitOut a l ts f) f.pseq, unacked := us })
    inc (inc s (omP p 0x50)) (omP p 0x30)

/-- A granted flit misses its slot (R100): it is delayed, its hold falls under `cause`, and its train counts it (R92, R110). -/
def slotMissed (s : State) (p cause : Nat) (path : Option Nat) : State :=
  match (omPort s p).queue.find? (fun f => f.booked && decide (path = some f.path) && !f.delayed) with
  | some f =>
    let late (l : List TxFlit) : List TxFlit := l.map (fun g => if g = f then { g with delayed := true } else g)
    trainMissed (noteCause (setPort s p (fun x => { x with queue := late x.queue })) (p / 2) cause) f.owner
  | none => s

/-- OMMET_PAYLOAD_SLOT (R398): the next payload slot of port `p`; `can` is false where the frame carries no flit in it (a lane
change, or the eighth slot of a degraded port, R380, R381); `ts` is the count in 1/256 beat at the PMA; `corr` are the symbols
that FEC corrected in what the port received meanwhile, by physical lane (R379). In a slot that the die's link duty withholds
the port sends only IDLE (R534). -/
def execOmmetPayloadSlot (p : PortIx) (can : Bool) (ts : BitVec 72) (corr : List (Fin 9 × BitVec 16)) (s : State) :
    Host.Outcome State Fault Refusal :=
  .next (if linkUp s p.val then
    let s := fecCorrect s p.val corr
    let path := slotPath s p.val (omPort s p.val).slot
    let withheld := decide ((pwGet s (p / 2)).grantL ≤ (omPort s p.val).slot % 64)
    let s := setPort s p.val (fun x => { x with slot := x.slot + 1 })
    if withheld && linkUp s p.val then slotMissed (sendPick { s with slotWinner := 7 } p.val ts.toNat .idle) p.val 3 path
    else if can && linkUp s p.val then
      let k := slotPick (omPort s p.val) path
      let t := sendPick { s with slotWinner := k.cls path } p.val ts.toNat k
      if path.isSome ∧ 1024 ≤ (omPort s p.val).unacked.length then slotMissed t p.val 0 path else t
    else slotMissed { s with slotWinner := 0 } p.val 0 path
  else s)

end Sys2Proof.Machine
end

