-- ==== Sys2Proof/Machine/Ommet.lean ====
section
/-! DEFINITION. Received flits (R374 to R377, R382 to R389): the ingress checks, delivery in LSEQ order, and what each kind of
flit does. -/

namespace Sys2Proof.Machine

/-! ### Accesses from other packages (R326, R329) -/

/-- Where a block of an access lands: its address and whether booked traffic serves it; none refuses. -/
def awayBlock (s : State) (d form window a n : Nat) (write booked : Bool) (tag : BitVec 16) :
    Option (Nat × Bool) × Option Nat :=
  if form = 1 then
    let r := remoteCheck s a n booked tag
    (r.1.map (fun x => (x, booked)), r.2)
  else winCheck s d window a write tag

/-- A window access reads its table entry through the die's cache (R327). -/
def awayFill (s : State) (d form window a : Nat) : State :=
  let ow := rd s (tu 0 (0x1800 + 8 * window))
  if form = 0 ∧ bitOf ow 63 ∧ a / 0x200000 ≤ fld ow 0 20 ∧ !possessed s (fld ow 20 29 * 4096 + 8 * (a / 0x200000)) 8 then
    winCacheFill s d window (a / 0x200000)
  else s

/-- Write the blocks of an access that pass; the address of each refused block. -/
def awayWrite (s : State) (d form window a : Nat) (booked : Bool) (tag : BitVec 16) (data : List Byte) : State × List Nat :=
  (blocksOf a data.length).foldl (fun (r : State × List Nat) b =>
    let s := awayFill r.1 d form window b.1
    let l := slice data (b.1 - a) b.2
    match awayBlock s d form window b.1 b.2 true booked tag with
    | (some (pa, true), _) => (wrBytes s pa l, r.2)
    | (some (pa, false), _) => (cohWrite s pa l, r.2)
    | (none, why) => (denyRemote s d why, r.2 ++ [b.1])) (s, [])

/-- Read the blocks of an access up to the first that is refused; whether a poisoned block was among them, whose bytes are
free, and that refused address. -/
def awayRead (s : State) (d form window a n : Nat) (booked : Bool) (tag : BitVec 16) : List Byte × Bool × Option Nat × State :=
  (blocksOf a n).foldl (fun (r : List Byte × Bool × Option Nat × State) b =>
    let (l, bad, stop, s) := r
    if stop.isSome then r
    else
      let s := awayFill s d form window b.1
      match awayBlock s d form window b.1 b.2 false booked tag with
      | (some (pa, poss), _) =>
        if poisonedRange s pa b.2 then
          let (x, s) := drawBytes s b.2
          (l ++ x, true, none, s)
        else if poss then (l ++ rdBytes s pa b.2, bad, none, s)
        else (l ++ cohBytes s pa b.2, bad, none, cohTouch s pa b.2)
      | (none, why) => (l, bad, some b.1, denyRemote s d why)) ([], false, none, s)

/-- A RESP to the train engine of position `src` (R387): a READ_REQ is answered as READ. -/
def trainResp (s : State) (d : Nat) (src op st addr : Nat) (last : Bool) (data : List Byte) : State :=
  (sendUnbooked s d 5 s.job.tag src (reqPayload op (2 * b2n last) st data.length addr 0 3 0 [] data)).1

/-! ### BOOKED flits (R385) -/

/-- Key of a booked stream of `src`. -/
def streamKey (src path : Nat) : Nat := src * 256 + path

/-- WRITE: blocks that pass are written, refusals go back; the last flit of a train with ARRIVE adds 1 once every byte has been
written (R591). -/
def bookedWrite (s : State) (p : Nat) (f : Flit) : State :=
  let d := p / 2
  let pl := f.payload
  let fl := payNat pl 1 1
  let k := streamKey f.src.toNat f.path.toNat
  let (s, bad) := awayWrite s d (natField fl 2 1) (payNat pl 2 2) (payNat pl 8 8) true f.tag (payBytes pl 32 (min 192 (payNat pl 4 2)))
  let s := bad.foldl (fun s a => trainResp s d f.src.toNat 2 stDenied a true []) s
  let s := if bad.isEmpty then s else { s with om := { s.om with refused := Store.set (fun _ => false) s.om.refused k true } }
  if Nat.testBit fl 0 then
    let lost := Store.get (fun _ => false) s.om.refused k
    let s := { s with om := { s.om with refused := Store.set (fun _ => false) s.om.refused k false } }
    if Nat.testBit fl 1 ∧ !lost then sendAdd1 s d 15 (payNat pl 6 2 % 16384) else s
  else s

/-- READ_REQ: the bytes up to a refused block, on the return path if this package books it toward the requester, else in RESP
flits; then the refusal. -/
def bookedRead (s : State) (p : Nat) (f : Flit) : State :=
  let d := p / 2
  let pl := f.payload
  let src := f.src.toNat
  let ret := payNat pl 16 1
  let a := payNat pl 8 8
  let (l, bad, stop, s) := awayRead s d (natField (payNat pl 1 1) 2 1) (payNat pl 2 2) a (min 16777216 (payNat pl 24 8)) true f.tag
  let back := ret ≠ 0 && (match pathBook s ret with
    | some b => decide (fld b 24 8 = src)
    | none => false)
  let s :=
    if l.isEmpty then s
    else if back then
      let ps := piecesOf 192 l
      let n := ps.length
      (ps.zip (upTo n)).foldl (fun s x =>
        let last := b2n (decide (x.2 + 1 = n) && stop.isNone)
        sendBooked s 1 ret src 0 (bookedPayload 3 last 0 x.1.2.length 0 x.1.1 0 0 x.1.2)) s
    else
      let ps := piecesOf 160 l
      let n := ps.length
      (ps.zip (upTo n)).foldl (fun s x =>
        trainResp s d src 1 (if bad then stFault else 0) a (decide (x.2 + 1 = n) && stop.isNone) x.1.2) s
  match stop with
  | some b => trainResp s d src 1 stDenied b true []
  | none => s

/-- SIGNAL_SET and SIGNAL_ADD: an order's operation from another package, from engine 15 of the port's die (R79). -/
def bookedSignal (s : State) (p : Nat) (f : Flit) (add : Bool) : State :=
  sendSig s { sig := payNat f.payload 6 2 % 16384, add := add, value := BitVec.ofNat 64 (payNat f.payload 24 8)
              order := some (15, p / 2), asker := 0, askId := 0, setMode := false }

/-- A BOOKED flit that passed its checks. -/
def bookedReceive (s : State) (p : Nat) (f : Flit) : State :=
  match payNat f.payload 0 1 with
  | 1 => bookedWrite s p f
  | 2 => bookedRead s p f
  | 3 => trainData s f.src.toNat (payBytes f.payload 32 (min 192 (payNat f.payload 4 2)))
  | 4 => bookedSignal s p f false
  | 5 => bookedSignal s p f true
  | _ => s

/-! ### REQ and RESP flits (R387) -/

/-- READ: a replica for the depot engine; else memory, whose refusal or poisoned block answers without data. -/
def reqRead (s : State) (p : Nat) (f : Flit) : State :=
  let pl := f.payload
  if payNat pl 20 1 = 2 then replicaRead s f
  else
    let (l, bad, stop, s) := awayRead s (p / 2) (payNat pl 1 1 % 2) (payNat pl 2 2) (payNat pl 8 8) (min 16777216 (payNat pl 24 8))
      false f.tag
    if stop.isSome then sendResp s (p / 2) f stDenied 0 []
    else if bad then sendResp s (p / 2) f stFault 0 []
    else sendResp s (p / 2) f 0 0 l

/-- Key of an unbooked WRITE of `src` with a refused block. -/
def reqKey (src id : Nat) : Nat := 2 ^ 16 + src * 2 ^ 32 + id

/-- WRITE: each flit writes its data; the last is answered. -/
def reqWrite (s : State) (p : Nat) (f : Flit) : State :=
  let pl := f.payload
  let k := reqKey f.src.toNat (payNat pl 16 4)
  let (s, bad) := awayWrite s (p / 2) (payNat pl 1 1 % 2) (payNat pl 2 2) (payNat pl 8 8) false f.tag
    (payBytes pl 64 (min 160 (payNat pl 4 4)))
  let lost := Store.get (fun _ => false) s.om.refused k || !bad.isEmpty
  let last := Nat.testBit (payNat pl 1 1) 1
  let s := { s with om := { s.om with refused := Store.set (fun _ => false) s.om.refused k (lost && !last) } }
  if last then sendResp s (p / 2) f (if lost then stDenied else 0) 0 [] else s

/-- SIGNAL_SET and SIGNAL_ADD: the answer carries the value before the operation. -/
def reqSignal (s : State) (f : Flit) (add : Bool) : State :=
  let pl := f.payload
  sendSig s { sig := payNat pl 8 8 % 16384, add := add, value := BitVec.ofNat 64 (payNat pl 24 8), order := none, asker := 2
              askId := f.src.toNat + 2 ^ 8 * payNat pl 16 4 + 2 ^ 40 * payNat pl 20 1 + 2 ^ 48 * payNat pl 0 1, setMode := false }

/-- A REQ flit that passed its checks. -/
def reqReceive (s : State) (p : Nat) (f : Flit) : State :=
  match payNat f.payload 0 1 with
  | 1 => reqRead s p f
  | 2 => reqWrite s p f
  | 3 => reqSignal s f false
  | 4 => reqSignal s f true
  | 5 => { s with om := { s.om with messages := s.om.messages ++ [(f.src.toNat, payBytes f.payload 64 (min 160 (payNat f.payload 4 4)))] } }
  | 6 => replicaWrite s f
  | 7 => replicaCommit s f
  | _ => s

/-- A RESP flit that passed its checks: refusals and data of trains, answers to the depot engine; a REQ that its last RESP
answers is no longer outstanding. -/
def respReceive (s : State) (f : Flit) : State :=
  let pl := f.payload
  let st := payNat pl 2 2
  let data := payBytes pl 64 (min 160 (payNat pl 4 4))
  let last := Nat.testBit (payNat pl 1 1) 1
  if payNat pl 20 1 = 3 then
    if st = stDenied then trainRefused s f.src.toNat (decide (payNat pl 0 1 = 2)) (payNat pl 8 8)
    else trainData s f.src.toNat data
  else match s.om.reqs.find? (fun r => decide (r.id = payNat pl 16 4) && decide (r.agent = payNat pl 20 1)
      && decide (r.dst = f.src.toNat)) with
    | some r =>
      let s := if last then { s with om := { s.om with reqs := s.om.reqs.erase r } } else s
      if r.agent = 2 then depotReply s r.owner st data last else s
    | none => s

/-! ### CTRL and LINK flits (R388, R389) -/

/-- A CTRL flit that passed its checks; another combination of CTRL and SCOPE is discarded. -/
def ctrlReceive (s : State) (f : Flit) : State :=
  let tag : BitVec 16 := BitVec.ofNat 16 (payNat f.payload 2 2)
  match payNat f.payload 0 1, payNat f.payload 1 1 with
  | 1, 0 => noteArmed s f.src.toNat f.payload
  | 2, 1 => quarantineAdd s tag
  | 3, 1 => quarantineDrop s tag
  | _, _ => s

/-- A LINK flit; a partner that disables its end takes the link DOWN, which the G9 treats as a fault of the port. -/
def linkReceive (s : State) (p : Nat) (f : Flit) : State :=
  match payNat f.payload 0 1 with
  | 1 => laneChange s p f.payload
  | 2 => laneAck s p f.payload
  | 3 => portFault s p
  | _ => s

/-! ### Ingress (R376) -/

/-- What a flit of its kind does once it has passed every check. -/
def flitEffect (s : State) (p : Nat) (f : Flit) : State :=
  match f.kind.toNat with
  | 1 => bookedReceive s p f
  | 2 => collReceive s f.path.toNat f.src.toNat f.payload
  | 3 => packageArrival s f.src.toNat (payNat f.payload 0 4) (payNat f.payload 4 1) (payNat f.payload 5 1)
  | 4 => reqReceive s p f
  | 5 => respReceive s f
  | 6 => timeReceive s p f
  | 7 => ctrlReceive s f
  | 8 => linkReceive s p f
  | _ => s

/-- TAG equals the current job tag, or is 0 for kinds 6 to 8. -/
def tagOk (s : State) (f : Flit) : Bool :=
  if 6 ≤ f.kind.toNat then decide (f.tag = 0) else decide (f.tag = s.job.tag) && decide (s.job.tag ≠ 0)

/-- A flit dropped by its tag; the first one of the port after ARM_JOB is an event. -/
def tagDrop (s : State) (p : Nat) : State :=
  let s := inc (inc s (omP p 0x38)) (hp 0x128)
  if (omPort s p).tagSeen then s else omEvent (setPort s p (fun x => { x with tagSeen := true })) p 5

/-- The expected count of a flit's source (R382, R383). -/
def pairDue (s : State) (f : Flit) : Nat :=
  Store.get (fun _ => 0) (if 6 ≤ f.kind.toNat then s.om.ctlRx else s.om.pairRx) f.src.toNat

/-- The count that the next flit of its source must carry. -/
def pairTake (s : State) (f : Flit) : State :=
  let n := pairDue s f + 1
  if 6 ≤ f.kind.toNat then { s with om := { s.om with ctlRx := Store.set (fun _ => 0) s.om.ctlRx f.src.toNat n } }
  else { s with om := { s.om with pairRx := Store.set (fun _ => 0) s.om.pairRx f.src.toNat n } }

/-- A flit that fails PSEQ or MAC: under the current tag the job fails; a control flit is only discarded (R384). -/
def authDrop (s : State) (p : Nat) (f : Flit) : State :=
  let s := inc s (omP p 0x40)
  if 6 ≤ f.kind.toNat then s else failJob (omEvent s p 4) stFault

/-- The checks of R376 from KIND on, and the delivery. -/
def deliverFlit (s : State) (p : Nat) (f : Flit) : State :=
  let loc := localKind f.kind.toNat f.dst.toNat f.src.toNat
  if 8 < f.kind.toNat then inc s (omP p 0x48)
  else if !tagOk s f then tagDrop s p
  else if !loc && decide (f.dst.toNat ≠ ownPos s) then inc s (omP p 0x48)
  else if f.kind ≠ 8 && !(f.macOk && (loc || decide (f.pseq = BitVec.ofNat 48 (pairDue s f)))) then authDrop s p f
  else flitEffect (inc (if loc then s else pairTake s f) (omP p 0x58)) p f

/-- Deliver held flits in LSEQ order until a gap (R377). -/
def drainHeld : Nat → State → Nat → State
  | 0, s, _ => s
  | fuel + 1, s, p =>
    match (omPort s p).held.find? (fun f => decide (f.lseq.toNat = (omPort s p).nextRx)) with
    | some f =>
      drainHeld fuel (deliverFlit (setPort s p (fun x => { x with held := x.held.erase f, nextRx := (x.nextRx + 1) % 4096 })) p f) p
    | none => s

/-- The link word of a received flit (R374, R377): an ACK frees every flit up to LACK; a NAK asks for one flit again, and
the eighth of one flit fails a lane (R379). -/
def linkWordIn (s : State) (p : Nat) (ack lack : Nat) : State :=
  if ack = 1 then
    setPort s p (fun x => { x with unacked := x.unacked.filter (fun f => !decide ((lack + 4096 - f.lseq) % 4096 < 2048)) })
  else if ack = 2 then
    let s := setPort s p (fun x => { x with unacked := x.unacked.map (fun f =>
      if f.lseq = lack then { f with resend := true, naks := f.naks + 1 } else f) })
    if (omPort s p).unacked.any (fun f => decide (f.lseq = lack) && decide (f.naks = 8)) then nakedOut s p else s
  else s

/-- A flit that fails FEC or CRC: it is counted and NAKed, and holds it causes fall under LINK_RETRY (R376, R377). -/
def fecBad (s : State) (p lseq : Nat) : State :=
  noteCause (setPort (inc s (omP p 0x28)) p (fun x => { x with nakDue := x.nakDue ++ [lseq] })) (p / 2) 0

/-- A flit with an LSEQ whose CRC matches: acknowledged, and held until those before it have come; a duplicate is discarded. -/
def takeFlit (s : State) (p : Nat) (f : Flit) : State :=
  let x := omPort s p
  let s := setPort s p (fun x => { x with ackDue := true })
  if (f.lseq.toNat + 4096 - x.nextRx) % 4096 ≤ 1024 ∧ !x.held.any (fun g => decide (g.lseq = f.lseq)) then
    drainHeld (x.held.length + 1) (setPort s p (fun x => { x with held := x.held ++ [f] })) p
  else s

/-- A flit comes in on port `p`. -/
def flitIn (s : State) (p : Nat) (f : Flit) : State :=
  if linkUp s p then
    if f.fecOk then
      let s := linkWordIn s p f.ackKind.toNat f.lack.toNat
      if f.kind = 0 then s else takeFlit s p f
    else fecBad s p f.lseq.toNat
  else s

/-- A received flit of kind `k`, and of payload OP `op` where the kind has one. -/
def isFlit (f : Flit) (k : Nat) (op : Option Nat) : Bool :=
  decide (f.kind.toNat = k) && (match op with
    | some o => decide (payNat f.payload 0 1 = o)
    | none => true)

/-- A row for flits of kind `k` and OP `op`. -/
def flitRow (p : PortIx) (f : Flit) (k : Nat) (op : Option Nat) (s : State) : State := if isFlit f k op then flitIn s p f else s

/-! ### The commands -/

/-- BOOKED_WRITE (R385). -/
def execBookedWrite (p : PortIx) (f : Flit) (s : State) : Host.Outcome State Fault Refusal := .next (flitRow p f 1 (some 1) s)
/-- READ_REQ (R385). -/
def execReadReq (p : PortIx) (f : Flit) (s : State) : Host.Outcome State Fault Refusal := .next (flitRow p f 1 (some 2) s)
/-- READ_DATA (R385). -/
def execReadData (p : PortIx) (f : Flit) (s : State) : Host.Outcome State Fault Refusal := .next (flitRow p f 1 (some 3) s)
/-- BOOKED_SIGNAL_SET (R385). -/
def execBookedSignalSet (p : PortIx) (f : Flit) (s : State) : Host.Outcome State Fault Refusal := .next (flitRow p f 1 (some 4) s)
/-- BOOKED_SIGNAL_ADD (R385). -/
def execBookedSignalAdd (p : PortIx) (f : Flit) (s : State) : Host.Outcome State Fault Refusal := .next (flitRow p f 1 (some 5) s)
/-- COLL (R386). -/
def execCollFlit (p : PortIx) (f : Flit) (s : State) : Host.Outcome State Fault Refusal := .next (flitRow p f 2 none s)
/-- ARRIVAL (R88). -/
def execArrivalFlit (p : PortIx) (f : Flit) (s : State) : Host.Outcome State Fault Refusal := .next (flitRow p f 3 none s)
/-- REQ_READ (R387). -/
def execReqRead (p : PortIx) (f : Flit) (s : State) : Host.Outcome State Fault Refusal := .next (flitRow p f 4 (some 1) s)
/-- REQ_WRITE (R387). -/
def execReqWrite (p : PortIx) (f : Flit) (s : State) : Host.Outcome State Fault Refusal := .next (flitRow p f 4 (some 2) s)
/-- REQ_SIGNAL_SET (R387). -/
def execReqSignalSet (p : PortIx) (f : Flit) (s : State) : Host.Outcome State Fault Refusal := .next (flitRow p f 4 (some 3) s)
/-- REQ_SIGNAL_ADD (R387). -/
def execReqSignalAdd (p : PortIx) (f : Flit) (s : State) : Host.Outcome State Fault Refusal := .next (flitRow p f 4 (some 4) s)
/-- MESSAGE (R387). -/
def execMessageFlit (p : PortIx) (f : Flit) (s : State) : Host.Outcome State Fault Refusal := .next (flitRow p f 4 (some 5) s)
/-- REPLICA_WRITE (R473). -/
def execReplicaWrite (p : PortIx) (f : Flit) (s : State) : Host.Outcome State Fault Refusal := .next (flitRow p f 4 (some 6) s)
/-- REPLICA_COMMIT (R473). -/
def execReplicaCommit (p : PortIx) (f : Flit) (s : State) : Host.Outcome State Fault Refusal := .next (flitRow p f 4 (some 7) s)
/-- RESP (R387). -/
def execRespFlit (p : PortIx) (f : Flit) (s : State) : Host.Outcome State Fault Refusal := .next (flitRow p f 5 none s)
/-- TIME (R45). -/
def execTimeFlit (p : PortIx) (f : Flit) (s : State) : Host.Outcome State Fault Refusal := .next (flitRow p f 6 none s)
/-- ARMED (R509). -/
def execArmedFlit (p : PortIx) (f : Flit) (s : State) : Host.Outcome State Fault Refusal := .next (flitRow p f 7 (some 1) s)
/-- TEARDOWN_FLIT (R512). -/
def execTeardownFlit (p : PortIx) (f : Flit) (s : State) : Host.Outcome State Fault Refusal := .next (flitRow p f 7 (some 2) s)
/-- CLEAR (R512). -/
def execClearFlit (p : PortIx) (f : Flit) (s : State) : Host.Outcome State Fault Refusal := .next (flitRow p f 7 (some 3) s)
/-- LANE_CHANGE (R389). -/
def execLaneChange (p : PortIx) (f : Flit) (s : State) : Host.Outcome State Fault Refusal := .next (flitRow p f 8 (some 1) s)
/-- LANE_ACK (R389). -/
def execLaneAck (p : PortIx) (f : Flit) (s : State) : Host.Outcome State Fault Refusal := .next (flitRow p f 8 (some 2) s)
/-- PORT_DISABLE (R389). -/
def execPortDisable (p : PortIx) (f : Flit) (s : State) : Host.Outcome State Fault Refusal := .next (flitRow p f 8 (some 3) s)

/-- RESERVED_KIND_FLIT (R375). -/
def execReservedKindFlit (p : PortIx) (f : Flit) (s : State) : Host.Outcome State Fault Refusal :=
  .next (if 8 < f.kind.toNat then flitIn s p f else s)

/-- FLIT_FEC_FAILURE (R376, R377): the flit that the receiver asks for again. -/
def execFlitFecFailure (p : PortIx) (lseq : BitVec 12) (s : State) : Host.Outcome State Fault Refusal :=
  .next (if linkUp s p then fecBad s p lseq.toNat else s)

/-- LINK_ACK (R377). -/
def execLinkAck (p : PortIx) (lack : BitVec 12) (s : State) : Host.Outcome State Fault Refusal :=
  .next (if linkUp s p then linkWordIn s p 1 lack.toNat else s)

/-- LINK_NAK (R377). -/
def execLinkNak (p : PortIx) (lack : BitVec 12) (s : State) : Host.Outcome State Fault Refusal :=
  .next (if linkUp s p then linkWordIn s p 2 lack.toNat else s)

end Sys2Proof.Machine
end

