-- ==== Sys2Proof/Machine/Registers.lean ====
section
/-! DEFINITION. Writes of registers that have no row of their own (R13): what each offset of each die's control space, and of
BAR0, takes. Every other offset is read-only, reserved, or written by its own row, and such a write changes nothing (R13, R15). -/

namespace Sys2Proof.Machine

/-- Event and flag registers (W1C) of an A-die. -/
def aW1c (o : Nat) : Bool :=
  let c := (o - 0x2000000) % 0x100000
  let inC := decide (0x2000000 ≤ o) && decide (o < 0x2800000)
  let group (x : Nat) : Bool := decide (0x80 ≤ x) && decide (x < 0x100) && decide (x % 8 = 0)
  [0x48, 0x1000008, 0x1000060, 0x5000060, 0x8000008, 0x8000028, 0x9000008, 0xA000008, 0xB000038, 0xC008800].contains o
    || (inC && (decide (c = 8) || decide (c = 0x68) || group c || decide (c = 0x1050)))
    || (decide (0x3000000 ≤ o) && decide (o < 0x3400000) && decide (o % 0x100000 = 0x30))
    || (decide (0x6000000 ≤ o) && decide (o < 0x7000000) && decide (o % 0x400000 = 8))
    || (decide (0x7000000 ≤ o) && decide (o < 0x7200000) && decide (o % 0x100000 = 0x68))
    || (decide (0x8000080 ≤ o) && decide (o < 0x8000100) && decide (o % 8 = 0))

/-- Writable bits of the RW registers of an A-die without a row of their own; 0 for any other offset. -/
def aMask (o : Nat) : W64 :=
  let c := (o - 0x2000000) % 0x100000
  let inC := decide (0x2000000 ≤ o) && decide (o < 0x2800000)
  let w := (o - 0xC008000) % 32
  let inW := decide (0xC008000 ≤ o) && decide (o < 0xC008800)
  if o = 0x10 ∨ o = 0x5000010 then allOnes
  else if o = 0x5000018 then 0xFFFFFFFF
  else if inC ∧ c = 0x20 then allOnes - 31
  else if inC ∧ c = 0x28 then allOnes
  else if inW ∧ (w = 8 ∨ w = 16) then allOnes
  else if inW ∧ w = 24 then 0xFFFFFFFF
  else 0
where
  /-- Every bit. -/
  allOnes : W64 := 0xFFFFFFFFFFFFFFFF

/-- Event registers of any die, and of BAR0 as index 14: their bits are cleared by writing 1. -/
def isW1c (d o : Nat) : Bool :=
  if d < 8 then aW1c o
  else if d < 12 then decide (o = 0x9000008) || decide (o = 0xA000008)
  else if d = 12 then [0x130, 0x1000040, 0x2000008, 0x3000008].contains o
  else if d = 13 then decide (o = 0x3000008)
  else decide (o = 0x78)

/-- A write to TU_RESOLVE of A-die `d` (R321). -/
def writeResolve (s : State) (d : Nat) (v : W64) : State :=
  if fld v 10 2 = 1 then resolveRetry s d (fld v 0 10)
  else if fld v 10 2 = 2 then resolveFatal s d (fld v 0 10)
  else resolveIgnored s d

/-- A write to the control space of A-die `d`. -/
def writeA (s : State) (d o : Nat) (v same : W64) : State :=
  if aW1c o then w1c s (key d o) v same
  else if o = 0x5000020 then writeResolve s d v
  else if aMask o = 0 then s
  else wr s (key d o) (v &&& aMask o)

/-- A write to the control space of P-die `d`: event registers, seteipnum of an interrupt file in either byte order, and the
APLIC (R343 to R345). -/
def writeP (s : State) (d o : Nat) (v same : W64) : State :=
  let x : W32 := BitVec.setWidth 32 v
  let page := 0x8000000000000 + d * 2 ^ 30 + o / 0x1000 * 0x1000
  if o = 0x9000008 ∨ o = 0xA000008 then w1c s (key d o) v same
  else if 0xD000000 ≤ o ∧ o < 0xD800000 then
    if o % 0x1000 = 0 ∧ (imsicFile page).isSome then deliverMsi s (BitVec.ofNat 64 page) x
    else if o % 0x1000 = 4 ∧ (imsicFile page).isSome then deliverMsi s (BitVec.ofNat 64 page) (BitVec.ofNat 32 (swap32 x.toNat))
    else s
  else if d = 8 ∧ 0xD800000 ≤ o ∧ o < 0xD804000 ∧ o % 4 = 0 then aplicWrite s 0 (o - 0xD800000) x.toNat
  else if d = 8 ∧ 0xD840000 ≤ o ∧ o < 0xD844000 ∧ o % 4 = 0 then aplicWrite s 1 (o - 0xD840000) x.toNat
  else s

/-- A write to the control space of X0: events, the ring of the seal engine, the words of a RUNTIME notice. -/
def writeX (s : State) (o : Nat) (v same : W64) : State :=
  if o = 0x130 ∨ o = 0x1000040 ∨ o = 0x2000008 ∨ o = 0x3000008 then w1c s (key 12 o) v same
  else if o = 0x1000018 ∨ (0x10 ≤ o ∧ o ≤ 0x28 ∧ o % 8 = 0) then wr s (key 12 o) v
  else s

/-- A write to BAR0 (R421, R422): the notice ring's place while it is disabled, HP_EVENT, and the MSI-X entry. -/
def writeBar (s : State) (o : Nat) (v same : W64) : State :=
  if o = 0x78 then w1c s (bar0 0x78) v same
  else if o = 0x28 ∨ o = 0x30 then
    if rdB s (bar0 0x48) 0 then hpEvent s 5 else wr s (bar0 o) (if o = 0x30 then v &&& 31 else v)
  else if o = 0x8000 then wr s (bar0 o) (v - (v &&& 3))
  else if o = 0x8008 then wr s (bar0 o) (v &&& 0x1FFFFFFFF)
  else s

/-- A write of a whole register. -/
def writeWhole (s : State) (d o : Nat) (v same : W64) : State :=
  if d < 8 then writeA s d o v same
  else if d < 12 then writeP s d o v same
  else if d = 12 then writeX s o v same
  else if d = 13 then (if o = 0x3000008 then w1c s (gd 8) v same else s)
  else writeBar s o v same

/-- The 64-bit value that a write of the 32-bit half at `o` gives its register: the other half of an event register is
written 0, of any other register what it holds (R309; entry 123). -/
def halfValue (s : State) (d o : Nat) (v : W64) : W64 :=
  let cur : W64 := if isW1c d (o / 8 * 8) then 0 else rd s (key d (o / 8 * 8))
  if o % 8 = 4 then BitVec.ofNat 64 (fld cur 0 32 + 2 ^ 32 * fld v 0 32)
  else BitVec.ofNat 64 (fld v 0 32 + 2 ^ 32 * fld cur 32 32)

/-- REGISTER_WRITE of `len` bytes: on A-die, P-die, X0 or X1 `die` (X1's Guard mailbox is X0's, R502), or on BAR0 as index 14.
Control space takes naturally aligned accesses of 4 or 8 bytes; another faults at its hart and does nothing (R309). The registers
of the interrupt controller are 32 bits wide (R342 to R344). The G9 sets the event bits of `same` in the CTL cycle of the write,
and the set wins over the clear (R14). -/
def execRegisterWrite (die : Fin 15) (off : BitVec 30) (len : BitVec 4) (v same : W64) (s : State) :
    Host.Outcome State Fault Refusal :=
  let d := die.val
  let o := off.toNat
  .next (if !hartAccess [4, 8] o len.toNat then s
    else if len = 8 || (decide (8 ≤ d) && decide (d < 12) && decide (0xD000000 ≤ o)) then writeWhole s d o v same
    else writeWhole s d (o / 8 * 8) (halfValue s d o v) same)

end Sys2Proof.Machine
end

