-- ==== Sys2Proof/Machine/Start.lean ====
section
/-! DEFINITION. The start (R545 to R558, R562) and the way into and out of STABLED (R539 to R542). -/

namespace Sys2Proof.Machine

/-! ### Progress (R545, R548, R562) -/

/-- The step in progress. -/
def startStep (s : State) : Nat := rdF s (hp 0x200) 0 4

/-- Milliseconds since step 1. -/
def startMs (s : State) : Nat := (now s - (s.dev.steps.getLast?).getD (now s) : W64).toNat / 1000000

/-- The next step begins. -/
def nextStep (s : State) : State :=
  wrF { s with dev := { s.dev with steps := now s :: s.dev.steps } } (hp 0x200) 0 4 (startStep s + 1)

/-- Bound of step `k` in beats (R545): `hist` says whether the start has history, `format` whether step 4 formats the depot. -/
def stepBound (k : Nat) (hist format : Bool) : Nat :=
  if k = 4 ∧ format then 20000000000
  else if k = 5 ∧ hist then 15000000000
  else [0, 50000000, 2000000000, 3000000000, 3000000000, 60000000000, 500000000, 20000000000, 500000000].getD k 0

/-- Beats since the step in progress began. -/
def stepBeats (s : State) : Nat :=
  match s.dev.steps with
  | t :: _ => (now s - t : W64).toNat
  | [] => 0

/-- The step in progress has run past its bound (R546). -/
def stepLate (s : State) (format : Bool) : Bool := decide (stepBound (startStep s) (rdB s (hp 0x200) 16) format < stepBeats s)

/-- The start log keeps the last 16 starts (R556): HP_START_STATUS and the steps' durations. -/
def logStart (s : State) : State :=
  let t := (now s :: s.dev.steps).map BitVec.toNat
  let d := (t.zip (t.drop 1)).map (fun x => x.1 - x.2)
  let l := s.hist.starts ++ [(rd s (hp 0x200), d.reverse)]
  { s with hist := { s.hist with starts := l.drop (l.length - 16) } }

/-- A start fails with a result of R548. -/
def startFail (s : State) (result detail : Nat) : State :=
  let s := wrF (wrF (wrF s (hp 0x200) 4 4 result) (hp 0x200) 8 8 detail) (hp 0x200) 32 32 (startMs s)
  failDevice (logStart s)

/-! ### Steps 1 and 2 -/

/-- Step 1: the Guard starts from ROM (R481, R498, R501, R502). -/
def startRom (s : State) : State :=
  let s := newChallenge s
  let s := wrB (wrB s (gd 0) 0 (!s.guard.aliveX0)) (gd 0) 1 (s.guard.aliveX0 && s.guard.aliveX1)
  let h := s.guard.operatorHash.getD []
  nextStep ((upTo 4).foldl (fun s i => wr s (gd (0x20 + 8 * i)) (BitVec.ofNat 64 (leAt h (8 * i) 8))) s)

/-- The certificate names this package's keys (R486). -/
def certOk (s : State) (c : List Byte) (caOk : Bool) : Bool :=
  caOk && decide (slice c 24 32 = idPk s) && decide (slice c 64 1184 = cfgEk s)

/-- Step 2: a NOR without 8D-8D-8D ends the start with TIMEOUT (R574); both images are verified, and the first failure ends it
with BOOT (R481). -/
def startImages (s : State) (octal : Bool) (fw cfg cert : List Byte) (fwSigOk cfgSigOk caOk : Bool) (groupKey : Option (BitVec 256)) : State :=
  if !octal then startFail s 9 2 else
  let r := if fwCheck s fw fwSigOk ≠ 0 then fwCheck s fw fwSigOk else cfgCheck s cfg cfgSigOk
  let s := { s with guard := { s.guard with norFw := some fw, norCfg := some cfg, norCert := some (slice cert 0 9104) } }
  let s := wrF s (gd 0) 8 4 r
  if r ≠ 0 then startFail s 1 r
  else
    let h := s.guard.operatorHash.getD (sha256 (imKey cfg))
    let s := { s with guard := { s.guard with operatorHash := some h, fwMeasure := imMeasure fw, cfgMeasure := imMeasure cfg } }
    let s := (upTo 4).foldl (fun s i => wr s (gd (0x20 + 8 * i)) (BitVec.ofNat 64 (leAt h (8 * i) 8))) s
    let s := wr s (gd 0x10) (BitVec.ofNat 64 (imVersion fw + 2 ^ 32 * imSvn fw))
    let l := (recordsOf cfg).getD []
    let key := if (recordOf l 11).isSome then groupKey else none
    let s := wrB (wrB s (gd 0) 2 (certOk s cert caOk)) (gd 0) 3 key.isSome
    nextStep (applyCfg { s with guard := { s.guard with groupKey := key } } l)

/-! ### Step 3: Chawen (R359) -/

/-- Spares for the faulty wires of one bundle: faulty spares are left out, then each faulty position in ascending order takes
the lowest healthy spare; false when no spare is left free. -/
def repairBundle (s : State) (d e b : Nat) (wires : List Nat) : State × Bool :=
  let k := cwKey d e b
  let bad := (wires.filter (fun w => decide (1024 ≤ w))).foldl (fun m w => putBit m (w - 1024) true) (Store.get (fun _ => 0) s.cw.badSpares k)
  let s := { s with cw := { s.cw with badSpares := Store.set (fun _ => 0) s.cw.badSpares k bad } }
  let used (s : State) (w : Nat) : Bool := (upTo 32).any (fun n => decide (rdF s (cwRepair d e b (n / 4)) (16 * (n % 4)) 16 = w + 2 ^ 15))
  let s := ((wires.filter (fun w => decide (w < 1024))).mergeSort (fun x y => decide (x ≤ y))).foldl (fun s w =>
    if used s w then s
    else match freeSpares s d e b with
      | n :: _ => useSpare s d e b n w
      | [] => s) s
  (s, !(freeSpares s d e b).isEmpty)

/-- The receiving die of a bundle entry. -/
def rxDie (d e : Nat) : Nat := if e < 14 then d else e - 2

/-- Repair the bundles of some faulty wires; the die of the first bundle that fails. -/
def repairAll (s : State) (faulty : List (Nat × Nat × Nat × Nat)) : State × Option Nat :=
  let bundles := (faulty.map (fun x => (x.1, x.2.1, x.2.2.1))).dedup
  bundles.foldl (fun (a : State × Option Nat) x =>
    let wires := ((faulty.filter (fun y => decide ((y.1, y.2.1, y.2.2.1) = x))).map (fun y => y.2.2.2)).dedup
    let (s, ok) := repairBundle a.1 x.1 x.2.1 x.2.2 wires
    (s, if ok then a.2 else match a.2 with
      | some d => some d
      | none => some (rxDie x.1 x.2.1))) (s, none)

/-- Step 3: the faults of the fuses and of the test; a bundle without a free spare, or a clock pair with both clocks faulty,
fails the start. -/
def startWires (s : State) (faulty : List (Fin 12 × Fin 16 × Fin 8 × Fin 1056)) (deadClocks : List (Fin 12 × Fin 16 × Fin 8)) : State :=
  let s := (upTo 12).foldl (fun s d => (upTo 16).foldl (fun s e => (upTo 8).foldl (fun s b =>
    if bundleExists d e b then wrB s (cwRx d e b) 63 true else s) s) s) s
  let r := repairAll s (faulty.map (fun x => (x.1.val, x.2.1.val, x.2.2.1.val, x.2.2.2.val)))
  match r.2, deadClocks with
  | some d, _ => startFail r.1 2 d
  | none, x :: _ => startFail r.1 2 (rxDie x.1.val x.2.1.val)
  | none, [] => nextStep r.1

/-! ### Step 4: the depot and the history (R467, R547, R556, R557) -/

/-- A history record has a valid copy; the records are numbered by their rows in R556. -/
def historyOf (records : BitVec 12) (i : Nat) : Bool := bitOf records i

/-- Drop the marks with keys from `lo` up to but not `hi`. -/
def dropMarks (s : State) (lo hi : Nat) : State := { s with marks := Store.eraseRange s.marks lo hi }

/-- What a record without a valid copy no longer says (R556). -/
def forgetHistory (s : State) (records : BitVec 12) : State :=
  let miss (i : Nat) (f : State → State) (s : State) : State := if historyOf records i then s else f s
  let s := miss 0 (fun s => { s with hist := { s.hist with unitSeq := 0 } }) s
  let s := miss 1 (fun s => dropMarks s 0 (2 ^ 20)) s
  let s := miss 2 (fun s => dropMarks s (2 ^ 20) (2 ^ 40)) s
  let s := miss 3 (fun s => { s with dev := { s.dev with badSites := [] } }) s
  let s := miss 4 (fun s => dropMarks { s with hist := { s.hist with trained := [], bkSpares := [] } } (2 ^ 41) (2 ^ 42)) s
  let s := miss 5 (fun s => { s with sweeps := [] }) s
  let s := miss 6 (fun s => dropMarks s (2 ^ 40) (2 ^ 41)) s
  let s := miss 7 (fun s => { s with hist := { s.hist with omEq := 0 } }) s
  let s := miss 8 (fun s => { s with depot := { s.depot with blocks :=
    (s.depot.blocks.map (fun p => (p.1, { p.2 with offset := false }))).filter (fun p => !decide (p.2 = NandBlock.fresh p.1)) } }) s
  let s := miss 9 (fun s => { s with hist := { s.hist with leak := [] } }) s
  let s := miss 10 (fun s => { s with hist := { s.hist with runtime := false } }) s
  miss 11 (fun s => { s with hist := { s.hist with starts := [] } }) s

/-- Formatting empties the depot and its counters (R463, R467, R477). -/
def formatDepot (s : State) : State :=
  let s := { s with depot := { s.depot with objects := [], pages := [], blocks := [], retiredAt := [] }
                    regs := Store.eraseRange s.regs (dp 0x40) (dp 0x68) }
  wrB s (hp 0x200) 17 true

/-- Population of the depot as the start finds it. -/
def populateDepot (s : State) (luns : BitVec 512) (lunBytes blocks spares : Nat) : State :=
  let per := ((upTo 16).filter (fun l => (upTo 32).any (fun c => bitOf luns (16 * c + l)))).foldl (fun m l => max m (l + 1)) 0
  let s := { s with depot := { s.depot with chanBlocks := blocks, lunBytes := lunBytes } }
  let s := (upTo 32).foldl (fun s c =>
    let mine := (upTo 16).filter (fun l => bitOf luns (16 * c + l))
    let failed := ((upTo per).filter (fun l => !bitOf luns (16 * c + l))).map (fun l => 2 ^ l)
    wrF (wrF (wrF s (dpCh c) 2 5 mine.length) (dpCh c) 7 16 failed.sum) (dpCh c) 23 32 spares) s
  let s := wrF s (dp 0) 2 10 ((upTo 512).filter (bitOf luns)).length
  depotSizes (wr s (dp 0x38) (BitVec.ofNat 64 spares))

/-- Faulty wires that the history marks, of bundles of A- and P-dies. -/
def markedWires (s : State) : List (Nat × Nat × Nat × Nat) :=
  (Store.keysIn s.marks (2 ^ 40) (2 ^ 41)).map (fun k =>
    let x := k - 2 ^ 40
    let b := x / 1024
    (b / 128, b / 8 % 16, b % 8, x % 1024))

/-- Step 4. -/
def startDepot (s : State) (partsOk : Bool) (super : Option W32) (luns : BitVec 512) (lunBytes blocks spares : Nat)
    (records : BitVec 12) : State :=
  let matching := super = some s.img.layoutId
  let format := decide (super = none) && s.img.format
  if !partsOk || !(decide matching || format) then startFail s 7 0
  else
    let records := if format then 0 else records
    let s := if format then formatDepot s else s
    let s := forgetHistory s records
    let s := wrB (wrB s (hp 0x200) 16 (decide (records ≠ 0))) (dp 0) 13 (decide (records ≠ 0))
    let s := setDepot (populateDepot s luns lunBytes blocks spares) 1
    let s := if spares * 200 < blocks then setDepot s 2 else s
    let s := storedLeakage s
    match repairAll s (markedWires s) with
    | (s, some d) => startFail s 2 d
    | (s, none) => nextStep s

/-! ### Step 5: the tests (R140, R176, R301, R304, R342) -/

/-- Row and column out of service for some faulty cubes, if one of each covers them (R140, R141). -/
def coverCubes (f : List (Nat × Nat)) : Option (Nat × Nat) :=
  let sameRow := f.all (fun x => decide (some x.1 = (f.head?.map Prod.fst)))
  let sameCol := f.all (fun x => decide (some x.2 = (f.head?.map Prod.snd)))
  match f with
  | [] => some (32, 32)
  | x :: _ =>
    if sameRow then some (x.1, if sameCol then x.2 else 32)
    else if sameCol then some (32, x.2)
    else ((upTo 33).flatMap (fun r => (upTo 33).map (fun c => (r, c)))).find? (fun q => f.all (fun y => decide (y.1 = q.1) || decide (y.2 = q.2)))

/-- Faulty cubes of a die, by its marks. -/
def faultyCubes (s : State) (d : Nat) : List (Nat × Nat) :=
  (Store.keysIn s.marks (d * 4096) (d * 4096 + 4096)).map (fun k => (k % 4096 / 64, k % 64))

/-- Take a row and a column of an array out of service; none where no pair covers its faulty cubes. -/
def sideArray (s : State) (d : Nat) : Option State :=
  let f := faultyCubes s d
  (coverCubes f).map (fun q => wr s (ma d 0x10) (BitVec.ofNat 64 (q.1 + 2 ^ 8 * q.2 + 2 ^ 16 * f.length)))

/-- Lanes out of service of a cluster (R176); none for more than 32 faulty ones. -/
def sideLanes (s : State) (d c : Nat) : Option State :=
  let bad := (upTo 1056).filter (fun l => Store.get (fun _ => false) s.marks (laneMark d c l))
  if 32 < bad.length then none
  else
    let good := (upTo 1056).filter (fun l => !bad.contains l)
    let out := (bad ++ good.drop (good.length - (32 - bad.length))).mergeSort (fun x y => decide (x ≤ y))
    let s := wr s (vc d c 0x10) (BitVec.ofNat 64 bad.length)
    some ((upTo 8).foldl (fun s i =>
      wr s (vc d c (0x100 + 8 * i)) (BitVec.ofNat 64 ((upTo 4).map (fun n => (out.getD (4 * i + n) 0 + 2 ^ 15) * 2 ^ (16 * n))).sum)) s)

/-- Map out slot `j` of a track (R301): the check slot's channel takes a data slot's place. -/
def mapOut (s : State) (n t j : Nat) : State :=
  let check := rdF s (bkSlot n t 8) 0 9
  let s := if j < 8 then wrF s (bkSlot n t j) 0 9 check else s
  wrF (wrF s (bkSlot n t 8) 0 9 0x1FF) (bkSlot n t 8) 9 2 3

/-- Key of a channel's training in the history. -/
def channelKey (n phys : Nat) : Nat := n * 512 + phys

/-- Settings of a channel that never trained. -/
def untrained : Nat → W32 × W32 × Bool := fun _ => (0, 0, false)

/-- A channel passes its training: 32/128 UI on the timing axes, 20 steps of 2 mV on the voltage axes (R304). -/
def eyesOk (eyes : W32) : Bool :=
  (upTo 4).all (fun a => decide ((if a < 2 then 32 else 20) ≤ fld (BitVec.setWidth 64 eyes) (8 * a) 8))

/-- An axis' centre has moved more than 8 steps since the last training. -/
def centreMoved (old new : W32) : Bool :=
  (upTo 4).any (fun a =>
    let x := fld (BitVec.setWidth 64 old) (8 * a) 8
    let y := fld (BitVec.setWidth 64 new) (8 * a) 8
    decide (x + 8 < y) || decide (y + 8 < x))

/-- A channel trains (R304): by a short sweep where the history has its settings and no centre has moved far, else in full. -/
def trainChannel (s : State) (n phys : Nat) (eyes centres : W32) : State :=
  let k := channelKey n phys
  let full := !s.hist.trained.any (fun p => decide (p.1 = k)) || centreMoved (Store.get untrained s.hist.trained k).2.1 centres
  let s := { s with hist := { s.hist with trained := Store.set untrained s.hist.trained k (eyes, centres, full) } }
  if eyesOk eyes then s else { s with marks := Store.set (fun _ => false) s.marks (channelMark n phys) true }

/-- BK_SLOT shows the eyes of the channel that fills a slot (R306). -/
def showEyes (s : State) (n phys : Nat) (eyes : W32) : State :=
  match fills s n phys with
  | some x => wrF s (bkSlot n x.1 x.2) 16 32 eyes.toNat
  | none => s

/-- Fill the slots of a stack's faulty channels (R301); none where a track would map out two. -/
def sideStack (s : State) (n : Nat) : Option State :=
  let bad (p : Nat) : Bool := Store.get (fun _ => false) s.marks (channelMark n p)
  let s := ((upTo 8).filter (fun i => bad (288 + i))).foldl (fun s i => spareFails s n i) s
  let r := ((upTo 288).filter bad).foldl (fun (a : Option State) p =>
    a.bind (fun s =>
      match freeSpare s n with
      | some i => some (wrF (setSpare s n i (BitVec.ofNat 64 (2 + 2 ^ 2 * (p / 9) + 2 ^ 7 * (p % 9)))) (bkSlot n (p / 9) (p % 9)) 0 9 (288 + i))
      | none => if trackState s n (p / 9) = .unprotected then none else some (mapOut s n (p / 9) (p % 9)))) (some s)
  r.map (fun s => bkRefresh (wrB s (bkS n 0) 0 true) n)

/-- Sites of the positions of a P-die (R342); none for more than 4 faulty sites. -/
def sideCores (s : State) (p : Nat) : Option State :=
  let good := (upTo 40).filter (fun i => !Store.get (fun _ => false) s.dev.badSites (p * 64 + i))
  if good.length < 36 then none
  else
    let m := (upTo 36).foldl (fun m j => Store.set (fun h => h % 36) m (36 * p + j) (good.getD j 0)) s.dev.cores
    some { s with dev := { s.dev with cores := m } }

/-- Run a check on each unit; the unit that fails. -/
def sideAll (s : State) (n : Nat) (f : State → Nat → Option State) : State × Option Nat :=
  (upTo n).foldl (fun (a : State × Option Nat) i => match a.2, f a.1 i with
    | none, some s => (s, none)
    | none, none => (a.1, some i)
    | some k, _ => (a.1, some k)) (s, none)

/-- Step 5: what the tests find joins the marks, and every unit's spares are laid out. A memory channel that `trained` does not
list passes as the history has it (entry 126). -/
def startTests (s : State) (cubes : List (ADie × Fin 33 × Fin 33)) (lanes : List (ADie × Cluster × Fin 1056))
    (cores : List (Fin 4 × Fin 40)) (trained : List (StackIx × Fin 296 × W32 × W32)) : State :=
  let mark (m : Store Bool) (k : Nat) : Store Bool := Store.set (fun _ => false) m k true
  let m := cubes.foldl (fun m x => mark m (cubeMark x.1.val x.2.1.val x.2.2.val)) s.marks
  let m := lanes.foldl (fun m x => mark m (laneMark x.1.val x.2.1.val x.2.2.val)) m
  let sites := cores.foldl (fun b x => mark b (x.1.val * 64 + x.2.val)) s.dev.badSites
  let s := { s with marks := m, dev := { s.dev with badSites := sites } }
  let s := trained.foldl (fun s x => trainChannel s x.1.val x.2.1.val x.2.2.1 x.2.2.2) s
  match sideAll s 8 sideArray with
  | (s, some d) => startFail s 3 d
  | (s, none) =>
    match sideAll s 64 (fun s k => sideLanes s (k / 8) (k % 8)) with
    | (s, some k) => startFail s 4 k
    | (s, none) =>
      match sideAll s 32 sideStack with
      | (s, some n) => startFail s 5 n
      | (s, none) =>
        let s := trained.foldl (fun s x => showEyes s x.1.val x.2.1.val x.2.2.1) s
        match sideAll s 4 sideCores with
        | (s, some p) => startFail s 6 (8 + p)
        | (s, none) => nextStep s

/-! ### Steps 6 to 9 -/

/-- Step 6: directories and possession maps are clear, and memory runs under a fresh key. -/
def startMemory (s : State) : State :=
  let s := (upTo 8).foldl (fun s d => wr s (jn d 8) 0) s
  let (k, s) := drawBytes s 64
  nextStep { s with dir := [], jlines := [], deferred := [], possMap := [], mem := [], poisoned := []
                    guard := { s.guard with memKey := some (BitVec.ofNat 512 (leNat k)) } }

/-- In step 8 the reset of every N port that is not DISABLED is released (R571). -/
def releaseNports (s : State) : State :=
  let m := ((upTo 4).filter (fun n => decide (Store.get (fun _ => 0) s.npFunc n ≠ 2))).foldl (fun b n => b ||| BitVec.ofNat 4 (2 ^ n)) 0
  { s with dev := { s.dev with npRst := m } }

/-- Step 7: the runtime boots from its store, rebuilt first where its measurement differs (R557). -/
def startRuntime (s : State) (storeOk rebuiltOk : Bool) : State :=
  let ok := storeOk && s.hist.runtime
  let s := if ok then s else wrB s (hp 0x200) 18 true
  if ok || rebuiltOk then releaseNports (nextStep { s with hist := { s.hist with runtime := true } }) else startFail s 8 0

/-- READY (R483, R492, R545, R558): its notice, the first arm key, the raised security count, the unit map's record, the log. -/
def startReady (s : State) : State :=
  let s := wrF (nextStep s) (hp 0x200) 32 32 (startMs s)
  let s := unitChanged { s with dev := { s.dev with state := .ready, everReady := true } }
  let s := if s.guard.armEk.isNone then newArmKey s else s
  let s := if rdF s (gd 0x18) 0 7 < fwSvn s then gdEvent (wr s (gd 0x18) (BitVec.ofNat 64 (fwSvn s))) 5 else s
  refreshAlerts (logStart (post s 2 0 (sourceOf 15 0) 0 (BitVec.ofNat 64 (2 ^ 32 * rdF s (hp 0x200) 32 32)) 0 0 0))

/-- Step 4 formats the depot. -/
def stepFormats (s : State) : StepFinding → Bool
  | .depot _ super _ _ _ _ _ => decide (super = none) && s.img.format
  | _ => false

/-- START_STEP_DONE (R545): the step in progress ends at count `t` with what it found; past its bound the start has failed. -/
def execStartStepDone (found : StepFinding) (t : W64) (s : State) : Host.Outcome State Fault Refusal :=
  let s := advance s t
  .next (if s.dev.state ≠ .starting || s.dev.restarting then s
  else if stepLate s (stepFormats s found) then startFail s 9 (startStep s)
  else match found, startStep s with
    | .rom, 1 => startRom s
    | .images o fw cfg cert a b c k, 2 => startImages s o fw cfg cert a b c k
    | .wires faulty dead, 3 => startWires s faulty dead
    | .depot ok super luns lunBytes blocks spares records, 4 =>
      startDepot s ok super luns lunBytes.toNat blocks.toNat spares.toNat records
    | .tests cubes lanes cores trained, 5 => startTests s cubes lanes cores trained
    | .cleared, 6 => startMemory s
    | .runtime a b, 7 => startRuntime s a b
    | .ports, 8 => startReady s
    | _, _ => s)

/-- START_STEP_TIMEOUT (R546): at count `t` the step in progress has run past its bound; `format` says whether step 4 formats. -/
def execStartStepTimeout (format : Bool) (t : W64) (s : State) : Host.Outcome State Fault Refusal :=
  let s := advance s t
  .next (if s.dev.state ≠ .starting || s.dev.restarting || !stepLate s format then s else startFail s 9 (startStep s))

/-! ### Stabled (R539 to R542) -/

/-- STABLE_ENTRY_DONE (R540): caches are written back, the ports are down, and a WAKE that came meanwhile takes effect. -/
def execStableEntryDone (s : State) : Host.Outcome State Fault Refusal :=
  .next (if !s.dev.entering || s.port.cmds.any (fun c => decide (some c.seq = s.dev.stableSeq)) then s
  else
    let s := (upTo 16).foldl ommetDown (writeBackAll s)
    let s := (upTo 4).foldl nportDown s
    let s := setDevice { s with dev := { s.dev with entering := false, stableSeq := none } } .stabled 0
    if s.dev.wakePending then { s with dev := { s.dev with wakePending := false, wakeAt := some (now s), wakeStep := 0 } } else s)

/-- Beats of the wake timeline (R541). -/
def wakeBeats : List Nat := [0, 2000000, 5000000, 12000000, 20000000, 25000000]

/-- WAKE_STEP (R303, R541, R542): the next event of the timeline at its beat; `ok` says whether it could complete in its stretch. Once
the device is READY, the memory channels `bad` that failed the test pattern of the wake are declared failed. -/
def execWakeStep (ok : Bool) (bad : List (StackIx × Fin 296)) (s : State) : Host.Outcome State Fault Refusal :=
  .next (match s.dev.wakeAt with
  | none => s
  | some w =>
    if s.dev.state ≠ .stabled then s
    else
      let k := s.dev.wakeStep
      let s := advance s (w + BitVec.ofNat 64 (wakeBeats.getD k 0))
      if !ok then failDevice { s with dev := { s.dev with wakeAt := none } }
      else if k < 5 then
        let s := { s with dev := { s.dev with wakeStep := k + 1 } }
        if k = 4 then storedLeakage s else s
      else
        let s := { s with dev := { s.dev with state := .ready, wakeAt := none, wakeStep := 0 } }
        let s := refreshAlerts (post s 2 0 (sourceOf 15 0) 0 (BitVec.ofNat 64 (1 + 2 ^ 32 * 25)) 0 0 0)
        let order (x : StackIx × Fin 296) : Nat := x.1.val * 2048 + failOrder s x.1.val x.2.val
        (bad.mergeSort (fun x y => decide (order x ≤ order y))).foldl (fun s x => channelFails s x.1.val x.2.val) s)

end Sys2Proof.Machine
end

