-- ==== Sys2Proof/Machine/Dispatch.lean ====
section
/-! DEFINITION. What each command does: one arm per constructor, each one call of its meaning. -/

namespace Sys2Proof.Machine

def exec (i : Instr) (s : State) : Host.Outcome State Fault Refusal :=
  match i with
  | .trefLost t => Sys2Proof.Machine.execTrefLost t s
  | .trefReturn t => Sys2Proof.Machine.execTrefReturn t s
  | .trefHoldExpiry t => Sys2Proof.Machine.execTrefHoldExpiry t s
  | .ttodMessage t msg => Sys2Proof.Machine.execTtodMessage t msg s
  | .ttodTimeout t => Sys2Proof.Machine.execTtodTimeout t s
  | .tppsEdge t => Sys2Proof.Machine.execTppsEdge t s
  | .tppsMissing t => Sys2Proof.Machine.execTppsMissing t s
  | .holdoverExpiry t => Sys2Proof.Machine.execHoldoverExpiry t s
  | .holdEligible t => Sys2Proof.Machine.execHoldEligible t s
  | .timeTransferRequest t => Sys2Proof.Machine.execTimeTransferRequest t s
  | .timeFlit p f => Sys2Proof.Machine.execTimeFlit p f s
  | .mtcRegisterWrite off v same => Sys2Proof.Machine.execMtcRegisterWrite off v same s
  | .mainRelock => Sys2Proof.Machine.execMainRelock s
  | .registerWrite die off len v same => Sys2Proof.Machine.execRegisterWrite die off len v same s
  | .nop d e issue => Sys2Proof.Machine.execNop d e issue s
  | .sigSet d e issue ops => Sys2Proof.Machine.execSigSet d e issue ops s
  | .sigAdd d e issue ops => Sys2Proof.Machine.execSigAdd d e issue ops s
  | .sigWaitGe d e issue ops => Sys2Proof.Machine.execSigWaitGe d e issue ops s
  | .sigWaitEq d e issue ops => Sys2Proof.Machine.execSigWaitEq d e issue ops s
  | .sigWaitMask d e issue ops => Sys2Proof.Machine.execSigWaitMask d e issue ops s
  | .signalOpArrival d picks => Sys2Proof.Machine.execSignalOpArrival d picks s
  | .signalWaitRelease d w => Sys2Proof.Machine.execSignalWaitRelease d w s
  | .train d j issue ops => Sys2Proof.Machine.execTrain d j issue ops s
  | .trainTranspose d j issue ops => Sys2Proof.Machine.execTrainTranspose d j issue ops s
  | .trainArrival d j issue held => Sys2Proof.Machine.execTrainArrival d j issue held s
  | .orderWriteCycle d engines grant => Sys2Proof.Machine.execOrderWriteCycle d engines grant s
  | .engineArrival d e named => Sys2Proof.Machine.execEngineArrival d e named s
  | .arrivalMessage d src => Sys2Proof.Machine.execArrivalMessage d src s
  | .arrivalFlit p f => Sys2Proof.Machine.execArrivalFlit p f s
  | .departure d t => Sys2Proof.Machine.execDeparture d t s
  | .stationTimeout d t => Sys2Proof.Machine.execStationTimeout d t s
  | .possessionFlushDone d base => Sys2Proof.Machine.execPossessionFlushDone d base s
  | .ttLoad d v => Sys2Proof.Machine.execTtLoad d v s
  | .ttLoadComplete d => Sys2Proof.Machine.execTtLoadComplete d s
  | .sgValueWrite d k v => Sys2Proof.Machine.execSgValueWrite d k v s
  | .sgAddWrite d k v => Sys2Proof.Machine.execSgAddWrite d k v s
  | .sgWaitCfgWrite d w v => Sys2Proof.Machine.execSgWaitCfgWrite d w v s
  | .waitSlotFire d w => Sys2Proof.Machine.execWaitSlotFire d w s
  | .maMma d issue ops bad => Sys2Proof.Machine.execMaMma d issue ops bad s
  | .maOutcfg d issue ops => Sys2Proof.Machine.execMaOutcfg d issue ops s
  | .maScalecfg d issue ops => Sys2Proof.Machine.execMaScalecfg d issue ops s
  | .maZero d issue ops => Sys2Proof.Machine.execMaZero d issue ops s
  | .maDrain d issue ops => Sys2Proof.Machine.execMaDrain d issue ops s
  | .maLoad d issue ops => Sys2Proof.Machine.execMaLoad d issue ops s
  | .platformWindowAccess hart d off len write => Sys2Proof.Machine.execPlatformWindowAccess hart d off len write s
  | .vcfg d c issue ops => Sys2Proof.Machine.execVcfg d c issue ops s
  | .vbase d c issue ops => Sys2Proof.Machine.execVbase d c issue ops s
  | .vcvt d c issue ops bad => Sys2Proof.Machine.execVcvt d c issue ops bad s
  | .vadd d c issue ops bad => Sys2Proof.Machine.execVadd d c issue ops bad s
  | .vsub d c issue ops bad => Sys2Proof.Machine.execVsub d c issue ops bad s
  | .vmul d c issue ops bad => Sys2Proof.Machine.execVmul d c issue ops bad s
  | .vfma d c issue ops bad => Sys2Proof.Machine.execVfma d c issue ops bad s
  | .vmin d c issue ops bad => Sys2Proof.Machine.execVmin d c issue ops bad s
  | .vmax d c issue ops bad => Sys2Proof.Machine.execVmax d c issue ops bad s
  | .vcmp d c issue ops bad => Sys2Proof.Machine.execVcmp d c issue ops bad s
  | .vsel d c issue ops bad => Sys2Proof.Machine.execVsel d c issue ops bad s
  | .vlogic d c issue ops bad => Sys2Proof.Machine.execVlogic d c issue ops bad s
  | .vunary d c issue ops bad => Sys2Proof.Machine.execVunary d c issue ops bad s
  | .vdiv d c issue ops bad => Sys2Proof.Machine.execVdiv d c issue ops bad s
  | .vsqrt d c issue ops bad => Sys2Proof.Machine.execVsqrt d c issue ops bad s
  | .vrecip d c issue ops bad => Sys2Proof.Machine.execVrecip d c issue ops bad s
  | .vrsqrt d c issue ops bad => Sys2Proof.Machine.execVrsqrt d c issue ops bad s
  | .vfunc d c issue ops bad => Sys2Proof.Machine.execVfunc d c issue ops bad s
  | .vpow d c issue ops bad => Sys2Proof.Machine.execVpow d c issue ops bad s
  | .vred d c issue ops bad => Sys2Proof.Machine.execVred d c issue ops bad s
  | .vdotl d c issue ops bad => Sys2Proof.Machine.execVdotl d c issue ops bad s
  | .vgemv d c issue ops bad => Sys2Proof.Machine.execVgemv d c issue ops bad s
  | .vacc d c issue ops bad => Sys2Proof.Machine.execVacc d c issue ops bad s
  | .vlsadd d c issue ops bad => Sys2Proof.Machine.execVlsadd d c issue ops bad s
  | .vperm d c issue ops bad => Sys2Proof.Machine.execVperm d c issue ops bad s
  | .vshuf d c issue ops bad => Sys2Proof.Machine.execVshuf d c issue ops bad s
  | .vpack d c issue ops bad => Sys2Proof.Machine.execVpack d c issue ops bad s
  | .vunpack d c issue ops bad => Sys2Proof.Machine.execVunpack d c issue ops bad s
  | .vslexp d c issue ops bad => Sys2Proof.Machine.execVslexp d c issue ops bad s
  | .vslice d c issue ops bad => Sys2Proof.Machine.execVslice d c issue ops bad s
  | .vrecomb d c issue ops bad => Sys2Proof.Machine.execVrecomb d c issue ops bad s
  | .vgather d c issue ops bad => Sys2Proof.Machine.execVgather d c issue ops bad s
  | .vscatter d c issue ops bad => Sys2Proof.Machine.execVscatter d c issue ops bad s
  | .vscop d c issue ops => Sys2Proof.Machine.execVscop d c issue ops s
  | .gatherWindowEnd d c finished => Sys2Proof.Machine.execGatherWindowEnd d c finished s
  | .gatherWorkDone d c => Sys2Proof.Machine.execGatherWorkDone d c s
  | .streamCacheFill d c va => Sys2Proof.Machine.execStreamCacheFill d c va s
  | .streamCacheWritebackDone d c late => Sys2Proof.Machine.execStreamCacheWritebackDone d c late s
  | .vcScCfgWrite d c v => Sys2Proof.Machine.execVcScCfgWrite d c v s
  | .vcScRangeCmd d c v => Sys2Proof.Machine.execVcScRangeCmd d c v s
  | .rangeDone d c => Sys2Proof.Machine.execRangeDone d c s
  | .smCall d issue ops => Sys2Proof.Machine.execSmCall d issue ops s
  | .callWindowOpen d c waited => Sys2Proof.Machine.execCallWindowOpen d c waited s
  | .figureStart d c seat => Sys2Proof.Machine.execFigureStart d c seat s
  | .setInstruction d c slot cycles bad => Sys2Proof.Machine.execSetInstruction d c slot cycles bad s
  | .setMemoryAccess d c slot => Sys2Proof.Machine.execSetMemoryAccess d c slot s
  | .setAmoCombine d c slot => Sys2Proof.Machine.execSetAmoCombine d c slot s
  | .setSerialAtomic d c slot => Sys2Proof.Machine.execSetSerialAtomic d c slot s
  | .smBarrier d c slot => Sys2Proof.Machine.execSmBarrier d c slot s
  | .barrierRelease d c slot => Sys2Proof.Machine.execBarrierRelease d c slot s
  | .smExit d c slot => Sys2Proof.Machine.execSmExit d c slot s
  | .smAccrd d c slot => Sys2Proof.Machine.execSmAccrd d c slot s
  | .smPrefetch d c slot => Sys2Proof.Machine.execSmPrefetch d c slot s
  | .smSigSet d c slot => Sys2Proof.Machine.execSmSigSet d c slot s
  | .smSigAdd d c slot => Sys2Proof.Machine.execSmSigAdd d c slot s
  | .smSigWaitGe d c slot => Sys2Proof.Machine.execSmSigWaitGe d c slot s
  | .smSigWaitEq d c slot => Sys2Proof.Machine.execSmSigWaitEq d c slot s
  | .smSigWaitMask d c slot => Sys2Proof.Machine.execSmSigWaitMask d c slot s
  | .smFadd d c slot => Sys2Proof.Machine.execSmFadd d c slot s
  | .smCas d c slot => Sys2Proof.Machine.execSmCas d c slot s
  | .callEnd d c held => Sys2Proof.Machine.execCallEnd d c held s
  | .callWindowExpiry d c => Sys2Proof.Machine.execCallWindowExpiry d c s
  | .callGraceExpiry d c => Sys2Proof.Machine.execCallGraceExpiry d c s
  | .upAddr d issue ops => Sys2Proof.Machine.execUpAddr d issue ops s
  | .upShape d issue ops => Sys2Proof.Machine.execUpShape d issue ops s
  | .upRule d issue ops => Sys2Proof.Machine.execUpRule d issue ops s
  | .upApply d issue ops => Sys2Proof.Machine.execUpApply d issue ops s
  | .updateWindowOpen d waited => Sys2Proof.Machine.execUpdateWindowOpen d waited s
  | .updateEnd d issue held => Sys2Proof.Machine.execUpdateEnd d issue held s
  | .updateWindowExpiry d issue => Sys2Proof.Machine.execUpdateWindowExpiry d issue s
  | .upRuleWrite d j w v => Sys2Proof.Machine.execUpRuleWrite d j w v s
  | .bamkanSlot n t granted arrive => Sys2Proof.Machine.execBamkanSlot n t granted arrive s
  | .bamkanRefresh n => Sys2Proof.Machine.execBamkanRefresh n s
  | .channelNoAnswer n chans out => Sys2Proof.Machine.execChannelNoAnswer n chans out s
  | .rebuildStep n t ue ce => Sys2Proof.Machine.execRebuildStep n t ue ce s
  | .marginSweepStart n v => Sys2Proof.Machine.execMarginSweepStart n v s
  | .marginSweepDone n low high => Sys2Proof.Machine.execMarginSweepDone n low high s
  | .tuSatpWrite d v => Sys2Proof.Machine.execTuSatpWrite d v s
  | .translationWalk d e va write => Sys2Proof.Machine.execTranslationWalk d e va write s
  | .walkComplete d e => Sys2Proof.Machine.execWalkComplete d e s
  | .faultKeyArrival d sender k window => Sys2Proof.Machine.execFaultKeyArrival d sender k window s
  | .tuResolveRetry d ix => Sys2Proof.Machine.execTuResolveRetry d ix s
  | .tuResolveFatal d ix => Sys2Proof.Machine.execTuResolveFatal d ix s
  | .sfenceVma hart va asid => Sys2Proof.Machine.execSfenceVma hart va asid s
  | .sinvalVma hart va asid => Sys2Proof.Machine.execSinvalVma hart va asid s
  | .sfenceInvalIr hart => Sys2Proof.Machine.execSfenceInvalIr hart s
  | .fenceAck d id => Sys2Proof.Machine.execFenceAck d id s
  | .owWindowWrite d recv w v => Sys2Proof.Machine.execOwWindowWrite d recv w v s
  | .tuWinfence d v => Sys2Proof.Machine.execTuWinfence d v s
  | .winfenceDone => Sys2Proof.Machine.execWinfenceDone s
  | .coherentRequest d line write ordered data mask => Sys2Proof.Machine.execCoherentRequest d line write ordered data mask s
  | .snoop d line invalidate => Sys2Proof.Machine.execSnoop d line invalidate s
  | .snoopDeferExpiry d line => Sys2Proof.Machine.execSnoopDeferExpiry d line s
  | .lineEviction d line => Sys2Proof.Machine.execLineEviction d line s
  | .snpdata line => Sys2Proof.Machine.execSnpdata line s
  | .snpinv line => Sys2Proof.Machine.execSnpinv line s
  | .snpcur line => Sys2Proof.Machine.execSnpcur line s
  | .cxlCacheDisable => Sys2Proof.Machine.execCxlCacheDisable s
  | .msiDelivery sender => Sys2Proof.Machine.execMsiDelivery sender s
  | .chawenSlot src dst k phase booked claims => Sys2Proof.Machine.execChawenSlot src dst k phase booked claims s
  | .tMessageDue src dst => Sys2Proof.Machine.execTMessageDue src dst s
  | .tMessage d => Sys2Proof.Machine.execTMessage d s
  | .bMessageDue d r => Sys2Proof.Machine.execBMessageDue d r s
  | .bMessage d msg => Sys2Proof.Machine.execBMessage d msg s
  | .chawenParityMismatch d e b g => Sys2Proof.Machine.execChawenParityMismatch d e b g s
  | .replayArrival d e b ok => Sys2Proof.Machine.execReplayArrival d e b ok s
  | .probeDone d e b wires => Sys2Proof.Machine.execProbeDone d e b wires s
  | .chawenClockFault d e b p => Sys2Proof.Machine.execChawenClockFault d e b p s
  | .idcode => Sys2Proof.Machine.execIdcode s
  | .samplePreload levels preload => Sys2Proof.Machine.execSamplePreload levels preload s
  | .extest => Sys2Proof.Machine.execExtest s
  | .clamp => Sys2Proof.Machine.execClamp s
  | .highz => Sys2Proof.Machine.execHighz s
  | .diechain => Sys2Proof.Machine.execDiechain s
  | .bypass code => Sys2Proof.Machine.execBypass code s
  | .partnerDetect p => Sys2Proof.Machine.execPartnerDetect p s
  | .trainingDone p lanes partner => Sys2Proof.Machine.execTrainingDone p lanes partner s
  | .laneFailed p lane delay => Sys2Proof.Machine.execLaneFailed p lane delay s
  | .laneChange p f => Sys2Proof.Machine.execLaneChange p f s
  | .laneAck p f => Sys2Proof.Machine.execLaneAck p f s
  | .laneChangeEffect p delay => Sys2Proof.Machine.execLaneChangeEffect p delay s
  | .portDisable p f => Sys2Proof.Machine.execPortDisable p f s
  | .ommetPayloadSlot p can ts corr => Sys2Proof.Machine.execOmmetPayloadSlot p can ts corr s
  | .linkNak p lack => Sys2Proof.Machine.execLinkNak p lack s
  | .linkAck p lack => Sys2Proof.Machine.execLinkAck p lack s
  | .bookedWrite p f => Sys2Proof.Machine.execBookedWrite p f s
  | .readReq p f => Sys2Proof.Machine.execReadReq p f s
  | .readData p f => Sys2Proof.Machine.execReadData p f s
  | .bookedSignalSet p f => Sys2Proof.Machine.execBookedSignalSet p f s
  | .bookedSignalAdd p f => Sys2Proof.Machine.execBookedSignalAdd p f s
  | .collFlit p f => Sys2Proof.Machine.execCollFlit p f s
  | .reqRead p f => Sys2Proof.Machine.execReqRead p f s
  | .reqWrite p f => Sys2Proof.Machine.execReqWrite p f s
  | .reqSignalSet p f => Sys2Proof.Machine.execReqSignalSet p f s
  | .reqSignalAdd p f => Sys2Proof.Machine.execReqSignalAdd p f s
  | .messageFlit p f => Sys2Proof.Machine.execMessageFlit p f s
  | .replicaWrite p f => Sys2Proof.Machine.execReplicaWrite p f s
  | .replicaCommit p f => Sys2Proof.Machine.execReplicaCommit p f s
  | .respFlit p f => Sys2Proof.Machine.execRespFlit p f s
  | .armedFlit p f => Sys2Proof.Machine.execArmedFlit p f s
  | .teardownFlit p f => Sys2Proof.Machine.execTeardownFlit p f s
  | .clearFlit p f => Sys2Proof.Machine.execClearFlit p f s
  | .ceColl d issue ops => Sys2Proof.Machine.execCeColl d issue ops s
  | .collectiveEnd d issue held => Sys2Proof.Machine.execCollectiveEnd d issue held s
  | .collectiveWindowExpiry d issue => Sys2Proof.Machine.execCollectiveWindowExpiry d issue s
  | .omCtrlDisable p => Sys2Proof.Machine.execOmCtrlDisable p s
  | .omCtrlEnable p => Sys2Proof.Machine.execOmCtrlEnable p s
  | .orEntryWrite d g v => Sys2Proof.Machine.execOrEntryWrite d g v s
  | .npPeerWrite r high v => Sys2Proof.Machine.execNpPeerWrite r high v s
  | .npSealRegionWrite size v => Sys2Proof.Machine.execNpSealRegionWrite size v s
  | .npRingTailWrite v => Sys2Proof.Machine.execNpRingTailWrite v s
  | .sealFrame => Sys2Proof.Machine.execSealFrame s
  | .openFrame opened => Sys2Proof.Machine.execOpenFrame opened s
  | .nportInboundRequest n pa len write => Sys2Proof.Machine.execNportInboundRequest n pa len write s
  | .functionDrained f => Sys2Proof.Machine.execFunctionDrained f s
  | .functionDrainExpiry f t nand => Sys2Proof.Machine.execFunctionDrainExpiry f t nand s
  | .hpDoorbell d => Sys2Proof.Machine.execHpDoorbell d s
  | .slotRead written => Sys2Proof.Machine.execSlotRead written s
  | .commandAccept => Sys2Proof.Machine.execCommandAccept s
  | .completion seq => Sys2Proof.Machine.execCompletion seq s
  | .identify seq => Sys2Proof.Machine.execIdentify seq s
  | .getStatus seq => Sys2Proof.Machine.execGetStatus seq s
  | .mapLanding seq => Sys2Proof.Machine.execMapLanding seq s
  | .put seq opened => Sys2Proof.Machine.execPut seq opened s
  | .get seq => Sys2Proof.Machine.execGet seq s
  | .armJob seq sigOk bundle => Sys2Proof.Machine.execArmJob seq sigOk bundle s
  | .rightAway seq => Sys2Proof.Machine.execRightAway seq s
  | .teardown seq => Sys2Proof.Machine.execTeardown seq s
  | .signalRead seq => Sys2Proof.Machine.execSignalRead seq s
  | .signalSet seq => Sys2Proof.Machine.execSignalSet seq s
  | .signalAdd seq => Sys2Proof.Machine.execSignalAdd seq s
  | .setFunctionDisable seq => Sys2Proof.Machine.execSetFunctionDisable seq s
  | .setFunctionEnable seq => Sys2Proof.Machine.execSetFunctionEnable seq s
  | .stable seq => Sys2Proof.Machine.execStable seq s
  | .maintenanceEnter seq sigOk => Sys2Proof.Machine.execMaintenanceEnter seq sigOk s
  | .maintenanceRestart seq => Sys2Proof.Machine.execMaintenanceRestart seq s
  | .updateFirmware seq sigOk readBackOk => Sys2Proof.Machine.execUpdateFirmware seq sigOk readBackOk s
  | .updateConfiguration seq sigOk readBackOk => Sys2Proof.Machine.execUpdateConfiguration seq sigOk readBackOk s
  | .attest seq => Sys2Proof.Machine.execAttest seq s
  | .landingWrite off data => Sys2Proof.Machine.execLandingWrite off data s
  | .landingDenied t => Sys2Proof.Machine.execLandingDenied t s
  | .bar4Read off => Sys2Proof.Machine.execBar4Read off s
  | .hpNoticeCtrlWrite v => Sys2Proof.Machine.execHpNoticeCtrlWrite v s
  | .hpNoticeHeadWrite v => Sys2Proof.Machine.execHpNoticeHeadWrite v s
  | .noticeWrite => Sys2Proof.Machine.execNoticeWrite s
  | .msixMessage t => Sys2Proof.Machine.execMsixMessage t s
  | .hpWake v => Sys2Proof.Machine.execHpWake v s
  | .hpLandWrite size v => Sys2Proof.Machine.execHpLandWrite size v s
  | .hpRtPost v => Sys2Proof.Machine.execHpRtPost v s
  | .hostPortReset kind => Sys2Proof.Machine.execHostPortReset kind s
  | .hostFunctionDisable => Sys2Proof.Machine.execHostFunctionDisable s
  | .hostFunctionEnable => Sys2Proof.Machine.execHostFunctionEnable s
  | .doeSession hostKey => Sys2Proof.Machine.execDoeSession hostKey s
  | .ideKm authentic => Sys2Proof.Machine.execIdeKm authentic s
  | .dpRingTailWrite v => Sys2Proof.Machine.execDpRingTailWrite v s
  | .dpRingBaseWrite v => Sys2Proof.Machine.execDpRingBaseWrite v s
  | .objWrite => Sys2Proof.Machine.execObjWrite s
  | .objCommit => Sys2Proof.Machine.execObjCommit s
  | .objRead x => Sys2Proof.Machine.execObjRead x s
  | .objStat => Sys2Proof.Machine.execObjStat s
  | .objDelete => Sys2Proof.Machine.execObjDelete s
  | .pageOut => Sys2Proof.Machine.execPageOut s
  | .pageIn x => Sys2Proof.Machine.execPageIn x s
  | .pageDrop => Sys2Proof.Machine.execPageDrop s
  | .depotRequestComplete ix => Sys2Proof.Machine.execDepotRequestComplete ix s
  | .buddyTimeout ix t => Sys2Proof.Machine.execBuddyTimeout ix t s
  | .patrolRead x strong oldest of => Sys2Proof.Machine.execPatrolRead x strong oldest of s
  | .blockRefresh ch lun block step4 => Sys2Proof.Machine.execBlockRefresh ch lun block step4 s
  | .wearLevelMove ch lun block dst => Sys2Proof.Machine.execWearLevelMove ch lun block dst s
  | .nandOperationFailure ch lun block => Sys2Proof.Machine.execNandOperationFailure ch lun block s
  | .lunTimeout ch lun => Sys2Proof.Machine.execLunTimeout ch lun s
  | .lunRebuildDone ch lun => Sys2Proof.Machine.execLunRebuildDone ch lun s
  | .heartbeatMiss x1 => Sys2Proof.Machine.execHeartbeatMiss x1 s
  | .hpJobManifestWrite v => Sys2Proof.Machine.execHpJobManifestWrite v s
  | .armDone => Sys2Proof.Machine.execArmDone s
  | .fail => Sys2Proof.Machine.execFail s
  | .armLimitExpiry t => Sys2Proof.Machine.execArmLimitExpiry t s
  | .armedAnnounce t => Sys2Proof.Machine.execArmedAnnounce t s
  | .rightAwayReached t => Sys2Proof.Machine.execRightAwayReached t s
  | .departureOverdue d t => Sys2Proof.Machine.execDepartureOverdue d t s
  | .teardownWithdraw t => Sys2Proof.Machine.execTeardownWithdraw t s
  | .teardownComplete => Sys2Proof.Machine.execTeardownComplete s
  | .tagCleared => Sys2Proof.Machine.execTagCleared s
  | .clearTimeout t => Sys2Proof.Machine.execClearTimeout t s
  | .quarantineExpiry tag t => Sys2Proof.Machine.execQuarantineExpiry tag t s
  | .budgetPeriod fixed watts energy => Sys2Proof.Machine.execBudgetPeriod fixed watts energy s
  | .grantApply d dutyC dutyM dutyL procMult withheld slots => Sys2Proof.Machine.execGrantApply d dutyC dutyM dutyL procMult withheld slots s
  | .droop d cycles => Sys2Proof.Machine.execDroop d cycles s
  | .thermalStep d logic stack t => Sys2Proof.Machine.execThermalStep d logic stack t s
  | .thermalTrip d => Sys2Proof.Machine.execThermalTrip d s
  | .leakageLearned d leak t => Sys2Proof.Machine.execLeakageLearned d leak t s
  | .stableEntryDone => Sys2Proof.Machine.execStableEntryDone s
  | .wakeStep ok bad => Sys2Proof.Machine.execWakeStep ok bad s
  | .vauxValid serviceHigh => Sys2Proof.Machine.execVauxValid serviceHigh s
  | .vinValid => Sys2Proof.Machine.execVinValid s
  | .railsInRegulation t => Sys2Proof.Machine.execRailsInRegulation t s
  | .vinLoss => Sys2Proof.Machine.execVinLoss s
  | .vauxLoss => Sys2Proof.Machine.execVauxLoss s
  | .managementReady => Sys2Proof.Machine.execManagementReady s
  | .startStepDone found t => Sys2Proof.Machine.execStartStepDone found t s
  | .startStepTimeout format t => Sys2Proof.Machine.execStartStepTimeout format t s
  | .entdaa addr => Sys2Proof.Machine.execEntdaa addr s
  | .setdasa target addr => Sys2Proof.Machine.execSetdasa target addr s
  | .rstdaa => Sys2Proof.Machine.execRstdaa s
  | .getpid => Sys2Proof.Machine.execGetpid s
  | .getbcr => Sys2Proof.Machine.execGetbcr s
  | .getdcr => Sys2Proof.Machine.execGetdcr s
  | .getstatus => Sys2Proof.Machine.execGetstatus s
  | .enec => Sys2Proof.Machine.execEnec s
  | .disec => Sys2Proof.Machine.execDisec s
  | .managementIndexWrite bytes => Sys2Proof.Machine.execManagementIndexWrite bytes s
  | .managementPrivateRead => Sys2Proof.Machine.execManagementPrivateRead s
  | .cxlCacheEnable => Sys2Proof.Machine.execCxlCacheEnable s
  | .flitFecFailure p lseq => Sys2Proof.Machine.execFlitFecFailure p lseq s
  | .reservedKindFlit p f => Sys2Proof.Machine.execReservedKindFlit p f s
  | .nportLinkUp n ide flit => Sys2Proof.Machine.execNportLinkUp n ide flit s
  | .nportLinkDown n => Sys2Proof.Machine.execNportLinkDown n s
  | .stripeRewriteDone ch => Sys2Proof.Machine.execStripeRewriteDone ch s
  | .railRecovery d => Sys2Proof.Machine.execRailRecovery d s
  | .restart => Sys2Proof.Machine.execRestart s
  | .coreFault p site => Sys2Proof.Machine.execCoreFault p site s
  | .tapReset => Sys2Proof.Machine.execTapReset s

end Sys2Proof.Machine
end

