-- ==== Sys2Proof/Safety.lean ====
section
/-! DEFINITION. What counts as a safe state of the block, in the terms the statements use. -/

namespace Sys2Proof.Machine

/-- A byte store is in its canonical form: addresses strictly rising, and no entry equal to what an unlisted address reads as. -/
def Memory.wf (m : Store Byte) : Bool := Store.wf memDefault m

/-- The invariant of every step: unified memory and the platform windows are in the canonical form, and the model's lists of
bytes outside the package are too. -/
def State.Inv (s : State) : Prop :=
  Memory.wf s.mem = true ∧ Memory.wf s.hostMem = true ∧ Memory.wf s.nportMem = true ∧ Memory.wf s.bar2 = true

/-- The operator key hash is fused (R482). -/
def State.Fused (s : State) (h : List Byte) : Prop := s.guard.operatorHash = some h

/-! ### How the statements speak of a command -/

/-- The command answers a next state, and `P` holds of it. -/
def Runs (c : Instr) (s : State) (P : State → Prop) : Prop := ∃ u, exec c s = .next u ∧ P u

/-- Every register but those with the listed keys holds what it held. -/
def RegsBut (ks : List Nat) (s u : State) : Prop := ∀ k, k ∉ ks → rd u k = rd s k

/-- Every register outside [lo, hi) holds what it held, but for those that a notice changes. -/
def RegsOutside (lo hi : Nat) (s u : State) : Prop :=
  ∀ k, (k < lo ∨ hi ≤ k) → k ≠ bar0 0x70 → k ≠ bar0 0x78 → rd u k = rd s k

/-- The registers that posting a notice may change: the count of dropped notices, and HP_EVENT (R445). -/
def noticeKeys : List Nat := [bar0 0x70, bar0 0x78]

/-- A notice has been posted: it is the last of the queue, or no entry was free and it was dropped and counted (R445). -/
def Posted (s u : State) (typ status code : Nat) : Prop :=
  (∃ n, u.port.noticeQ.getLast? = some n ∧ n.typ = typ ∧ n.status = status ∧ n.code = code ∧ n.mtc = now s)
    ∨ rd u (bar0 0x70) = satInc (rd s (bar0 0x70))

/-- Bit `i` of the event register at `off` of die `d` is set, and its BLOCK_EVENT has been posted (R443, R444). -/
def Raised (s u : State) (d off i : Nat) : Prop := rdB u (key d off) i = true ∧ Posted s u 8 0 i

/-- No read or write of engine `e` is due by its cycle `c` (R69). -/
def Quiet (s : State) (d e c : Nat) : Prop :=
  (∀ r ∈ (eng s d e).reads, c < r.time) ∧ (∀ w ∈ (eng s d e).writes, c < w.time)

/-- Engine `e` has issued at cycle `c`: it stands there, and its next order comes later (R68). -/
def IssuedAt (u : State) (d e c : Nat) : Prop := (eng u d e).cycle = c ∧ (eng u d e).next = c + 1

/-- Every engine but `e` of die `d` is as it was. -/
def OtherEngines (s u : State) (d e : Nat) : Prop := ∀ a b, b < 15 → (a, b) ≠ (d, e) → eng u a b = eng s a b

/-- The addition of 1 to a signal that an order's end makes, by engine `e` on die `d` (R79, R85). -/
def addOne (d e sig : Nat) : SigOp :=
  { sig := sig, add := true, value := 1, order := some (e, d), asker := 0, askId := 0, setMode := false }

/-- A thread that has retired one more instruction (R237). -/
def retired (h : Thread) : Thread := { h with instret := h.instret + 1 }

/-- State that a lost source leaves the MTC in (R46, R48): ACQUIRING falls to FREE, DISCIPLINED to HOLDOVER where that is enabled
and eligible, and to FREE otherwise. -/
def lostState (s : State) : Nat :=
  if mtcState s = 1 then 0
  else if mtcState s = 2 then (if rdB s (mtc 0x10) 6 && rdB s (mtc 8) 6 then 3 else 0)
  else mtcState s

/-- A TTOD message received whole at count `t` is valid (R42): synchronisation bytes and version, the reserved byte zero, the
CRC, and its time after the last edge. -/
def TtodValid (s : State) (t : W64) (msg : BitVec 160) : Prop :=
  leAt (leBytes 20 msg.toNat) 0 3 = 0x015AA5 ∧ leAt (leBytes 20 msg.toNat) 15 1 = 0
    ∧ crc32c ((leBytes 20 msg.toNat).take 16) = BitVec.ofNat 32 (leAt (leBytes 20 msg.toNat) 16 4)
    ∧ ∃ e, s.mtcx.lastEdge = some e ∧ e + 256 * 100000000 ≤ 256 * (t.toNat : Int) ∧ 256 * (t.toNat : Int) ≤ e + 256 * 900000000

/-! ### Received flits -/

/-- A flit passes every check of port `p` (R376, R377, R382 to R384): the link is up, the words are whole, it is the next in LSEQ
order with none held, its tag is in force, and it is link-local or comes to this package with its MAC and its source's count. -/
def FlitPasses (s : State) (p : Nat) (f : Flit) : Prop :=
  linkUp s p = true ∧ f.fecOk = true ∧ f.ackKind = 0 ∧ f.lseq.toNat = (omPort s p).nextRx ∧ (omPort s p).held = []
    ∧ tagOk s f = true ∧ f.kind ≠ 0
    ∧ (f.kind = 8 ∨ f.kind.toNat < 8 ∧ f.macOk = true
        ∧ (f.kind = 7 ∧ f.dst = f.src ∨ f.dst.toNat = ownPos s ∧ f.pseq = BitVec.ofNat 48 (pairDue s f)))

/-- Port `p` has taken a flit: it waits for the next LSEQ, owes an acknowledgement and has counted it, and the count that the
source's next flit must carry is one more, unless the flit is link-local. The ports as senders stand as they did. -/
def FlitTaken (s u : State) (p : Nat) (f : Flit) : Prop :=
  (omPort u p).nextRx = (f.lseq.toNat + 1) % 4096 ∧ (omPort u p).held = [] ∧ (omPort u p).ackDue = true
    ∧ rd u (omP p 0x58) = satInc (rd s (omP p 0x58))
    ∧ pairDue u f = (if localKind f.kind.toNat f.dst.toNat f.src.toNat then pairDue s f else pairDue s f + 1)
    ∧ (∀ q < 16, (omPort u q).unacked = (omPort s q).unacked ∧ (omPort u q).nextTx = (omPort s q).nextTx
        ∧ (q ≠ p → (omPort u q).nextRx = (omPort s q).nextRx ∧ (omPort u q).held = (omPort s q).held))

/-- The registers that taking a flit and answering it may change: the flits received on port `p`, and OM_STATUS of the ports. -/
def linkKeys (p : Nat) : List Nat := omP p 0x58 :: (upTo 16).map (fun q => omP q 0)

/-- The last flit that a port's queue has gained is of this kind, goes to `dst` and carries `pl`. -/
def Queued (s u : State) (p kind dst : Nat) (tag : BitVec 16) (pl : BitVec 1792) : Prop :=
  ∃ x, (omPort u p).queue = (omPort s p).queue ++ [x] ∧ x.kind = kind ∧ x.dst = dst ∧ x.tag = tag ∧ x.payload = pl

/-- A REQ is answered from die `d` (R387): a RESP of its OP, ADDR, REQ_ID and AGENT with LAST waits at the port that leads to its
sender. -/
def Answered (s u : State) (d : Nat) (f : Flit) (status : Nat) (data : List Byte) : Prop :=
  ∀ q, routePort s d f.src.toNat = some q → Queued s u q 5 f.src.toNat f.tag
    (reqPayload (payNat f.payload 0 1) 2 status data.length (payNat f.payload 8 8) (payNat f.payload 16 4) (payNat f.payload 20 1) 0 [] data)

/-! ### Host commands -/

/-- The waiting command with sequence `q` has slot `b` of opcode `op`, may start (R429), and the device's and job's states admit it
(R428). -/
def Starts (s : State) (q : W32) (op : Nat) (b : List Byte) : Prop :=
  (∃ c, startable s q = some c ∧ c.slot = b) ∧ slotOp b = op ∧ admitted s b = true

/-- The command with sequence `q` has its effect complete with this status, detail, value and result (R448); every other command
in flight, and the rest of the host port, is as it was. -/
def Done (s u : State) (q : W32) (status detail : Nat) (value : W64) (result : List Byte) : Prop :=
  (∀ c ∈ u.port.cmds, c.seq = q → c.phase = .done ∧ c.status = status ∧ c.detail = detail ∧ c.value = value ∧ c.result = result)
    ∧ u.port.cmds.map Cmd.seq = s.port.cmds.map Cmd.seq ∧ u.port.cmds.map Cmd.slot = s.port.cmds.map Cmd.slot
    ∧ u.port.cmds.filter (fun c => decide (c.seq ≠ q)) = s.port.cmds.filter (fun c => decide (c.seq ≠ q))

/-- A finite value as a number (R148); a NaN or an infinity has none and reads 0 here. -/
def FVal.toRat : FVal → Rat
  | .fin neg m e => (if neg then -1 else 1) * (m : Rat) * (2 : Rat) ^ e
  | _ => 0

/-- The parts of the state: one name for each field of State. -/
inductive Part where
  | pending | regs | mem | hostMem | nportMem | bar2 | poisoned | possMap | jlines | dir | dirAge | deferred
  | hostLines | imsic | msis | aplicIn | trans | mtcx | port | job | guard | img | dev | mgmt | power | depot | hist
  | npFunc | engines | vregs | cells | signals | sigOps | slotsDue | dies | scEntries | scStreams | scPre | scClock
  | scRange | calls | threads | resv | upds | ttx | reports | trains | om | colls | collRx | marks | lateFlags | cw | tap
  | slotWinner | bkBusy | bkLate | bkQueue | bkFeed | rebuildSlots | rebuildWon | bkGranted | ueTimes | refreshAt | sweeps | answer | freeIx
  deriving DecidableEq, Repr

/-- Two states agree in a part. -/
def Agree : Part → State → State → Prop
  | .pending, s, u => u.pending = s.pending
  | .regs, s, u => u.regs = s.regs
  | .mem, s, u => u.mem = s.mem
  | .hostMem, s, u => u.hostMem = s.hostMem
  | .nportMem, s, u => u.nportMem = s.nportMem
  | .bar2, s, u => u.bar2 = s.bar2
  | .poisoned, s, u => u.poisoned = s.poisoned
  | .possMap, s, u => u.possMap = s.possMap
  | .jlines, s, u => u.jlines = s.jlines
  | .dir, s, u => u.dir = s.dir
  | .dirAge, s, u => u.dirAge = s.dirAge
  | .deferred, s, u => u.deferred = s.deferred
  | .hostLines, s, u => u.hostLines = s.hostLines
  | .imsic, s, u => u.imsic = s.imsic
  | .msis, s, u => u.msis = s.msis
  | .aplicIn, s, u => u.aplicIn = s.aplicIn
  | .trans, s, u => u.trans = s.trans
  | .mtcx, s, u => u.mtcx = s.mtcx
  | .port, s, u => u.port = s.port
  | .job, s, u => u.job = s.job
  | .guard, s, u => u.guard = s.guard
  | .img, s, u => u.img = s.img
  | .dev, s, u => u.dev = s.dev
  | .mgmt, s, u => u.mgmt = s.mgmt
  | .power, s, u => u.power = s.power
  | .depot, s, u => u.depot = s.depot
  | .hist, s, u => u.hist = s.hist
  | .npFunc, s, u => u.npFunc = s.npFunc
  | .engines, s, u => u.engines = s.engines
  | .vregs, s, u => u.vregs = s.vregs
  | .cells, s, u => u.cells = s.cells
  | .signals, s, u => u.signals = s.signals
  | .sigOps, s, u => u.sigOps = s.sigOps
  | .slotsDue, s, u => u.slotsDue = s.slotsDue
  | .dies, s, u => u.dies = s.dies
  | .scEntries, s, u => u.scEntries = s.scEntries
  | .scStreams, s, u => u.scStreams = s.scStreams
  | .scPre, s, u => u.scPre = s.scPre
  | .scClock, s, u => u.scClock = s.scClock
  | .scRange, s, u => u.scRange = s.scRange
  | .calls, s, u => u.calls = s.calls
  | .threads, s, u => u.threads = s.threads
  | .resv, s, u => u.resv = s.resv
  | .upds, s, u => u.upds = s.upds
  | .ttx, s, u => u.ttx = s.ttx
  | .reports, s, u => u.reports = s.reports
  | .trains, s, u => u.trains = s.trains
  | .om, s, u => u.om = s.om
  | .colls, s, u => u.colls = s.colls
  | .collRx, s, u => u.collRx = s.collRx
  | .marks, s, u => u.marks = s.marks
  | .lateFlags, s, u => u.lateFlags = s.lateFlags
  | .cw, s, u => u.cw = s.cw
  | .tap, s, u => u.tap = s.tap
  | .slotWinner, s, u => u.slotWinner = s.slotWinner
  | .bkBusy, s, u => u.bkBusy = s.bkBusy
  | .bkLate, s, u => u.bkLate = s.bkLate
  | .bkQueue, s, u => u.bkQueue = s.bkQueue
  | .bkFeed, s, u => u.bkFeed = s.bkFeed
  | .rebuildSlots, s, u => u.rebuildSlots = s.rebuildSlots
  | .rebuildWon, s, u => u.rebuildWon = s.rebuildWon
  | .bkGranted, s, u => u.bkGranted = s.bkGranted
  | .ueTimes, s, u => u.ueTimes = s.ueTimes
  | .refreshAt, s, u => u.refreshAt = s.refreshAt
  | .sweeps, s, u => u.sweeps = s.sweeps
  | .answer, s, u => u.answer = s.answer
  | .freeIx, s, u => u.freeIx = s.freeIx

/-- The states agree in every part but the listed ones. -/
def Same (ps : List Part) (s u : State) : Prop := ∀ p, p ∉ ps → Agree p s u

end Sys2Proof.Machine
end

