-- ==== Sys2Proof/Certificates/Slice0/Obligations.lean ====
section
/-! DEFINITION. The statements: one per group of commands, each saying for every state and operand that meets its premises
what the command's next state holds and what it leaves as it was (`Runs`, `RegsBut`, `RegsOutside`, `Posted`, `Raised` of
Safety). -/

open Sys2Proof Sys2Proof.Machine

/-- What a step does (entry 5 for the empty queue): the command at the front of the queue runs on the state with the queue's
rest, and its outcome is the step's. What is the model's own choice in it is in log entries 5, 18 and 19. -/
def Obligations.StepRunsFrontCommand : Prop :=
  ∀ (s : State) (c : Instr) (rest : List Instr), s.pending = c :: rest → step s = exec c { s with pending := rest }

/-- The state right after reset meets the invariant of every step. What is the model's own choice in it is in log entries 1 and
2. -/
def Obligations.ResetMeetsInvariant : Prop :=
 State.reset.Inv

/-- Every step keeps the invariant: whatever the command, unified memory, host memory, endpoint memory and the command window
stay in their canonical form, so that equal contents are equal data. What is the model's own choice in it is log entry 1. -/
def Obligations.EveryStepKeepsInvariant : Prop :=
 ∀ s u : State, s.Inv → step s = .next u → u.Inv

/-- R2, R429, R482, R486: no command changes the queue that it came from, the identity seed, the GPID or the ordering code, and
an operator key hash once fused stays. What is the model's own choice in it is in log entries 13 and 18. -/
def Obligations.CommandsKeepQueueAndFuses : Prop :=
  ∀ (c : Instr) (s u : State), exec c s = .next u → u.pending = s.pending ∧ u.guard.deviceSeed = s.guard.deviceSeed
    ∧ u.guard.gpid = s.guard.gpid ∧ u.guard.ordering = s.guard.ordering
    ∧ (∀ h, s.Fused h → u.Fused h)

/-- R151: a rounded result is the nearest finite value of its format, and on a tie the one whose last bit is 0; INEXACT says
whether it differs from the exact value. -/
def Obligations.RoundingIsToNearestEven : Prop :=
  ∀ (f : Fmt) (neg : Bool) (m : Nat) (e : Int),
    let x := FVal.toRat (.fin neg m e)
    let r := roundFin f .rne neg m e
    f ∈ [Fmt.fp4, Fmt.e4m3, Fmt.e5m2, Fmt.bf16, Fmt.fp16, Fmt.fp32, Fmt.fp64] → 0 < m → r.2.getLsbD 1 = false →
    ∃ n k i, decodeF f r.1 = .fin n k i ∧ (r.2.getLsbD 3 = true ↔ FVal.toRat (.fin n k i) ≠ x)
      ∧ ∀ w n' k' i', decodeF f w = .fin n' k' i' →
        |FVal.toRat (.fin n k i) - x| ≤ |FVal.toRat (.fin n' k' i') - x|
        ∧ (|FVal.toRat (.fin n k i) - x| = |FVal.toRat (.fin n' k' i') - x| → FVal.toRat (.fin n k i) ≠ FVal.toRat (.fin n' k' i') →
            r.1 % 2 = 0)

/-- R393: the routing table is written in A0's block alone while the job is IDLE or ARMING, and every A-die's block then reads
what was accepted; every other write changes no entry and sets WRITE_IGNORED on a port of the die. -/
def Obligations.RoutingTableWrites : Prop :=
  ∀ (s : State) (d : ADie) (g : Byte) (v : W64),
    let accepted := d.val = 0 ∧ (s.job.state = .idle ∨ s.job.state = .arming)
    let entry (x : Nat) (h : Byte) : Nat := key x (0x7200000 + 8 * h.toNat)
    (accepted → Runs (.orEntryWrite d g v) s (fun u =>
      (∀ x < 8, readReg u (entry x g) = v &&& 0xFFFFFFFF000FFFFF)
      ∧ (∀ x < 8, ∀ h, h ≠ g → readReg u (entry x h) = readReg s (entry x h)) ∧ Same [.regs] s u))
    ∧ (¬accepted → Runs (.orEntryWrite d g v) s (fun u =>
      (∀ x < 8, ∀ h, readReg u (entry x h) = readReg s (entry x h)) ∧ (∃ p < 16, p / 2 = d.val ∧ rdB u (omP p 0x68) 7 = true)
      ∧ Same [.regs, .port] s u))

/-- R507: ARM_DONE needs a VALID routing entry for every other position of the group, and returns the job to IDLE with
ST_CONFLICT where one is missing; ARM_DONE outside ARMING and FAIL outside ARMED to HELD are ignored. -/
def Obligations.ArmDoneNeedsEveryRoute : Prop :=
  ∀ (s : State) (q : W32),
    let missing := ∃ g < s.job.groupSize, g ≠ s.job.groupPos ∧ bitOf (orEntry s g) 19 = false
    let ignored (u : State) : Prop := rdB u (hp 0x130) 2 = true ∧ RegsBut (hp 0x130 :: noticeKeys) s u ∧ Same [.regs, .port] s u
    (s.job.state = .arming → missing → s.job.armSeq = some q → Runs (.armDone) s (fun u => u.job.state = .idle ∧ Done s u q stConflict 0 0 []))
    ∧ (s.job.state ≠ .arming → Runs (.armDone) s (fun u => ignored u))
    ∧ (s.job.state ≠ .armed → s.job.state ≠ .departed → s.job.state ≠ .held → Runs (.fail) s (fun u => ignored u))

/-- R50, R57 (entry 5): on an empty queue a step is one cycle of the MTC domain. Without a rate correction the count advances by
exactly one beat; without VAUX nothing happens. While no job is DEPARTED or HELD the wires that are rebuilt from parity move
to spares in it (R26, R362). R61: a write of an RW register of the MTC block takes effect in MAINTENANCE alone, without the
reserved source; any other such write is ignored and sets WRITE_IGNORED. The event register takes ones to clear, and a bit
that the G9 sets in the cycle of the write stays set (R14). What is the model's own choice in it is in log entries 4, 5, 101
and 103. -/
def Obligations.MtcCountsAndRegisters : Prop :=
  (∀ s : State, s.pending = [] →
    (s.dev.vaux = true → rd s (mtc 0x18) = 0 → 0 ≤ s.mtcx.rateFrac → s.mtcx.rateFrac < 2 ^ 40 → (now s).toNat + 1 < 2 ^ 64 →
      ∃ u, step s = .next u ∧ now u = now s + 1 ∧ Same [.regs, .mtcx, .cw, .hist, .port] s u
        ∧ (jobRuns s = true ∨ s.cw.erased = [] → RegsBut [mtc 0, mtc 8, mtc 0x58] s u ∧ Same [.regs, .mtcx] s u))
    ∧ (s.dev.vaux = false → step s = .next s))
  ∧ (∀ (s : State) (off : BitVec 24) (v same : W64),
    let o := off.toNat
    let rw := o = 0x10 ∨ o = 0x28 ∨ o = 0x30 ∨ o = 0x38
    (rw → s.dev.state = .maintenance → (o = 0x10 → fld v 0 2 ≠ 3) → Runs (.mtcRegisterWrite off v same) s (fun u =>
      rd u (mtc o) = v &&& (if o = 0x10 then 0x7F else if o = 0x28 then 0xFFFFFF else if o = 0x30 then 0xFFFF else 0xFFFFFFFF)
      ∧ (o ≠ 0x10 → RegsBut [mtc o] s u ∧ Same [.regs] s u)))
    ∧ (rw → (s.dev.state ≠ .maintenance ∨ (o = 0x10 ∧ fld v 0 2 = 3)) → Runs (.mtcRegisterWrite off v same) s (fun u =>
      Raised s u 12 0x4000068 4 ∧ RegsBut (mtc 0x68 :: noticeKeys) s u ∧ Same [.regs, .port] s u))
    ∧ (o = 0x68 → Runs (.mtcRegisterWrite off v same) s (fun u =>
      rd u (mtc 0x68) = rd s (mtc 0x68) &&& ~~~(v &&& ~~~same) ∧ Same [.regs, .aplicIn] s u)))

/-- R40: the loss, the return and the expiry of TREF. R48, R49: the end of HOLDOVER, and the eligibility for it. What is the
model's own choice in it is log entry 4. -/
def Obligations.TrefAndHoldover : Prop :=
  (∀ (s : State) (t : W64), s.dev.vaux = true →
    (s.mtcx.trefLostAt = none → Runs (.trefLost t) s (fun u =>
      u.mtcx.trefLostAt = some t ∧ rdB u (mtc 8) 2 = false ∧ rdB u (mtc 0x68) 3 = true ∧ Posted (advance s t) u 6 0 0
      ∧ RegsBut ([mtc 8, mtc 0x68] ++ noticeKeys) (advance s t) u
      ∧ Same [.regs, .port, .mtcx] (advance s t) u))
    ∧ (trefOver s t = true → s.dev.state ≠ .failed → Runs (.trefReturn t) s (fun u =>
      u.mtcx.trefLostAt = none ∧ u.dev.state = .failed ∧ u.job.state = .failed))
    ∧ (trefOver s t = false ∨ s.dev.state = .failed → Runs (.trefReturn t) s (fun u =>
      u.mtcx.trefLostAt = none ∧ rdB u (mtc 8) 2 = trefNear s
      ∧ (s.mtcx.trefLostAt ≠ none → s.dev.state ≠ .failed → ∀ d, d < 8 → bitOf (Store.get (fun _ => 0) u.lateFlags d) 8 = true)
      ∧ RegsBut [mtc 8] (advance s t) u
      ∧ Same [.regs, .mtcx, .lateFlags] (advance s t) u))
    ∧ (trefOver s t = false → Runs (.trefHoldExpiry t) s (fun u => u = advance s t))
    ∧ (trefOver s t = true → Runs (.trefHoldExpiry t) s (fun u =>
      u.dev.state = .failed ∧ u.job.state = .failed ∧ mtcState u = 0
      ∧ Same [.regs, .port, .mtcx, .job, .dev, .mgmt, .guard, .depot, .mem, .jlines, .dir, .deferred, .scEntries, .scStreams, .vregs,
          .cells] s u)))
  ∧ (∀ (s : State) (t : W64),
    (mtcState s = 3 → s.mtcx.holdSince.toNat + rdF s (mtc 0x38) 0 32 * sec ≤ (now (advance s t)).toNat →
      Runs (.holdoverExpiry t) s (fun u => mtcState u = 0 ∧ rd u (mtc 0x58) = 0 ∧ rdB u (mtc 0x68) 0 = true
        ∧ RegsOutside (mtc 0) (mtc 0x80) s u ∧ Same [.regs, .port, .mtcx] s u))
    ∧ (600 ≤ (rd (advance s t) (mtc 0x58)).toNat →
      Runs (.holdEligible t) s (fun u => rdB u (mtc 8) 6 = true ∧ RegsBut [mtc 8] (advance s t) u
        ∧ Same [.regs] (advance s t) u)))

/-- R42: a TTOD message is counted and discarded, or its second is recorded and expected. R43, R44: the edges of the wired
reference, and its loss. What is the model's own choice in it is in log entries 4, 25, 100, 101, 104 and 105. -/
def Obligations.WiredTimeReference : Prop :=
  (∀ (s : State) (t : W64) (msg : BitVec 160), mtcSource s = 1 →
    Runs (.ttodMessage t msg) s (fun u =>
      (TtodValid s t msg → rd u (mtc 0x40) = BitVec.ofNat 64 (leAt (leBytes 20 msg.toNat) 4 8) ∧ rdB u (mtc 8) 4 = true
        ∧ u.mtcx.lastTod = some t)
      ∧ (¬ TtodValid s t msg →
        rd u (mtc 0x50) = satIncFld (rd (advance s t) (mtc 0x50)) 0 16 ∧ RegsBut [mtc 0x50] (advance s t) u)
      ∧ RegsOutside (mtc 0) (mtc 0x80) s u ∧ Same [.regs, .port, .mtcx] s u))
  ∧ (∀ (s : State) (t : W64), mtcSource s = 1 →
    ((mtcState s ≤ 1 ∨ secondOffset (256 * (t.toNat : Int) - (rdF s (mtc 0x28) 0 24 : Int)) ≤ 256 * 100000) →
      Runs (.tppsEdge t) s (fun u =>
        rd u (mtc 0x78) = t ∧ rdB u (mtc 8) 3 = true
        ∧ (∀ n, s.mtcx.pendingSec = some n → rd u (mtc 0x20) =
            BitVec.ofInt 64 (256 * (sec * n.toNat : Nat) - (256 * (t.toNat : Int) - (rdF s (mtc 0x28) 0 24 : Int))))
        ∧ RegsOutside (mtc 0) (mtc 0x80) s u
        ∧ ((jobLive s = true ∨ ∀ n, s.mtcx.pendingSec = some n →
            (256 * (sec * n.toNat : Nat) - (256 * (t.toNat : Int) - (rdF s (mtc 0x28) 0 24 : Int))).natAbs ≤ 256 * 1000000) →
          Same [.regs, .port, .mtcx, .freeIx] s u)
        ∧ Same [.regs, .port, .mtcx, .job, .dev, .cw, .power, .depot, .ueTimes, .freeIx] s u))
    ∧ (edgeMissing (advance s t) t = none → Runs (.tppsMissing t) s (fun u => u = advance s t))
    ∧ (edgeMissing (advance s t) t ≠ none → Runs (.tppsMissing t) s (fun u =>
        rd u (mtc 0x50) = satIncFld (rd s (mtc 0x50)) 32 16 ∧ rdB u (mtc 8) 3 = false
        ∧ (mtcState u = if s.mtcx.missing = 0 then mtcState s else lostState (advance s t))
        ∧ RegsOutside (mtc 0) (mtc 0x80) s u ∧ Same [.regs, .port, .mtcx] s u))
    ∧ ((∀ a, s.mtcx.lastTod = some a → a.toNat + 16 * sec ≤ (now (advance s t)).toNat) → Runs (.ttodTimeout t) s (fun u =>
        mtcState u = lostState (advance s t)
        ∧ RegsOutside (mtc 0) (mtc 0x80) s u ∧ Same [.regs, .port, .mtcx] s u)))

/-- R13, R14, R15, R309, R321: a write of a register without a row of its own does what the register's access type says, on all
of it or on a half; a bit that the G9 sets in the cycle of a clear stays; a read-only or reserved offset keeps everything as
it is, an access of another size or alignment does nothing, and TU_RESOLVE with no action is ignored. What is the model's own
choice in it is in log entries 103 and 123. -/
def Obligations.RegisterWriteFollowsAccessType : Prop :=
  ∀ (s : State) (die : Fin 15) (off : BitVec 30) (len : BitVec 4) (v same : W64),
    let k := key die (off.toNat / 8 * 8)
    (hartAccess [4, 8] off.toNat len.toNat = false → Runs (.registerWrite die off len v same) s (fun u => u = s))
    ∧ (die.val < 8 → aW1c off.toNat = true → Runs (.registerWrite die off 8 v same) s (fun u =>
      rd u (key die off.toNat) = rd s (key die off.toNat) &&& ~~~(v &&& ~~~same) ∧ Same [.regs, .aplicIn] s u
      ∧ ∀ d o, d < 14 → o < 2 ^ 30 → d ≠ 8 → (d, o) ≠ (die.val, off.toNat) → rd u (key d o) = rd s (key d o)))
    ∧ (die.val < 8 → aW1c off.toNat = false → aMask off.toNat ≠ 0 → Runs (.registerWrite die off 8 v same) s (fun u =>
      rd u (key die off.toNat) = v &&& aMask off.toNat ∧ RegsBut [key die off.toNat] s u ∧ Same [.regs] s u))
    ∧ (die.val < 8 → aW1c off.toNat = false → aMask off.toNat = 0 → off.toNat ≠ 0x5000020 →
      Runs (.registerWrite die off 8 v same) s (fun u => Same [] s u))
    ∧ (die.val < 8 → off.toNat = 0x5000020 → fld v 10 2 ∈ [0, 3] → Runs (.registerWrite die off 8 v same) s (fun u =>
      Raised s u die 0x5000060 2 ∧ RegsBut (tu die 0x60 :: noticeKeys) s u ∧ Same [.regs, .port] s u))
    ∧ (die.val < 8 → off.toNat % 4 = 0 → isW1c die (off.toNat / 8 * 8) = false → aMask (off.toNat / 8 * 8) ≠ 0 →
      Runs (.registerWrite die off 4 v same) s (fun u => rd u k = halfValue s die off.toNat v &&& aMask (off.toNat / 8 * 8)
        ∧ RegsBut [k] s u ∧ Same [.regs] s u))
    ∧ (die.val < 8 → off.toNat % 4 = 0 → isW1c die (off.toNat / 8 * 8) = true → Runs (.registerWrite die off 4 v same) s (fun u =>
      let w : W64 := if off.toNat % 8 = 4 then (v &&& 0xFFFFFFFF) <<< 32 else v &&& 0xFFFFFFFF
      rd u k = rd s k &&& ~~~(w &&& ~~~same) ∧ Same [.regs, .aplicIn] s u))
    ∧ (die.val = 12 → off.toNat ∈ [0x10, 0x18, 0x20, 0x28, 0x1000018] → Runs (.registerWrite die off 8 v same) s (fun u =>
      rd u (key 12 off.toNat) = v ∧ RegsBut [key 12 off.toNat] s u ∧ Same [.regs] s u))
    ∧ (die.val = 14 → off.toNat = 0x28 → rdB s (bar0 0x48) 0 = false → Runs (.registerWrite die off 8 v same) s (fun u =>
      rd u (bar0 0x28) = v ∧ RegsBut [bar0 0x28] s u ∧ Same [.regs] s u))
    ∧ (die.val = 14 → off.toNat = 0x28 → rdB s (bar0 0x48) 0 = true → Runs (.registerWrite die off 8 v same) s (fun u =>
      rdB u (bar0 0x78) 5 = true ∧ RegsBut [bar0 0x78] s u ∧ Same [.regs] s u))

/-- R67, R68, R78: NOP does nothing but issue; SIG_SET and SIG_ADD leave their engine in their issue cycle, toward the die that
hosts the signal, or on the booked path where REMOTE is 1. R77: a wait whose condition holds passes at once; any other holds
its engine, and the wait is released when its condition has held. What is the model's own choice in it is in log entries 9,
50 and 115. -/
def Obligations.SignalOrdersAndWaits : Prop :=
  (∀ (s : State) (d : ADie) (e : EngineIx) (issue : BitVec 24) (ops : BitVec 96),
    Quiet s d e issue.toNat →
    (∀ o, canIssue s d e o = true → fld o 0 32 = issue.toNat →
      Runs (.nop d e issue) s (fun u => IssuedAt u d e issue.toNat ∧ OtherEngines s u d e ∧ Same [.engines] s u))
    ∧ (ops.getLsbD 14 = false →
      (canIssue s d e (mkOrder 0x10 issue ops) = true → Runs (.sigSet d e issue ops) s (fun u => IssuedAt u d e issue.toNat
        ∧ u.sigOps = s.sigOps ++ [{ sig := fld ops 0 14, add := false, value := BitVec.ofNat 64 (fld ops 32 64)
                                    order := some (e.val, d.val), asker := 0, askId := 0, setMode := false }]
        ∧ OtherEngines s u d e ∧ Same [.engines, .sigOps] s u))
      ∧ (canIssue s d e (mkOrder 0x11 issue ops) = true → Runs (.sigAdd d e issue ops) s (fun u => IssuedAt u d e issue.toNat
        ∧ u.sigOps = s.sigOps ++ [{ sig := fld ops 0 14, add := true, value := BitVec.ofNat 64 (fld ops 32 64)
                                    order := some (e.val, d.val), asker := 0, askId := 0, setMode := false }]
        ∧ OtherEngines s u d e ∧ Same [.engines, .sigOps] s u)))
    ∧ (ops.getLsbD 14 = true →
      (canIssue s d e (mkOrder 0x10 issue ops) = true → Runs (.sigSet d e issue ops) s (fun u => IssuedAt u d e issue.toNat ∧ OtherEngines s u d e ∧ Same [.engines, .om, .regs] s u
        ∧ ∀ p, pathPort s (fld ops 24 8) (fld ops 16 8) = some p → ∃ f, (omPort u p).queue.getLast? = some f
          ∧ f.kind = 1 ∧ f.path = fld ops 24 8 ∧ f.dst = fld ops 16 8 ∧ payNat f.payload 0 1 = 4
          ∧ payNat f.payload 6 2 = fld ops 0 14 ∧ payNat f.payload 24 8 = fld ops 32 64))
      ∧ (canIssue s d e (mkOrder 0x11 issue ops) = true → Runs (.sigAdd d e issue ops) s (fun u => IssuedAt u d e issue.toNat ∧ OtherEngines s u d e ∧ Same [.engines, .om, .regs] s u
        ∧ ∀ p, pathPort s (fld ops 24 8) (fld ops 16 8) = some p → ∃ f, (omPort u p).queue.getLast? = some f
          ∧ f.kind = 1 ∧ f.path = fld ops 24 8 ∧ f.dst = fld ops 16 8 ∧ payNat f.payload 0 1 = 5
          ∧ payNat f.payload 6 2 = fld ops 0 14 ∧ payNat f.payload 24 8 = fld ops 32 64))))
  ∧ (∀ (s : State) (d : ADie) (e : EngineIx) (issue : BitVec 24) (ops : BitVec 96),
    let n := fld ops 0 14
    let x : W64 := BitVec.ofNat 64 (fld ops 32 64)
    (Quiet s d e issue.toNat →
      ∀ a ∈ [(Instr.sigWaitGe d e issue ops, 0), (Instr.sigWaitEq d e issue ops, 1), (Instr.sigWaitMask d e issue ops, 2)],
        canIssue s d e (mkOrder (0x12 + a.2) issue ops) = true →
        Runs a.1 s (fun u => (eng u d e).next = issue.toNat + 1 ∧ OtherEngines s u d e ∧ Same [.engines, .regs] s u
          ∧ (waitHolds a.2 (sigVal s n) x = true → IssuedAt u d e issue.toNat ∧ (eng u d e).hold = none ∧ RegsBut [] s u)
          ∧ (waitHolds a.2 (sigVal s n) x = false → (eng u d e).hold = some (.wait a.2 n x false)
              ∧ rdB u (tt d 0) (5 + e) = true ∧ RegsBut [tt d 0] s u)))
    ∧ (issue.toNat = 0 ∨ Quiet s d e (issue.toNat - 1) →
      ∀ a ∈ [(Instr.sigWaitGe d e issue ops, 0), (Instr.sigWaitEq d e issue ops, 1), (Instr.sigWaitMask d e issue ops, 2)],
        canIssue s d e (mkOrder (0x12 + a.2) issue ops) = true → waitHolds a.2 (sigVal s n) x = false →
        Runs a.1 s (fun u => (eng u d e).hold = some (.wait a.2 n x false) ∧ (eng u d e).reads = (eng s d e).reads
          ∧ (eng u d e).writes = (eng s d e).writes ∧ RegsBut [tt d 0] s u ∧ Same [.engines, .regs] s u))
    ∧ (∀ op n x met, (eng s d e).hold = some (.wait op n x met) → (met = true ∨ waitHolds op (sigVal s n) x = true) →
      Quiet s d e ((eng s d e).next - 1) →
      Runs (.signalWaitRelease d (.engine e)) s (fun u => (eng u d e).hold = none ∧ rdB u (tt d 0) (5 + e) = false
        ∧ rd u (tt d 0x38) = satIncFld (rd s (tt d 0x38)) 0 32 ∧ OtherEngines s u d e
        ∧ Same [.regs, .engines, .lateFlags, .dies, .port] s u)))

/-- R79, R80, R108, R109, R585: operations reach a signal in one cycle of its host, orders' SETs first, then their ADDs, then the
others; the writes of the signal block; wait slots. What is the model's own choice in it is in log entries 3 and 10. -/
def Obligations.SignalsAtTheirHost : Prop :=
  ∀ (s : State) (d : ADie) (k : BitVec 11) (w : BitVec 6) (v : W64),
    (∀ o, s.sigOps[0]? = some o → o.asker = 0 → sigHost o.sig = d → Runs (.signalOpArrival d [0]) s (fun u =>
      sigVal u o.sig = (if o.add then sigVal s o.sig + o.value else o.value) ∧ (∀ n, n ≠ o.sig → sigVal u n = sigVal s n)
      ∧ u.sigOps = s.sigOps.drop 1 ∧ Same [.signals, .sigOps, .regs, .engines, .threads, .slotsDue, .calls] s u))
    ∧ (∀ a b, s.sigOps[0]? = some a → s.sigOps[1]? = some b → a.asker = 0 → b.asker = 0 → a.sig = b.sig → sigHost a.sig = d →
        a.order ≠ none → b.order ≠ none → a.add = true → b.add = false →
        (∀ e x, b.order = some (e, x) → e < 15 ∧ x < 8) →
        ∀ picks ∈ [[0, 1], [1, 0]], Runs (.signalOpArrival d picks) s (fun u => sigVal u a.sig = b.value + a.value))
    ∧ (sigOpen s = true → ∀ a ∈ [(Instr.sgValueWrite d k v, false), (Instr.sgAddWrite d k v, true)], Runs a.1 s (fun u =>
        u.sigOps = s.sigOps ++ [{ sig := d * 2048 + k.toNat, add := a.2, value := v, order := none, asker := 0, askId := 0
                                  setMode := false }] ∧ Same [.sigOps] s u))
    ∧ (sigOpen s = false → ∀ a ∈ [Instr.sgValueWrite d k v, Instr.sgAddWrite d k v], Runs a s (fun u =>
        rd u (sg d 0x8808) = satInc (rd s (sg d 0x8808)) ∧ RegsBut [sg d 0x8808] s u ∧ Same [.regs] s u))
    ∧ (fld v 11 2 ≠ 3 → Runs (.sgWaitCfgWrite d w v) s (fun u =>
        rd u (sg d (0x8000 + 32 * w.toNat)) = v &&& 0x3FFF ∧ RegsBut [sg d (0x8000 + 32 * w.toNat)] s u
        ∧ Same [.regs, .slotsDue] s u))
    ∧ (fld v 11 2 = 3 → Runs (.sgWaitCfgWrite d w v) s (fun u =>
        rd u (sg d 0x8808) = satInc (rd s (sg d 0x8808)) ∧ RegsBut [sg d 0x8808] s u ∧ Same [.regs] s u))
    ∧ (rdB s (sg d (0x8000 + 32 * w.toNat)) 13 = true → slotHolds s d w.toNat = true → Runs (.waitSlotFire d w) s (fun u =>
        rdB u (sg d (0x8000 + 32 * w.toNat)) 13 = false ∧ rdB u (sg d 0x8800) w.toNat = true
        ∧ u.msis = s.msis ++ [(d.val, rd s (sg d (0x8010 + 32 * w.toNat)),
            BitVec.setWidth 32 (rd s (sg d (0x8018 + 32 * w.toNat))))]
        ∧ RegsBut [sg d (0x8000 + 32 * w.toNat), sg d 0x8800] s u ∧ Same [.regs, .slotsDue, .msis] s u))

/-- R81, R84: a train order puts its train in flight, with the row of its descriptor table; nothing has arrived yet. What is the
model's own choice in it is in log entries 14 and 50. -/
def Obligations.TrainOrdersStartTrains : Prop :=
  ∀ (s : State) (d : ADie) (j : Fin 4) (issue : BitVec 24) (ops : BitVec 96) (x : BitVec 512),
    ((dieTT s d).descs.getD j [])[fld ops 0 20]? = some x →
    Quiet s d (9 + j) issue.toNat →
    ∀ a ∈ [(Instr.train d j issue ops, false), (Instr.trainTranspose d j issue ops, true)],
      canIssue s d (9 + j) (mkOrder (if a.2 then 0x21 else 0x20) issue ops) = true → Runs a.1 s (fun u =>
      IssuedAt u d (9 + j) issue.toNat
      ∧ (∃ t ∈ u.trains, t.die = d.val ∧ t.engine = j.val ∧ t.issue = issue.toNat ∧ t.desc = x ∧ t.transpose = a.2
          ∧ t.arriveSig = fld ops 20 14 ∧ t.arrive = ops.getLsbD 34 ∧ t.book = fld ops 40 24)
      ∧ OtherEngines s u d (9 + j)
      ∧ Same [.engines, .trains, .regs, .port, .trans, .jlines, .dir, .dirAge, .msis, .om, .freeIx] s u)

/-- R85, R582, R591: a train within the package arrives with its last byte: it leaves the engine, the engine's counters rise, and
its ARRIVE_SIG gets 1. What is left of it moves first; it stays while it holds, is lost, or data of it that missed a slot
waits. The bytes of a train of one row lie at its destination, and no other byte changes. What is the model's own choice in
it is in log entries 4 and 51. -/
def Obligations.TrainArrivalLandsItsBytes : Prop :=
  ∀ (s : State) (d : ADie) (j : Fin 4) (issue : BitVec 24) (held : W32) (t : Train),
    let n := tdBytes t.desc
    let m := trainMove s t n
    let x := trainNow m t
    let waits := x.heldAt ≠ none ∨ x.dead = true ∨ delayWaits m (trainOwner d j issue.toNat) = true
    findTrain s d j issue.toNat = some t → dstAway m x = false →
    (waits ∨ trainLanded x = false → Runs (.trainArrival d j issue held) s (fun u => u = m))
    ∧ (¬ waits → trainLanded x = true → Runs (.trainArrival d j issue held) s (fun u =>
      findTrain u d j issue.toNat = none
      ∧ rd u (tr d j 8) = satInc (rd s (tr d j 8))
      ∧ rd u (tr d j 0x10) = satAdd (rd s (tr d j 0x10)) n
      ∧ rd u (tr d j 0x18) = satAdd (rd s (tr d j 0x18)) held.toNat
      ∧ (t.arrive = false → u.sigOps = s.sigOps)
      ∧ (tdRows t.desc = 1 → t.transpose = false → t.data = [] → t.landed = 0 → 0 < n → t.heldAt = none → t.dead = false →
          tdSrcSpace t.desc = 1 →
          (∀ a, (tdDstSpace t.desc = 1 ∧ a = tdNat t.desc 8 8) ∨ (dstStretch t 0 n = n ∧ dstAt s t 0 n = .ok (.here [(a, n, false)])) →
            (∀ i < n, physByte s (a + i) = true) →
            rdBytes u a n = x.data ∧ (∀ b, b < a ∨ a + n ≤ b → rdByte u b = rdByte s b)
            ∧ (t.arrive = true → u.sigOps = s.sigOps ++ [addOne (dieOfByte s (a + n - 1)) (9 + j) t.arriveSig]))
          ∧ (poisonedRange s (tdNat t.desc 0 8) n = false → x.data = physBytes s (tdNat t.desc 0 8) n))
      ∧ (tdSrcSpace t.desc = 1 → tdDstSpace t.desc = 1 →
          Same [.mem, .poisoned, .resv, .sigOps, .trains, .regs, .engines, .port, .lateFlags, .dies, .freeIx] s u)
      ∧ Same [.mem, .poisoned, .resv, .sigOps, .trains, .regs, .engines, .port, .lateFlags, .dies, .freeIx, .dir, .dirAge, .jlines,
          .msis, .om, .trans] s u))

/-- R87, R88: an engine arrives when it reaches SEG_LEN with nothing in flight; the last engine of a die makes the die arrive; an
arrival message is counted where it arrives. R89, R90, R506: a departure begins the next segment or ends the last; a station
timeout fails the job; a departure 1 ms past due holds it. What is the model's own choice in it is in log entries 4, 21, 26,
117, 118 and 119. -/
def Obligations.ArrivalsAndDepartures : Prop :=
  (∀ (s : State) (d src : ADie) (e : EngineIx) (named : BitVec 256),
    (ttState s d = 4 → (eng s d e).arrived = false → windowBlocks s d e (segLen s d) = false → engineClear s d e = true →
      (eng s d e).cycle ≤ segLen s d → mayReach s d e (segLen s d) = true →
      Runs (.engineArrival d e named) s (fun u => (eng u d e).arrived = true ∧ (eng u d e).cycle = segLen s d
        ∧ rdB u (tt d 0) (20 + e) = true ∧ OtherEngines s u d e
        ∧ Store.get (fun _ => (0, 0)) u.reports (2 * (15 * d + e)) = (atStation s d, BitVec.ofNat 64 (dieNow s d))
        ∧ (1 ≤ e.val → e.val ≤ 8 → ∀ p ∈ u.scPre, p.1 ≠ clIx d (e - 1))
        ∧ ((∃ x : EngineIx, x ≠ e ∧ (eng s d x).arrived = false) → RegsBut [tt d 0, vc d (e - 1) 0x38] s u
            ∧ Same [.engines, .regs, .reports, .scStreams, .scPre] s u
            ∧ (e.val = 0 ∨ 8 < e.val → RegsBut [tt d 0] s u ∧ Same [.engines, .regs, .reports] s u))
        ∧ ((∀ x : EngineIx, x ≠ e → (eng s d x).arrived = true) → ttState u d = 5 ∧ (dieTT u d).arrivedAt = some (BitVec.ofNat 64 (dieNow s d))
            ∧ (dieTT u d).seen.contains (atStation s d, d.val) = true
            ∧ Same [.engines, .regs, .dies, .ttx, .om, .possMap, .reports, .scStreams, .scPre] s u)))
    ∧ (∀ m, s.ttx.msgs.find? (fun m => decide (m.1 = d.val) && decide (m.2.1 = src.val)) = some m →
      Runs (.arrivalMessage d src) s (fun u => (dieTT u d).seen.contains (m.2.2, src.val) = true
        ∧ u.ttx.msgs = s.ttx.msgs.erase m ∧ RegsBut [tt d 0] s u ∧ Same [.regs, .dies, .ttx] s u)))
  ∧ (∀ (s : State) (d : ADie) (t : W64),
    let a := advance s t
    let k := atStation s d
    ((s.job.state = .departed ∨ s.job.state = .held) → 0 < k → mayDepart s d k = true → dueAt s d k ≤ dieNow a d →
      Runs (.departure d t) s (fun u =>
        (k = ttCount s d → ttState u d = 6 ∧ rdB u (tt d 0x48) 3 = true)
        ∧ (k ≠ ttCount s d → ttState u d = 4 ∧ (dieTT u d).next = k + 1 ∧ rdF u (tt d 0x20) 0 16 = (k + 1) % 2 ^ 16
          ∧ ∀ e : EngineIx, (eng u d e).cycle = 0 ∧ (eng u d e).next = 0 ∧ (eng u d e).writes = [] ∧ (eng u d e).cfg = (eng s d e).cfg)
        ∧ (dueAt s d k < departBeat s d k → rd u (tt d 0x30) = satAdd (rd s (tt d 0x30)) (departBeat s d k - dueAt s d k))
        ∧ (departBeat s d k ≤ dueAt s d k → rd u (tt d 0x30) = rd s (tt d 0x30))
        ∧ Store.get (fun _ => (0, 0)) u.reports (2 * (120 + d) + 1) = (k, BitVec.ofNat 64 (departBeat s d k))
        ∧ Same [.regs, .mtcx, .port, .dies, .engines, .ttx, .possMap, .lateFlags, .cw, .job, .reports, .hist, .om, .trans, .jlines,
            .dir, .dirAge] s u))
    ∧ (jobLive s = true → (ttState s d = 4 ∨ ttState s d = 5) → dueAt s d k + s.job.stationTimeout ≤ (now a).toNat →
      Runs (.stationTimeout d t) s (fun u => u.job.state = .failed ∧ u.job.linkKey = s.job.linkKey ∧ Posted a u 4 stFault 0
        ∧ Same [.regs, .mtcx, .port, .job, .mgmt] s u))
    ∧ (s.job.state = .departed → ttState s d = 5 → dueAt s d k + 1000000 ≤ (now a).toNat →
      Runs (.departureOverdue d t) s (fun u => u.job.state = .held ∧ Posted a u 4 0 0 ∧ Same [.regs, .mtcx, .port, .job] s u)))

/-- R69, R72: an engine that is not held reaches the next cycle at which it writes; nothing due by then stays in flight. Where
two engines write one byte in one MAIN cycle, the engine with the higher index wins. What is the model's own choice in it is
in log entries 9 and 116. -/
def Obligations.OrdersWriteAtTheirWriteCycle : Prop :=
  ∀ (s : State) (d : ADie) (e f : EngineIx) (w x : WriteOp) (grant : Fin 4097),
    let ready (e : EngineIx) (w : WriteOp) : Prop := (eng s d e).writes = [w] ∧ (eng s d e).reads = []
      ∧ (eng s d e).cycle ≤ w.time ∧ mayReach s d e w.time = true
    ready e w →
    (∀ pa v v', e < f → ready f x → w.put = .byte pa v → x.put = .byte pa v' →
      Runs (.orderWriteCycle d (BitVec.ofNat 15 (2 ^ e.val + 2 ^ f.val)) grant) s (fun u => rdByte u pa = v'
        ∧ (∀ b, b ≠ pa → rdByte u b = rdByte s b)))
    ∧ Runs (.orderWriteCycle d (BitVec.ofNat 15 (2 ^ e.val)) grant) s (fun u => (eng u d e).cycle = w.time ∧ (eng u d e).writes = [] ∧ OtherEngines s u d e
      ∧ (∀ pa v, w.put = .byte pa v → rdByte u pa = v ∧ (∀ b, b ≠ pa → rdByte u b = rdByte s b)
          ∧ Same [.engines, .mem, .poisoned, .resv] s u)
      ∧ (∀ k lo len v, w.put = .lane k lo len v →
          Store.get (fun _ => 0) u.vregs k = putFld (Store.get (fun _ => 0) s.vregs k) lo len v
          ∧ (∀ i, i ≠ k → Store.get (fun _ => 0) u.vregs i = Store.get (fun _ => 0) s.vregs i) ∧ Same [.engines, .vregs] s u)
      ∧ (∀ q m a, w.put = .plane d q m a → m < 4 → planeMode u d q = m ∧ (∀ i, i < 16384 → cellAt u d q i = Cell.zero)
          ∧ Same [.engines, .cells, .regs] s u)
      ∧ (∀ ix v, w.put = .cfg ix v → engCfg u d e ix = v ∧ Same [.engines] s u)
      ∧ (∀ k v, w.put = .reg k v → rd u k = v ∧ RegsBut [k] s u ∧ Same [.engines, .regs] s u))

/-- R95, R104, R105: a load starts while the job is ARMING; it ends with the die's image in place or with the first failure and
ARM_JOB ended; the flush of a possession ends on one home. What is the model's own choice in it is in log entries 45, 106,
107, 108, 109, 110 and 111. -/
def Obligations.LoadsAndFlushes : Prop :=
  ∀ (s : State) (d : ADie) (v : W64) (base : W64),
    (bitOf v 0 = true → rdB s (tt d 8) 0 = false → s.job.state = .arming → Runs (.ttLoad d v) s (fun u =>
      ttState u d = 1 ∧ rdB u (tt d 8) 0 = true ∧ RegsBut [tt d 0, tt d 8] s u ∧ Same [.regs] s u))
    ∧ (bitOf v 0 = true → rdB s (tt d 8) 0 = false → s.job.state ≠ .arming → Runs (.ttLoad d v) s (fun u =>
      rd u (tt d 0x18) = BitVec.ofNat 64 stState ∧ Raised s u d 0x48 1 ∧ RegsBut ([tt d 0x18, tt d 0x48] ++ noticeKeys) s u
      ∧ Same [.regs, .port] s u))
    ∧ (∀ t, readTree s d = .ok t → rdB s (tt d 8) 0 = true → s.job.state = .arming →
      (loadFail s t = none → rdB s (hp 0x108) 0 = false → Runs (.ttLoadComplete d) s (fun u =>
        dieTT u d = dieOf t d ∧ ttState u d = 2 ∧ rdB u (tt d 8) 0 = false ∧ rd u (tt d 0x18) = 0 ∧ rdB u (tt d 0x48) 0 = true
        ∧ Same [.regs, .port, .dies, .signals, .engines, .lateFlags, .possMap, .ttx] s u))
      ∧ (∀ f, loadFail s t = some f → Runs (.ttLoadComplete d) s (fun u =>
        rd u (tt d 0x18) = BitVec.ofNat 64 (f.1 + 2 ^ 16 * f.2.1 + 2 ^ 32 * f.2.2) ∧ rdB u (tt d 8) 0 = false
        ∧ u.job.state = .idle ∧ u.signals = s.signals)))
    ∧ (∀ f, readTree s d = .error f → rdB s (tt d 8) 0 = true → s.job.state = .arming → Runs (.ttLoadComplete d) s (fun u =>
        rd u (tt d 0x18) = BitVec.ofNat 64 (f.1 + 2 ^ 16 * f.2.1 + 2 ^ 32 * f.2.2) ∧ u.job.state = .idle ∧ u.signals = s.signals))
    ∧ (∀ p, s.ttx.poss.find? (fun p => decide (p.base = base.toNat) && bitOf p.flushing d) = some p → s.job.state ≠ .arming →
      Runs (.possessionFlushDone d base) s (fun u =>
        { p with flushing := putBit p.flushing d false } ∈ u.ttx.poss ∧ Same [.regs, .ttx, .mem, .jlines, .dir, .dies] s u))

/-- R127, R129, R130, R134, R135: a configuration order of the main array puts its fields in flight for the next cycle, and
MA_ZERO its planes for the second. What is the model's own choice in it is log entry 9. -/
def Obligations.MainArrayConfigurationOrders : Prop :=
  ∀ (s : State) (d : ADie) (issue : BitVec 24) (ops : BitVec 96),
    let c := issue.toNat
    let field (ix lo len : Nat) : WriteOp := { time := c + 1, issue := c, put := .cfg ix (fld ops lo len) }
    let plane (q : Nat) : WriteOp :=
      { time := c + 2, issue := c, put := .plane d q (fld ops 4 2) (BitVec.ofNat 16 (fld ops 6 16)) }
    Quiet s d 0 c →
    (canIssue s d 0 (mkOrder 0x41 issue ops) = true → Runs (.maOutcfg d issue ops) s (fun u => IssuedAt u d 0 c ∧ OtherEngines s u d 0 ∧ Same [.engines] s u
        ∧ (eng u d 0).reads = (eng s d 0).reads
        ∧ (eng u d 0).writes = (eng s d 0).writes
          ++ [field 0 0 22, field 1 22 2, field 2 24 4, field 3 28 20, field 4 48 16, field 5 64 8]))
    ∧ (canIssue s d 0 (mkOrder 0x42 issue ops) = true → Runs (.maScalecfg d issue ops) s (fun u => IssuedAt u d 0 c ∧ OtherEngines s u d 0 ∧ Same [.engines] s u
        ∧ (eng u d 0).reads = (eng s d 0).reads
        ∧ (eng u d 0).writes = (eng s d 0).writes
          ++ [field 6 0 22, field 7 22 22, field 8 44 3, field 9 47 1, field 10 48 3, field 11 51 1]))
    ∧ (canIssue s d 0 (mkOrder 0x43 issue ops) = true → Runs (.maZero d issue ops) s (fun u => IssuedAt u d 0 c ∧ OtherEngines s u d 0 ∧ Same [.engines] s u
        ∧ (eng u d 0).reads = (eng s d 0).reads
        ∧ (eng u d 0).writes = (eng s d 0).writes ++ ([0, 1, 2, 3].filter (fun q => bitOf ops q)).map plane))

/-- R125, R126, R131, R132, R134, R135: an MA_MMA, an MA_DRAIN and an MA_LOAD start with the configuration as it stands; the
first step of an MA_MMA and the first 512 bytes of an MA_LOAD are read at once, and the drains wait for their cycles. What is
the model's own choice in it is log entry 9. -/
def Obligations.MainArrayDataOrders : Prop :=
  ∀ (s : State) (d : ADie) (issue : BitVec 24) (ops : BitVec 96),
    let c := issue.toNat
    let cfg := maCfg s d
    let due (o : Order) (t part : Nat) (got : List Nat) : ReadOp :=
      { time := t, issue := c, order := o, cfg := cfg, part := part, got := got }
    Quiet s d 0 c →
    (let o := mkOrder 0x40 issue ops
     let q := mmaOf o
     canIssue s d 0 o = true → Runs (.maMma d issue ops []) s (fun u => IssuedAt u d 0 c ∧ OtherEngines s u d 0 ∧ Same [.engines] s u
      ∧ (eng u d 0).writes = (eng s d 0).writes
        ++ (mmaStep s d o cfg c 0 0).map (fun w => { time := w.1, issue := c, put := w.2 })
      ∧ (1 < q.passes * q.steps →
          due o (if q.steps = 1 then c + q.period (cfgOf cfg 2) else c + q.cps) 1 [] ∈ (eng u d 0).reads)
      ∧ (∀ p, p < q.passes → bitOf ops 87 = true →
          due o (c + 6 + p * q.period (cfgOf cfg 2) + q.steps * q.cps + 64) (2 ^ 32 + p) [] ∈ (eng u d 0).reads)
      ∧ (∀ r ∈ (eng s d 0).reads, r ∈ (eng u d 0).reads)))
    ∧ (let o := mkOrder 0x44 issue ops
       canIssue s d 0 o = true → Runs (.maDrain d issue ops) s (fun u => IssuedAt u d 0 c ∧ OtherEngines s u d 0 ∧ Same [.engines] s u
        ∧ (eng u d 0).writes = (eng s d 0).writes
        ∧ (eng u d 0).reads = (eng s d 0).reads ++ [due o (c + 1) 0 []]))
    ∧ (let o := mkOrder 0x45 issue ops
       let n := (fld ops 4 7 + 1) * (fld ops 11 7 + 1) * (cFmt (fld ops 18 4)).bits
       let els := loadChunk s d o 0
       canIssue s d 0 o = true → Runs (.maLoad d issue ops) s (fun u => IssuedAt u d 0 c ∧ OtherEngines s u d 0 ∧ Same [.engines] s u
        ∧ (4096 < n → (eng u d 0).writes = (eng s d 0).writes
            ∧ (eng u d 0).reads = (eng s d 0).reads ++ [due o (c + 1) 1 els])
        ∧ (n ≤ 4096 → (eng u d 0).reads = (eng s d 0).reads
            ∧ (eng u d 0).writes = (eng s d 0).writes
              ++ (loadPuts d o cfg els).map (fun w => { time := c + 7, issue := c, put := w }))))

/-- R72, R131, R134, R135, R155: what an order of the main array reads at its cycle goes in flight with its latency, and terms in
flight are added to their entry at their write cycle. What is the model's own choice in it is log entry 9. -/
def Obligations.MainArrayPartsAndSums : Prop :=
  ∀ (s : State) (d : ADie) (grant : Fin 4097),
    (∀ r, (eng s d 0).writes = [] → (eng s d 0).reads = [r] → (eng s d 0).cycle ≤ r.time → mayReach s d 0 r.time = true →
      let o := r.order
      let flight (t : Nat) (p : Put) : WriteOp := { time := t, issue := r.issue, put := p }
      (fld o 24 8 = 0x44 → 1 ≤ r.time → Runs (.orderWriteCycle d 1 grant) s (fun u => (eng u d 0).cycle = r.time
        ∧ (eng u d 0).reads = [] ∧ OtherEngines s u d 0 ∧ Same [.engines] s u
        ∧ (let m := fld o 34 7 + 1
           let n := fld o 41 7 + 1
           (eng u d 0).writes = (drainPuts s d (fld o 32 2) r.cfg m n 0 0 m n).map
             (flight (r.time + 3 + ceilDiv (m * n * (cFmt (cfgOf r.cfg 2)).bits) 4096)))))
      ∧ (let q := mmaOf o
         fld o 24 8 = 0x40 → r.part < 2 ^ 32 → r.part % q.steps * q.cps ≤ r.time →
         Runs (.orderWriteCycle d 1 grant) s (fun u => (eng u d 0).cycle = r.time ∧ OtherEngines s u d 0 ∧ Same [.engines] s u
          ∧ (eng u d 0).writes = (mmaStep s d o r.cfg r.time (r.part / q.steps) (r.part % q.steps)).map
             (fun w => flight w.1 w.2)
          ∧ (r.part + 1 < q.passes * q.steps → ∃ n ∈ (eng u d 0).reads, n.part = r.part + 1 ∧ n.cfg = r.cfg ∧ n.order = o))))
    ∧ (∀ w, (eng s d 0).reads = [] → (eng s d 0).writes = [w] → (eng s d 0).cycle ≤ w.time → mayReach s d 0 w.time = true →
        ∀ q ix mode ts, w.put = .terms d q ix mode ts → q < 4 → ix < 16384 →
        Runs (.orderWriteCycle d 1 grant) s (fun u =>
          let sum := addTerms mode (planeAnchor s d q) (cellAt s d q ix) ts
          cellAt u d q ix = sum.1 ∧ (∀ p i, p < 4 → i < 16384 → (p, i) ≠ (q, ix) → cellAt u d p i = cellAt s d p i)
          ∧ (sum.1.sat = true → rdB u (planeInfo d q) 32 = true)
          ∧ rd u (ma d 8) = rd s (ma d 8) ||| BitVec.setWidth 64 sum.2
          ∧ RegsBut ([planeInfo d q, ma d 8, ma d 0x60] ++ noticeKeys) s u ∧ Same [.engines, .cells, .regs, .port] s u))

/-- R188, R190, R191, R211: a vector order of the general layout reads its first 1,024 elements at ISSUE; the results and their
flags are in flight for its write cycle, and the next chunk follows after the chunk's cycles. What is the model's own choice
in it is in log entries 9 and 20. -/
def Obligations.VectorLaneOrders : Prop :=
  ∀ (s : State) (d : ADie) (c : Cluster) (issue : BitVec 24) (ops : BitVec 96),
    let t := issue.toNat
    Quiet s d (1 + c) t →
    ∀ a ∈ [(Instr.vcvt d c issue ops [], 0x82), (Instr.vadd d c issue ops [], 0x83), (Instr.vsub d c issue ops [], 0x84),
        (Instr.vmul d c issue ops [], 0x85), (Instr.vfma d c issue ops [], 0x86), (Instr.vmin d c issue ops [], 0x87),
        (Instr.vmax d c issue ops [], 0x88), (Instr.vcmp d c issue ops [], 0x89), (Instr.vsel d c issue ops [], 0x8A),
        (Instr.vlogic d c issue ops [], 0x8B), (Instr.vunary d c issue ops [], 0x8C), (Instr.vdiv d c issue ops [], 0x90),
        (Instr.vsqrt d c issue ops [], 0x91), (Instr.vrecip d c issue ops [], 0x92), (Instr.vrsqrt d c issue ops [], 0x93),
        (Instr.vfunc d c issue ops [], 0x94), (Instr.vpow d c issue ops [], 0x95), (Instr.vdotl d c issue ops [], 0xA0),
        (Instr.vlsadd d c issue ops [], 0xA3), (Instr.vperm d c issue ops [], 0xA8), (Instr.vshuf d c issue ops [], 0xA9),
        (Instr.vpack d c issue ops [], 0xAA), (Instr.vunpack d c issue ops [], 0xAB), (Instr.vrecomb d c issue ops [], 0xAE)],
      canIssue s d (1 + c) (mkOrder a.2 issue ops) = true → Runs a.1 s (fun u =>
        let o := mkOrder a.2 issue ops
        IssuedAt u d (1 + c) t ∧ OtherEngines s u d (1 + c) ∧ Same [.engines] s u
        ∧ (eng u d (1 + c)).writes = (eng s d (1 + c)).writes
          ++ (vChunk s d c o (vcCfg s d c) 0).map (fun p => { time := t + vLat o, issue := t, put := p })
        ∧ (fld ops 0 14 < 1024 → (eng u d (1 + c)).reads = (eng s d (1 + c)).reads)
        ∧ (1024 ≤ fld ops 0 14 → (eng u d (1 + c)).reads = (eng s d (1 + c)).reads
            ++ [{ time := t + vQ o, issue := t, order := o, cfg := vcCfg s d c, part := 1, got := [] }]))

/-- R189, R195, R198 to R200, R202 to R204, R208, R209: the configuration orders put their fields in flight; a reduction, an
accumulator read, a matrix-vector product and the slice orders read their first part at ISSUE, and the part that completes
the order puts its results in flight. What is the model's own choice in it is log entry 9. -/
def Obligations.VectorGroupOrders : Prop :=
  ∀ (s : State) (d : ADie) (c : Cluster) (issue : BitVec 24) (ops : BitVec 96),
    let t := issue.toNat
    let e := 1 + c.val
    let cfg := vcCfg s d c
    let base (u : State) : Prop := IssuedAt u d e t ∧ OtherEngines s u d e ∧ Same [.engines] s u
    let puts (u : State) (n : Nat) (l : List Put) : Prop :=
      (eng u d e).writes = (eng s d e).writes ++ l.map (fun p => { time := n, issue := t, put := p })
    let next (u : State) (n : Nat) (o : Order) (got : List Nat) : Prop :=
      (eng u d e).writes = (eng s d e).writes ∧ (eng u d e).reads = (eng s d e).reads
        ++ [{ time := n, issue := t, order := o, cfg := cfg, part := 1, got := got }]
    let may (op : Nat) : Prop := canIssue s d e (mkOrder op issue ops) = true
    Quiet s d e t →
    (may 0x80 → Runs (.vcfg d c issue ops) s (fun u => base u
      ∧ puts u (t + 1) [.cfg 0 (fld ops 0 16), .cfg 1 (fld ops 16 3), .cfg 2 (fld ops 20 20), .cfg 3 (fld ops 40 20)]))
    ∧ (may 0x81 → Runs (.vbase d c issue ops) s (fun u => base u
      ∧ puts u (t + 1) [.cfg (4 + 2 * fld ops 0 3) (fld ops 3 1), .cfg (5 + 2 * fld ops 0 3) (fld ops 32 64)]))
    ∧ (let o := mkOrder 0x98 issue ops
       let f := vFmt (vCode o)
       let els := (upTo (min 1024 (vN o))).map (readEl s d c f false (vA o))
       may 0x98 → Runs (.vred d c issue ops []) s (fun u => base u
        ∧ (vN o ≤ 1024 → puts u (t + vQ o + 24) (writeEl d c f false (vDst o) 0 (reduce (vMod o) f els).1
            ++ [.vcFlags d c (vFgrp o) (reduce (vMod o) f els).2]))
        ∧ (1024 < vN o → next u (t + vQ o) o els)))
    ∧ (let o := mkOrder 0xA2 issue ops
       may 0xA2 → Runs (.vacc d c issue ops []) s (fun u => base u
        ∧ puts u (t + if opKind (vDst o) = 1 then 6 else 4) (vaccChunk s d c o 0)
        ∧ (256 < vN o → (eng u d e).reads = (eng s d e).reads
            ++ [{ time := t + 1, issue := t, order := o, cfg := cfg, part := 1, got := [] }])))
    ∧ (let o := mkOrder 0xA1 issue ops
       let old := if lAcc o = 1 then (upTo (lLines o)).map (readEl s d c (gemvD o) false (lDst o)) else []
       let els := old ++ (upTo (min (gemvP o) (lK o))).flatMap (gemvTerm s d c o cfg)
       may 0xA1 → Runs (.vgemv d c issue ops []) s (fun u => base u
        ∧ (lK o ≤ gemvP o → puts u (t + 1 + if opKind (lDst o) = 0 then 12 else 13 + ceilDiv (lLines o * (gemvD o).bits) 32768)
            (gemvPuts d c o cfg els))
        ∧ (gemvP o < lK o → next u (t + 1) o els)))
    ∧ (let o := mkOrder 0xAC issue ops
       may 0xAC → Runs (.vslexp d c issue ops []) s (fun u => base u
        ∧ (lK o = 1 → puts u (t + 14) (slexpPuts d c o (sliceSrc s d c o 0)))
        ∧ (1 < lK o → next u (t + 2) o (sliceSrc s d c o 0))))
    ∧ (let o := mkOrder 0xAD issue ops
       let exps := (upTo (lLines o)).map (readEl s d c .int32 false (lAux o % 64))
       may 0xAD → Runs (.vslice d c issue ops []) s (fun u => base u
        ∧ (lK o = 1 → puts u (t + 16) (slicePuts d c o exps (sliceSrc s d c o 0)))
        ∧ (1 < lK o → next u (t + 2) o (exps ++ sliceSrc s d c o 0))))

/-- R221 to R223: a gather, scatter or range order opens its window and reads its indices and data at ISSUE; at the window's end
finished work has its results in place, and unfinished work holds the cluster until it ends, late. R213 to R216, R218 to
R220: a fill brings its sector in; a write-back leaves the cache empty, and its window ready or flushed; the entries change
places with memory only before an image is loaded; a range operation visits the sectors of its range. What is the model's own
choice in it is in log entries 4, 42 and 120. -/
def Obligations.GathersAndStreamCaches : Prop :=
  (∀ (s : State) (d : ADie) (c : Cluster),
    let e := 1 + c.val
    (∀ (issue : BitVec 24) (ops : BitVec 96), Quiet s d e issue.toNat →
      ∀ a ∈ [(Instr.vgather d c issue ops [], 0xB0), (Instr.vscatter d c issue ops [], 0xB1), (Instr.vscop d c issue ops, 0xB2)],
        canIssue s d e (mkOrder a.2 issue ops) = true → Runs a.1 s (fun u => IssuedAt u d e issue.toNat ∧ OtherEngines s u d e
          ∧ ∃ w, (eng u d e).win = some w ∧ w.order = mkOrder a.2 issue ops ∧ w.cfg = vcCfg s d c
            ∧ w.stop = issue.toNat + (if a.2 = 0xB2 then fld ops 5 16 else fld ops 74 16)
            ∧ (a.2 ≠ 0xB2 → ∀ i < fld ops 0 14 + 1, w.got[i]? = some (readEl s d c .u32 false (fld ops 44 22) i))
            ∧ (a.2 = 0xB2 → w.wait = none ∧ rdB u (vc d c 0x38) 0 = true ∧ RegsBut [vc d c 0x38] s u
                ∧ u.scRange = s.scRange ++ [{ cl := clIx d c, op := fld ops 3 2, base := scopBase w.order w.cfg
                                              len := fld ops 32 64, order := true }]
                ∧ Same [.engines, .scRange, .regs] s u)
            ∧ (winFault s d c w = none → w.wait = none ∧ (a.2 ≠ 0xB2 → Same [.engines] s u))
            ∧ (∀ f, winFault s d c w = some f → w.wait = some (faultKey s d (BitVec.ofNat 64 f.2))
                ∧ Same [.engines, .regs, .port, .trans, .jlines, .dir, .dirAge, .mem, .poisoned, .resv, .msis] s u)))
    ∧ (∀ (w : GatherWin), (eng s d e).win = some w → w.wait = none → winFault s d c w = none →
      let o := w.order
      let op := fld o 24 8
      let x (i : Nat) : Nat := winBase d c + gsAddr o w.cfg w.got i
      let n := gsSize o
      let inside (i : Nat) : Bool := decide (gsAddr o w.cfg w.got i + n ≤ 0x2000000)
      let served (i : Nat) : Bool := (upTo n).all (fun b => inWindow s d c (gsAddr o w.cfg w.got i + b))
      ((eng s d e).hold = none → Quiet s d e w.stop →
        (¬ (op = 0xB2 ∧ scopDone s d c = true) → Runs (.gatherWindowEnd d c false) s (fun u => (eng u d e).hold = some .overrun ∧ (eng u d e).win = some w
          ∧ Same [.engines, .regs] s u))
        ∧ ((op = 0xB2 → scopDone s d c = true) → Runs (.gatherWindowEnd d c true) s (fun u => (eng u d e).win = none ∧ (eng u d e).hold = none
          ∧ (eng u d e).cycle = max (eng s d e).cycle w.stop ∧ OtherEngines s u d e
          ∧ (op = 0xB0 → gsSpace o w.cfg = 1 → vFmt (vCode o) = .fp32 → opKind (vDst o) = 0 → vN o ≤ 1024 →
              (∀ i < vN o, (inside i = true → served i = true → (lane u d c (opLoc (vDst o)) i).toNat = rdNat s (x i) 4)
                ∧ ((∀ b < n, inWindow s d c (gsAddr o w.cfg w.got i + b) = false) → lane u d c (opLoc (vDst o)) i = 0))
              ∧ ((∃ i < vN o, inside i = false) → rdB u (vc d c 0x68) 4 = true) ∧ Same [.engines, .vregs, .regs, .port] s u)
          ∧ (op = 0xB2 → Same [.engines, .regs] s u)
          ∧ (op = 0xB1 → gsSpace o w.cfg = 1 → vN o = 1 → inside 0 = true → served 0 = true →
              rdBytes u (x 0) n = leBytes n (w.got.getD 1 0) ∧ (∀ b, b < x 0 ∨ x 0 + n ≤ b → rdByte u b = rdByte s b)
              ∧ Same [.engines, .mem, .poisoned, .resv] s u))))
      ∧ ((eng s d e).hold = some .overrun → (op = 0xB2 → scopDone s d c = true) → Runs (.gatherWorkDone d c) s (fun u =>
          (eng u d e).win = none ∧ (eng u d e).hold = none ∧ rdB u (tt d 0) 55 = true
          ∧ rdF u (tt d 0x38) 0 32 = min (rdF s (tt d 0x38) 0 32 + 1) (2 ^ 32 - 1) ∧ OtherEngines s u d e))))
  ∧ (∀ (s : State) (d : ADie) (c : Cluster) (v : W64),
    let cl := clIx d c
    (∀ p, s.scPre.contains (cl, v.toNat / 32 * 32) = true → translate s d (1 + c) (BitVec.ofNat 64 (v.toNat / 32 * 32)) false = .ok p →
      scFind s cl (v.toNat / 4096) = none → 0 < scSize s cl → Runs (.streamCacheFill d c v) s (fun u =>
        rd u (vc d c 0x50) = satInc (rd s (vc d c 0x50)) ∧ u.scPre = s.scPre.erase (cl, v.toNat / 32 * 32)
        ∧ (∃ i, scFind u cl (v.toNat / 4096) = some i ∧ bitOf (scGet u cl i).valid (v.toNat % 4096 / 32) = true
            ∧ (scGet u cl i).ppage = p / 4096
            ∧ (s.scEntries = [] → sectorBytes (scGet u cl i) (v.toNat % 4096 / 32)
                = rdBytes s (p / 4096 * 4096 + v.toNat % 4096 / 32 * 32) 32))
        ∧ Same [.regs, .port, .mem, .poisoned, .resv, .trans, .jlines, .dir, .dirAge, .scEntries, .scPre, .scClock] s u))
    ∧ (∀ (k : Call) (late : Bool), openCall s d c = some k → (k.ready = false ∨ k.workDone = true ∧ k.flushed = false) →
      Runs (.streamCacheWritebackDone d c late) s (fun u => scEmpty u cl = true ∧ rdB u (sm d c 0) 1 = false
        ∧ (∃ n, openCall u d c = some n ∧ (if k.ready then n = { k with flushed := true } else n = { k with ready := true }))
        ∧ Same [.regs, .mem, .poisoned, .resv, .scEntries, .scStreams, .scPre, .calls] s u))
    ∧ ((s.job.state = .idle ∨ s.job.state = .arming) → (∀ x < 8, (dieTT s x).stations = []) → fld v 0 3 ≤ 5 →
      Runs (.vcScCfgWrite d c v) s (fun u => rd u (vc d c 0x18) = BitVec.ofNat 64 (fld v 0 3) ∧ scEmpty u cl = true
        ∧ (∀ b, b < 0x800000 → rdByte u (winBase d c + 0x1800000 + b) = 0)
        ∧ RegsBut [vc d c 0x18, vc d c 0x38] s u
        ∧ Same [.regs, .mem, .poisoned, .resv, .scEntries, .scStreams, .scPre] s u))
    ∧ ((s.job.state ≠ .idle ∧ s.job.state ≠ .arming ∨ 5 < fld v 0 3 ∨ (∃ x < 8, (dieTT s x).stations ≠ [])) → Runs (.vcScCfgWrite d c v) s (fun u =>
      Raised s u d (0x2000068 + c * 0x100000) 5 ∧ RegsBut (vc d c 0x68 :: noticeKeys) s u ∧ Same [.regs, .port] s u))
    ∧ (rdB s (vc d c 0x38) 0 = false → fld v 0 2 ≠ 0 → Runs (.vcScRangeCmd d c v) s (fun u =>
      rdB u (vc d c 0x38) 0 = true ∧ RegsBut [vc d c 0x38] s u
      ∧ u.scRange = s.scRange ++ [{ cl := cl, op := fld v 0 2, base := (rd s (vc d c 0x20)).toNat
                                    len := (rd s (vc d c 0x28)).toNat, order := false }]
      ∧ Same [.regs, .scRange] s u))
    ∧ ((rdB s (vc d c 0x38) 0 = true ∨ fld v 0 2 = 0) → Runs (.vcScRangeCmd d c v) s (fun u =>
      Raised s u d (0x2000068 + c * 0x100000) 3 ∧ RegsBut (vc d c 0x68 :: noticeKeys) s u ∧ Same [.regs, .port] s u))
    ∧ (∀ r, s.scRange.find? (fun r => decide (r.cl = cl)) = some r → Runs (.rangeDone d c) s (fun u =>
      u.scRange = s.scRange.erase r ∧ rdB u (vc d c 0x38) 0 = (s.scRange.erase r).any (fun x => decide (x.cl = cl))
      ∧ (r.order = false → Raised s u d (0x2000068 + c * 0x100000) 2)
      ∧ (r.order = true → RegsBut [vc d c 0x38] s u ∧ u.port = s.port)
      ∧ (∀ i k, i < 48 → k < 128 → r.base < (scGet s cl i).page * 4096 + 32 * k + 32 →
          (scGet s cl i).page * 4096 + 32 * k < r.base + r.len →
          (r.op = 1 → bitOf (scGet u cl i).dirty k = false) ∧ ((r.op = 2 ∨ r.op = 3) → bitOf (scGet u cl i).valid k = false))
      ∧ (∀ i, i < 48 → (∀ k < 128, ¬ (r.base < (scGet s cl i).page * 4096 + 32 * k + 32
          ∧ (scGet s cl i).page * 4096 + 32 * k < r.base + r.len)) → (scGet s cl i).valid ≠ 0 → scGet u cl i = scGet s cl i)
      ∧ RegsBut ([vc d c 0x38, vc d c 0x68] ++ noticeKeys) s u
      ∧ Same [.regs, .port, .mem, .poisoned, .resv, .scEntries, .scRange] s u)))

/-- R116, R181, R183, R309: the unbooked port reads the windows of a die, writes platform SRAM, and counts and ignores writes to
the planes; an access of a hart that is not of 1, 2, 4 or 8 bytes, naturally aligned, faults at the hart and does nothing.
What is the model's own choice in it is in log entries 70, 93 and 123. -/
def Obligations.PlatformWindowAccesses : Prop :=
  ∀ (s : State) (d : ADie) (off : W32) (len : BitVec 13) (l : List Byte) (hart : Bool),
    let fits := (len.toNat = 1 ∨ len.toNat = 2 ∨ len.toNat = 4 ∨ len.toNat = 8) ∧ off.toNat % len.toNat = 0
    (hart = true → ¬ fits → ∀ x ∈ [none, some l], Runs (.platformWindowAccess hart d off len x) s (fun u =>
      u.answer = [] ∧ Same [.answer] s u))
    ∧ ((hart = true → fits) → Runs (.platformWindowAccess hart d off len none) s (fun u => u.answer.length = len.toNat ∧ Same [.answer] s u
      ∧ (∀ i, i < len.toNat → off.toNat + i < 0x10000000 → (off.toNat + i) % 0x2000000 < 0x1800000 →
          u.answer[i]? = some (rdByte s (0x4000000000000 + d * 0x100000000 + off.toNat + i)))
      ∧ (∀ i, i < len.toNat → 0x10000000 ≤ off.toNat + i → off.toNat + i < 0x10100000 →
          u.answer[i]? = some (BitVec.ofNat 8 (cellBits (cellAt s d ((off.toNat + i - 0x10000000) / 0x40000)
            ((off.toNat + i) % 0x40000 / 16)) / 256 ^ ((off.toNat + i) % 16)))))
    ∧ (0x10000000 ≤ off.toNat → off.toNat < 0x10100000 → Runs (.platformWindowAccess hart d off len (some l)) s (fun u =>
      rd u (ma d 0x58) = satInc (rd s (ma d 0x58)) ∧ RegsBut [ma d 0x58] s u ∧ Same [.regs] s u))
    ∧ (off.toNat + l.length ≤ 0x10000000 → off.toNat % 0x2000000 + l.length ≤ 0x1800000 →
      Runs (.platformWindowAccess hart d off len (some l)) s (fun u =>
        let a := 0x4000000000000 + d * 0x100000000 + off.toNat
        rdBytes u a l.length = l ∧ (∀ b, b < a ∨ a + l.length ≤ b → rdByte u b = rdByte s b)
        ∧ Same [.mem, .poisoned, .resv] s u)))

/-- R228 to R230, R233 to R235: SM_CALL asks for its window and holds the update sequencer in the cycle of its issue; the window
opens at its cycle with the descriptor read, or kills the call; a figure starts with its threads at ENTRY. R229, R230, R240,
R257: a call whose work is done and written back ends, late if its cluster was held; its END_SIG gets 1 when it has ended and
its window has expired; the grace time of a call past its window kills it. What is the model's own choice in it is in log
entries 4, 88 and 95. -/
def Obligations.SetModeCalls : Prop :=
  (∀ (s : State) (d : ADie) (c : Cluster),
    (∀ (issue : BitVec 24) (ops : BitVec 96), canIssue s d 14 (mkOrder 0xEF issue ops) = true →
      Quiet s d 14 issue.toNat → Runs (.smCall d issue ops) s (fun u => (eng u d 14).hold = some .opening ∧ (eng u d 14).cycle = issue.toNat - 1
        ∧ (eng u d 14).next = issue.toNat + 1
        ∧ (∃ k, u.calls = s.calls ++ [k] ∧ k.die = d.val ∧ k.cluster = fld ops 0 3 ∧ k.issue = issue.toNat ∧ k.desc = fld ops 4 20
            ∧ k.win = fld ops 24 24 ∧ k.endSig = fld ops 48 14 ∧ k.endEn = bitOf ops 62 ∧ k.opened = false ∧ k.ended = false)
        ∧ OtherEngines s u d 14 ∧ RegsBut [tt d 0] s u ∧ Same [.engines, .regs, .calls] s u))
    ∧ (∀ (k : Call), s.calls.find? (fun k => decide (k.die = d.val) && decide (k.cluster = c.val) && !k.opened) = some k →
      ttState s d = 4 → openCall s d c = none → (k.issue ≤ (eng s d (1 + c)).cycle ∨ mayReach s d (1 + c) k.issue = true) →
      Quiet s d (1 + c) k.issue → Quiet s d 14 ((eng s d 14).next - 1) → s.calls.Nodup → k.ended = false →
      let b := rdBytes s (winBase d c + k.desc * 32) 64
      (descOk b = true → Runs (.callWindowOpen d c false) s (fun u =>
        (∃ n, openCall u d c = some n ∧ n.issue = k.issue ∧ n.win = k.win ∧ n.entry.toNat = leAt b 0 8 ∧ n.grid = leAt b 8 4
          ∧ n.fsets = leAt b 12 1 ∧ n.fgrp = leAt b 13 1 ∧ n.grace = leAt b 14 2 ∧ n.arg0.toNat = leAt b 16 8
          ∧ n.arg1.toNat = leAt b 24 8 ∧ n.stack.toNat = leAt b 32 8 ∧ n.stackBytes = leAt b 40 4 ∧ n.seats = k.seats)
        ∧ (eng u d 14).hold = none ∧ (eng u d (1 + c)).cycle = max (eng s d (1 + c)).cycle k.issue ∧ rd u (sm d c 0) = 3
        ∧ RegsBut [sm d c 0, sm d c 8, tt d 0] s u ∧ Same [.engines, .regs, .calls] s u))
      ∧ (descOk b = false → Runs (.callWindowOpen d c false) s (fun u =>
        (∃ n, openCall u d c = some n ∧ n.killed = true) ∧ rdF u (sm d c 0x10) 0 4 = 8 ∧ rdB u (sm d c 0x10) 63 = true
        ∧ rdB u (sm d c 0x50) 0 = true ∧ u.mem = s.mem)))
    ∧ (∀ (k : Call) (seat : BitVec 6), openCall s d c = some k → k.ready = true → k.killed = false →
      seat.toNat < k.seatCount → k.seats.find? (fun x => decide (x.seat = seat.toNat)) = none → seat.toNat < k.grid →
      Runs (.figureStart d c seat) s (fun u =>
        (∀ i t, i < k.fsets → t < 32 →
          let h := thread u (thKey (clIx d c) (seat.toNat * k.fsets + i) t)
          h.live = true ∧ h.pc = k.entry ∧ h.rx 10 = k.arg0 ∧ h.rx 11 = k.arg1 ∧ h.fcsr = 0 ∧ h.block = .none ∧ h.awaits = []
          ∧ h.rx 2 = BitVec.ofNat 64 (k.stack.toNat + (32 * (seat.toNat * k.fsets + i) + t + 1) * k.stackBytes))
        ∧ (∃ n, openCall u d c = some n ∧ n.figOf (seat.toNat * k.fsets) = seat.toNat)
        ∧ RegsBut [sm d c 0] s u ∧ Same [.regs, .threads, .calls] s u)))
  ∧ (∀ (s : State) (d : ADie) (c : Cluster) (k : Call),
    openCall s d c = some k → s.calls = [k] →
    (k.workDone = true → k.flushed = true → k.fflags = 0 →
      (k.expired = false → Runs (.callEnd d c false) s (fun u => u.calls = [{ k with ended := true }] ∧ openCall u d c = none
        ∧ rdB u (sm d c 0) 0 = false ∧ RegsBut [sm d c 0] s u ∧ Same [.calls, .regs] s u))
      ∧ (k.expired = true → Runs (.callEnd d c true) s (fun u => u.calls = []
        ∧ u.sigOps = (if k.endEn then s.sigOps ++ [addOne d 14 k.endSig] else s.sigOps)
        ∧ rdB u (sm d c 0x50) 1 = true ∧ rdB u (tt d 0) 55 = true
        ∧ rdF u (tt d 0x38) 0 32 = min (rdF s (tt d 0x38) 0 32 + 1) (2 ^ 32 - 1) ∧ u.mem = s.mem ∧ u.threads = s.threads)))
    ∧ (Quiet s d (1 + c) (k.issue + k.win) → Runs (.callWindowExpiry d c) s (fun u =>
      u.calls = [{ k with expired := true }] ∧ OtherEngines s u d (1 + c)
      ∧ (mayReach s d (1 + c) (k.issue + k.win) = true →
          (eng u d (1 + c)).cycle = max (eng s d (1 + c)).cycle (k.issue + k.win))
      ∧ Same [.calls, .engines] s u))
    ∧ (k.grace ≠ 0 → k.expired = true → k.killed = false → Runs (.callGraceExpiry d c) s (fun u =>
      rdF u (sm d c 0x10) 0 4 = 7 ∧ rdB u (sm d c 0x10) 63 = true ∧ rd u (sm d c 0x28) = satInc (rd s (sm d c 0x28))
      ∧ (∃ n, openCall u d c = some n ∧ n.killed = true) ∧ (∀ i < 64, liveOf u d c i = [])
      ∧ Same [.calls, .regs, .port, .threads, .resv, .sigOps, .freeIx] s u)))

/-- R236, R239, R244 to R246: a set issues an instruction in its threads at the lowest pc: they read their own registers, go on,
and nothing happens to the others; loads and stores reach the local window; what is not defined kills the call. What is the
model's own choice in it is in log entries 8, 38 and 41. -/
def Obligations.SetModeInstructions : Prop :=
  ∀ (s : State) (d : ADie) (c : Cluster) (slot : SlotIx) (i : SetIssue) (w : W32) (cycles : W64),
    setIssue s d c slot = some i → i.instr = some w →
    let gone (u : State) : Prop :=
      (∀ k, k ∉ i.keys → thread u k = thread s k) ∧ rd u (sm d c 0x30) = satInc (rd s (sm d c 0x30))
    (setRow w = .plain → (∀ k ∈ i.keys, ∃ h, ∀ env, rvExec env w (thread s k) = .ok h) →
      Runs (.setInstruction d c slot cycles []) s (fun u => gone u ∧ RegsBut [sm d c 0x30] s u ∧ Same [.threads, .regs] s u
        ∧ ∀ k ∈ i.keys, ∃ h, (∀ env, rvExec env w (thread s k) = .ok h) ∧ thread u k = retired h))
    ∧ (rvOp w = 0x13 → rvF3 w = 0 → Runs (.setInstruction d c slot cycles []) s (fun u => gone u ∧ ∀ k ∈ i.keys,
        let h := thread s k
        thread u k = retired (h.put (rvRd w) (h.rx (rvRs1 w) + BitVec.signExtend 64 (BitVec.ofNat 12 (fld w 20 12))))))
    ∧ (rvOp w = 0x73 → rvF3 w = 2 → rvRs1 w = 0 → fld w 20 12 = 0xC01 → Runs (.setInstruction d c slot cycles []) s (fun u =>
        gone u ∧ ∀ k ∈ i.keys, thread u k = retired ((thread s k).put (rvRd w) (BitVec.ofNat 64 (dieNow s d)))))
    ∧ (rvOp w = 0x7F → Runs (.setInstruction d c slot cycles []) s (fun u => rdF u (sm d c 0x10) 0 4 = 1
        ∧ rd u (sm d c 0x18) = (thread s (i.keys.headD 0)).pc ∧ rd u (sm d c 0x20) = BitVec.setWidth 64 w
        ∧ (∃ n, openCall u d c = some n ∧ n.killed = true) ∧ (∀ i < 64, liveOf u d c i = []) ∧ u.mem = s.mem))
    ∧ (setRow w = .memory → memIsStore w = false →
        (∀ k ∈ i.keys, (localOff s d c (memAddr w (thread s k)) (memSize w)).isSome = true) →
        Runs (.setMemoryAccess d c slot) s (fun u => gone u ∧ RegsBut [sm d c 0x30, sm d c 0x38] s u ∧ Same [.threads, .regs] s u
          ∧ ∀ k ∈ i.keys, thread u k = retired (loadInto w (thread s k)
            (rdNat s (winBase d c + (memAddr w (thread s k) - localBase)) (memSize w)))))
    ∧ (∀ k o, setRow w = .memory → memIsStore w = true → i.keys = [k] →
        localOff s d c (memAddr w (thread s k)) (memSize w) = some o →
        Runs (.setMemoryAccess d c slot) s (fun u => gone u ∧ thread u k = retired (thread s k).step
          ∧ rdBytes u (winBase d c + o) (memSize w)
            = leBytes (memSize w) (if rvOp w = 0x27 then (thread s k).rf (rvRs2 w) else (thread s k).rx (rvRs2 w)).toNat
          ∧ (∀ b, b < winBase d c + o ∨ winBase d c + o + memSize w ≤ b → rdByte u b = rdByte s b)
          ∧ RegsBut [sm d c 0x30, sm d c 0x38] s u ∧ Same [.threads, .regs, .mem, .poisoned, .resv] s u))
    ∧ (setRow w = .prefetch → (∀ k ∈ i.keys, localBase ≤ (memAddr w (thread s k))) →
        Runs (.smPrefetch d c slot) s (fun u => gone u ∧ (∀ k ∈ i.keys, thread u k = retired (thread s k).step)
          ∧ RegsBut [sm d c 0x30, sm d c 0x38] s u ∧ Same [.threads, .regs] s u))

/-- R242, R252 to R254: a thread waits at a barrier until every live thread of its figure does; an exit takes threads away, and
the figure ends with its last; SM.ACCRD reads a plane entry. What is the model's own choice in it is log entry 41. -/
def Obligations.SetModeFigures : Prop :=
  ∀ (s : State) (d : ADie) (c : Cluster) (slot : SlotIx) (i : SetIssue) (w : W32),
    (setIssue s d c slot = some i → i.instr = some w →
      (setRow w = .barrier → (∃ x ∈ figureLive s d c slot i.call, x ∉ i.keys ∧ (thread s x).block = .none) →
        Runs (.smBarrier d c slot) s (fun u => (∀ k, k ∉ i.keys → thread u k = thread s k)
          ∧ (∀ k ∈ i.keys, thread u k = retired { (thread s k).step with block := .barrier (fld w 20 2) })
          ∧ RegsBut [sm d c 0x30] s u ∧ Same [.threads, .regs] s u))
      ∧ (setRow w = .exit → (∀ x ∈ figureLive s d c slot i.call, x ∈ i.keys) → (i.call.seatOf slot).isSome = true →
        Runs (.smExit d c slot) s (fun u => (∀ k, k ∉ i.keys → thread u k = thread s k) ∧ (∀ k ∈ i.keys, (thread u k).live = false)
          ∧ (∃ n, openCall u d c = some n ∧ n.figDone = i.call.figDone + 1
              ∧ (∀ x ∈ n.seats, x.seat = slot / i.call.fsets → x.ended = true))
          ∧ rdF u (sm d c 0) 16 24 = (i.call.figDone + 1) % 2 ^ 24 ∧ RegsBut [sm d c 0, sm d c 0x30] s u
          ∧ Same [.threads, .regs, .resv, .calls, .sigOps] s u))
      ∧ (setRow w = .accrd → (∀ k ∈ i.keys, ((thread s k).rx (rvRs1 w)).toNat < 65536) →
        Runs (.smAccrd d c slot) s (fun u => (∀ k, k ∉ i.keys → thread u k = thread s k)
          ∧ (∀ k ∈ i.keys, ∀ q ix, ((thread s k).rx (rvRs1 w)).toNat = 16384 * q + ix → ix < 16384 →
              let cl := cellAt s d q ix
              (fld w 20 2 = 2 → planeMode s d q = 3 → (thread u k).rx (rvRd w) = if rvRd w = 0 then 0 else BitVec.setWidth 64 cl.l)
              ∧ (fld w 20 2 = 3 → planeMode s d q = 3 → rvRd w ≠ 0 →
                  (thread u k).rx (rvRd w) = BitVec.ofNat 64 (cl.l.toNat / 2 ^ 64 + if cl.sat then 2 ^ 32 else 0))
              ∧ (fld w 20 2 ≤ 1 → rvRd w ≠ 0 → (thread u k).rx (rvRd w)
                  = BitVec.ofNat 64 (accVal (planeMode s d q) (planeAnchor s d q) (fld w 20 2) cl).1)
              ∧ (thread u k).pc = (thread s k).pc + 4)
          ∧ Same [.threads, .regs] s u)))
    ∧ (∀ k id, openCall s d c = some k → figureLive s d c slot k ≠ [] →
        (∀ x ∈ figureLive s d c slot k, (thread s x).block = .barrier id) →
        Runs (.barrierRelease d c slot) s (fun u => (∀ x, x ∉ figureLive s d c slot k → thread u x = thread s x)
          ∧ (∀ x ∈ figureLive s d c slot k, thread u x = { thread s x with block := .none }) ∧ Same [.threads] s u))

/-- R247 to R251: ordered operations of the threads of a set on the local window: one combined operation for the threads at one
address, in lane order; swaps, reserved pairs, compares and sums of one thread. What is the model's own choice in it is in
log entries 8, 39 and 124. -/
def Obligations.SetModeOrderedOperations : Prop :=
  ∀ (s : State) (d : ADie) (c : Cluster) (slot : SlotIx) (i : SetIssue) (w : W32) (k m o : Nat),
    setIssue s d c slot = some i → i.instr = some w →
    let a := amoAddr w (thread s k)
    let n := amoSize w
    let place := winBase d c + o
    let old := rdNat s place n
    let given (j : Nat) : Nat := ((thread s j).rx (rvRs2 w)).toNat % 2 ^ (8 * n)
    let stays (u : State) : Prop := (∀ j, j ∉ i.keys → thread u j = thread s j)
      ∧ (∀ b, b < place ∨ place + n ≤ b → rdByte u b = rdByte s b)
      ∧ Same [.threads, .regs, .port, .calls, .mem, .poisoned, .resv] s u
    a % n = 0 → localOff s d c a n = some o →
    (setRow w = .combine → i.keys = [k, m] → k ≠ m → amoAddr w (thread s m) = a → Runs (.setAmoCombine d c slot) s (fun u =>
      rdNat u place n = amoNat w (amoNat w old (given k)) (given m)
      ∧ thread u k = retired ((thread s k).put (rvRd w) (amoOld w old))
      ∧ thread u m = retired ((thread s m).put (rvRd w) (amoOld w (amoNat w old (given k))))
      ∧ rd u (sm d c 0x40) = satInc (rd s (sm d c 0x40)) ∧ rd u (sm d c 0x48) = satAdd (rd s (sm d c 0x48)) 1 ∧ stays u))
    ∧ (i.keys = [k] →
      (setRow w = .fadd → Runs (.smFadd d c slot) s (fun u =>
        let f : Fmt := if rvF3 w = 2 then .fp32 else .fp64
        let sum := deliver f .rne (addV (decodeF f old) (decodeF f (given k)))
        rdNat u place n = sum.1 ∧ thread u k = retired (((thread s k).put (rvRd w) (amoOld w old)).accrue (toFflags sum.2)) ∧ stays u))
      ∧ (setRow w = .serial → fld w 27 5 = 1 → Runs (.setSerialAtomic d c slot) s (fun u =>
        rdNat u place n = given k ∧ thread u k = retired ((thread s k).put (rvRd w) (amoOld w old)) ∧ stays u))
      ∧ (setRow w = .serial → fld w 27 5 = 2 → Runs (.setSerialAtomic d c slot) s (fun u =>
        u.mem = s.mem ∧ thread u k = retired ((thread s k).put (rvRd w) (amoOld w old)) ∧ (k, place / 8) ∈ u.resv ∧ stays u))
      ∧ (setRow w = .serial → fld w 27 5 = 3 → (k, place / 8) ∈ s.resv → Runs (.setSerialAtomic d c slot) s (fun u =>
        rdNat u place n = given k ∧ thread u k = retired ((thread s k).put (rvRd w) 0) ∧ (∀ r ∈ u.resv, r.1 ≠ k) ∧ stays u))
      ∧ (setRow w = .serial → fld w 27 5 = 3 → (k, place / 8) ∉ s.resv → Runs (.setSerialAtomic d c slot) s (fun u =>
        u.mem = s.mem ∧ thread u k = retired ((thread s k).put (rvRd w) 1) ∧ (∀ r ∈ u.resv, r.1 ≠ k) ∧ stays u))
      ∧ (setRow w = .cas → Runs (.smCas d c slot) s (fun u =>
        rdNat u place n = (if old = ((thread s k).rx (rvRd w)).toNat % 2 ^ (8 * n) then given k else old)
        ∧ thread u k = retired ((thread s k).put (rvRd w) (amoOld w old)) ∧ stays u)))

/-- R243: a thread's signal operations leave for the signal's host, and rd takes the old value when it comes, while the thread
goes on; a wait on a signal of this die goes on or blocks its thread; a number that no signal of the package has kills the
call. What is the model's own choice in it is log entry 39. -/
def Obligations.SetModeSignals : Prop :=
  ∀ (s : State) (d : ADie) (c : Cluster) (slot : SlotIx) (i : SetIssue) (w : W32) (k : Nat),
    setIssue s d c slot = some i → i.instr = some w → i.keys = [k] →
    let h := thread s k
    let n := (h.rx (rvRs1 w)).toNat
    let x := h.rx (rvRs2 w)
    let others (u : State) : Prop := ∀ j, j ≠ k → thread u j = thread s j
    (∀ a ∈ [(Instr.smSigSet d c slot, 0), (Instr.smSigAdd d c slot, 1)], setRow w = .sig a.2 →
      (n < 16384 → Runs a.1 s (fun u =>
        u.sigOps = s.sigOps ++ [{ sig := n, add := decide (a.2 = 1), value := x, order := none
                                  asker := if rvRd w = 0 then 0 else 3, askId := 32 * k + rvRd w, setMode := true }]
        ∧ thread u k = retired { h.step with awaits := if rvRd w = 0 then h.awaits else rvRd w :: h.awaits } ∧ others u
        ∧ Same [.threads, .regs, .port, .calls, .sigOps] s u))
      ∧ (16384 ≤ n → Runs a.1 s (fun u => rdF u (sm d c 0x10) 0 4 = 5 ∧ (∃ q, openCall u d c = some q ∧ q.killed = true)
        ∧ u.sigOps = s.sigOps)))
    ∧ (∀ a ∈ [(Instr.smSigWaitGe d c slot, 0), (Instr.smSigWaitEq d c slot, 1), (Instr.smSigWaitMask d c slot, 2)],
      setRow w = .sig (a.2 + 2) → n < 16384 → n / 2048 = d.val → Runs a.1 s (fun u =>
        let v := sigVal s n
        let holds := (a.2 = 0 ∧ x.toNat ≤ v.toNat) ∨ (a.2 = 1 ∧ v = x) ∨ (a.2 = 2 ∧ v &&& x = x)
        (holds → thread u k = retired (h.put (rvRd w) v))
        ∧ (¬ holds → thread u k = retired { h.step with block := .signal a.2 n x (rvRd w) none })
        ∧ others u ∧ RegsBut [sm d c 0x30] s u ∧ Same [.threads, .regs] s u))

/-- R143, R178, R506, R517, R588, R589: a residue mismatch in a cube or a lane in service marks it, records and notices the first
since ARM_JOB, and fails the job, beside what the order or set-mode operation does without it; a later one of the job is
marked too. What is the model's own choice in it is in log entries 44 and 89. -/
def Obligations.ResidueMismatchFailsTheJob : Prop :=
  ∀ (s v : State) (d : ADie) (c : Cluster) (issue : BitVec 24) (ops : BitVec 96) (row col row2 col2 : Fin 33) (l : Fin 1056)
    (slot : SlotIx) (cycles : W64),
    jobLive s = true →
    (canIssue s d 0 (mkOrder 0x40 issue ops) = true → exec (.maMma d issue ops []) s = .next v → jobLive v = true →
      row.val ≠ rdF v (ma d 0x10) 0 6 → col.val ≠ rdF v (ma d 0x10) 8 6 → (eng v d 0).mismatched = false →
      Runs (.maMma d issue ops [(row, col)]) s (fun u =>
        Store.get (fun _ => false) u.marks (cubeMark d row col) = true ∧ (eng u d 0).mismatched = true
        ∧ rd u (ma d 0x50) = BitVec.ofNat 64 (row + 2 ^ 8 * col + 2 ^ 16 * issue.toNat + 2 ^ 63) ∧ rdB u (ma d 0x60) 0 = true
        ∧ u.job.state = .failed ∧ u.job.linkKey = v.job.linkKey
        ∧ Same [.marks, .engines, .regs, .port, .job, .mgmt] v u)
      ∧ (row2.val ≠ rdF v (ma d 0x10) 0 6 → col2.val ≠ rdF v (ma d 0x10) 8 6 →
        Runs (.maMma d issue ops [(row, col), (row2, col2)]) s (fun u =>
          Store.get (fun _ => false) u.marks (cubeMark d row col) = true
          ∧ Store.get (fun _ => false) u.marks (cubeMark d row2 col2) = true
          ∧ rd u (ma d 0x50) = BitVec.ofNat 64 (row + 2 ^ 8 * col + 2 ^ 16 * issue.toNat + 2 ^ 63) ∧ u.job.state = .failed
          ∧ Same [.marks, .engines, .regs, .port, .job, .mgmt] v u)))
    ∧ (let found (u : State) (at' : Nat) : Prop :=
        Store.get (fun _ => false) u.marks (laneMark d c l) = true ∧ (eng u d (1 + c)).mismatched = true
        ∧ rd u (vc d c 0x60) = BitVec.ofNat 64 (l + 2 ^ 16 * at' + 2 ^ 63) ∧ rdB u (vc d c 0x68) 0 = true
        ∧ u.job.state = .failed ∧ u.job.linkKey = v.job.linkKey
        ∧ Same [.marks, .engines, .regs, .port, .job, .mgmt] v u
       jobLive v = true → laneOut v d c l = false → (eng v d (1 + c)).mismatched = false →
       (canIssue s d (1 + c) (mkOrder 0x83 issue ops) = true → exec (.vadd d c issue ops []) s = .next v →
        Runs (.vadd d c issue ops [l]) s (fun u => found u issue.toNat))
       ∧ (canIssue s d (1 + c) (mkOrder 0xB0 issue ops) = true → exec (.vgather d c issue ops []) s = .next v →
        Runs (.vgather d c issue ops [l]) s (fun u => found u issue.toNat))
       ∧ (∀ i, setIssue s d c slot = some i → exec (.setInstruction d c slot cycles []) s = .next v →
        Runs (.setInstruction d c slot cycles [l]) s (fun u => found u i.call.issue)))

/-- R267, R268, R270, R273: the orders of the update sequencer put their fields or their rule row in flight; an UP_APPLY keeps
the row and asks for its window, or fails the job; the window opens on every engine that it names; rule rows are written
before right-away only. What is the model's own choice in it is in log entries 9 and 88. -/
def Obligations.UpdateOrdersAndWindow : Prop :=
  ∀ (s : State) (d : ADie) (issue : BitVec 24) (ops : BitVec 96) (j : BitVec 6) (w : BitVec 4) (v : W64),
    let c := issue.toNat
    let field (t ix lo len : Nat) : WriteOp := { time := t, issue := c, put := .cfg ix (fld ops lo len) }
    let base (u : State) : Prop := IssuedAt u d 14 c ∧ OtherEngines s u d 14 ∧ Same [.engines] s u
    let may (op : Nat) : Prop := canIssue s d 14 (mkOrder op issue ops) = true
    (Quiet s d 14 c →
      (may 0xE0 → Runs (.upAddr d issue ops) s (fun u => base u ∧ (eng u d 14).writes = (eng s d 14).writes ++ [field (c + 1) (fld ops 0 2) 32 52]))
      ∧ (may 0xE1 → Runs (.upShape d issue ops) s (fun u => base u ∧ (eng u d 14).writes = (eng s d 14).writes
          ++ [field (c + 1) 4 0 20, field (c + 1) 5 20 16, field (c + 1) 6 36 1, field (c + 1) 7 37 1, field (c + 1) 8 38 2,
            field (c + 1) 9 40 1, field (c + 1) 10 41 22]))
      ∧ (may 0xE2 → Runs (.upRule d issue ops) s (fun u => base u ∧ (eng u d 14).writes = (eng s d 14).writes ++ (upTo 16).map (fun i =>
          { time := c + 8, issue := c, put := .reg (up d (0x1000 + 128 * fld ops 0 6 + 8 * i)) (BitVec.ofNat 64
              (rdNat s (winBase d (fld ops 6 3) + fld ops 9 20 * 32 + 8 * i) 8)) })))
      ∧ (let row := (upTo 16).flatMap (fun i => leBytes 8 (rd s (up d (0x1000 + 128 * fld ops 0 6 + 8 * i))).toNat)
         let q : Upd := { die := d, issue := c, order := mkOrder 0xE3 issue ops, rule := row, cfg := usCfg s d, opened := false
                          openedAt := 0, marks := [], expired := false, ended := false, bad := false }
         may 0xE3 → (ruleOk q = true → Runs (.upApply d issue ops) s (fun u => (eng u d 14).cycle = c - 1 ∧ (eng u d 14).next = c + 1
            ∧ (eng u d 14).hold = some .opening ∧ u.upds = s.upds ++ [q] ∧ OtherEngines s u d 14 ∧ RegsBut [tt d 0] s u ∧ Same [.engines, .regs, .upds] s u))
         ∧ (ruleOk q = false → jobLive s = true → Runs (.upApply d issue ops) s (fun u => u.job.state = .failed
            ∧ rdB u (up d 0x38) 2 = true ∧ (eng u d 14).hold = none ∧ u.mem = s.mem
            ∧ Same [.engines, .regs, .upds, .port, .job, .mgmt] s u))))
    ∧ (∀ q, s.upds = [q] → q.die = d.val → q.opened = false → q.bad = false → ttState s d = 4 → s.calls = [] →
      (∀ e ∈ upEngines q, (q.issue ≤ (eng s d e).cycle ∨ mayReach s d e q.issue = true) ∧ Quiet s d e q.issue) →
      Quiet s d 14 ((eng s d 14).next - 1) →
      Runs (.updateWindowOpen d false) s (fun u => (eng u d 14).hold = none
        ∧ u.upds = [{ q with opened := true, openedAt := dieNow s d, marks := upMarks s q }]
        ∧ (∀ e ∈ upEngines q, (eng u d e).cycle = max (eng s d e).cycle q.issue)
        ∧ (0 < (upMarks s q).getD 0 0 → readReg u (up d 0) = BitVec.ofNat 64 (3 + 8 * fld q.order 38 8)) ∧ RegsBut [tt d 0] s u
        ∧ Same [.engines, .regs, .upds] s u))
    ∧ (∀ q, s.upds = [q] → q.die = d.val → q.issue = c → q.opened = true →
      (q.ended = false → Runs (.updateWindowExpiry d issue) s (fun u => u.upds = [{ q with expired := true }] ∧ Same [.upds] s u))
      ∧ (q.ended = true → Runs (.updateWindowExpiry d issue) s (fun u => u.upds = []
        ∧ u.sigOps = (if bitOf q.order 84 then s.sigOps ++ [addOne d 14 (fld q.order 70 14)] else s.sigOps)
        ∧ Same [.upds, .sigOps] s u)))
    ∧ ((s.job.state = .arming ∨ s.job.state = .armed) → Runs (.upRuleWrite d j w v) s (fun u =>
      rd u (up d (0x1000 + 128 * j.toNat + 8 * w.toNat)) = v ∧ RegsBut [up d (0x1000 + 128 * j.toNat + 8 * w.toNat)] s u
      ∧ Same [.regs] s u))
    ∧ (s.job.state ≠ .arming → s.job.state ≠ .armed → Runs (.upRuleWrite d j w v) s (fun u =>
      rd u (up d 0x30) = satInc (rd s (up d 0x30)) ∧ Raised s u d 0xB000038 3 ∧ RegsBut ([up d 0x30, up d 0x38] ++ noticeKeys) s u
      ∧ Same [.regs, .port] s u))

/-- R261, R263, R264, R273: the end of an update of one FP32 weight with its momentum, without mask, mixing or sign rules: each
rounding in the order of R261; the counts; no other byte changes. What is the model's own choice in it is log entry 43. -/
def Obligations.UpdateRecurrence : Prop :=
  ∀ (s : State) (d : ADie) (issue : BitVec 24) (q : Upd) (a b g : Nat),
    s.upds = [q] → q.die = d.val → q.issue = issue.toNat → q.opened = true → q.ended = false → q.expired = false →
    q.cfg = [a, b, g, 0, 0, 0, 0, 0, 0, 0, 0] → leAt q.rule 32 1 = 0 → leAt q.rule 33 1 = 0 → fld q.order 38 8 = 0 →
    (a + 4 ≤ b ∨ b + 4 ≤ a) →
    let coef (i : Nat) : Nat := leAt q.rule (4 * i) 4
    let sgn := if (rdByte s g).toNat % 2 = 1 then minusOne32 else one32
    let m0 := (convV .fp32 .rne (val32 (rdNat s b 4))).1
    let w0 := (convV .fp32 .rne (val32 (rdNat s a 4))).1
    let m := (fma32 (coef 0) m0 (mul32 (coef 1) sgn).1).1
    let step := (fma32 (coef 2) m (mul32 (coef 3) sgn).1).1
    let rho := (add32 one32 (neg32 (mul32 (coef 4) (coef 5)).1)).1
    let w := (fma32 (neg32 (coef 5)) step (mul32 rho w0).1).1
    Runs (.updateEnd d issue false) s (fun u =>
      rdNat u b 4 = (convV .fp32 .rne (val32 m)).1 ∧ rdNat u a 4 = (convV .fp32 .rne (val32 w)).1
      ∧ (∀ x, (x < a ∨ a + 4 ≤ x) → (x < b ∨ b + 4 ≤ x) → rdByte u x = rdByte s x)
      ∧ u.upds = [{ q with ended := true }] ∧ readReg u (up d 0) = 0 ∧ rd u (up d 0x10) = 1
      ∧ rd u (up d 0x18) = satInc (rd s (up d 0x18)) ∧ rd u (up d 0x20) = satAdd (rd s (up d 0x20)) 1 ∧ rdB u (up d 0x38) 0 = true
      ∧ Same [.mem, .poisoned, .resv, .upds, .regs, .port] s u)

/-- R284, R285, R288, R290, R292, R293, R299, R534, R100: a memory slot of a track is withheld by the duty, or goes to a rebuild
step that is due, the granted operation in progress, the booked grant, a delayed booked operation, or the oldest unbooked one
with the reads that share it; the operation keeps its claim for the rest of its slots; a grant that misses its slot waits.
R289, R296, R297, R299, R305: refresh goes round the storage; a channel that does not answer fails, and its slot is rebuilt
onto a free spare or the device fails; a lost data sector of a row is restored from its check and its other data sectors
(R286, R287, R298); a rebuild step that is due restores the next row, and the last row puts the spare in the slot; the margin
sweep runs in MAINTENANCE and leaves its result. What is the model's own choice in it is in log entries 53, 54, 55, 71, 127,
128, 129 and 137. -/
def Obligations.BamkanTracks : Prop :=
  (∀ (s : State) (n : StackIx) (t : Fin 32) (granted : Option BkOp) (arrive : List BkOp),
    let k := trackKey n t
    let all := unbooked s n t ++ arrive.filter (onTrack s n t)
    let late := Store.get (fun _ => []) s.bkLate k
    let b := bkBusy s n t
    let g := (useGrant s n t granted).1
    let kept : List Part := [.bkQueue, .bkFeed, .bkGranted, .rebuildSlots, .slotWinner]
    let won (u : State) : Nat := Store.get (fun _ => 0) u.rebuildWon k
    let waits (u : State) (q l : List BkOp) : Prop := Store.get (fun _ => []) u.bkQueue k = q
      ∧ Store.get (fun _ => []) u.bkFeed k = all.drop 64 ∧ Store.get (fun _ => []) u.bkLate k = l
    let missed (u : State) : Prop := waits u (all.take 64) (late ++ g.toList)
      ∧ rd u (bkS n 0x30) = (if g.isSome then satInc (rd s (bkS n 0x30)) else rd s (bkS n 0x30))
    let plain (o : BkOp) : Prop := bkRecon s n t o = false ∧ bkUe s n t o = 0 ∧ o.kind ≠ .partialWrite
    let served (u : State) (o : BkOp) : Prop :=
      (o.kind ≠ .blockWrite → rd u (bkS n 0x18) = satAdd (rd s (bkS n 0x18)) (bkSectors (bkCe s n t o)))
      ∧ RegsBut [bkS n 0x18] s u ∧ Same (kept ++ [.regs, .bkBusy, .bkLate]) s u
    (∀ o ix, granted = some o → memSlot s (n / 4) = some ix → onTrack s n t o = true →
      let x := Store.get (fun _ => (0, 0)) s.bkGranted (n / 4)
      (if x.1 = ix + 1 then x.2 else 0) < slotGrants s (n / 4) ix → g = some o)
    ∧ (slotWithheld s (n / 4) = true → Runs (.bamkanSlot n t granted arrive) s (fun u => u.slotWinner = 0 ∧ missed u
        ∧ bkBusy u n t = b ∧ (g = none → Same kept s u)))
    ∧ (slotWithheld s (n / 4) = false → stepDue s n t = true → Runs (.bamkanSlot n t granted arrive) s (fun u =>
        u.slotWinner = 1 ∧ missed u ∧ won u = won s + 1 ∧ bkBusy u n t = b ∧ (g = none → Same (.rebuildWon :: kept) s u)))
    ∧ (slotWithheld s (n / 4) = false → stepDue s n t = false →
      (0 < b.granted → Runs (.bamkanSlot n t granted arrive) s (fun u => u.slotWinner = 5 ∧ missed u
        ∧ bkBusy u n t = { b with granted := b.granted - 1 } ∧ (g = none → Same (.bkBusy :: kept) s u)))
      ∧ (b.granted = 0 →
        (∀ o, g = some o → plain o → Runs (.bamkanSlot n t granted arrive) s (fun u => u.slotWinner = 2 ∧ served u o
          ∧ bkBusy u n t = { b with granted := bkCost s n t o - 1, repair := false } ∧ waits u (all.take 64) late))
        ∧ (g = none → 0 < b.late → Runs (.bamkanSlot n t granted arrive) s (fun u => u.slotWinner = 5
          ∧ bkBusy u n t = { b with late := b.late - 1 } ∧ waits u (all.take 64) late ∧ Same (.bkBusy :: kept) s u))
        ∧ (g = none → b.late = 0 → ∀ o rest, late = o :: rest → plain o → Runs (.bamkanSlot n t granted arrive) s (fun u =>
          u.slotWinner = 3 ∧ served u o ∧ bkBusy u n t = { b with late := bkCost s n t o - 1 } ∧ waits u (all.take 64) rest))
        ∧ (g = none → b.late = 0 → late = [] → 0 < b.unbooked → Runs (.bamkanSlot n t granted arrive) s (fun u =>
          u.slotWinner = 5 ∧ bkBusy u n t = { b with unbooked := b.unbooked - 1 } ∧ waits u (all.take 64) []
          ∧ Same (.bkBusy :: kept) s u))
        ∧ (g = none → b.late = 0 → late = [] → b.unbooked = 0 → ∀ o rest, all.take 64 = o :: rest → plain o →
          Runs (.bamkanSlot n t granted arrive) s (fun u => u.slotWinner = 4
            ∧ (shareable s n t o = false → served u o ∧ bkBusy u n t = { b with unbooked := bkCost s n t o - 1 } ∧ waits u rest [])
            ∧ (shareable s n t o = true → (∀ x ∈ (share s n t (bkData o) rest).1, plain x) →
                waits u (share s n t (bkData o) rest).2 [] ∧ bkBusy u n t = b ∧ RegsBut [bkS n 0x18] s u
                ∧ Same (kept ++ [.regs, .bkLate]) s u)))
        ∧ (g = none → b.late = 0 → late = [] → b.unbooked = 0 → all = [] → Runs (.bamkanSlot n t granted arrive) s (fun u =>
          u.slotWinner = 0 ∧ waits u [] [] ∧ bkBusy u n t = b ∧ Same kept s u)))))
  ∧ (∀ (s : State) (n : StackIx) (t : Fin 32) (phys : Fin 296) (row : BitVec 23) (low high : Byte) (v : W64),
    let at' (u : State) (c : Nat) : Nat := Store.get (fun _ => 0) u.refreshAt (n * 512 + c)
    ((liveChannels s n).Nodup → Runs (.bamkanRefresh n) s (fun u =>
      (∀ c < 512, at' u c = if c ∈ liveChannels s n then (at' s c + 1) % 32768 else at' s c) ∧ Same [.refreshAt] s u))
    ∧ (∀ j i, fills s n phys = some (t.val, j) → phys.val < 288 → trackState s n t = .isProtected → freeSpare s n = some i →
      ∀ out, Runs (.channelNoAnswer n [(phys, row)] out) s (fun u => slotState u n t j = 2 ∧ rdF u (bkSpare n i) 0 2 = 1
        ∧ rdF u (bkSpare n i) 2 5 = t.val ∧ rdF u (bkSpare n i) 7 4 = j ∧ rdF u (bkSpare n i) 11 24 = 0
        ∧ Store.get (fun _ => false) u.marks (channelMark n phys) = true ∧ rdB u (bkS n 8) 0 = true
        ∧ rd u (bkS n 0x40) = BitVec.ofNat 64 (row.toNat + 2 ^ 23 * t + 2 ^ 28 * j + 2 ^ 32 * 3 + 2 ^ 63)
        ∧ Store.get (fun _ => 0) u.hist.bkSpares (n * 8 + i) = 1 + 4 * t.val + 128 * j
        ∧ (∀ o, out = [(false, o)] → j < 8 → bitOf (bkData o) j = true → o.kind ≠ .blockWrite → sweptChannel s n = none →
            onTrack s n t o = true → Store.get (fun _ => []) u.bkQueue (trackKey n t) = (o :: unbooked s n t).take 64)
        ∧ (out = [] → Same [.regs, .port, .marks, .lateFlags, .rebuildSlots, .rebuildWon, .hist] s u)))
    ∧ (∀ j, fills s n phys = some (t.val, j) → phys.val < 288 → trackState s n t ≠ .isProtected → s.dev.state ≠ .failed →
      Runs (.channelNoAnswer n [(phys, row)] []) s (fun u => u.dev.state = .failed ∧ (jobLive s = true → u.job.state = .failed)))
    ∧ (∀ i, rebuildSpare s n t = some i → 0 < Store.get (fun _ => 0) s.rebuildWon (trackKey n t) →
      s.dev.state ≠ .failed →
      (rowsDone s n t + 1 < 8388608 → Runs (.rebuildStep n t 0 0) s (fun u => rowsDone u n t = rowsDone s n t + 1
        ∧ Store.get (fun _ => 0) u.rebuildWon (trackKey n t) = Store.get (fun _ => 0) s.rebuildWon (trackKey n t) - 1
        ∧ RegsBut [bkSpare n i, bkS n 0, bkS n 0x10] s u ∧ Same [.regs, .rebuildWon] s u))
      ∧ (rowsDone s n t + 1 = 8388608 → Runs (.rebuildStep n t 0 0) s (fun u =>
        rdF u (bkSlot n t (rdF s (bkSpare n i) 7 4)) 0 11 = 288 + i ∧ rdF u (bkSpare n i) 0 2 = 2 ∧ rebuildSpare u n t ≠ some i
        ∧ rdB u (bkS n 8) 1 = true ∧ u.hist.unitSeq = s.hist.unitSeq + 1
        ∧ Same [.regs, .port, .rebuildSlots, .rebuildWon, .hist] s u)))
    ∧ (s.dev.state ≠ .maintenance → Runs (.marginSweepStart n v) s (fun u => rdB u (bkS n 8) 6 = true
      ∧ RegsBut (bkS n 8 :: noticeKeys) s u ∧ Same [.regs, .port] s u))
    ∧ (s.dev.state = .maintenance → bitOf v 11 = true → rdB s (bkS n 0x48) 11 = false → fld v 12 8 ≠ 0 → fld v 0 9 = phys.val →
      (∃ j, fills s n phys = some (t.val, j)) → phys.val < 288 → (∀ t' < 32, trackState s n t' = .isProtected) →
      (∀ t' < 32, ∀ j' < 9, ∀ t'' < 32, ∀ j'' < 9, rdF s (bkSlot n t' j') 0 9 = rdF s (bkSlot n t'' j'') 0 9 → t' = t'' ∧ j' = j'') →
      Runs (.marginSweepStart n v) s (fun u => rd u (bkS n 0x48) = v &&& 0xFFFFF ∧ rd u (bkS n 0x50) = 0
        ∧ RegsBut [bkS n 0x48, bkS n 0x50] s u ∧ Same [.regs] s u))
    ∧ (rdB s (bkS n 0x48) 11 = true → Runs (.marginSweepDone n low high) s (fun u =>
      rdB u (bkS n 0x48) 11 = false ∧ rdF u (bkS n 0x50) 0 8 = min low.toNat (rdF s (bkS n 0x48) 12 8)
      ∧ rdF u (bkS n 0x50) 8 8 = min high.toNat (rdF s (bkS n 0x48) 12 8) ∧ rdB u (bkS n 0x50) 16 = true
      ∧ u.sweeps = s.sweeps ++ [(n.val, rd u (bkS n 0x48), rd u (bkS n 0x50))] ∧ rdB u (bkS n 8) 5 = true
      ∧ RegsBut ([bkS n 0x48, bkS n 0x50, bkS n 8] ++ noticeKeys) s u ∧ Same [.regs, .port, .sweeps] s u))
    ∧ (∀ (t : Fin 32) (row j : Nat), j < 8 → restored s n t row j = sectorCipher s n t row j))

/-- R313 to R315, R319 to R323: TU_SATP is written while the job is ARMING; a walk counts, and ends with a TLB entry or a fault
record; a key that two dies hold marks both records; a resolve frees its record for those that wait. What is the model's own
choice in it is in log entries 4 and 122. -/
def Obligations.TranslationWalksAndFaults : Prop :=
  ∀ (s : State) (d x : ADie) (e : EngineIx) (va v k : W64) (write window : Bool) (i : BitVec 10),
    (s.job.state = .arming → Runs (.tuSatpWrite d v) s (fun u => rd u (tu d 0) = v ∧ RegsBut [tu d 0] s u ∧ Same [.regs] s u))
    ∧ (s.job.state ≠ .arming → Runs (.tuSatpWrite d v) s (fun u => Raised s u d 0x5000060 3
      ∧ RegsBut (tu d 0x60 :: noticeKeys) s u ∧ Same [.regs, .port] s u))
    ∧ (jobLive s = true → tlbHit s d e va write = none → Runs (.translationWalk d e va write) s (fun u =>
      u.trans.walks = s.trans.walks ++ [{ die := d, engine := e, va := va, write := write }]
      ∧ rd u (tu d 0x30) = satInc (rd s (tu d 0x30)) ∧ RegsBut [tu d 0x30] s u ∧ Same [.trans, .regs] s u))
    ∧ (∀ w, s.trans.walks.find? (fun w => decide (w.die = d.val) && decide (w.engine = e.val)) = some w →
      (∀ l, walk s d w.va w.write = .ok l → tlbHit s d e w.va w.write = none → Runs (.walkComplete d e) s (fun u =>
        u.trans.walks = s.trans.walks.erase w
        ∧ (let x : TlbEntry := { die := d, holder := none, base := w.va.toNat / l.size * l.size, size := l.size, pa := l.base
                                 readable := l.readable, writable := l.writable, global := l.global }
           x ∈ u.trans.tlb ∧ { x with holder := some e.val } ∈ u.trans.tlb
           ∧ (∀ y ∈ u.trans.tlb, y = x ∨ y = { x with holder := some e.val } ∨ y ∈ s.trans.tlb))
        ∧ rd u (tu d 0x30) = rd s (tu d 0x30) ∧ u.mem = s.mem))
      ∧ (∀ c n, walk s d w.va w.write = .error c → tlbHit s d e w.va w.write = none → findRec s d (faultKey s d w.va) false = none →
        (upTo 1024).find? (fun n => !recValid s d n) = some n → Runs (.walkComplete d e) s (fun u =>
          u.trans.walks = s.trans.walks.erase w ∧ rd u (recKey d n 0) = faultKey s d w.va ∧ recValid u d n = true
          ∧ rdF u (recKey d n 1) 0 4 = c ∧ rdB u (recKey d n 1) 5 = w.write ∧ rdB u (recKey d n 1) 4 = !w.write
          ∧ rdB u (recKey d n 1) (8 + e) = true ∧ rd u (recKey d n 2) = now s ∧ rd u (recKey d n 3) = w.va
          ∧ rdF u (tu d 8) 0 11 = (rdF s (tu d 8) 0 11 + 1) % 2048 ∧ rd u (tu d 0x38) = satInc (rd s (tu d 0x38))
          ∧ u.msis = s.msis ++ [(d.val, rd s (tu d 0x10), BitVec.setWidth 32 (rd s (tu d 0x18)))] ∧ u.mem = s.mem)))
    ∧ (∀ a b, (d.val, x.val, k, window) ∈ s.trans.keysSent → findRec s d k window = some a → findRec s x k window = some b →
      Runs (.faultKeyArrival d x k window) s (fun u => rdB u (recKey d a 1) 6 = true ∧ rdB u (recKey x b 1) 6 = true
        ∧ u.trans.keysSent = s.trans.keysSent.erase (d.val, x.val, k, window) ∧ RegsBut [recKey d a 1, recKey x b 1] s u
        ∧ Same [.trans, .regs] s u))
    ∧ (recValid s d i.toNat = true → s.trans.fullHolds = [] → s.trains = [] → s.calls = [] →
      let free (u : State) : Prop := recValid u d i.toNat = false ∧ rd u (recKey d i.toNat 0) = 0
        ∧ rdB u (tu d (0x80 + 8 * (i.toNat / 64))) (i.toNat % 64) = false
      ((∀ c < 8, (eng s d (1 + c)).win = none) → ∀ a ∈ [Instr.tuResolveRetry d i, Instr.tuResolveFatal d i], Runs a s (fun u =>
        free u ∧ RegsBut [recKey d i.toNat 0, recKey d i.toNat 1, recKey d i.toNat 2, recKey d i.toNat 3, tu d 8,
          tu d (0x80 + 8 * (i.toNat / 64))] s u ∧ Same [.regs] s u))
      ∧ (∀ w, (eng s d 1).win = some w → w.wait = some (rd s (recKey d i.toNat 0)) → rdB s (recKey d i.toNat 1) 7 = false →
        (∀ c < 7, (eng s d (2 + c)).win = none) →
        (winFault s d 0 w = none → Runs (.tuResolveRetry d i) s (fun u =>
          free u ∧ (eng u d 1).win = some { w with wait := none } ∧ Same [.engines, .regs] s u))
        ∧ (∀ x, winFault s d 0 w = some x → Runs (.tuResolveRetry d i) s (fun u =>
          (eng u d 1).win = some { w with wait := some (faultKey s d (BitVec.ofNat 64 x.2)) } ∧ u.mem = s.mem))
        ∧ (jobLive s = true → Runs (.tuResolveFatal d i) s (fun u => free u ∧ u.job.state = .failed))))
    ∧ (fld k 0 10 = i.toNat → (fld k 10 2 = 1 ∨ fld k 10 2 = 2) →
      Runs (.registerWrite (Fin.castLE (by decide) d) 0x5000020 8 k 0) s (fun u =>
        exec (if fld k 10 2 = 1 then .tuResolveRetry d i else .tuResolveFatal d i) s = .next u))
    ∧ ((fld k 10 2 = 0 ∨ fld k 10 2 = 3) → Runs (.registerWrite (Fin.castLE (by decide) d) 0x5000020 8 k 0) s (fun u =>
      Raised s u d 0x5000060 2 ∧ RegsBut (tu d 0x60 :: noticeKeys) s u ∧ Same [.regs, .port] s u))
    ∧ (recValid s d i.toNat = false → ∀ a ∈ [Instr.tuResolveRetry d i, Instr.tuResolveFatal d i], Runs a s (fun u =>
      Raised s u d 0x5000060 2 ∧ RegsBut (tu d 0x60 :: noticeKeys) s u ∧ Same [.regs, .port] s u))

/-- R317, R318, R327: a fence removes what it names from every TLB and waits for every unit, SINVAL.VMA does not wait; an
acknowledgement lets the last waiting hart go; window registers are written in every unit before right-away, and a window
fence empties the caches of window entries. What is the model's own choice in it is in log entries 8, 67 and 87. -/
def Obligations.FencesAndWindowRegisters : Prop :=
  ∀ (s : State) (d : ADie) (hart : Fin 144) (va : Option W64) (asid : Option (BitVec 16)) (id : Nat) (recv : Bool) (w : Byte)
      (v : W64),
    let off := (if recv then 0x1800 else 0x1000) + 8 * w.toNat
    let busy (u : State) : Prop := u.trans.tlb = s.trans.tlb.filter (fun e => !fenceHits s va asid e)
      ∧ (∃ f, u.trans.fences = s.trans.fences ++ [f] ∧ f.id = s.trans.nextFence ∧ f.hart = hart.val ∧ f.va = va ∧ f.asid = asid
          ∧ f.pendingDies = 0xFF)
      ∧ (∀ a : ADie, rdB u (tu a 8) 11 = true) ∧ RegsBut ((upTo 8).map (fun a => tu a 8)) s u ∧ Same [.trans, .regs] s u
    (s.trans.waiting.any (fun w => decide (w.1 = hart.val)) = false →
      Runs (.sfenceVma hart va asid) s (fun u => busy u ∧ u.trans.waiting = s.trans.waiting ++ [(hart.val, [s.trans.nextFence])])
      ∧ Runs (.sinvalVma hart va asid) s (fun u => busy u ∧ u.trans.waiting = s.trans.waiting)
      ∧ Runs (.sfenceInvalIr hart) s (fun u => Same [.trans] s u
        ∧ u.trans.waiting = s.trans.waiting ++ (let l := (s.trans.fences.filter (fun f => decide (f.hart = hart.val))).map Fence.id
          if l = [] then [] else [(hart.val, l)])))
    ∧ (∀ f, s.trans.fences = [f] → f.id = id → f.pendingDies.getLsbD d = true → s.scEntries = [] → Runs (.fenceAck d id) s (fun u =>
      (f.pendingDies = BitVec.ofNat 8 (2 ^ d.val) → s.trans.waiting = [(hart.val, [id])] → u.trans.fences = [] ∧ u.trans.waiting = [])
      ∧ (f.pendingDies ≠ BitVec.ofNat 8 (2 ^ d.val) → s.trans.waiting = [(hart.val, [id])] →
          u.trans.waiting = s.trans.waiting ∧ u.trans.fences = [{ f with pendingDies := putBit f.pendingDies d false }])
      ∧ rdB u (tu d 8) 11 = false ∧ rd u (tu d 0x50) = satInc (rd s (tu d 0x50)) ∧ RegsBut [tu d 8, tu d 0x50] s u
      ∧ Same [.trans, .regs] s u))
    ∧ (d.val = 0 → (s.job.state = .idle ∨ s.job.state = .arming) → Runs (.owWindowWrite d recv w v) s (fun u =>
      (∀ x : ADie, rd u (tu x off) = v &&& owMask recv) ∧ RegsBut ((upTo 8).map (fun x => tu x off)) s u ∧ Same [.regs] s u))
    ∧ ((d.val ≠ 0 ∨ (s.job.state ≠ .idle ∧ s.job.state ≠ .arming)) → Runs (.owWindowWrite d recv w v) s (fun u =>
      Raised s u d 0x5000060 3 ∧ RegsBut (tu d 0x60 :: noticeKeys) s u ∧ Same [.regs, .port] s u))
    ∧ (bitOf v 0 = true → Runs (.tuWinfence d v) s (fun u => u.trans.winCache = [] ∧ rdB u (tu d 0x28) 0 = true
      ∧ (∀ x : ADie, rdB u (tu x 8) 12 = true) ∧ RegsBut (tu d 0x28 :: (upTo 8).map (fun x => tu x 8)) s u ∧ Same [.trans, .regs] s u))
    ∧ Runs .winfenceDone s (fun u => (∀ x : ADie, rdB u (tu x 8) 12 = false ∧ rdB u (tu x 0x28) 0 = false)
      ∧ RegsBut ((upTo 8).map (fun x => tu x 8) ++ (upTo 8).map (fun x => tu x 0x28)) s u ∧ Same [.regs] s u)

/-- R17, R31, R251, R302, R330 to R334, R336, R339, R340: a read leaves the line's value as it was and a copy at the reader; a
write leaves its die the only holder, with the bytes merged; a full cache gives up a line; a request in a possession is
refused and logged; a request whose snoops are deferred waits for them; a poisoned block is installed nowhere; a snoop within
16 beats of the data waits, and is answered in its order after them; an evicted owner's data goes to memory. What is the
model's own choice in it is in log entries 27, 28, 121 and 124. -/
def Obligations.CoherentLines : Prop :=
  ∀ (s : State) (d : Fin 12) (line : BitVec 35) (data : BitVec 512) (mask : BitVec 64) (inv ord : Bool),
    let l := line.toNat
    let held := (Store.keysIn s.jlines (jKey d 0) (jKey (d + 1) 0)).map (fun k => k % 2 ^ 35)
    let others (u : State) : Prop := ∀ x y, x < 12 → y ≠ l → y < 2 ^ 35 → jGet u x y = jGet s x y
    let noted (u : State) : Prop := (ord = false → u.calls = s.calls) ∧ (ord = true → ∀ k ∈ u.calls, k.opened = true →
      k.ended = false → ∀ i < 8, fld (BitVec.setWidth 64 mask) (8 * i) 8 ≠ 0 → (8 * l + i, 0, 0) ∈ k.lastOps)
    (64 * l + 64 ≤ unifiedEnd → possessed s (64 * l) 64 = false → blockers s d l inv = [] → poisonedRange s (64 * l) 64 = false →
      (dirGet s l).isSome = true → held.length < jCapacity d ∨ (jGet s d l).moesi ≠ 0 →
      (inv = false → (jGet s d l).moesi = 0 → Runs (.coherentRequest d line false ord data mask) s (fun u =>
        lineValue u l = lineValue s l ∧ (jGet u d l).data = lineValue s l ∧ (jGet u d l).moesi = (if holders s l = [] then 2 else 1)
        ∧ (∀ x < 12, x ≠ d.val → (jGet u x l).moesi ≠ 4 ∧ (jGet u x l).moesi ≠ 2) ∧ others u ∧ noted u
        ∧ Same [.jlines, .dir, .regs, .calls] s u))
      ∧ (inv = true → ((jGet s d l).moesi = 4 ∨ (jGet s d l).moesi = 2 → holders s l = [d.val]) →
        (held.length < jCapacity d ∨ l ∈ held) →
        Runs (.coherentRequest d line true ord data mask) s (fun u => holders u l = [d.val] ∧ (jGet u d l).moesi = 4
          ∧ lineValue u l = maskLine (lineValue s l) data mask ∧ (∀ r ∈ u.resv, r.2 / 8 ≠ l) ∧ others u ∧ noted u
          ∧ Same [.jlines, .dir, .regs, .resv, .calls] s u)))
    ∧ (64 * l + 64 ≤ unifiedEnd → possessed s (64 * l) 64 = false → blockers s d l false = [] → poisonedRange s (64 * l) 64 = false →
      (dirGet s l).isSome = true → jCapacity d ≤ held.length → l ∉ held → Runs (.coherentRequest d line false ord data mask) s
        (fun u => (jGet u d l).moesi ≠ 0 ∧ (jGet u d (held.getD (Config.cacheVictim d held % held.length) 0)).moesi = 0))
    ∧ (64 * l + 64 ≤ unifiedEnd → possessed s (64 * l) 64 = false → poisonedRange s (64 * l) 64 = true → holders s l = [] →
      Runs (.coherentRequest d line false ord data mask) s (fun u => noted u ∧ Same [.calls] s u))
    ∧ (64 * l + 64 ≤ unifiedEnd → possessed s (64 * l) 64 = false → ∀ x more, blockers s d l inv = x :: more →
      Runs (.coherentRequest d line inv ord data mask) s (fun u =>
        u.deferred = s.deferred ++ [{ die := x, line := l, invalidate := inv
                                      req := some { die := d, write := inv, ordered := ord, data := data, mask := mask } }]
        ∧ (∀ y ∈ x :: more, rd u (jn y 0x18) = satInc (rd s (jn y 0x18))) ∧ Same [.regs, .deferred] s u))
    ∧ (64 * l + 64 ≤ unifiedEnd → possessed s (64 * l) 64 = true → Runs (.coherentRequest d line inv ord data mask) s (fun u =>
      let h := homeOf s (64 * l)
      rd u (jn h 0x20) = satInc (rd s (jn h 0x20)) ∧ rdF u (jn h 0x28) 0 41 = 64 * l ∧ rdF u (jn h 0x28) 41 4 = d.val
      ∧ rdB u (jn h 0x28) 63 = true ∧ rdB u (tt h 0x48) 4 = true
      ∧ RegsBut ([jn h 0x20, jn h 0x28, tt h 0x48] ++ noticeKeys) s u ∧ Same [.regs, .port] s u))
    ∧ ((jGet s d l).moesi ≠ 0 ∧ (now s).toNat < (jGet s d l).arrived.toNat + 16 ∨ (∃ q ∈ s.deferred, q.die = d.val ∧ q.line = l) →
      Runs (.snoop d line inv) s (fun u =>
      u.deferred = s.deferred ++ [{ die := d, line := l, invalidate := inv, req := none }] ∧ rd u (jn d 0x18) = satInc (rd s (jn d 0x18))
      ∧ RegsBut [jn d 0x18] s u ∧ Same [.regs, .deferred] s u))
    ∧ (inHold s d l = true → Runs (.snoopDeferExpiry d line) s (fun u => u = s))
    ∧ (inHold s d l = false → ∀ r, s.deferred = [{ die := d, line := l, invalidate := inv, req := some r }] →
      Runs (.snoopDeferExpiry d line) s (fun u => u = coherentRequest { s with deferred := [] } l r))
    ∧ (3 ≤ (jGet s d l).moesi → inHold s d l = false →
      let gone (u : State) : Prop := (jGet u d l).moesi = 0 ∧ memLine u l = (jGet s d l).data
        ∧ (∀ b, b < 64 * l ∨ 64 * l + 64 ≤ b → rdByte u b = rdByte s b) ∧ others u
      ((∀ q ∈ s.deferred, ¬ (q.die = d.val ∧ q.line = l)) → Runs (.snoop d line true) s (fun u =>
        gone u ∧ Same [.jlines, .dir, .regs, .mem] s u))
      ∧ (s.deferred = [{ die := d, line := l, invalidate := true, req := none }] → Runs (.snoopDeferExpiry d line) s (fun u =>
        gone u ∧ u.deferred = [] ∧ Same [.jlines, .dir, .regs, .mem, .deferred] s u)))
    ∧ ((jGet s d l).moesi ≠ 0 → Runs (.lineEviction d line) s (fun u => (jGet u d l).moesi = 0
      ∧ (3 ≤ (jGet s d l).moesi → memLine u l = (jGet s d l).data)
      ∧ (∀ b, b < 64 * l ∨ 64 * l + 64 ≤ b → rdByte u b = rdByte s b) ∧ others u ∧ Same [.jlines, .dir, .regs, .mem] s u))

/-- R337, R338, R343, R345: a host snoop takes a modified line's data to the host; disabling CXL.cache writes the lines back; an
MSI sets the bit of its identity in its file, or is counted. What is the model's own choice in it is in log entries 8, 28, 97
and 121. -/
def Obligations.HostLinesAndMessageInterrupts : Prop :=
  ∀ (s : State) (line : BitVec 58) (h : HostLine) (sender : Fin 9) (a : W64) (data : W32),
    let l := line.toNat
    let back (u : State) : Prop := (h.dirty = true → hostBytes u (64 * l) 64 = leBytes 64 h.data.toNat)
      ∧ (h.dirty = false → u.hostMem = s.hostMem) ∧ Same [.hostMem, .hostLines] s u
    (s.hostLines = [(l, h)] →
      Runs (.snpdata line) s (fun u => back u ∧ u.hostLines = [(l, { h with dirty := false, shared := true })])
      ∧ Runs (.snpinv line) s (fun u => back u ∧ u.hostLines = [])
      ∧ Runs (.snpcur line) s (fun u => u = s)
      ∧ Runs .cxlCacheDisable s (fun u => u.port.cxlCache = false ∧ u.hostLines = []
        ∧ (h.dirty = true → hostBytes u (64 * l) 64 = leBytes 64 h.data.toNat) ∧ Same [.hostMem, .hostLines, .port] s u))
    ∧ Runs .cxlCacheEnable s (fun u => u.port = { s.port with cxlCache := true } ∧ Same [.port] s u)
    ∧ (sender.val ≠ 8 → s.msis.find? (fun m => decide (m.1 = sender.val)) = some (sender.val, a, data) →
      (∀ p, imsicFile a.toNat = some p → 0 < data.toNat → data.toNat < 256 → Runs (.msiDelivery sender) s (fun u =>
        u.msis = s.msis.erase (sender.val, a, data)
        ∧ (Store.get (fun _ => 0) u.imsic (key p.1 p.2)).getLsbD data.toNat = true
        ∧ (∀ k i, (k, i) ≠ (key p.1 p.2, data.toNat) → (Store.get (fun _ => 0) u.imsic k).getLsbD i
            = (Store.get (fun _ => 0) s.imsic k).getLsbD i)
        ∧ Same [.msis, .imsic] s u))
      ∧ (imsicFile a.toNat = none → Runs (.msiDelivery sender) s (fun u => u.msis = s.msis.erase (sender.val, a, data)
        ∧ rd u (ic 8 0x880000) = satInc (rd s (ic 8 0x880000)) ∧ RegsBut [ic 8 0x880000] s u ∧ Same [.msis, .regs] s u)))

/-- R28, R100, R354 to R358, R530: a slot of a bundle goes to its repair, to its grant, to delayed booked data, to T, then to the
first waiting channel; a grant that repair displaces waits; a T message carries the count of the die before it, and the die's
copy takes it with one hop's time; B messages carry demands to X0 and grants back. R350, R361 to R363: a parity mismatch asks
for a replay; a replay that passes is a transient, one that fails starts a probe; the wire that a probe finds is rebuilt from
parity, and moves to the lowest free spare at once when no job runs. What is the model's own choice in it is in log entries
26, 56, 57 and 71. -/
def Obligations.ChawenSlotsAndWires : Prop :=
  (∀ (s : State) (src dst d : Die) (k : Fin 8) (q : Fin 4) (booked : Option (Option (ADie × Fin 4 × BitVec 24))) (claims : BitVec 9)
      (a : Fin 12) (r : PowerReport) (msg : BitVec 256),
    let l := (src.val, dst.val)
    let top := k.val + 1 = linkWidth src dst
    let granted := cwGranted s src dst k q
    let takes (u : State) (w : Nat) : Prop := u.slotWinner = w ∧ Same [.slotWinner] s u
    (tParent dst = some src.val → l ∉ s.cw.due → Runs (.tMessageDue src dst) s (fun u =>
      u.cw = { s.cw with due := s.cw.due ++ [l] } ∧ Same [.cw] s u))
    ∧ (linkWidth src dst ≤ k.val → Runs (.chawenSlot src dst k q booked claims) s (fun u => u = s))
    ∧ (k.val < linkWidth src dst → cwRepairing s src dst k = true →
      (granted = false ∨ booked = none → Runs (.chawenSlot src dst k q booked claims) s (fun u => takes u 9))
      ∧ (granted = true → ∀ o, booked = some o → Runs (.chawenSlot src dst k q booked claims) s (fun u => u.slotWinner = 9
        ∧ cwDelayed u src dst = cwDelayed s src dst ++ [match o with
          | some x => trainOwner x.1 x.2.1 x.2.2.toNat
          | none => 0]
        ∧ (o = none → dst.val < 8 → bitOf (Store.get (fun _ => 0) u.lateFlags dst) 6 = true)
        ∧ Same [.slotWinner, .cw, .lateFlags, .engines, .regs, .port] s u)))
    ∧ (k.val < linkWidth src dst → cwRepairing s src dst k = false →
      (granted = true → Runs (.chawenSlot src dst k q booked claims) s (fun u => takes u 3))
      ∧ (granted = false →
        (∀ o rest, cwDelayed s src dst = o :: rest → Runs (.chawenSlot src dst k q booked claims) s (fun u =>
          u.slotWinner = 4 ∧ cwDelayed u src dst = rest ∧ Same [.slotWinner, .cw] s u))
        ∧ (cwDelayed s src dst = [] →
          (top → l ∈ s.cw.due → Runs (.chawenSlot src dst k q booked claims) s (fun u => u.slotWinner = 1
            ∧ u.cw = { s.cw with due := s.cw.due.erase l
                                 fly := s.cw.fly ++ [(src.val, dst.val, copyOf s src, 256 * (now s).toNat)] }
            ∧ Same [.slotWinner, .cw] s u))
          ∧ (top → l ∉ s.cw.due → bitOf claims 2 = true → Runs (.chawenSlot src dst k q booked claims) s (fun u => takes u 2))
          ∧ (¬ top ∨ (l ∉ s.cw.due ∧ bitOf claims 2 = false) → Runs (.chawenSlot src dst k q booked claims) s (fun u =>
            takes u (if bitOf claims 5 then 5 else if bitOf claims 6 then 6 else if bitOf claims 7 then 7
              else if bitOf claims 8 then 8 else 0))))))
    ∧ (∀ m, s.cw.fly.find? (fun m => decide (m.2.1 = d.val)) = some m → d.val ≠ 12 → Runs (.tMessage d) s (fun u =>
      u = { advance s (BitVec.ofNat 64 ((m.2.2.2 + 896) / 256)) with cw := u.cw }
      ∧ copyOf u d = m.2.2.1 + 896 + (256 * (now u).toNat - (m.2.2.2 + 896)) ∧ u.cw.fly = s.cw.fly.erase m
      ∧ (∀ e, e ≠ d.val → Store.get (fun _ => (0, 0)) u.cw.copies e = Store.get (fun _ => (0, 0)) s.cw.copies e)))
    ∧ Runs (.bMessageDue a r) s (fun u => rdF u (pw a 0x10) 0 16 = r.dem1.toNat ∧ rdF u (pw a 0x10) 16 16 = r.dem2.toNat
      ∧ rdF u (pw a 0x10) 32 16 = r.dem3.toNat ∧ (pwGet u a).floor1 = r.floor1.toNat ∧ (pwGet u a).floor2 = r.floor2.toNat
      ∧ (pwGet u a).floor3 = r.floor3.toNat ∧ RegsBut [pw a 0x10] s u ∧ Same [.regs, .power] s u
      ∧ (let m := (pwGet u a).sent
         fld m 0 8 = a ∧ fld m 8 8 = 1 ∧ fld m 16 16 = s.power.period % 65536 ∧ fld m 32 16 = r.dem1.toNat ∧ fld m 48 16 = r.dem2.toNat
         ∧ fld m 64 16 = r.dem3.toNat ∧ fld m 80 16 = r.measured.toNat
         ∧ fld m 96 16 = (r.floor1.toNat + r.floor2.toNat + r.floor3.toNat) % 65536
         ∧ fld m 112 8 = max (rdF s (pw a 0) 16 8) (rdF s (pw a 0) 24 8)
         ∧ (bitOf m 120 = true ↔ (pwGet s a).drooping = true ∨ (pwGet s a).drooped = true) ∧ bitOf m 121 = rdB s (pw a 0) 14))
    ∧ (fld msg 0 8 < 12 → fld msg 8 8 = 1 → d.val = 12 → Runs (.bMessage d msg) s (fun u =>
      pwGet u (fld msg 0 8) = { pwGet s (fld msg 0 8) with dem1 := fld msg 32 16, dem2 := fld msg 48 16, dem3 := fld msg 64 16 }
      ∧ Same [.power] s u))
    ∧ (d.val < 12 → fld msg 0 8 = d.val → fld msg 8 8 = 2 → Runs (.bMessage d msg) s (fun u =>
      pwGet u d = { pwGet s d with arrived := some (fld msg 32 16, fld msg 48 16, fld msg 64 16), arrivedIn := s.power.period }
      ∧ Same [.power] s u)))
  ∧ (∀ (s : State) (d : Fin 12) (e : Fin 16) (b : Fin 8) (g : Fin 32) (w : Fin 1024) (p : Fin 4),
    let k := cwKey d e b
    (bundleExists d e b = true → g.val < (freeSpares s d e b).length → cwErased s k = [] → k ∉ s.cw.replays → k ∉ s.cw.probes →
      Runs (.chawenParityMismatch d e b g) s (fun u => u.cw = { s.cw with replays := s.cw.replays ++ [k] }
        ∧ (d.val < 8 → bitOf (Store.get (fun _ => 0) u.lateFlags d) 6 = true) ∧ (8 ≤ d.val → u.lateFlags = s.lateFlags)
        ∧ Same [.cw, .lateFlags] s u))
    ∧ (k ∈ s.cw.replays →
      Runs (.replayArrival d e b true) s (fun u => rd u (cw d 0x10) = satInc (rd s (cw d 0x10))
        ∧ u.cw.replays = s.cw.replays.erase k ∧ u.cw.probes = s.cw.probes ∧ bitOf u.cw.transient d = true
        ∧ (bitOf s.cw.transient d = false → rdB u (cw d 8) 2 = true) ∧ RegsBut ([cw d 0x10, cw d 8] ++ noticeKeys) s u
        ∧ Same [.regs, .cw, .port] s u)
      ∧ Runs (.replayArrival d e b false) s (fun u => rd u (cw d 0x10) = satInc (rd s (cw d 0x10))
        ∧ rd u (cw d 0x18) = satInc (rd s (cw d 0x18)) ∧ u.cw.replays = s.cw.replays.erase k ∧ k ∈ u.cw.probes
        ∧ RegsBut [cw d 0x10, cw d 0x18] s u ∧ Same [.regs, .cw] s u))
    ∧ (k ∈ s.cw.probes → cwErased s k = [] →
      ((s.job.state = .departed ∨ s.job.state = .held) → Runs (.probeDone d e b [w]) s (fun u => cwErased u k = [w.val]
        ∧ rdB u (cwRx d e b) 6 = true ∧ rdF u (cwRx d e b) 7 10 = w.val ∧ u.cw.probes = s.cw.probes.erase k
        ∧ Store.get (fun _ => false) u.marks (wireMark d e b w) = true ∧ rdB u (cw d 8) 0 = true
        ∧ RegsBut ([cw d 0, cw d 8, cwRx d e b] ++ noticeKeys) s u ∧ Same [.regs, .cw, .port, .marks, .lateFlags] s u))
      ∧ (∀ n m r, s.job.state ≠ .departed → s.job.state ≠ .held → freeSpares s d e b = n :: m :: r →
        Runs (.probeDone d e b [w]) s (fun u => cwErased u k = [] ∧ rdF u (cwRepair d e b (n / 4)) (16 * (n % 4)) 16 = w + 2 ^ 15
          ∧ rd u (cw d 0x20) = satInc (rd s (cw d 0x20)) ∧ rdB u (cw d 8) 1 = true
          ∧ Store.get (fun _ => false) u.marks (wireMark d e b w) = true
          ∧ u.hist.unitSeq = s.hist.unitSeq + 1 ∧ Same [.regs, .cw, .port, .marks, .lateFlags, .hist] s u)))
    ∧ (bundleExists d e b = true → Runs (.chawenClockFault d e b p) s (fun u => rdB u (cwRx d e b) (17 + p) = true
      ∧ Raised s u d 0xA000008 3 ∧ RegsBut ([cwRx d e b, cw d 8] ++ noticeKeys) s u ∧ Same [.regs, .port] s u)))

/-- R364 to R366, R564: the test port takes IDCODE, SAMPLE/PRELOAD, which captures and fills the boundary register, and BYPASS
always, and the others only in MAINTENANCE and FAILED once the Guard has opened the gates; until then they act as BYPASS.
What is the model's own choice in it is log entry 58. -/
def Obligations.TestPortInstructions : Prop :=
  ∀ (s : State) (code : Byte) (levels preload : BitVec 822),
    let loaded (u : State) (ir : Byte) (act : TapAct) (lands : LandDrive) : Prop :=
      u.tap = { s.tap with ir := ir, act := act, lands := lands } ∧ Same [.tap] s u
    Runs .idcode s (fun u => loaded u 1 .idcode .normal)
    ∧ Runs (.samplePreload levels preload) s (fun u => u.tap.ir = 2 ∧ u.tap.act = .sample ∧ u.tap.lands = .normal
      ∧ u.tap.chain = s.tap.chain ∧ u.tap.boundary = preload
      ∧ (∀ i < 822, u.tap.sampled.getLsbD i = (ownLevel s i).getD (levels.getLsbD i)) ∧ Same [.tap] s u)
    ∧ ((s.dev.state = .maintenance ∨ s.dev.state = .failed) → s.dev.testOpen = true →
      Runs .extest s (fun u => loaded u 3 .extest .boundary ∧ ∀ i < 822, landLevel u i = some (s.tap.boundary.getLsbD i))
      ∧ Runs .clamp s (fun u => loaded u 4 .clamp .held ∧ ∀ i < 822, landLevel u i = some (s.tap.boundary.getLsbD i))
      ∧ Runs .highz s (fun u => loaded u 5 .highz .highZ ∧ ∀ i < 822, landLevel u i = none)
      ∧ Runs .diechain s (fun u => loaded u 0x20 .diechain .normal))
    ∧ ((s.dev.state ≠ .maintenance ∧ s.dev.state ≠ .failed ∨ s.dev.testOpen = false) →
      ∀ a ∈ [(Instr.extest, 3), (Instr.clamp, 4), (Instr.highz, 5), (Instr.diechain, 0x20)],
        Runs a.1 s (fun u => loaded u a.2 .bypass .normal))
    ∧ (code ≠ 1 → code ≠ 2 → code ≠ 3 → code ≠ 4 → code ≠ 5 → code ≠ 0x20 →
      Runs (.bypass code) s (fun u => loaded u code .bypass .normal))
    ∧ Runs .tapReset s (fun u => u.tap = { s.tap with ir := 1, act := .idcode, lands := .normal, chain := 46 } ∧ Same [.tap] s u)

/-- R369 to R372, R379 to R381, R389: a port trains with its lanes and its partner; a failed lane is out of service at once or
asks for a change; the change takes effect on its frame; a second failure, or a partner that disables its end, takes the link
down. What is the model's own choice in it is in log entries 59, 63 and 130. -/
def Obligations.OmmetLanes : Prop :=
  ∀ (s : State) (p : PortIx) (lanes : BitVec 9) (partner : Option (W32 × Fin 16 × Bool)) (lane : Fin 9) (delay : Byte) (f : Flit),
    let good := (upTo 9).filter (fun l => lanes.getLsbD l)
    let n := payNat f.payload 1 1
    let ph := payNat f.payload 2 1
    let quiet := [bar0 0x70, bar0 0x78, omP p 0, omP p 0x68]
    rdB s (hp 0x100) 5 = false →
    (linkState s p = 0 → portFunc s p = 0 → Runs (.partnerDetect p) s (fun u => linkState u p = 1 ∧ RegsBut [omP p 0] s u
      ∧ Same [.regs] s u))
    ∧ (linkState s p = 1 → 7 ≤ good.length → Runs (.trainingDone p lanes partner) s (fun u =>
      linkState u p = (if good.length = 7 then 3 else 2) ∧ rdF u (omP p 0) 4 9 = lanes.toNat
      ∧ (∀ i < 8, lanes.getLsbD i = true → laneOf u p i = i)
      ∧ (∀ i < 8, lanes.getLsbD i = false →
          (lanes.getLsbD 8 = true → (∀ j < i, lanes.getLsbD j = true) → laneOf u p i = 8)
          ∧ (lanes.getLsbD 8 = false ∨ (∃ j < i, lanes.getLsbD j = false) → laneOf u p i = 0xF))
      ∧ rdB u (omP p 0x10) 63 = partner.isSome
      ∧ (∀ x, partner = some x → rdF u (omP p 0x10) 0 32 = x.1.toNat ∧ rdF u (omP p 0x10) 32 4 = x.2.1 ∧ rdB u (omP p 0x10) 36 = x.2.2)
      ∧ Raised s u (p / 2) (0x7000068 + p % 2 * 0x100000) 0
      ∧ u.hist.unitSeq = s.hist.unitSeq + 1
      ∧ RegsBut ([omP p 0x10, omP p 0x18] ++ quiet) s u ∧ Same [.regs, .hist, .port] s u))
    ∧ (linkUp s p = true → laneOk s p lane = true →
      ((∀ i < 8, laneOf s p i ≠ lane) → Runs (.laneFailed p lane delay) s (fun u => laneOk u p lane = false
        ∧ rdF u (omP p 0x18) 32 4 = lane ∧ linkState u p = linkState s p ∧ RegsBut [omP p 0, omP p 0x18] s u ∧ Same [.regs] s u))
      ∧ (∀ i < 8, laneOf s p i = lane → (∀ j < i, laneOf s p j ≠ lane) → linkState s p = 2 → (omPort s p).change = none →
        Runs (.laneFailed p lane delay) s (fun u => laneOk u p lane = false ∧ linkState u p = 2
          ∧ (∃ k, (omPort u p).change = some (i, k, true) ∧ (k = 0xF ∨ laneOk u p k = true ∧ ∀ j < 8, laneOf u p j ≠ k)
            ∧ Queued s u p 8 0 0 (linkPayload 1 i k (max 4 delay.toNat)))
          ∧ (omPort u p).agreed = false ∧ RegsBut [omP p 0] s u ∧ Same [.regs, .om] s u))
      ∧ (∀ i < 8, laneOf s p i = lane → linkState s p = 3 → portBooked s p = false → portFunc s p ≠ 1 → rdB s (omP p 0) 13 = false →
        Runs (.laneFailed p lane delay) s (fun u => linkState u p = 0 ∧ rdF u (omP p 0) 4 9 = 0
          ∧ Raised s u (p / 2) (0x7000068 + p % 2 * 0x100000) 3 ∧ RegsBut (omP p 0x10 :: quiet) s u ∧ Same [.regs, .om, .port] s u)))
    ∧ (FlitPasses s p f → f.kind = 8 →
      (payNat f.payload 0 1 = 1 → n < 8 → (ph < 9 ∨ ph = 0xF) → 4 ≤ payNat f.payload 3 1 → (omPort s p).change = none →
        Runs (.laneChange p f) s (fun u => FlitTaken s u p f ∧ (omPort u p).change = some (n, ph, false) ∧ (omPort u p).agreed = true
          ∧ Queued s u p 8 0 0 (linkPayload 2 n ph (payNat f.payload 3 1)) ∧ RegsBut [omP p 0, omP p 0x58] s u ∧ Same [.regs, .om] s u))
      ∧ (payNat f.payload 0 1 = 2 → (omPort s p).change = some (n, ph, true) → Runs (.laneAck p f) s (fun u => FlitTaken s u p f
        ∧ (omPort u p).agreed = true ∧ (omPort u p).change = (omPort s p).change ∧ RegsBut [omP p 0, omP p 0x58] s u ∧ Same [.regs, .om] s u))
      ∧ (payNat f.payload 0 1 = 3 → portBooked s p = false → portFunc s p ≠ 1 → rdB s (omP p 0) 13 = false →
        Runs (.portDisable p f) s (fun u => FlitTaken s u p f ∧ linkState u p = 0 ∧ rdF u (omP p 0) 4 9 = 0
          ∧ Raised s u (p / 2) (0x7000068 + p % 2 * 0x100000) 3
          ∧ RegsBut ([omP p 0x10, omP p 0x58] ++ quiet) s u ∧ Same [.regs, .om, .port] s u)))
    ∧ (∀ c, (omPort s p).change = some c → c.1 < 8 → (omPort s p).agreed = true → linkUp s p = true → laneOf s p c.1 < 9 →
      (∀ i < 8, i ≠ c.1 → laneOf s p i ≠ 0xF → laneOk s p (laneOf s p i) = true ∧ laneOf s p i < 9 ∧ laneOf s p i ≠ laneOf s p c.1) →
      (c.2.1 < 9 → laneOk s p c.2.1 = true → c.2.1 ≠ laneOf s p c.1 → Runs (.laneChangeEffect p delay) s (fun u => laneOf u p c.1 = c.2.1
        ∧ (∀ i < 8, i ≠ c.1 → laneOf u p i = laneOf s p i) ∧ laneOk u p (laneOf s p c.1) = false ∧ linkState u p = linkState s p
        ∧ rdF u (omP p 0x18) 32 4 = laneOf s p c.1 ∧ (omPort u p).change = none
        ∧ Raised s u (p / 2) (0x7000068 + p % 2 * 0x100000) 1
        ∧ u.hist = { s.hist with unitSeq := s.hist.unitSeq + 1 }
        ∧ RegsBut (omP p 0x18 :: quiet) s u ∧ Same [.regs, .om, .port, .hist] s u))
      ∧ (c.2.1 = 0xF → linkState s p = 2 → Runs (.laneChangeEffect p delay) s (fun u => laneOf u p c.1 = 0xF ∧ linkState u p = 3
        ∧ laneOk u p (laneOf s p c.1) = false ∧ (omPort u p).change = none ∧ Raised s u (p / 2) (0x7000068 + p % 2 * 0x100000) 2
        ∧ u.hist = { s.hist with unitSeq := s.hist.unitSeq + 1 }
        ∧ RegsBut (omP p 0x18 :: quiet) s u ∧ Same [.regs, .om, .port, .hist] s u)))

/-- R374 to R379, R381, R384, R398, R534: the link layer of a port. A slot sends the oldest waiting flit of its class with its
numbers and link word; a slot that the link duty withholds sends only IDLE; an ACK frees flits and a NAK asks for one again;
a lane with more than 4,096 corrected symbols in 1 ms, or the worst lane at a flit's eighth NAK, is out; a flit that fails a
check is counted, and fails the job where the rules say so. What is the model's own choice in it is in log entries 60, 61,
62, 71, 130 and 137. -/
def Obligations.OmmetLinkLayer : Prop :=
  ∀ (s : State) (p : PortIx) (can : Bool) (ts : BitVec 72) (lane : Fin 9) (k : BitVec 16) (lack : BitVec 12) (f : Flit),
    let path := slotPath s p (omPort s p).slot
    let given := decide ((omPort s p).slot % 64 < (pwGet s (p / 2)).grantL)
    let worst := worstLane s p
    linkUp s p = true → (∀ x ∈ (omPort s p).unacked, x.lseq < 4096) →
    (∀ q x, path = some q → (omPort s p).queue.find? (fun y => y.booked && decide (y.path = q)) = some x →
        (omPort s p).unacked.length < 1024 → slotPick (omPort s p) path = .new x)
    ∧ ((omPort s p).fec = [] → given = true → ∀ x, slotPick (omPort s p) path = .new x → x.kind < 6 →
      Runs (.ommetPayloadSlot p true ts []) s (fun u =>
      (omPort u p).queue = (omPort s p).queue.erase x ∧ (omPort u p).nextTx = ((omPort s p).nextTx + 1) % 4096
      ∧ (omPort u p).slot = (omPort s p).slot + 1
      ∧ (omPort u p).unacked.length = (omPort s p).unacked.length + 1
      ∧ u.slotWinner = (if x.booked then (if path.isSome then 1 else 2) else x.cls)
      ∧ (∀ y, (omPort u p).last = some y → y.lseq = BitVec.ofNat 12 (omPort s p).nextTx ∧ y.payload = x.payload ∧ y.dst = BitVec.ofNat 8 x.dst
        ∧ y.pseq = BitVec.ofNat 48 (Store.get (fun _ => 0) s.om.pairTx x.dst) ∧ y.tag = x.tag
        ∧ (omPort u p).wire = flitWire s y (Store.get (fun _ => 0) s.om.pairTx x.dst)
        ∧ (∀ m, (omPort s p).nakDue.head? = some m → y.ackKind = 2 ∧ y.lack = BitVec.ofNat 12 m)
        ∧ ((omPort s p).nakDue = [] → (omPort s p).ackDue = true → y.ackKind = 1 ∧ y.lack = BitVec.ofNat 12 ((omPort s p).nextRx + 4095)))
      ∧ (omPort u p).last.isSome = true ∧ (omPort u p).ackDue = ((omPort s p).ackDue && !(omPort s p).nakDue.isEmpty)
      ∧ Store.get (fun _ => 0) u.om.pairTx x.dst = Store.get (fun _ => 0) s.om.pairTx x.dst + 1
      ∧ rd u (omP p 0x50) = satInc (rd s (omP p 0x50)) ∧ rdF u (omP p 0) 14 11 = (omPort u p).unacked.length
      ∧ RegsBut [omP p 0, omP p 0x50] s u ∧ Same [.regs, .om, .slotWinner] s u))
    ∧ ((omPort s p).fec = [] → given = false →
      ((omPort s p).queue.find? (fun y => y.booked && decide (path = some y.path) && !y.delayed) = none →
        Runs (.ommetPayloadSlot p can ts []) s (fun u => u.slotWinner = 7 ∧ (omPort u p).queue = (omPort s p).queue
          ∧ (omPort u p).unacked = (omPort s p).unacked ∧ (omPort u p).slot = (omPort s p).slot + 1
          ∧ (∀ y, (omPort u p).last = some y → y.kind = 0) ∧ RegsBut [omP p 0] s u ∧ Same [.regs, .om, .slotWinner] s u))
      ∧ (∀ x, (omPort s p).queue.find? (fun y => y.booked && decide (path = some y.path) && !y.delayed) = some x → x.owner = 0 →
        Runs (.ommetPayloadSlot p can ts []) s (fun u => u.slotWinner = 7
          ∧ (omPort u p).queue = (omPort s p).queue.map (fun y => if y = x then { x with delayed := true } else y)
          ∧ (Store.get (fun _ => 0) u.lateFlags (p / 2)).getLsbD 3 = true
          ∧ RegsBut [omP p 0] s u ∧ Same [.regs, .om, .slotWinner, .lateFlags] s u)))
    ∧ ((omPort s p).fec = [] → given = true → (∀ x ∈ (omPort s p).queue, x.booked = false) → k ≠ 0 →
      (k.toNat ≤ 4096 → Runs (.ommetPayloadSlot p false ts [(lane, k)]) s (fun u => u.slotWinner = 0
        ∧ rd u (omP p 0x20) = satAdd (rd s (omP p 0x20)) k.toNat ∧ laneSymbols u p lane = k.toNat
        ∧ (omPort u p).slot = (omPort s p).slot + 1 ∧ (omPort u p).queue = (omPort s p).queue
        ∧ (∀ l < 9, laneOk u p l = laneOk s p l) ∧ RegsBut [omP p 0, omP p 0x20] s u ∧ Same [.regs, .om, .slotWinner] s u))
      ∧ (4096 < k.toNat → laneOk s p lane = true → (∀ i < 8, laneOf s p i ≠ lane) →
        Runs (.ommetPayloadSlot p false ts [(lane, k)]) s (fun u => laneOk u p lane = false ∧ rdF u (omP p 0x18) 32 4 = lane
          ∧ (∀ l < 9, l ≠ lane.val → laneOk u p l = laneOk s p l)
          ∧ RegsBut [omP p 0, omP p 0x18, omP p 0x20] s u ∧ Same [.regs, .om, .slotWinner, .freeIx] s u)))
    ∧ Runs (.linkAck p lack) s (fun u =>
      (∀ x, x ∈ (omPort u p).unacked ↔ x ∈ (omPort s p).unacked ∧ 2048 ≤ (lack.toNat + 4096 - x.lseq) % 4096)
      ∧ rdF u (omP p 0) 14 11 = (omPort u p).unacked.length % 2048 ∧ RegsBut [omP p 0] s u ∧ Same [.regs, .om] s u)
    ∧ ((∀ x ∈ (omPort s p).unacked, x.lseq = lack.toNat → x.naks ≠ 7) → Runs (.linkNak p lack) s (fun u =>
      (∀ x ∈ (omPort s p).unacked, x.lseq = lack.toNat → { x with resend := true, naks := x.naks + 1 } ∈ (omPort u p).unacked)
      ∧ (∀ x ∈ (omPort s p).unacked, x.lseq ≠ lack.toNat → x ∈ (omPort u p).unacked)
      ∧ (omPort u p).unacked.length = (omPort s p).unacked.length ∧ RegsBut [omP p 0] s u ∧ Same [.regs, .om] s u))
    ∧ ((∃ x ∈ (omPort s p).unacked, x.lseq = lack.toNat ∧ x.naks = 7) → worst < 9 → laneOk s p worst = true →
      (∀ i < 8, laneOf s p i ≠ worst) → Runs (.linkNak p lack) s (fun u => laneOk u p worst = false
        ∧ rdF u (omP p 0x18) 32 4 = worst ∧ (omPort u p).unacked.length = (omPort s p).unacked.length
        ∧ RegsBut [omP p 0, omP p 0x18] s u ∧ Same [.regs, .om, .freeIx] s u))
    ∧ Runs (.flitFecFailure p lack) s (fun u => (omPort u p).nakDue = (omPort s p).nakDue ++ [lack.toNat]
      ∧ (omPort u p).nextRx = (omPort s p).nextRx ∧ rd u (omP p 0x28) = satInc (rd s (omP p 0x28))
      ∧ (Store.get (fun _ => 0) u.lateFlags (p / 2)).getLsbD 0 = true
      ∧ RegsBut [omP p 0, omP p 0x28] s u ∧ Same [.regs, .om, .lateFlags] s u)
    ∧ (f.fecOk = true → f.ackKind = 0 → f.lseq.toNat = (omPort s p).nextRx → (omPort s p).held = [] →
      (8 < f.kind.toNat → Runs (.reservedKindFlit p f) s (fun u => (omPort u p).nextRx = (f.lseq.toNat + 1) % 4096
        ∧ rd u (omP p 0x48) = satInc (rd s (omP p 0x48)) ∧ rd u (omP p 0x58) = rd s (omP p 0x58)
        ∧ RegsBut [omP p 0, omP p 0x48] s u ∧ Same [.regs, .om] s u))
      ∧ (f.kind = 4 → payNat f.payload 0 1 = 5 →
        (f.tag ≠ s.job.tag → (omPort s p).tagSeen = false → Runs (.messageFlit p f) s (fun u => (omPort u p).tagSeen = true
          ∧ rd u (omP p 0x38) = satInc (rd s (omP p 0x38)) ∧ rd u (hp 0x128) = satInc (rd s (hp 0x128))
          ∧ Raised s u (p / 2) (0x7000068 + p % 2 * 0x100000) 5 ∧ u.om.messages = s.om.messages
          ∧ RegsBut ([omP p 0, omP p 0x38, hp 0x128, omP p 0x68] ++ noticeKeys) s u ∧ Same [.regs, .om, .port] s u))
        ∧ (tagOk s f = true → f.dst.toNat = ownPos s → (f.macOk = false ∨ f.pseq ≠ BitVec.ofNat 48 (pairDue s f)) → jobLive s = true →
          Runs (.messageFlit p f) s (fun u => u.job.state = .failed ∧ u.job.linkKey = s.job.linkKey ∧ u.om.messages = s.om.messages
            ∧ pairDue u f = pairDue s f ∧ rd u (omP p 0x40) = satInc (rd s (omP p 0x40))
            ∧ rdB u (omP p 0x68) 4 = true ∧ Same [.regs, .om, .port, .job, .mgmt] s u))))

/-- R88, R326, R329, R385, R386, R591: what the booked flits and ARRIVAL do at their receiver. A WRITE in remote form lands its
bytes inside a possession, and the last of a train that arrives adds 1; a READ_REQ is answered with the bytes; READ_DATA
joins its train; a signal order reaches the signals of the port's die; a contribution is kept for the collective. What is the
model's own choice in it is in log entries 10, 21, 50 and 62. -/
def Obligations.BookedFlitsHaveTheirEffect : Prop :=
  ∀ (s : State) (p : PortIx) (f : Flit),
    let pl := f.payload
    let op := payNat pl 0 1
    let fl := payNat pl 1 1
    let a := payNat pl 8 8
    let n := payNat pl 4 2
    let m := payNat pl 24 8
    FlitPasses s p f →
    (f.kind = 1 → op = 1 → Nat.testBit fl 2 = true → 0 < n → n ≤ 192 → a % 256 + n ≤ 256 → a + n ≤ unifiedEnd →
      (possessed s a n = true → Runs (.bookedWrite p f) s (fun u => FlitTaken s u p f ∧ rdBytes u a n = payBytes pl 32 n
        ∧ (∀ b, b < a ∨ a + n ≤ b → rdByte u b = rdByte s b)
        ∧ u.sigOps = s.sigOps ++ (if Nat.testBit fl 0 ∧ Nat.testBit fl 1 ∧ Store.get (fun _ => false) s.om.refused (streamKey f.src.toNat f.path.toNat) = false
            then [addOne (p / 2) 15 (payNat pl 6 2 % 16384)] else [])
        ∧ RegsBut (linkKeys p) s u ∧ Same [.regs, .om, .mem, .poisoned, .resv, .sigOps] s u))
      ∧ (possessed s a n = false → Runs (.bookedWrite p f) s (fun u => FlitTaken s u p f ∧ u.mem = s.mem ∧ u.sigOps = s.sigOps
        ∧ rd u (tu (p / 2) 0x58) = satInc (rd s (tu (p / 2) 0x58)) ∧ rdB u (tu (p / 2) 0x60) 4 = true
        ∧ (∀ q, routePort s (p / 2) f.src.toNat = some q → Queued s u q 5 f.src.toNat f.tag (reqPayload 2 2 stDenied 0 a 0 3 0 [] []))
        ∧ RegsBut (linkKeys p ++ [tu (p / 2) 0x58, tu (p / 2) 0x60] ++ noticeKeys) s u ∧ Same [.regs, .om, .port] s u)))
    ∧ (f.kind = 1 → op = 2 → Nat.testBit fl 2 = true → 0 < m → m ≤ 160 → a % 256 + m ≤ 256 → a + m ≤ unifiedEnd → possessed s a m = true →
      poisonedRange s a m = false → payNat pl 16 1 = 0 → Runs (.readReq p f) s (fun u => FlitTaken s u p f
        ∧ (∀ q, routePort s (p / 2) f.src.toNat = some q → Queued s u q 5 f.src.toNat f.tag (reqPayload 1 2 0 m a 0 3 0 [] (rdBytes s a m)))
        ∧ RegsBut (linkKeys p) s u ∧ Same [.regs, .om] s u))
    ∧ (f.kind = 1 → op = 3 → n ≤ 192 → ∀ t, s.trains = [t] → t.asked = true → t.data.length + n < tdBytes t.desc →
      (∀ v x y, srcPlace s t 0 = .ok (.away f.src.toNat v x y) → Runs (.readData p f) s (fun u => FlitTaken s u p f
        ∧ u.trains = [{ t with data := t.data ++ payBytes pl 32 n }] ∧ RegsBut (linkKeys p) s u ∧ Same [.regs, .om, .trains] s u)))
    ∧ (f.kind = 1 → ∀ c ∈ [(Instr.bookedSignalSet p f, 4), (Instr.bookedSignalAdd p f, 5)], op = c.2 →
      Runs c.1 s (fun u => FlitTaken s u p f
        ∧ u.sigOps = s.sigOps ++ [{ sig := payNat pl 6 2 % 16384, add := decide (op = 5), value := BitVec.ofNat 64 m, order := some (15, p / 2),
                                    asker := 0, askId := 0, setMode := false }]
        ∧ RegsBut (linkKeys p) s u ∧ Same [.regs, .om, .sigOps] s u))
    ∧ (f.kind = 2 → (∀ q ∈ s.colls, q.die ≠ f.path.toNat / 32) → Runs (.collFlit p f) s (fun u => FlitTaken s u p f
      ∧ Store.get (fun _ => []) u.collRx (f.path.toNat / 32 * 256 + f.src.toNat)
          = Store.get (fun _ => []) s.collRx (f.path.toNat / 32 * 256 + f.src.toNat) ++ [pl]
      ∧ (∀ k, k ≠ f.path.toNat / 32 * 256 + f.src.toNat → Store.get (fun _ => []) u.collRx k = Store.get (fun _ => []) s.collRx k)
      ∧ rd u (ce (f.path.toNat / 32) 0x20) = satAdd (rd s (ce (f.path.toNat / 32) 0x20)) 224
      ∧ RegsBut (ce (f.path.toNat / 32) 0x20 :: linkKeys p) s u ∧ Same [.regs, .om, .collRx] s u))
    ∧ (f.kind = 3 → Runs (.arrivalFlit p f) s (fun u => FlitTaken s u p f
      ∧ u.ttx.pkgDies.contains (payNat pl 0 4, f.src.toNat, payNat pl 4 1) = true
      ∧ (∀ y ∈ s.ttx.pkgDies, y ∈ u.ttx.pkgDies) ∧ (∀ y ∈ s.ttx.pkgSeen, y ∈ u.ttx.pkgSeen)
      ∧ (payNat pl 5 1 ≤ (u.ttx.pkgDies.filter (fun y => decide (y.1 = payNat pl 0 4) && decide (y.2.1 = f.src.toNat))).length →
          u.ttx.pkgSeen.contains (payNat pl 0 4, f.src.toNat) = true)
      ∧ RegsBut (linkKeys p) s u ∧ Same [.regs, .om, .ttx] s u))

/-- R387, R388, R473, R509, R512: what requests, answers and control flits do at their receiver. What is the model's own choice
in it is in log entries 24, 62 and 64. -/
def Obligations.RequestsAndControlFlits : Prop :=
  ∀ (s : State) (p : PortIx) (f : Flit),
    let pl := f.payload
    let op := payNat pl 0 1
    let fl := payNat pl 1 1
    let a := payNat pl 8 8
    let n := payNat pl 4 4
    let m := payNat pl 24 8
    let name := payBytes pl 32 32
    let rank := m % 2 ^ 20
    FlitPasses s p f →
    (f.kind = 4 → op = 1 → payNat pl 20 1 ≠ 2 → fl % 2 = 1 → 0 < m → m ≤ 160 → a % 256 + m ≤ 256 → a + m ≤ unifiedEnd →
      (possessed s a m = false → poisonedRange s a m = false → Runs (.reqRead p f) s (fun u => FlitTaken s u p f ∧ u.mem = s.mem
        ∧ Answered s u (p / 2) f 0 (cohBytes s a m) ∧ Same [.regs, .om, .jlines, .dir, .dirAge] s u))
      ∧ (possessed s a m = true → Runs (.reqRead p f) s (fun u => FlitTaken s u p f ∧ Answered s u (p / 2) f stDenied []
        ∧ rd u (tu (p / 2) 0x58) = satInc (rd s (tu (p / 2) 0x58)) ∧ rd u (jn (p / 2) 0x20) = satInc (rd s (jn (p / 2) 0x20)) ∧ rdB u (key (p / 2) 0x48) 4 = true
        ∧ Same [.regs, .om, .port] s u)))
    ∧ (f.kind = 4 → op = 2 → fl % 4 = 3 → 0 < n → n ≤ 160 → a % 256 + n ≤ 256 → a + n ≤ unifiedEnd → possessed s a n = false →
      Store.get (fun _ => false) s.om.refused (reqKey f.src.toNat (payNat pl 16 4)) = false → Runs (.reqWrite p f) s (fun u =>
        FlitTaken s u p f ∧ cohBytes u a n = payBytes pl 64 n ∧ (∀ b, b < a ∨ a + n ≤ b → cohBytes u b 1 = cohBytes s b 1)
        ∧ Answered s u (p / 2) f 0 [] ∧ Same [.regs, .om, .mem, .poisoned, .resv, .jlines, .dir] s u))
    ∧ (f.kind = 4 → ∀ c ∈ [(Instr.reqSignalSet p f, 3), (Instr.reqSignalAdd p f, 4)], op = c.2 → Runs c.1 s (fun u => FlitTaken s u p f
      ∧ (∃ x, u.sigOps = s.sigOps ++ [x] ∧ x.sig = a % 16384 ∧ x.add = decide (op = 4) ∧ x.value = BitVec.ofNat 64 m ∧ x.asker = 2
          ∧ x.order = none ∧ x.setMode = false)
      ∧ RegsBut (linkKeys p) s u ∧ Same [.regs, .om, .sigOps] s u))
    ∧ (f.kind = 4 → op = 5 → n ≤ 160 → Runs (.messageFlit p f) s (fun u => FlitTaken s u p f
      ∧ u.om.messages = s.om.messages ++ [(f.src.toNat, payBytes pl 64 n)] ∧ RegsBut (linkKeys p) s u ∧ Same [.regs, .om] s u))
    ∧ (f.kind = 4 → op = 6 → fl % 4 / 2 = 1 → n ≤ 160 → dpState s = 1 → depotRoom s n = true → s.depot.objects.length < 1048576 →
      findObj s name rank true = none → Runs (.replicaWrite p f) s (fun u => FlitTaken s u p f
        ∧ (∃ o, findObj u name rank true = some o ∧ o.state = 1 ∧ o.length = a + n ∧ o.groupPos = f.src.toNat
            ∧ ∀ i < n, Store.get memDefault o.data (a + i) = (payBytes pl 64 n).getD i 0)
        ∧ (∀ x r b, (x, r, b) ≠ (name, rank, true) → findObj u x r b = findObj s x r b)
        ∧ Answered s u 12 f 0 [] ∧ Same [.regs, .om, .depot] s u))
    ∧ (f.kind = 4 → op = 7 → ∀ o, findObj s name rank true = some o → o.ckKey = s.job.ckKey → dpState s = 1 →
      let good := sha256 ((upTo o.length).map (fun i => Store.get memDefault o.data i)) = payBytes pl 64 32
      (good → Runs (.replicaCommit p f) s (fun u => FlitTaken s u p f ∧ Answered s u 12 f 0 []
        ∧ findObj u name rank true = some { o with state := 2, committed := now s, digest := payBytes pl 64 32 }
        ∧ Same [.regs, .om, .depot] s u))
      ∧ (¬good → Runs (.replicaCommit p f) s (fun u => FlitTaken s u p f ∧ Answered s u 12 f stFault []
        ∧ RegsBut (linkKeys p) s u ∧ Same [.regs, .om] s u)))
    ∧ (f.kind = 4 → op = 1 → payNat pl 20 1 = 2 → m ≤ 160 → a = 0 → dpState s ≠ 0 → ∀ o,
      s.depot.objects.find? (fun x => x.replica && decide (x.name = name) && decide (x.groupPos = f.src.toNat)) = some o →
      o.state = 2 → o.ckKey = s.job.ckKey → o.length = m →
      let b := (upTo m).map (fun i => Store.get memDefault o.data i)
      (sha256 b = o.digest → Runs (.reqRead p f) s (fun u => FlitTaken s u p f ∧ Answered s u 12 f 0 b
        ∧ RegsBut (linkKeys p) s u ∧ Same [.regs, .om] s u))
      ∧ (sha256 b ≠ o.digest → Runs (.reqRead p f) s (fun u => FlitTaken s u p f ∧ Answered s u 12 f stFault []
        ∧ findObj u o.name o.rank o.replica = some { o with state := 3 } ∧ Same [.regs, .om, .depot] s u)))
    ∧ (f.kind = 5 → ∀ r, s.om.reqs = [r] → r.id = payNat pl 16 4 → r.agent = payNat pl 20 1 → r.agent ≠ 3 → r.agent ≠ 2 → r.dst = f.src.toNat →
      Runs (.respFlit p f) s (fun u => FlitTaken s u p f ∧ u.om.reqs = (if Nat.testBit fl 1 then [] else [r])
        ∧ RegsBut (linkKeys p) s u ∧ Same [.regs, .om] s u))
    ∧ (f.kind = 7 → op = 1 → fl = 0 → rdB s (hp 0x100) 5 = false → s.job.tag ≠ 0 → payNat pl 2 2 = s.job.tag.toNat →
      payNat pl 4 4 = fld (orEntry s f.src.toNat) 32 32 → bitOf (orEntry s f.src.toNat) 19 = true → payNat pl 16 8 = (rd s (hp 0x118)).toNat →
      Runs (.armedFlit p f) s (fun u => FlitTaken s u p f ∧ peerArmed u f.src.toNat = true
        ∧ RegsBut (hp (0x140 + 8 * (f.src.toNat / 64)) :: linkKeys p) s u ∧ Same [.regs, .om] s u))
    ∧ (f.kind = 7 → fl = 1 → s.job.quarantine.length < 256 →
      (op = 2 → Runs (.teardownFlit p f) s (fun u => FlitTaken s u p f ∧ (BitVec.ofNat 16 (payNat pl 2 2), now s) ∈ u.job.quarantine
        ∧ u.job = { s.job with quarantine := u.job.quarantine }
        ∧ (∀ x, x.1 ≠ BitVec.ofNat 16 (payNat pl 2 2) → (x ∈ u.job.quarantine ↔ x ∈ s.job.quarantine))
        ∧ RegsBut (linkKeys p) s u ∧ Same [.regs, .om, .job] s u))
      ∧ (op = 3 → Runs (.clearFlit p f) s (fun u => FlitTaken s u p f
        ∧ u.job = { s.job with quarantine := u.job.quarantine }
        ∧ (∀ x, x ∈ u.job.quarantine ↔ x ∈ s.job.quarantine ∧ x.1 ≠ BitVec.ofNat 16 (payNat pl 2 2))
        ∧ RegsBut (linkKeys p) s u ∧ Same [.regs, .om, .job] s u)))

/-- R45 to R48: a request leaves for the partner; a request that comes in is answered; a response closes its exchange, and the
one before it gives the offset, half of what the two directions differ by; a frame out of place is counted. What is the
model's own choice in it is in log entries 25 and 102. -/
def Obligations.InBandTimeTransfer : Prop :=
  ∀ (s : State) (t : W64) (q : PortIx) (f : Flit),
    let a := advance s t
    let p := ibPort a
    let b := advance s (BitVec.ofNat 64 (f.ts.toNat / 256))
    let pl := f.payload
    let mtcKeys := [mtc 0, mtc 8, mtc 0x58]
    (mtcSource s = 2 → linkUp s p = true → rdB s (gd 0) 3 = true → Runs (.timeTransferRequest t) s (fun u =>
      (∃ g, Queued s u p 6 g 0 (timePayload 1 (mtcState a) (ownDepth a) 0 0)) ∧ rdB u (omP p 0) 13 = true ∧ rdF u (mtc 8) 8 4 = p
      ∧ RegsBut (omP p 0 :: mtcKeys) s u ∧ Same [.regs, .mtcx, .om, .freeIx] s u))
    ∧ (FlitPasses s q f → f.kind = 6 →
      (timeFormed pl = false → Runs (.timeFlit q f) s (fun u => FlitTaken s u q f ∧ rd u (mtc 0x50) = satIncFld (rd s (mtc 0x50)) 48 16
        ∧ RegsBut (mtc 0x50 :: linkKeys q ++ mtcKeys) s u ∧ Same [.regs, .mtcx, .om] s u))
      ∧ (timeFormed pl = true → payNat pl 0 2 = 1 → Runs (.timeFlit q f) s (fun u => FlitTaken s u q f
        ∧ Queued s u q 6 f.src.toNat 0 (timePayload 2 (mtcState b) (ownDepth b) 0 f.ts.toNat)
        ∧ RegsBut (linkKeys q ++ mtcKeys) s u ∧ Same [.regs, .mtcx, .om] s u))
      ∧ (timeFormed pl = true → payNat pl 0 2 = 2 → mtcSource s = 2 → ibPort s = q → ∀ t1, s.mtcx.ibT1 = some t1 →
        ((payNat pl 2 1 = 2 ∨ payNat pl 2 1 = 3) → payNat pl 3 1 ≤ 3 → Runs (.timeFlit q f) s (fun u => FlitTaken s u q f
          ∧ rdB u (mtc 8) 5 = true ∧ rdF u (mtc 8) 12 3 = payNat pl 3 1 + 1
          ∧ u.mtcx.ibT1 = none ∧ u.mtcx.ibPrev = some (t1, timeT2 pl, f.ts.toNat)
          ∧ (s.mtcx.ibPrev = none → mtcState u = (if mtcState b = 0 ∨ mtcState b = 3 then 1 else mtcState b)
            ∧ u.mtcx.ibDelay = s.mtcx.ibDelay
            ∧ (mtcState b = 1 ∨ mtcState b = 2 → RegsBut (linkKeys q ++ mtcKeys) s u ∧ u.port = s.port))
          ∧ (∀ e, s.mtcx.ibPrev = some e →
              u.mtcx.ibDelay = some ((((e.2.1 : Int) - e.1) + ((e.2.2 : Int) - timeT1 pl)) / 2))
          ∧ (∀ e, s.mtcx.ibPrev = some e → rd u (mtc 0x20) = BitVec.ofInt 64
              ((((e.2.1 : Int) - e.1) - ((e.2.2 : Int) - timeT1 pl) - (BitVec.ofNat 16 (rdF s (mtc 0x30) 0 16)).toInt) / 2))
          ∧ Same [.regs, .mtcx, .om, .port, .job, .dev, .freeIx] s u))
        ∧ (payNat pl 2 1 ≤ 1 → Runs (.timeFlit q f) s (fun u => FlitTaken s u q f ∧ rdB u (mtc 8) 5 = false
          ∧ mtcState u = lostState b ∧ Same [.regs, .mtcx, .om, .port] s u))))

/-- R401 to R408: a collective begins with its descriptor and source as they stand at ISSUE, and sends its contribution; a
descriptor that fails fails the job; the collective ends with its result in place and 1 added to END_SIG, not before its
window expires. What is the model's own choice in it is in log entries 22 and 88. -/
def Obligations.CollectivesBeginAndEnd : Prop :=
  ∀ (s : State) (d : ADie) (issue : BitVec 24) (ops : BitVec 96) (held : Bool),
    let o := mkOrder 0xC0 issue ops
    let at_ := maAddr d (fld o 32 22)
    let q0 : Coll := { die := d, issue := issue.toNat, order := o, desc := rdBytes s at_ (64 + 2 * min 256 (rdNat s (at_ + 4) 2)), own := []
                       bad := true, shared := false, expired := false, ended := false }
    let own := rdBytes s (maAddr d (leAt q0.desc 16 4)) (colSrcBlocks q0 * colIn q0 (colN q0))
    let q := { q0 with own := own, bad := false }
    (canIssue s d 13 o = true → Quiet s d 13 issue.toNat → (∀ x ∈ s.colls, x.die ≠ d.val) →
      (colOk s q0 = true → colScatter q0 = false → Runs (.ceColl d issue ops) s (fun u => IssuedAt u d 13 issue.toNat
        ∧ OtherEngines s u d 13 ∧ u.colls = s.colls ++ [q]
        ∧ rd u (ce d 0) = BitVec.ofNat 64 (1 + 2 * issue.toNat + 2 ^ 25 * colOp q0)
        ∧ (colOthers s q = [] → RegsBut [ce d 0] s u ∧ u.om = s.om)
        ∧ (∀ k x, colOthers s q = [k] → colLead q = 0 → 0 < partBytes q k → (colPart q own k).length ≤ 224 →
          pathPort s (colPath q k) (colGpos q k) = some x →
            Queued s u x 2 (colGpos q k) s.job.tag (payloadOf (colPart q own k)) ∧ rd u (ce d 0x18) = satAdd (rd s (ce d 0x18)) 224
            ∧ RegsBut [ce d 0, ce d 0x18, omP x 0] s u)
        ∧ Same [.engines, .regs, .colls, .om] s u))
      ∧ (colOk s q0 = false → jobLive s = true → Runs (.ceColl d issue ops) s (fun u => u.job.state = .failed ∧ u.colls = s.colls ++ [q0]
        ∧ rdB u (ce d 0x28) 2 = true ∧ u.om = s.om ∧ Same [.engines, .regs, .colls, .port, .job, .mgmt] s u)))
    ∧ (∀ x, s.colls = [x] → x.die = d → x.issue = issue.toNat →
      let me := (colMe s x).getD 0
      let dst := maAddr d (leAt x.desc 20 4)
      let work := maAddr d (leAt x.desc 24 4)
      let sig := if bitOf x.order 92 then [addOne d 13 (fld x.order 78 14)] else []
      (x.bad = false → x.ended = false → ∀ r, colResultBytes s x me = some (r, 0) → (upTo (colP x)).any (anchorOff s x me) = false →
        held = false → Runs (.collectiveEnd d issue held) s (fun u => rdBytes u dst r.length = r
          ∧ (∀ b, (b < dst ∨ dst + r.length ≤ b) → (b < work ∨ work + colP x * colN x * colEs x ≤ b) → rdByte u b = rdByte s b)
          ∧ rdB u (ce d 0) 0 = false ∧ rd u (ce d 0x10) = satInc (rd s (ce d 0x10)) ∧ rdB u (ce d 0x28) 0 = true
          ∧ u.colls = (if x.expired then [] else [{ x with ended := true }]) ∧ u.sigOps = s.sigOps ++ (if x.expired then sig else [])
          ∧ RegsBut ([ce d 0, ce d 0x10, ce d 0x28] ++ noticeKeys) s u
          ∧ Same [.regs, .mem, .poisoned, .resv, .collRx, .freeIx, .colls, .port, .sigOps] s u))
      ∧ (x.expired = false → Runs (.collectiveWindowExpiry d issue) s (fun u =>
          (x.bad = false → u.colls = (if x.ended then [] else [{ x with expired := true }]) ∧ u.sigOps = s.sigOps ++ (if x.ended then sig else [])
            ∧ RegsBut [] s u)
          ∧ (x.bad = true → u.colls = [] ∧ u.sigOps = s.sigOps ++ sig ∧ rdB u (ce d 0) 0 = false
            ∧ rd u (ce d 0x10) = satInc (rd s (ce d 0x10)) ∧ rdB u (ce d 0x28) 0 = true)
          ∧ Same [.regs, .colls, .port, .sigOps] s u)))

/-- R391, R393, R395, R409, R413, R416: the registers of the ports and of the seal engine that commands write. What is the
model's own choice in it is in log entries 63 and 67. -/
def Obligations.PortAndSealRegisters : Prop :=
  ∀ (s : State) (p : PortIx) (n : NPortIx) (d : ADie) (g : Byte) (v : W64) (r : BitVec 16) (high size ide flit : Bool),
    let at_ := if size then np 0x10 else np 8
    let w := if size then v else v &&& 0x1FFFFE00000
    (portFunc s p = 0 → portBooked s p = false → Runs (.omCtrlDisable p) s (fun u => portFunc u p = 1 ∧ linkState u p = linkState s p
      ∧ Raised s u (p / 2) (0x7000068 + p % 2 * 0x100000) 6
      ∧ u.dev = { s.dev with drainAt := Store.set (fun _ => 0) s.dev.drainAt (256 + p) (now s).toNat }
      ∧ RegsBut ([omP p 0, omP p 0x68] ++ noticeKeys) s u ∧ Same [.regs, .port, .dev] s u))
    ∧ (portFunc s p = 1 → funcWork s 1 p = 0 → Runs (.functionDrained (.ommet p)) s (fun u => 2 ≤ portFunc u p ∧ linkState u p = 0
      ∧ rd u (omP p 0x60) = rd s (omP p 0x60)))
    ∧ (portFunc s p = 0 → portBooked s p = true → Runs (.omCtrlDisable p) s (fun u => u = s))
    ∧ (2 ≤ portFunc s p → Runs (.omCtrlEnable p) s (fun u => portFunc u p = 0 ∧ linkState u p = 1
      ∧ Raised s u (p / 2) (0x7000068 + p % 2 * 0x100000) 6
      ∧ RegsBut ([omP p 0, omP p 0x68] ++ noticeKeys) s u ∧ Same [.regs, .port, .dev] s u))
    ∧ ((d.val = 0 ∧ setupOpen s = true) → Runs (.orEntryWrite d g v) s (fun u => orEntry u g.toNat = v &&& 0xFFFFFFFF000FFFFF
      ∧ RegsBut [key 0 (0x7200000 + 8 * g.toNat)] s u ∧ Same [.regs] s u))
    ∧ (¬(d.val = 0 ∧ setupOpen s = true) → Runs (.orEntryWrite d g v) s (fun u => Raised s u d 0x7000068 7
      ∧ RegsBut (omP (2 * d) 0x68 :: noticeKeys) s u ∧ Same [.regs, .port] s u))
    ∧ (setupOpen s = true → Runs (.npPeerWrite r high v) s (fun u =>
      rd u (npPeer r.toNat (b2n high)) = v &&& (if high then 0xFFFFFFFF else 0x80000000003FFFFF)
      ∧ RegsBut [npPeer r.toNat (b2n high)] s u ∧ Same [.regs] s u))
    ∧ (setupOpen s = false → ∀ a ∈ [Instr.npPeerWrite r high v, Instr.npSealRegionWrite size v], Runs a s (fun u =>
      Raised s u 12 0x1000040 3 ∧ RegsBut (np 0x40 :: noticeKeys) s u ∧ Same [.regs, .port] s u))
    ∧ (setupOpen s = true → (size = true → v.toNat ≤ 4096) →
      (∀ x ∈ possRanges s, rangesMeet (sealBase (wr s at_ w)) (sealBytes (wr s at_ w)) x.1 x.2 = false) →
      Runs (.npSealRegionWrite size v) s (fun u => rd u at_ = w ∧ RegsBut [at_] s u ∧ Same [.regs] s u))
    ∧ Runs (.npRingTailWrite v) s (fun u => rd u (np 0x20) = v ∧ RegsBut [np 0x20] s u ∧ Same [.regs] s u)
    ∧ (Store.get (fun _ => 0) s.npFunc n.val ≠ 2 → s.dev.rails = true → Runs (.nportLinkUp n ide flit) s (fun u =>
      rdB u (np 0) (4 * n) = true ∧ rdB u (np 0) (4 * n + 1) = ide ∧ rdB u (np 0) (4 * n + 2) = flit
      ∧ RegsBut [np 0] s u ∧ Same [.regs] s u))
    ∧ (rdB s (np 0) (4 * n) = true → Runs (.nportLinkDown n) s (fun u => rdB u (np 0) (4 * n) = false
      ∧ (∀ c ∈ u.port.cmds, slotOp c.slot = 0x12 → leAt c.slot 44 1 = n + 1 → c.phase ≠ .waiting → c.status ≠ 0)
      ∧ RegsBut [np 0] s u ∧ Same [.regs, .port] s u))

/-- R409 to R412: SEAL writes the frame of the bytes it reads, under the next counter, and OPEN writes the bytes of a frame that
passes every rule and no byte of one that does not; each completes with its status and moves the head; an endpoint reaches
the seal region alone. What is the model's own choice in it is in log entries 6, 7, 23 and 80. -/
def Obligations.SealedFramesAndEndpoints : Prop :=
  ∀ (s : State) (opened : Option (List Byte)) (n : NPortIx) (pa : W64) (len : BitVec 13) (l b : List Byte),
    let m := npRingSize s
    let h := (rd s (np 0x28)).toNat % m
    let e := npEntry s h
    let va := leAt b 8 8
    let fa := leAt b 16 8
    let k := leAt b 24 4
    let done (u : State) (st : Nat) : Prop := cohBytes u (e + 2) 2 = leBytes 2 st ∧ rd u (np 0x28) = BitVec.ofNat 64 ((h + 1) % m)
      ∧ Raised s u 12 0x1000040 0
    (npNext s = some b →
      (leAt b 0 2 = 1 → sealCheck s b = 0 → ∀ r x y, peerOf s (leAt b 4 4) = some r → jobPieces s va k false = .ok [(x, y)] →
        poisonedRange s x y = false → (e + 32 ≤ fa ∨ fa + k + 48 ≤ e) → Runs (.sealFrame) s (fun u => done u 0
          ∧ cohBytes u fa (k + 48) = sealFrame s false (leAt b 4 4) s.job.sealTx (BitVec.ofNat 32 (rdF s (r + 8) 0 32)) (cohBytes s x y)
          ∧ u.job = { s.job with sealTx := s.job.sealTx + 1 }
          ∧ Same [.regs, .mem, .poisoned, .resv, .jlines, .dir, .dirAge, .trans, .job, .port] s u))
      ∧ (leAt b 0 2 ≠ 1 → leAt b 0 2 ≠ 2 → Runs (.sealFrame) s (fun u => done u stBadOpcode ∧ u.job = s.job))
      ∧ (leAt b 0 2 = 1 → sealCheck s b ≠ 0 → Runs (.sealFrame) s (fun u => done u (sealCheck s b % 65536) ∧ u.job = s.job))
      ∧ (leAt b 0 2 = 2 → sealCheck s b = 0 →
        let f := cohBytes s fa (k + 48)
        (frameOk s false f opened = none → Runs (.openFrame opened) s (fun u => done u stDenied ∧ rd u (np 0x38) = satInc (rd s (np 0x38))
          ∧ rdB u (np 0x40) 1 = true ∧ (∀ x, x < e + 2 ∨ e + 4 ≤ x → cohBytes u x 1 = cohBytes s x 1)
          ∧ Same [.regs, .mem, .poisoned, .resv, .jlines, .dir, .port] s u))
        ∧ (∀ p x y, frameOk s false f opened = some p → jobPieces s va p.length true = .ok [(x, y)] → (e + 32 ≤ x ∨ x + y ≤ e) →
          Runs (.openFrame opened) s (fun u => done u 0 ∧ cohBytes u x p.length = p
            ∧ (Store.get (fun _ => []) u.job.sealRx (leAt f 8 4 % 2 ^ 20)).contains (leAt f 16 8) = true
            ∧ Same [.regs, .mem, .poisoned, .resv, .jlines, .dir, .dirAge, .trans, .job, .port] s u))))
    ∧ (rdB s (np 0) (4 * n) = true →
      (inSeal s pa.toNat l.length = true → 0 < l.length → Runs (.nportInboundRequest n pa len (some l)) s (fun u => cohBytes u pa.toNat l.length = l
        ∧ (∀ x, x < pa.toNat ∨ pa.toNat + l.length ≤ x → cohBytes u x 1 = cohBytes s x 1)
        ∧ Same [.regs, .mem, .poisoned, .resv, .jlines, .dir] s u))
      ∧ (inSeal s pa.toNat len.toNat = true → Runs (.nportInboundRequest n pa len none) s (fun u => u.answer = cohBytes s pa.toNat len.toNat
        ∧ u.mem = s.mem ∧ Same [.regs, .answer, .jlines, .dir, .dirAge] s u))
      ∧ (inSeal s pa.toNat len.toNat = false → Runs (.nportInboundRequest n pa len none) s (fun u => rd u (np 0x30) = satInc (rd s (np 0x30))
        ∧ Raised s u 12 0x1000040 2 ∧ RegsBut ([np 0x30, np 0x40] ++ noticeKeys) s u ∧ Same [.regs, .port] s u))
      ∧ (inSeal s pa.toNat l.length = false → Runs (.nportInboundRequest n pa len (some l)) s (fun u => rd u (np 0x30) = satInc (rd s (np 0x30))
        ∧ Raised s u 12 0x1000040 2 ∧ RegsBut ([np 0x30, np 0x40] ++ noticeKeys) s u ∧ Same [.regs, .port] s u)))

/-- R313, R395, R504 to R510, R525: a job arms with its manifest's values and keys, is ARMED once the runtime has said so and
every image is in place, takes its right-away and departs when it comes if the line is clear; it fails where the runtime says
so, and arming ends where its limit does. What is the model's own choice in it is in log entries 4, 6, 15, 72 and 132. -/
def Obligations.JobsArmAndDepart : Prop :=
  ∀ (s : State) (q : W32) (b : List Byte) (sigOk : Bool) (bundle : Option (BitVec 1024)) (v t : W64),
    let first := leAt b 32 4
    let len := leAt b 36 4
    let n := leNat (cohBytes s (landBase s + first + 8) 4)
    let m := cohBytes s (landBase s + first) n
    let buf := (rd s (hp 0x110)).toNat
    let r := leAt b 32 8
    let a := advance s t
    let ignored (u : State) : Prop := Raised s u 12 0x130 2 ∧ RegsBut (hp 0x130 :: noticeKeys) s u ∧ Same [.regs, .port] s u
    (s.job.state = .idle → Runs (.hpJobManifestWrite v) s (fun u => (rd u (hp 0x110)).toNat = v.toNat / 4096 * 4096
      ∧ RegsBut [hp 0x110] s u ∧ Same [.regs] s u))
    ∧ (s.job.state ≠ .idle → Runs (.hpJobManifestWrite v) s (fun u => ignored u))
    ∧ (Starts s q 0x20 b → buf ≠ 0 → inUnified buf 0x100000 = true → 192 + sigBytes ≤ n → n ≤ len → n ≤ 2 ^ 20 → first + len ≤ landBytes s →
      possessed s (landBase s + first) n = false → poisonedRange s (landBase s + first) n = false →
      (manifestFail s m sigOk = (0, 0) → envelopeOk s (mfEnvelope m) = true →
        (∀ k, bundle = some k → rangesFail s m = 0 → s.mtcx.stepDue = none → Runs (.armJob q sigOk bundle) s (fun u => u.job.state = .arming
          ∧ u.job.tag = mfTag m ∧ u.job.rank = leAt m 20 4 ∧ u.job.groupPos = mfPos m ∧ u.job.groupSize = mfSize m ∧ u.job.tempo = mfTempo m
          ∧ u.job.stationTimeout = leAt m 48 8 ∧ u.job.armLimit = leAt m 56 4 ∧ u.job.armSeq = some q ∧ u.job.ranges = mfRanges m
          ∧ u.job.measure = sha256 m ∧ u.job.linkKey.toNat = fld k 0 256 ∧ u.job.sealKey.toNat = fld k 256 256 ∧ u.job.ckKey.toNat = fld k 512 512
          ∧ u.job.memKey = BitVec.ofNat 512 (leNat ((upTo 64).map (fun i => Config.freeByte (s.freeIx + i))))
          ∧ rdB u (gd 0) 4 = true ∧ ownPos u = mfPos m ∧ rdB u selfReg 63 = true ∧ u.signals = [] ∧ u.vregs = [] ∧ u.colls = [] ∧ u.om.pairRx = []
          ∧ (∀ x ∈ mfRanges m, ∀ y, x.1 ≤ y → y < x.1 + x.2 * 0x200000 → rdByte u y = memDefault y)
          ∧ (∀ c ∈ u.port.cmds, c.seq = q → c.phase = .running) ∧ Posted s u 4 0 0))
        ∧ (bundle = none → Runs (.armJob q sigOk bundle) s (fun u => Done s u q stDenied 0 0 [] ∧ u.job = s.job
          ∧ rd u (gd 0x40) = satInc (rd s (gd 0x40)) ∧ rdF u (gd 0) 32 32 = min (2 ^ 32 - 1) (rdF s (gd 0) 32 32 + 1))))
      ∧ ((manifestFail s m sigOk).1 ≠ 0 → Runs (.armJob q sigOk bundle) s (fun u =>
          Done s u q (manifestFail s m sigOk).1 (manifestFail s m sigOk).2 0 [] ∧ u.job = s.job ∧ rdBytes u buf n = m
          ∧ Same [.port, .mem, .poisoned, .resv, .jlines, .dir, .dirAge, .regs] s u)))
    ∧ (s.job.state = .arming → rdB s (hp 0x108) 0 = false →
      (Runs (.mainRelock) s (fun u => rdF u (mtc 0x70) 0 8 = s.job.tempo % 256 ∧ RegsBut [mtc 0x70] s u ∧ Same [.regs] s u))
      ∧ (armDoneOk s = true → dieSetLoaded s = false → Runs (.armDone) s (fun u => rdB u (hp 0x108) 0 = true ∧ u.job = s.job
          ∧ RegsBut [hp 0x108] s u ∧ Same [.regs] s u))
      ∧ (armDoneOk s = true → dieSetLoaded s = true → rdF s (mtc 0x70) 0 8 = s.job.tempo → asidsOk s = true → s.job.armSeq = some q →
          Runs (.armDone) s (fun u => u.job.state = .armed ∧ u.job.armSeq = none ∧ Done s u q 0 0 0 [] ∧ rd u (hp 0x108) = 0
            ∧ Posted s u 4 0 0 ∧ (groupKeyed s = false → u.om = s.om)))
      ∧ (armDoneOk s = false → s.job.armSeq = some q → Runs (.armDone) s (fun u => u.job.state = .idle ∧ u.job.tag = 0 ∧ Done s u q stConflict 0 0 []
          ∧ (rdB s (gd 0) 4 = true → u.job.linkKey = 0 ∧ u.job.sealKey = 0 ∧ u.job.ckKey = 0 ∧ rdB u (gd 0) 4 = false) ∧ u.dies = [])))
    ∧ (s.job.state ≠ .arming → Runs (.armDone) s (fun u => ignored u))
    ∧ (jobLive s = false → Runs (.fail) s (fun u => ignored u))
    ∧ (jobLive s = true → Runs (.fail) s (fun u => u.job.state = .failed ∧ u.job.linkKey = s.job.linkKey ∧ Posted s u 4 stFault 0
      ∧ (∀ d < 8, ttState u d = (if ttState s d = 0 then 0 else 7)) ∧ Same [.regs, .port, .job, .mgmt] s u))
    ∧ (s.job.state = .arming → s.job.armedAt.toNat + s.job.armLimit * 1000000 ≤ (now a).toNat → Runs (.armLimitExpiry t) s (fun u =>
      u.job.state = .idle ∧ u.job.tag = 0 ∧ u.dies = [] ∧ ∀ x, s.job.armSeq = some x → Done s u x stFault 0 0 []))
    ∧ (s.job.state = .armed → groupKeyed s = true → s.job.announcedAt.toNat + 1000000 ≤ (now a).toNat →
      ∀ g p, groupOthers s = [g] → routePort s 12 g = some p → Runs (.armedAnnounce t) s (fun u =>
        Queued s u p 7 g 0 (ctrlPayload 1 0 s.job.tag s.guard.gpid p (rd s (hp 0x118))) ∧ u.job = { s.job with announcedAt := now a }
        ∧ RegsBut [omP p 0, mtc 0, mtc 8, mtc 0x58] s u ∧ Same [.regs, .om, .job, .mtcx] s u))
    ∧ ((now a).toNat < s.job.announcedAt.toNat + 1000000 → Runs (.armedAnnounce t) s (fun u => u = a))
    ∧ (Starts s q 0x21 b → (now s).toNat + 5000000 ≤ r → Runs (.rightAway q) s (fun u => Done s u q 0 0 0 [] ∧ (rd u (hp 0x118)).toNat = r
      ∧ (∀ d < 8, ttState u d = 3 ∧ (rd u (tt d 0x28)).toNat = r) ∧ (∀ g < 256, peerArmed u g = false)
      ∧ u.job = { s.job with announcedAt := now s } ∧ Same [.regs, .port, .om, .job] s u))
    ∧ (Starts s q 0x21 b → r < (now s).toNat + 5000000 → Runs (.rightAway q) s (fun u => Done s u q stRange 0 0 [] ∧ Same [.port] s u))
    ∧ (s.job.state = .armed → rd s (hp 0x118) ≠ 0 → (rd s (hp 0x118)).toNat ≤ (now a).toNat →
      (lineFailing s = none → Runs (.rightAwayReached t) s (fun u => u.job.state = .departed
        ∧ (ttState s 0 = 3 → mayDepart a 0 0 = true → ttState u 0 = 4 ∨ ttState u 0 = 6) ∧ (∀ d < 8, ttState s d ≠ 3 → ttState u d = ttState s d)))
      ∧ (∀ x, lineFailing s = some x → Runs (.rightAwayReached t) s (fun u => u.job.state = .held ∧ rdB u (hp 0x100) 5 = true
        ∧ u.job.notClear = some x ∧ (∀ d < 8, ttState u d = ttState s d))))

/-- R390, R496, R511, R512: a teardown stops every engine, waits for what works for the job or withdraws it, and leaves no key,
signal or translation of the job behind; its tag stays in quarantine, and the package is IDLE when nothing carries the tag.
What is the model's own choice in it is in log entries 4, 74, 94 and 134. -/
def Obligations.TeardownsLeaveNothing : Prop :=
  ∀ (s : State) (q : W32) (b : List Byte) (tag : BitVec 16) (t : W64),
    let a := advance s t
    let idle (u : State) : Prop := u.job.state = .idle ∧ u.job.tag = 0 ∧ u.job.rank = 0 ∧ ownPos u = s.img.groupPos % 256 ∧ rdB u selfReg 63 = false
    (Starts s q 0x22 b → Runs (.teardown q) s (fun u => u.job.state = .tearingDown ∧ u.job.tdSeq = some q ∧ u.job.armSeq = none
      ∧ u.job.linkKey = s.job.linkKey ∧ u.trains = [] ∧ u.calls = [] ∧ u.threads = [] ∧ u.upds = [] ∧ u.colls = []
      ∧ (∀ d < 8, ∀ e < 15, (eng u d e).reads = [] ∧ (eng u d e).writes = [] ∧ (eng u d e).hold = none)
      ∧ (∀ c ∈ u.port.cmds, c.seq = q → s.job.armSeq ≠ some q → c.phase = .running)
      ∧ u.mem = s.mem ∧ u.signals = s.signals))
    ∧ (s.job.state = .tearingDown → npNext s = none → tdOver a = true → Runs (.teardownWithdraw t) s (fun u => u.sigOps = [] ∧ u.om.reqs = []
      ∧ (∀ c ∈ u.port.cmds, jobCmd c = true → c.phase ≠ .running)
      ∧ (∀ r ∈ u.depot.reqs, rqOp r.desc < 6 → r.status.isSome = true) ∧ u.job = s.job
      ∧ RegsBut [mtc 0, mtc 8, mtc 0x58] s u ∧ Same [.regs, .mtcx, .port, .sigOps, .om, .depot] s u))
    ∧ (tdOver a = false → Runs (.teardownWithdraw t) s (fun u => u = a) ∧ Runs (.clearTimeout t) s (fun u => u = a))
    ∧ (s.job.state = .tearingDown → jobWork s = false → s.job.tdSeq = some q → rdB s (gd 0) 4 = true → s.ttx.poss = [] →
      Runs (.teardownComplete) s (fun u => u.job.state = .clear ∧ u.job.linkKey = 0 ∧ u.job.sealKey = 0 ∧ u.job.ckKey = 0 ∧ rdB u (gd 0) 4 = false
        ∧ u.job.ranges = [] ∧ u.signals = [] ∧ u.vregs = [] ∧ u.trans.tlb = [] ∧ u.dies = [] ∧ (∀ d < 8, rd u (tu d 0) = 0 ∧ ttState u d = 0)
        ∧ (s.job.tag, now s) ∈ u.job.quarantine
        ∧ (∀ c ∈ u.port.cmds, c.seq = q → c.phase = .done ∧ c.status = 0 ∧ c.result.length = 64)
        ∧ (∀ x ∈ s.job.ranges, ∀ y, x.1 ≤ y → y < x.1 + x.2 * 0x200000 → rdByte u y = memDefault y)))
    ∧ (s.job.state = .clear → tagCarried s = false → Runs (.tagCleared) s (fun u => idle u ∧ Posted s u 4 0 0
      ∧ u.job.quarantine = s.job.quarantine ∧ Same [.regs, .port, .job, .om] s u))
    ∧ (s.job.state = .clear → tdOver a = true → Runs (.clearTimeout t) s (fun u => idle u ∧ u.job.quarantine = s.job.quarantine
      ∧ ∀ p < 16, (∀ f ∈ (omPort u p).unacked, f.tag ≠ s.job.tag) ∧ (∀ f ∈ (omPort u p).held, f.tag ≠ s.job.tag)))
    ∧ (∀ c, (tag, c) ∈ s.job.quarantine → c.toNat + sec ≤ (now (advance s t)).toNat → Runs (.quarantineExpiry tag t) s (fun u =>
      (∀ x, x ∈ u.job.quarantine ↔ x ∈ s.job.quarantine ∧ x.1 ≠ tag) ∧ u.job = { s.job with quarantine := u.job.quarantine }
      ∧ RegsBut [mtc 0, mtc 8, mtc 0x58] s u ∧ Same [.regs, .mtcx, .job] s u))

/-- R413, R451, R476, R513 to R515: a function is asked to drain and is DISABLED when its work is gone or 100 ms have run, with
what is left withdrawn; it is enabled again from DISABLED alone. What is the model's own choice in it is in log entries 4,
69, 77 and 138. -/
def Obligations.FunctionsDrainAndReturn : Prop :=
  ∀ (s : State) (q : W32) (b : List Byte) (f : FunctionId) (ch : DChanIx) (t : W64) (nand : W32),
    let a := advance s t
    let kind := leAt b 32 1
    let i := leAt b 33 1
    let k := (funcKind f).1
    let j := (funcKind f).2
    (Starts s q 0x30 b → 1 ≤ kind → kind ≤ 3 → i < kindUnits kind →
      (leAt b 34 1 = 0 →
        (funcState s kind i = .enabled → disableFail s kind i = 0 → Runs (.setFunctionDisable q) s (fun u => funcState u kind i = .draining
          ∧ (∀ c ∈ u.port.cmds, c.seq = q → c.phase = .running) ∧ (kind ≠ 1 → Posted s u 9 0 0)
          ∧ u.dev.drainAt = Store.set (fun _ => 0) s.dev.drainAt (256 * kind + i) (now s).toNat ∧ (kind ≠ 2 → u.dev = { s.dev with drainAt := u.dev.drainAt }) ∧ Same [.regs, .port, .npFunc, .dev] s u))
        ∧ (funcState s kind i = .enabled → disableFail s kind i ≠ 0 → Runs (.setFunctionDisable q) s (fun u =>
            Done s u q (disableFail s kind i) 0 0 [] ∧ Same [.port] s u))
        ∧ (funcState s kind i = .draining → Runs (.setFunctionDisable q) s (fun u => Done s u q stBusy 0 0 [] ∧ Same [.port] s u))
        ∧ (funcState s kind i = .disabled → Runs (.setFunctionDisable q) s (fun u => Done s u q 0 0 0 [] ∧ Same [.port] s u)))
      ∧ (leAt b 34 1 = 1 →
        (funcState s kind i = .disabled → Runs (.setFunctionEnable q) s (fun u => funcState u kind i = .enabled ∧ Done s u q 0 0 0 []
          ∧ (kind = 1 → linkState u i = 1) ∧ (kind = 3 → u.depot.rewriting = s.depot.rewriting ++ [i])
          ∧ (kind = 2 → u.dev.npRst.getLsbD i = true) ∧ Same [.regs, .port, .npFunc, .depot, .dev] s u))
        ∧ (funcState s kind i = .draining → Runs (.setFunctionEnable q) s (fun u => Done s u q stBusy 0 0 [] ∧ Same [.port] s u))
        ∧ (funcState s kind i = .enabled → Runs (.setFunctionEnable q) s (fun u => Done s u q 0 0 0 [] ∧ Same [.port] s u))))
    ∧ (s.port.func = .enabled → Runs (.hostFunctionDisable) s (fun u => u.port.func = .draining ∧ Posted s u 9 0 0 ∧ RegsBut noticeKeys s u
      ∧ Same [.regs, .port, .dev] s u))
    ∧ (s.port.func ≠ .enabled → Runs (.hostFunctionEnable) s (fun u => u.port.func = .enabled ∧ Posted s u 9 0 0 ∧ RegsBut noticeKeys s u
      ∧ Same [.regs, .port, .dev] s u))
    ∧ (k ≠ 4 → funcState s k j = .draining → funcWork s k j = 0 → Runs (.functionDrained f) s (fun u => funcState u k j = .disabled
      ∧ (∀ c, s.port.cmds = [c] → slotOp c.slot = 0x30 → leAt c.slot 32 1 = k → leAt c.slot 33 1 = j → c.phase = .running → Done s u c.seq 0 0 0 [])))
    ∧ (k ≠ 4 → funcState s k j = .draining → drainOver a k j = true → Runs (.functionDrainExpiry f t nand) s (fun u => funcState u k j = .disabled
      ∧ (k = 1 → (omPort u j).queue = [] ∧ (omPort u j).unacked = [] ∧ (omPort u j).held = [] ∧ linkState u j = 0
          ∧ rd u (omP j 0x60) = satAdd (rd s (omP j 0x60)) (funcWork s 1 j))
      ∧ (k = 2 → rdB u (np 0) (4 * j) = false ∧ u.dev.npRst.getLsbD j = false)
      ∧ (k = 3 → rd u (dp 0x60) = satAdd (rd s (dp 0x60)) nand.toNat ∧ Posted a u 9 0 0
          ∧ RegsBut ([dpCh j, dp 0x60, mtc 0, mtc 8, mtc 0x58] ++ noticeKeys) s u ∧ Same [.regs, .port, .dev, .mtcx] s u)))
    ∧ (drainOver a k j = false → Runs (.functionDrainExpiry f t nand) s (fun u => u = a))
    ∧ (k = 4 → s.port.func = .draining → (s.port.cmds.all (fun c => decide (c.phase = .waiting)) = true → Runs (.functionDrained f) s (fun u =>
        u.port.func = .disabled ∧ u.port.cmds = s.port.cmds ∧ Posted s u 9 0 0))
      ∧ (drainOver a 4 0 = true → Runs (.functionDrainExpiry f t nand) s (fun u => u.port.func = .disabled
        ∧ (∀ c ∈ u.port.cmds, c ∈ s.port.cmds ∧ c.phase = .waiting) ∧ u.hostMem = s.hostMem ∧ u.hostLines = s.hostLines)))
    ∧ Runs (.stripeRewriteDone ch) s (fun u => u.depot = { s.depot with rewriting := s.depot.rewriting.erase ch.val } ∧ Same [.depot] s u)

/-- R459, R469 to R474, R477: requests of the depot's ring start in order and have their effect; each completes with its status
in its entry and moves the head. Refused requests have a status and no effect. What is the model's own choice in it is in log
entries 23, 24, 78, 79 and 131. -/
def Obligations.DepotRequests : Prop :=
  ∀ (s : State) (v : W64) (x : LadderRead) (ix : BitVec 11) (b : List Byte) (t : W64),
    let a := advance s t
    let i := ((rd s (dp 0x20)).toNat + s.depot.reqs.length) % max 1 (dpRingSize s)
    let name := rqName b
    let me := findObj s name s.job.rank false
    let key := BitVec.ofNat 64 (rqOff b)
    let now0 := now s
    let fin (st : Nat) : DepotReq := { index := i, desc := b, status := some st, data := [], ids := [], startedAt := now0 }
    let started (u : State) (st : Nat) : Prop := u.depot.reqs = s.depot.reqs ++ [fin st]
    let others (u : State) : Prop := ∀ n r p, (n, r, p) ≠ (name, s.job.rank, false) → findObj u n r p = findObj s n r p
    let next (op : Nat) : Prop := dpNext s = some (i, b) ∧ ringOpen s (dpEntry s i) 64 = true ∧ rqOp b = op ∧ s.depot.reqs.all (fun r => !decide (rqKey r.desc = rqKey b)) = true
    let good (op : Nat) : Prop := next op ∧ rqCheck s b = 0
    Runs (.dpRingTailWrite v) s (fun u => rd u (dp 0x18) = v ∧ RegsBut [dp 0x18] s u ∧ Same [.regs] s u)
    ∧ (rd s (dp 0x20) = rd s (dp 0x18) → Runs (.dpRingBaseWrite v) s (fun u => rd u (dp 0x10) = v ∧ RegsBut [dp 0x10] s u ∧ Same [.regs] s u))
    ∧ (rd s (dp 0x20) ≠ rd s (dp 0x18) → Runs (.dpRingBaseWrite v) s (fun u => Raised s u 12 0x2000008 5
      ∧ RegsBut (dp 8 :: noticeKeys) s u ∧ Same [.regs, .port] s u))
    ∧ (∀ c ∈ [(Instr.objWrite, 1), (Instr.objCommit, 2), (Instr.objRead x, 3), (Instr.objStat, 4), (Instr.objDelete, 5), (Instr.pageOut, 6),
        (Instr.pageIn x, 7), (Instr.pageDrop, 8)], next c.2 → rqCheck s b ≠ 0 →
          Runs c.1 s (fun u => started u (rqCheck s b) ∧ RegsBut [] s u ∧ Same [.depot] s u))
    ∧ (good 1 → rqBuddy b = false → me = none → s.depot.objects.length < 1048576 → depotRoom s (rqOff b + rqLen b) = true → ∀ y z,
      jobPieces s (rqMem b) (rqLen b) false = .ok [(y, z)] → poisonedRange s y z = false → Runs (.objWrite) s (fun u => started u 0
        ∧ (∃ o, findObj u name s.job.rank false = some o ∧ o.state = 1 ∧ o.buddied = some false ∧ o.length = rqOff b + rqLen b ∧ o.tag = s.job.tag
            ∧ o.created = now s ∧ (upTo z).map (fun j => Store.get memDefault o.data (rqOff b + j)) = cohBytes s y z)
        ∧ others u ∧ u.mem = s.mem ∧ Same [.depot, .regs, .jlines, .dir, .dirAge, .trans] s u))
    ∧ (∀ o, me = some o → o.ckKey = s.job.ckKey →
      let bytes := (upTo o.length).map (fun j => Store.get memDefault o.data j)
      (good 2 → rqBuddy b = false → o.buddied = some false → Runs (.objCommit) s (fun u => started u 0
        ∧ findObj u name s.job.rank false = some { o with state := 2, committed := now s, digest := sha256 bytes }
        ∧ others u ∧ Same [.depot, .regs] s u))
      ∧ (good 3 → rqFrom b = false → o.state = 1 → rqOff b + rqLen b ≤ o.length → ladderStep s x < 6 → ∀ y z,
        jobPieces s (rqMem b) (rqLen b) true = .ok [(y, z)] → Runs (.objRead x) s (fun u => started u 0 ∧ u.depot.objects = s.depot.objects
          ∧ cohBytes u y z = (upTo (rqLen b)).map (fun j => Store.get memDefault o.data (rqOff b + j))
          ∧ (∀ w, w < y ∨ y + z ≤ w → cohBytes u w 1 = cohBytes s w 1)))
      ∧ (good 3 → rqFrom b = false → o.state = 2 → rqOff b = 0 → rqLen b = o.length → sha256 bytes ≠ o.digest → ladderStep s x < 6 → ∀ y z,
        jobPieces s (rqMem b) (rqLen b) true = .ok [(y, z)] → Runs (.objRead x) s (fun u => started u stFault
          ∧ findObj u name s.job.rank false = some { o with state := 3 } ∧ others u ∧ u.mem = s.mem))
      ∧ (good 3 → rqFrom b = false → o.state ≠ 3 → rqOff b + rqLen b ≤ o.length → ladderStep s x = 6 → ∀ y z,
        jobPieces s (rqMem b) (rqLen b) true = .ok [(y, z)] → Runs (.objRead x) s (fun u => started u stFault
          ∧ findObj u name s.job.rank false = some { o with state := 3 } ∧ u.mem = s.mem))
      ∧ (good 4 → ∀ y z, jobPieces s (rqMem b) 256 true = .ok [(y, z)] → Runs (.objStat) s (fun u => started u 0 ∧ cohBytes u y 256 = objHeader o
          ∧ u.depot.objects = s.depot.objects))
      ∧ (good 5 → Runs (.objDelete) s (fun u => started u 0 ∧ findObj u name s.job.rank false = none
          ∧ (∀ y ∈ s.depot.objects, y.name ≠ name → y ∈ u.depot.objects) ∧ u.mem = s.mem ∧ Same [.depot, .regs] s u)))
    ∧ (good 6 → depotRoom s (rqLen b) = true → inUnified (rqMem b) (rqLen b) = true → possessed s (rqMem b) (rqLen b) = false → poisonedRange s (rqMem b) (rqLen b) = false →
      Runs (.pageOut) s (fun u => started u 0 ∧ u.mem = s.mem ∧ (key, rqMem b, cohBytes s (rqMem b) (rqLen b)) ∈ u.depot.pages
        ∧ (∀ p, p.1 ≠ key → (p ∈ u.depot.pages ↔ p ∈ s.depot.pages)) ∧ Same [.depot, .regs, .jlines, .dir, .dirAge] s u))
    ∧ (∀ p, s.depot.pages.find? (fun p => decide (p.1 = key) && decide (p.2.2.length = rqLen b)) = some p →
      (good 7 → inUnified (rqMem b) (rqLen b) = true → possessed s (rqMem b) (rqLen b) = false → ladderStep s x < 6 → Runs (.pageIn x) s (fun u => started u 0
        ∧ cohBytes u (rqMem b) (rqLen b) = p.2.2 ∧ (∀ w, w < rqMem b ∨ rqMem b + rqLen b ≤ w → cohBytes u w 1 = cohBytes s w 1)
        ∧ u.depot.pages = s.depot.pages))
      ∧ (good 8 → Runs (.pageDrop) s (fun u => started u 0 ∧ (∀ y, y ∈ u.depot.pages ↔ y ∈ s.depot.pages ∧ y.1 ≠ key)
        ∧ Same [.depot, .regs] s u)))
    ∧ (∀ r st, s.depot.reqs.find? (fun r => decide (r.index = ix.toNat)) = some r → r.status = some st → ringOpen s (dpEntry s ix.toNat + 2) 2 = true → Runs (.depotRequestComplete ix) s (fun u =>
      u.depot = { s.depot with reqs := s.depot.reqs.erase r } ∧ cohBytes u (dpEntry s ix.toNat + 2) 2 = leBytes 2 st
      ∧ rd u (dp 0x20) = BitVec.ofNat 64 (((rd s (dp 0x20)).toNat + 1) % max 1 (dpRingSize s)) ∧ Raised s u 12 0x2000008 0
      ∧ Same [.regs, .mem, .poisoned, .resv, .jlines, .dir, .depot, .port] s u))
    ∧ (s.depot.reqs.any (fun r => decide (r.index = ix.toNat) && r.status.isNone && decide (r.startedAt.toNat + 100000000 ≤ (now a).toNat)) = true →
      Runs (.buddyTimeout ix t) s (fun u =>
      (∀ r ∈ u.depot.reqs, r.index = ix.toNat → r.status = some stFault) ∧ (∀ r ∈ u.om.reqs, r.agent = 2 → r.owner ≠ ix.toNat)
      ∧ RegsBut [mtc 0, mtc 8, mtc 0x58] s u ∧ Same [.depot, .om, .regs, .mtcx] s u))
    ∧ ((∀ r ∈ s.depot.reqs, (now a).toNat < r.startedAt.toNat + 100000000) → Runs (.buddyTimeout ix t) s (fun u => u = a))

/-- R462 to R468: patrol reads flag weak blocks; a flagged block is refreshed and erased, and retired the second time within 7
days; wear levelling erases a block that lags; failures retire blocks and LUNs, and a rebuild ends. R476: a channel whose 100
ms of draining have run is DISABLED, and its stripes are rewritten once it is back; a lost page of a stripe is restored from
its other pages (R457). What is the model's own choice in it is in log entries 4, 78 and 131. -/
def Obligations.DepotNand : Prop :=
  ∀ (s : State) (ch : DChanIx) (lun : Fin 16) (block dst : BitVec 16) (strong : Bool) (oldest : W32) (x : LadderRead) (of : CodewordOf) (t : W64),
    let st := ladderStep s x
    let kx := nandKey x.ch x.lun x.block.toNat
    let bx := nand s kx
    let sameX (u : State) : Prop := ∀ i, i ≠ kx → nand u i = nand s i
    let k := nandKey ch lun block.toNat
    let blk := nand s k
    let same (u : State) : Prop := ∀ i, i ≠ k → nand u i = nand s i
    (nandOn s = true → lunUp s x.ch x.lun = true →
      (st < 6 → Runs (.patrolRead x strong oldest of) s (fun u => (rd u (dp 0x58)).toNat = oldest.toNat
        ∧ nand u kx = { bx with refresh := bx.refresh || strong || (decide (3 ≤ st) && !pageAway s x), offset := bx.offset || decide (st = 2) || decide (st = 3) }
        ∧ (2 ≤ st → rdF u (dp 0x50) (16 * (st - 2)) 16 = min (rdF s (dp 0x50) (16 * (st - 2)) 16 + 1) 65535)
        ∧ (st < 2 → rd u (dp 0x50) = rd s (dp 0x50))
        ∧ sameX u ∧ RegsBut [dp 0x40, dp 0x50, dp 0x58] s u ∧ Same [.regs, .depot] s u ∧ u.depot.objects = s.depot.objects ∧ u.depot.pages = s.depot.pages))
      ∧ (st = 6 → Runs (.patrolRead x strong oldest of) s (fun u => (nand u kx).refresh = (bx.refresh || strong) ∧ sameX u
        ∧ rdF u (dp 0x50) 48 16 = min (rdF s (dp 0x50) 48 16 + 1) 65535 ∧ rdB u (dp 0x68) 63 = true ∧ rdF u (dp 0x68) 0 5 = x.ch
        ∧ rdF u (dp 0x68) 5 4 = x.lun ∧ rdB u (dp 8) 4 = true ∧ Posted s u 8 0 4
        ∧ (∀ n r p o, of = .object n r p → findObj s (leBytes 32 n.toNat) r.toNat p = some o →
            findObj u o.name o.rank o.replica = some { o with state := 3 } ∧ u.depot.pages = s.depot.pages)
        ∧ (∀ y, of = .page y → (∀ p, p ∈ u.depot.pages ↔ p ∈ s.depot.pages ∧ p.1 ≠ y) ∧ u.depot.objects = s.depot.objects)
        ∧ Same [.regs, .depot, .port] s u)))
    ∧ (nandOn s = true →
      (lunUp s ch lun = true →
        (blk.refresh = true → blk.retired = false → dpState s = 1 →
            (strong = false ∨ ∀ c, blk.step4At = some c → c.toNat + weekBeats < (now s).toNat) → Runs (.blockRefresh ch lun block strong) s (fun u =>
          nand u k = { blk with refresh := false, erases := blk.erases + 1, step4At := if strong then some (now s) else blk.step4At }
          ∧ same u ∧ (rd u (dp 0x40)).toNat = max (rd s (dp 0x40)).toNat (blk.erases + 1) % 2 ^ 64 ∧ RegsBut [dp 0x40] s u ∧ Same [.regs, .depot] s u))
        ∧ (blk.refresh = true → blk.retired = false → dpState s = 1 → strong = true → ∀ c, blk.step4At = some c → (now s).toNat ≤ c.toNat + weekBeats →
          Runs (.blockRefresh ch lun block strong) s (fun u => (nand u k).retired = true ∧ (nand u k).erases = blk.erases + 1 ∧ same u
            ∧ rd u (dp 0x48) = satInc (rd s (dp 0x48))))
        ∧ (block ≠ dst → (nand s (nandKey ch lun dst.toNat)).retired = false → blk.erases + 500 < lunMean s ch lun →
          Runs (.wearLevelMove ch lun block dst) s (fun u => nand u k = { blk with erases := blk.erases + 1, refresh := false } ∧ same u
            ∧ RegsBut [dp 0x40] s u ∧ Same [.regs, .depot] s u))
        ∧ (blk.retired = false → (Store.get (fun _ => []) s.depot.retiredAt (ch * 16 + lun)).length < 31 → 0 < rdF s (dpCh ch) 23 32 →
          Runs (.nandOperationFailure ch lun block) s (fun u => (nand u k).retired = true ∧ same u ∧ rd u (dp 0x48) = satInc (rd s (dp 0x48))
            ∧ rdF u (dpCh ch) 23 32 = rdF s (dpCh ch) 23 32 - 1
            ∧ (dpState s = 1 → dpState u = (if (rdF s (dpCh ch) 23 32 - 1) * 200 < s.depot.chanBlocks then 2 else 1))
            ∧ lunUp u ch lun = true ∧ u.depot.objects = s.depot.objects)))
      ∧ (rdB s (dpCh ch) (7 + lun) = false → Runs (.lunTimeout ch lun) s (fun u => lunUp u ch lun = false
          ∧ u.depot.rebuilds = s.depot.rebuilds ++ [ch * 16 + lun.val] ∧ rdB u (dp 0) 12 = true
          ∧ rdF u (dp 0) 2 10 = rdF s (dp 0) 2 10 - 1 ∧ rdF u (dpCh ch) 2 5 = rdF s (dpCh ch) 2 5 - 1 ∧ u.depot.objects = s.depot.objects
          ∧ Raised s u 12 0x2000008 2 ∧ RegsBut ([dp 0, dp 8, dp 0x28, dp 0x30, dpCh ch] ++ noticeKeys) s u ∧ Same [.regs, .port, .depot] s u)))
    ∧ (rdF s (dpCh ch) 0 2 = 1 → drainOver (advance s t) 3 ch = true → Runs (.functionDrainExpiry (.depot ch) t oldest) s (fun u =>
      rdF u (dpCh ch) 0 2 = 2 ∧ rd u (dp 0x60) = satAdd (rd s (dp 0x60)) oldest.toNat ∧ u.depot = s.depot))
    ∧ Runs (.stripeRewriteDone ch) s (fun u => u.depot.rewriting = s.depot.rewriting.erase ch.val ∧ Same [.depot] s u)
    ∧ (ch.val * 16 + lun.val ∈ s.depot.rebuilds → Runs (.lunRebuildDone ch lun) s (fun u =>
      u.depot = { s.depot with rebuilds := s.depot.rebuilds.erase (ch.val * 16 + lun.val) } ∧ rdB u (dp 0) 12 = !u.depot.rebuilds.isEmpty
      ∧ Raised s u 12 0x2000008 3 ∧ RegsBut ([dp 0, dp 8] ++ noticeKeys) s u ∧ Same [.regs, .port, .depot] s u))
    ∧ (∀ (w : Nat) (l : List (BitVec w)) (i : Nat) (h : i < l.length), stripeRestore l i = l[i])

/-- R424 to R429, R443, R448: a doorbell moves the producer index within 4,096 of EXP; a slot that is not yet written is read
again and then stops intake; a written slot is accepted whole and checked; a completed command leaves with its result in
place and its COMPLETION posted. What is the model's own choice in it is in log entries 11, 36 and 69. -/
def Obligations.HostCommandIntake : Prop :=
  ∀ (s : State) (q : W32) (written : List Byte),
    let dd := (q - expSeq s).toNat
    let i := (expSeq s).toNat % 4096
    let b := slotBytes s i
    (hostUp s = true → Runs (.hpDoorbell q) s (fun u => expSeq u = expSeq s ∧ (stopped s = true → stopped u = false ∧ u.port.rereads = 0)
      ∧ (4096 < dd → u.port.tail = s.port.tail ∧ rdB u (bar0 0x78) 1 = true ∧ Posted s u 0xB stBadSeq 0)
      ∧ (dd ≤ 4096 → u.port.tail = (if (s.port.tail - expSeq s).toNat < dd then q else s.port.tail))
      ∧ (dd ≤ 4096 → stopped s = false → RegsBut [] s u)
      ∧ Same [.regs, .port] s u))
    ∧ (intakeOpen s = true → written.length ≤ 1024 → Runs (.slotRead written) s (fun u =>
      (∀ k < written.length, Store.get memDefault u.bar2 (i * 1024 + k) = written.getD k 0)
      ∧ (∀ a, a < i * 1024 ∨ i * 1024 + written.length ≤ a → Store.get memDefault u.bar2 a = Store.get memDefault s.bar2 a)
      ∧ (slotFault (expSeq s) (slotBytes u i) = 0 → u.port = s.port ∧ RegsBut [] s u)
      ∧ (slotFault (expSeq s) (slotBytes u i) ≠ 0 → s.port.rereads < 64 → u.port = { s.port with rereads := s.port.rereads + 1 } ∧ RegsBut [] s u)
      ∧ (slotFault (expSeq s) (slotBytes u i) ≠ 0 → 64 ≤ s.port.rereads → stopped u = true ∧ rdB u (bar0 0x78) 0 = true
          ∧ rd u (bar0 0x68) = satInc (rd s (bar0 0x68)) ∧ Posted s u 0xA 0 0)
      ∧ Same [.regs, .port, .bar2] s u))
    ∧ (intakeOpen s = true → slotFault (expSeq s) b = 0 → Runs (.commandAccept) s (fun u => expSeq u = expSeq s + 1
      ∧ (∃ c, u.port.cmds = s.port.cmds ++ [c] ∧ c.seq = expSeq s ∧ c.slot = b ∧ c.status = slotCheck s b ∧ c.muted = false
          ∧ c.phase = (if slotCheck s b = 0 then .waiting else .done))
      ∧ u.port.rereads = 0 ∧ u.port.tail = s.port.tail ∧ RegsBut [bar0 0x20] s u ∧ Same [.regs, .port] s u))
    ∧ (∀ c, s.port.cmds.find? (fun c => decide (c.seq = q) && decide (c.phase = .done)) = some c →
      (s.port.func = .enabled ∨ c.result = []) → slotOp c.slot ≠ 0x41 → c.muted = false → Runs (.completion q) s (fun u =>
        u.port.cmds = s.port.cmds.filter (fun c => decide (c.seq ≠ q))
        ∧ (∃ n, u.port.noticeQ.getLast? = some n ∧ n.typ = 1 ∧ n.status = c.status ∧ n.mtc = now s ∧ n.d1 = BitVec.ofNat 64 c.result.length
            ∧ n.d2 = c.value ∧ n.d0 = BitVec.ofNat 64 (q.toNat + 2 ^ 32 * slotOp c.slot + 2 ^ 48 * (c.detail % 2 ^ 16)))
        ∧ (slotOp c.slot ≠ 0x12 → (Nat.testBit (slotFlags c.slot) 1 = false ∨ s.port.cxlCache = false) →
            hostBytes u (slotAddr c.slot) c.result.length = c.result)
        ∧ RegsBut noticeKeys s u ∧ Same [.regs, .port, .hostMem, .hostLines, .nportMem] s u))

/-- R428 to R440, R448, R488, R498, R499, R539, R561: what each command that does not belong to a job's course does once it
starts, and ST_STATE where the device's or the job's state does not admit it. What is the model's own choice in it is in log
entries 6, 7, 15, 68, 90, 91, 113 and 132. -/
def Obligations.HostCommandsComplete : Prop :=
  ∀ (s : State) (q : W32) (b : List Byte) (opened : Option (List Byte)) (sigOk backOk : Bool),
    let n := leAt b 36 4
    let off := leAt b 40 8
    let first := leAt b 32 4
    let inl := Nat.testBit (slotFlags b) 2
    let pf := putFrame s b
    let f := pf.2.1
    let sg := leAt b 34 2
    let au := landFile s (leAt b 36 4) (leAt b 40 4)
    let a := au.2.1
    let lf := landFile s first n
    let im := lf.2.1
    (∀ c ∈ [(Instr.identify q, 0x01, 0, 0), (Instr.getStatus q, 0x02, 0, 0), (Instr.mapLanding q, 0x10, 0, 0), (Instr.put q opened, 0x11, 0, 0),
        (Instr.get q, 0x12, 0, 0), (Instr.signalRead q, 0x23, 32, 0), (Instr.signalSet q, 0x23, 32, 1), (Instr.signalAdd q, 0x23, 32, 2),
        (Instr.stable q, 0x40, 0, 0), (Instr.maintenanceEnter q sigOk, 0x41, 32, 1), (Instr.maintenanceRestart q, 0x41, 32, 2),
        (Instr.updateFirmware q sigOk backOk, 0x42, 40, 1), (Instr.updateConfiguration q sigOk backOk, 0x42, 40, 2), (Instr.attest q, 0x50, 0, 0)],
      (∃ x, startable s q = some x ∧ x.slot = b) → slotOp b = c.2.1 → (c.2.2.1 = 0 ∨ leAt b c.2.2.1 1 = c.2.2.2) → admitted s b = false →
        Runs c.1 s (fun u => Done s u q stState 0 0 [] ∧ Same [.port] s u))
    ∧ (Starts s q 0x01 b → Runs (.identify q) s (fun u => Done s u q 0 0 0 (identifyBytes s) ∧ (identifyBytes s).length = 128 ∧ Same [.port] s u))
    ∧ (Starts s q 0x02 b → Runs (.getStatus q) s (fun u => Done s u q 0 0 0 (statusBytes s) ∧ (statusBytes s).length = 256 ∧ Same [.port] s u))
    ∧ (Starts s q 0x50 b → Runs (.attest q) s (fun u => Done s u q 0 0 0 (report s (slice b 32 32)) ∧ Same [.port] s u))
    ∧ (Starts s q 0x10 b →
      (n ≠ 0 → first + n ≤ 4096 → off + n * 65536 ≤ landBytes s → off % 65536 = 0 → Runs (.mapLanding q) s (fun u => Done s u q 0 0 0 []
        ∧ (∀ p, landPiece u p = (if first ≤ p ∧ p < first + n then (if Nat.testBit (leAt b 48 1) 0 then none else some (off / 65536 + (p - first)))
            else landPiece s p)) ∧ Same [.port] s u))
      ∧ (n = 0 ∨ 4096 < first + n ∨ landBytes s < off + n * 65536 → Runs (.mapLanding q) s (fun u => Done s u q stRange 0 0 []
          ∧ u.port.pages = s.port.pages ∧ Same [.port] s u)))
    ∧ (Starts s q 0x11 b → 49 ≤ n → n ≤ 65584 → (inl = true → n = slotInline b) → (inl = false → first + n ≤ landBytes s) → pf.1 = 0 →
      (frameOk s true f opened = none → Runs (.put q opened) s (fun u => Done s u q stDenied 0 0 [] ∧ u.mem = s.mem ∧ u.job = s.job
        ∧ Same [.port, .regs, .jlines, .dir, .dirAge] s u))
      ∧ (∀ p x y, frameOk s true f opened = some p → jobPieces s off p.length true = .ok [(x, y)] → Runs (.put q opened) s (fun u =>
        Done s u q 0 0 0 [] ∧ cohBytes u x p.length = p ∧ (∀ z, z < x ∨ x + p.length ≤ z → cohBytes u z 1 = cohBytes s z 1)
        ∧ (Store.get (fun _ => []) u.job.sealRx (2 ^ 20)).contains (leAt f 16 8) = true
        ∧ Same [.port, .regs, .mem, .poisoned, .resv, .jlines, .dir, .dirAge, .trans, .job] s u)))
    ∧ (Starts s q 0x12 b → leAt b 44 1 = 0 → 0 < leAt b 40 4 → leAt b 40 4 ≤ 65536 → ∀ x y,
      jobPieces s (leAt b 32 8) (leAt b 40 4) false = .ok [(x, y)] → poisonedRange s x y = false → Runs (.get q) s (fun u =>
        Done s u q 0 0 0 (sealFrame s true 0 s.job.hostFrames 0 (cohBytes s x y)) ∧ u.job = { s.job with hostFrames := s.job.hostFrames + 1 }
        ∧ Same [.port, .regs, .jlines, .dir, .dirAge, .trans, .job] s u))
    ∧ (Starts s q 0x23 b → sg ≤ 16383 →
      (leAt b 32 1 = 0 → Runs (.signalRead q) s (fun u => Done s u q 0 0 (sigVal s sg) [] ∧ Same [.port] s u))
      ∧ (∀ c ∈ [(Instr.signalSet q, 1), (Instr.signalAdd q, 2)], leAt b 32 1 = c.2 → Runs c.1 s (fun u =>
        u.sigOps = s.sigOps ++ [{ sig := sg, add := decide (c.2 = 2), value := BitVec.ofNat 64 off, order := none, asker := 1, askId := q.toNat
                                  setMode := false }]
        ∧ (∀ x ∈ u.port.cmds, x.seq = q → x.phase = .running) ∧ Same [.port, .sigOps] s u)))
    ∧ (Starts s q 0x30 b → leAt b 32 1 = 1 → leAt b 33 1 < 16 →
      (leAt b 34 1 = 0 → funcState s 1 (leAt b 33 1) = .enabled → portBooked s (leAt b 33 1) = false → Runs (.setFunctionDisable q) s (fun u =>
        portFunc u (leAt b 33 1) = 1 ∧ (∀ x ∈ u.port.cmds, x.seq = q → x.phase = .running) ∧ Same [.regs, .port, .dev] s u))
      ∧ (leAt b 34 1 = 1 → funcState s 1 (leAt b 33 1) = .disabled → Runs (.setFunctionEnable q) s (fun u =>
        portFunc u (leAt b 33 1) = 0 ∧ linkState u (leAt b 33 1) = 1 ∧ Done s u q 0 0 0 [] ∧ Same [.regs, .port, .dev] s u)))
    ∧ (Starts s q 0x40 b → Runs (.stable q) s (fun u => Done s u q 0 0 0 [] ∧ u.dev = { s.dev with entering := true, wakePending := false, stableSeq := some q }
      ∧ Same [.port, .dev] s u))
    ∧ (Starts s q 0x41 b → (leAt b 32 1 = 2 → Runs (.maintenanceRestart q) s (fun u => Done s u q 0 0 0 [] ∧ Same [.port] s u))
      ∧ (leAt b 32 1 = 1 → au.1 = stFault → Runs (.maintenanceEnter q sigOk) s (fun u => Done s u q stFault 0 0 [] ∧ u.guard = s.guard
        ∧ u.dev = s.dev ∧ RegsBut [] au.2.2 u))
      ∧ (leAt b 32 1 = 1 → au.1 ≠ stFault → authorised s a sigOk = true → Runs (.maintenanceEnter q sigOk) s (fun u => u.dev.state = .maintenance
        ∧ u.guard.perms = BitVec.ofNat 16 (leAt a 6 2) ∧ u.guard.challenge = (upTo 32).map (fun i => Config.freeByte (s.freeIx + i))
        ∧ (u.dev.testOpen = true ↔ s.dev.testOpen = true ∨ Nat.testBit (leAt a 6 2) 2 = true) ∧ Done s u q 0 0 0 []))
      ∧ (leAt b 32 1 = 1 → au.1 ≠ stFault → authorised s a sigOk = false → Runs (.maintenanceEnter q sigOk) s (fun u => Done s u q stSignature 0 0 []
        ∧ rd u (gd 0x40) = satInc (rd s (gd 0x40)) ∧ rdB u (gd 8) 3 = true ∧ RegsBut ([gd 0x40, gd 8] ++ noticeKeys) au.2.2 u
        ∧ Same [.port, .regs, .jlines, .dir, .dirAge] s u)))
    ∧ (Starts s q 0x42 b → lf.1 = 0 →
      (leAt b 40 1 = 1 → bitOf s.guard.perms 0 = true → fwCheck s im sigOk = 0 → Runs (.updateFirmware q sigOk backOk) s (fun u =>
        u.guard = { s.guard with norFw := if backOk then some im else none } ∧ Done s u q (if backOk then 0 else stFault) 0 0 []
        ∧ RegsBut [] lf.2.2 u ∧ Same [.port, .guard, .regs, .jlines, .dir, .dirAge] s u))
      ∧ (leAt b 40 1 = 2 → bitOf s.guard.perms 1 = true → cfgCheck s im sigOk = 0 → Runs (.updateConfiguration q sigOk backOk) s (fun u =>
        u.guard = { s.guard with norCfg := if backOk then some im else none } ∧ Done s u q (if backOk then 0 else stFault) 0 0 []
        ∧ RegsBut [] lf.2.2 u ∧ Same [.port, .guard, .regs, .jlines, .dir, .dirAge] s u))
      ∧ (leAt b 40 1 = 1 → (bitOf s.guard.perms 0 = false ∨ fwCheck s im sigOk ≠ 0) → Runs (.updateFirmware q sigOk backOk) s (fun u =>
        Done s u q stSignature 0 0 [] ∧ RegsBut [] lf.2.2 u ∧ Same [.port, .regs, .jlines, .dir, .dirAge] s u))
      ∧ (leAt b 40 1 = 2 → (bitOf s.guard.perms 1 = false ∨ cfgCheck s im sigOk ≠ 0) → Runs (.updateConfiguration q sigOk backOk) s (fun u =>
        Done s u q stSignature 0 0 [] ∧ RegsBut [] lf.2.2 u ∧ Same [.port, .regs, .jlines, .dir, .dirAge] s u)))
    ∧ (Starts s q 0x42 b → lf.1 ≠ 0 → ∀ c ∈ [(Instr.updateFirmware q sigOk backOk, 1), (Instr.updateConfiguration q sigOk backOk, 2)],
      leAt b 40 1 = c.2 → Runs c.1 s (fun u => Done s u q lf.1 0 0 [] ∧ u.guard = s.guard))

/-- R419, R420, R422, R435, R436, R441, R442, R445, R446, R450, R487, R541: landing writes reach the mapped pieces of the landing
area and nothing else; notices go to the ring in host memory while there is room, followed by the MSI-X message; the wake and
runtime registers, a reset of the port, and the sessions of the Guard. What is the model's own choice in it is in log entries
29, 30, 31, 33, 92, 96 and 133. -/
def Obligations.NoticesLandingsAndResets : Prop :=
  ∀ (s : State) (off : BitVec 28) (data : List Byte) (v : W64) (size : Bool) (kind : PortReset) (key : List Byte) (t : W64),
    let a := advance s t
    let clock := [mtc 0, mtc 8, mtc 0x58]
    let o := off.toNat
    let i := rd s (bar0 0x38)
    let tail := rdF s (bar0 0x40) 0 32
    let head := rdF s (bar0 0x38) 0 32
    (hostUp s = true →
      (∀ n, landPiece s (o / 65536) = some n → 0 < data.length →
        let pa := (rd s (hp 0)).toNat + n * 65536 + o % 65536
        (possessed s pa data.length = false → inUnified pa data.length = true → Runs (.landingWrite off data) s (fun u =>
          cohBytes u pa data.length = data ∧ (∀ z, z < pa ∨ pa + data.length ≤ z → cohBytes u z 1 = cohBytes s z 1)
          ∧ Same [.regs, .mem, .poisoned, .resv, .jlines, .dir] s u))
        ∧ (possessed s pa data.length = true → Runs (.landingWrite off data) s (fun u => u.mem = s.mem
          ∧ rd u (jn (homeOf s pa) 0x20) = satInc (rd s (jn (homeOf s pa) 0x20)) ∧ rd u (bar0 0x58) = satInc (rd s (bar0 0x58))
          ∧ u.port.deniedCount = s.port.deniedCount + 1 ∧ (s.port.deniedCount = 0 → u.port.deniedReason = 2 ∧ u.port.deniedFirst.toNat = o)
          ∧ Same [.regs, .port] s u)))
      ∧ (landPiece s (o / 65536) = none → Runs (.landingWrite off data) s (fun u => rd u (bar0 0x58) = satInc (rd s (bar0 0x58))
        ∧ u.port.deniedCount = s.port.deniedCount + 1 ∧ (s.port.deniedCount = 0 → u.port.deniedReason = 1 ∧ u.port.deniedFirst.toNat = o)
        ∧ RegsBut [bar0 0x58] s u ∧ Same [.regs, .port] s u))
      ∧ Runs (.bar4Read off) s (fun u => rd u (bar0 0x60) = satInc (rd s (bar0 0x60)) ∧ rdB u (bar0 0x78) 3 = true
        ∧ RegsBut [bar0 0x60, bar0 0x78] s u ∧ Same [.regs] s u)
      ∧ (rdB s (bar0 0x48) 0 = false → Runs (.hpNoticeCtrlWrite v) s (fun u => rd u (bar0 0x48) = v &&& 0xFF01
        ∧ rd u (bar0 0x40) = (if bitOf v 0 then 0 else rd s (bar0 0x40)) ∧ RegsBut [bar0 0x40, bar0 0x48] s u ∧ Same [.regs] s u))
      ∧ (rdB s (bar0 0x48) 0 = true → Runs (.hpNoticeCtrlWrite v) s (fun u => rdF u (bar0 0x48) 8 8 = rdF s (bar0 0x48) 8 8
        ∧ rdB u (bar0 0x48) 0 = bitOf v 0 ∧ (fld v 8 8 ≠ rdF s (bar0 0x48) 8 8 → rdB u (bar0 0x78) 5 = true)
        ∧ RegsBut [bar0 0x48, bar0 0x78] s u ∧ Same [.regs] s u))
      ∧ ((v.toNat + 2 ^ 32 - head) % 2 ^ 32 ≤ (tail + 2 ^ 32 - head) % 2 ^ 32 → Runs (.hpNoticeHeadWrite v) s (fun u =>
        (rd u (bar0 0x38)).toNat = v.toNat % 2 ^ 32 ∧ RegsBut [bar0 0x38] s u ∧ Same [.regs] s u))
      ∧ ((tail + 2 ^ 32 - head) % 2 ^ 32 < (v.toNat + 2 ^ 32 - head) % 2 ^ 32 → Runs (.hpNoticeHeadWrite v) s (fun u =>
        rd u (bar0 0x38) = i ∧ rdB u (bar0 0x78) 5 = true ∧ RegsBut [bar0 0x78] s u ∧ Same [.regs] s u))
      ∧ (∀ n rest, s.port.noticeQ = n :: rest → rdB s (bar0 0x48) 0 = true → s.port.func = .enabled → ringUsed s < ringSize s →
        s.port.dropped = 0 → Runs (.noticeWrite) s (fun u => u.port.noticeQ = rest ∧ u.port.msixDue = true
          ∧ hostBytes u ((rd s (bar0 0x28)).toNat + n.nseq.toNat % ringSize s * 64) 64 = noticeBytes n (1 - tail / ringSize s % 2)
          ∧ rdF u (bar0 0x40) 0 32 = (tail + 1) % 2 ^ 32 ∧ RegsBut [bar0 0x40] s u ∧ Same [.regs, .port, .hostMem, .hostLines] s u))
      ∧ (s.port.msixDue = true → s.port.func = .enabled → sinceOk a s.port.msixAt (1000 * rdF s (bar0 0x48) 8 8) = true →
        (rdB s (bar0 0x8008) 32 = false → Runs (.msixMessage t) s (fun u => u.port.msixDue = false ∧ u.port.msixSent = s.port.msixSent + 1
          ∧ u.port.msixAt = some (now a)
          ∧ hostBytes u (rd s (bar0 0x8000)).toNat 4 = leBytes 4 (rdF s (bar0 0x8008) 0 32) ∧ rdB u (bar0 0x9000) 0 = false
          ∧ RegsBut (bar0 0x9000 :: clock) s u ∧ Same [.regs, .port, .hostMem, .hostLines, .mtcx] s u))
        ∧ (rdB s (bar0 0x8008) 32 = true → Runs (.msixMessage t) s (fun u => u.port.msixDue = true ∧ rdB u (bar0 0x9000) 0 = true
          ∧ RegsBut (bar0 0x9000 :: clock) s u ∧ Same [.regs, .mtcx] s u)))
      ∧ (sinceOk a s.port.msixAt (1000 * rdF s (bar0 0x48) 8 8) = false → Runs (.msixMessage t) s (fun u => u = a))
      ∧ Runs (.hostPortReset kind) s (fun u => u.port.tail = 0 ∧ u.port.noticeQ = [] ∧ u.port.pages = [] ∧ u.hostLines = []
        ∧ (∀ c ∈ u.port.cmds, c.phase ≠ .waiting ∧ c.muted = true) ∧ u.port.nseq = s.port.nseq ∧ u.port.func = s.port.func
        ∧ u.port.ide = (s.port.ide && decide (kind = .flr)) ∧ expSeq u = 0
        ∧ u.port.cmds.map Cmd.slot = (s.port.cmds.filter (fun c => !decide (c.phase = .waiting))).map Cmd.slot
        ∧ u.job.state = s.job.state ∧ u.job.tag = s.job.tag ∧ u.sigOps.map SigOp.sig = s.sigOps.map SigOp.sig
        ∧ u.dev = { s.dev with stableSeq := u.dev.stableSeq } ∧ u.job = { s.job with armSeq := u.job.armSeq, tdSeq := u.job.tdSeq }
        ∧ (∀ k, k < bar0 0 ∨ bar0 0x10000 ≤ k → rd u k = rd s k) ∧ Same [.regs, .hostLines, .port, .job, .dev, .sigOps] s u)
      ∧ Runs (.doeSession key) s (fun u => u.port.doe.map Prod.snd = some 0 ∧ u.port.doeAnswer.length = 1088 + 17088
            + (if rdB s (gd 0) 2 then s.guard.norCert.getD [] else List.replicate 9104 0).length
          ∧ (u.port.doeAnswer.drop (1088 + (if rdB s (gd 0) 2 then s.guard.norCert.getD [] else List.replicate 9104 0).length)) =
            (upTo 17088).map (idSign s (sha256 (key ++ u.port.doeAnswer.take 1088)))
          ∧ RegsBut [] s u ∧ Same [.port, .freeIx] s u))
    ∧ (0 < s.port.deniedCount → sinceOk a s.port.deniedAt 1000000 = true → Runs (.landingDenied t) s (fun u => u.port.deniedCount = 0
      ∧ u.port.deniedAt = some (now a) ∧ rdB u (bar0 0x78) 2 = true ∧ Posted a u 0xC 0 0
      ∧ RegsBut (noticeKeys ++ clock) s u ∧ Same [.regs, .port, .mtcx] s u))
    ∧ (sinceOk a s.port.deniedAt 1000000 = false → Runs (.landingDenied t) s (fun u => u = a))
    ∧ (bitOf v 0 = true → s.dev.entering = false → s.dev.state = .stabled → s.dev.wakeAt = none → Runs (.hpWake v) s (fun u =>
      u.dev = { s.dev with wakeAt := some (now s), wakeStep := 0 } ∧ Same [.dev] s u))
    ∧ (bitOf v 0 = true → s.dev.entering = true → Runs (.hpWake v) s (fun u => u.dev = { s.dev with wakePending := true } ∧ Same [.dev] s u))
    ∧ (s.job.state = .idle → s.port.pages = [] → (size = true → v.toNat ≤ 65536) → Runs (.hpLandWrite size v) s (fun u =>
      rd u (if size then hp 8 else hp 0) = (if size then v else v &&& 0xFFFFFFFFFF0000) ∧ RegsBut [if size then hp 8 else hp 0] s u
      ∧ Same [.regs] s u))
    ∧ (s.job.state ≠ .idle → Runs (.hpLandWrite size v) s (fun u => u = s))
    ∧ (bitOf v 0 = true → Runs (.hpRtPost v) s (fun u => Posted s u 0xE 0 0
      ∧ (∀ n, s.port.dropped = 0 → queueRoom s = true → u.port.noticeQ.getLast? = some n →
          n.d0 = rd s (hp 0x10) ∧ n.d1 = rd s (hp 0x18) ∧ n.d2 = rd s (hp 0x20) ∧ n.d3 = rd s (hp 0x28))
      ∧ RegsBut noticeKeys s u ∧ Same [.regs, .port] s u))
    ∧ (s.port.func = .enabled → Runs (.hostFunctionDisable) s (fun u => u.port.func = .draining ∧ u.port.cmds = s.port.cmds
      ∧ Same [.regs, .port, .dev] s u))
    ∧ (s.port.func = .disabled → Runs (.hostFunctionEnable) s (fun u => u.port.func = .enabled ∧ u.port.cmds = s.port.cmds
      ∧ Same [.regs, .port, .dev] s u))
    ∧ (∀ x, s.port.doe = some x → Runs (.ideKm true) s (fun u => u.port.ide = true ∧ u.port.doe = some (x.1, x.2 + 1) ∧ Same [.port] s u)
      ∧ Runs (.ideKm false) s (fun u => u = s))

/-- R529, R531, R532, R538: the grants of a period: every demand when they all fit under the cap, and never more than the cap
leaves beside the fixed power while the floors fit. What is the model's own choice in it is in log entries 34 and 137. -/
def Obligations.GrantsStayWithinTheCap : Prop :=
  ∀ (s : State) (fixed watts : BitVec 16) (energy : BitVec 32),
    let st := rd s (pw 0 0x1000)
    let dies := (upTo 12).map (pwGet s)
    let floors := (dies.map (fun p => p.floor1 + p.floor2 + p.floor3)).sum
    let demands := (dies.map (fun p => p.dem1 + p.dem2 + p.dem3)).sum
    (∀ p ∈ dies, p.floor1 ≤ p.dem1 ∧ p.floor2 ≤ p.dem2 ∧ p.floor3 ≤ p.dem3) →
    [fld st 32 2, fld st 34 2, fld st 36 2].Perm [1, 2, 3] → fixed.toNat + floors ≤ 8 * fld st 0 16 →
    Runs (.budgetPeriod fixed watts energy) s (fun u =>
      (∀ d < 12, ∃ g, (pwGet u d).grant = some g ∧ (pwGet s d).floor1 ≤ g.1 ∧ g.1 ≤ (pwGet s d).dem1
        ∧ (pwGet s d).floor2 ≤ g.2.1 ∧ g.2.1 ≤ (pwGet s d).dem2 ∧ (pwGet s d).floor3 ≤ g.2.2 ∧ g.2.2 ≤ (pwGet s d).dem3
        ∧ (fixed.toNat + demands ≤ 8 * fld st 0 16 → g = ((pwGet s d).dem1, (pwGet s d).dem2, (pwGet s d).dem3)))
      ∧ fixed.toNat + ((upTo 12).map (fun d => match (pwGet u d).grant with
          | some g => g.1 + g.2.1 + g.2.2
          | none => 0)).sum ≤ 8 * fld st 0 16
      ∧ rdF u (pw 0 0x1000) 16 16 = watts.toNat ∧ rd u (pw 0 0x1008) = satAdd (rd s (pw 0 0x1008)) energy.toNat
      ∧ u.power.period = s.power.period + 1
      ∧ (∀ d < 12, ∀ g, (pwGet u d).grant = some g → (pwGet u d).answer = budgetMessage d 2 s.power.period g.1 g.2.1 g.2.2 0 0 0 0)
      ∧ RegsBut [pw 0 0x1000, pw 0 0x1008] s u ∧ Same [.regs, .power] s u)

/-- R532 to R537: a die applies its grant after the next period boundary; a droop counts and is noted for late running; the
thermal limit moves a duty by one step of 64; a trip drops the rails and fails the device; a measured leakage joins the
history. What is the model's own choice in it is in log entries 4, 85 and 137. -/
def Obligations.DutiesDroopsAndHeat : Prop :=
  ∀ (s : State) (d : Fin 12) (x : Die) (dutyC dutyM dutyL mult : BitVec 7) (withheld slots leak : BitVec 16) (logic stack : Byte) (t : W64),
    let a := advance s t
    let clock := [mtc 0, mtc 8, mtc 0x58]
    let clamp (v : BitVec 7) : Nat := max 8 (min 64 v.toNat)
    let p := pwGet s d
    let moves := sinceOk a p.thermAt 100000
    (∀ g, p.arrived = some g → p.arrivedIn < s.power.period → p.capSeen = true →
      Runs (.grantApply d dutyC dutyM dutyL mult withheld slots) s (fun u => (pwGet u d).arrived = none
        ∧ rdF u (pw d 0) 0 7 = min (clamp dutyC) p.thermC % 128
        ∧ (d.val < 8 → rdF u (pw d 0) 7 7 = min (clamp dutyM) p.thermM % 128
            ∧ (pwGet u d).grantL = (if rdF s (pw 0 0x1000) 32 2 = 1 then 64 else clamp dutyL))
        ∧ (8 ≤ d.val → (pwGet u d).procMult = max 20 (min 34 mult.toNat) ∧ rd u (pw d 0x30) = rd s (pw d 0x30))
        ∧ rdF u (pw d 0x18) 0 16 = g.1 % 2 ^ 16 ∧ rdF u (pw d 0x18) 16 16 = g.2.1 % 2 ^ 16 ∧ rdF u (pw d 0x18) 32 16 = g.2.2 % 2 ^ 16
        ∧ rd u (pw d 0x28) = satAdd (rd s (pw d 0x28)) withheld.toNat
        ∧ (d.val < 8 → rd u (pw d 0x30) = satAdd (rd s (pw d 0x30)) slots.toNat)
        ∧ RegsBut [pw d 0, pw d 0x18, pw d 0x28, pw d 0x30] s u ∧ Same [.regs, .power, .lateFlags] s u))
    ∧ (p.arrived = none ∨ s.power.period ≤ p.arrivedIn → Runs (.grantApply d dutyC dutyM dutyL mult withheld slots) s (fun u => u = s))
    ∧ Runs (.droop d withheld) s (fun u => (pwGet u d).drooping = true ∧ (pwGet u d).drooped = true ∧ rd u (pw d 0x20) = satAdd (rd s (pw d 0x20)) withheld.toNat
      ∧ (d.val < 8 → bitOf (Store.get (fun _ => 0) u.lateFlags d) 2 = true) ∧ RegsBut [pw d 0x20] s u
      ∧ Same [.regs, .power, .lateFlags] s u)
    ∧ Runs (.railRecovery d) s (fun u => pwGet u d = { pwGet s d with drooping := false } ∧ Same [.power] s u)
    ∧ (p.thermSeen = true → Runs (.thermalStep d logic stack t) s (fun u =>
      rdF u (pw d 0) 16 8 = logic.toNat ∧ rdF u (pw d 0) 24 8 = (if d.val < 8 then stack.toNat else 0)
      ∧ (moves = true → 105 < logic.toNat → (pwGet u d).thermC = max 8 (min p.thermC p.grantC - 1))
      ∧ (moves = true → logic.toNat < 102 → (pwGet u d).thermC = (if p.thermC + 1 < p.grantC then p.thermC + 1 else 64))
      ∧ (moves = false ∨ 102 ≤ logic.toNat ∧ logic.toNat ≤ 105 → (pwGet u d).thermC = p.thermC)
      ∧ (moves = true → d.val < 8 → 95 < stack.toNat → (pwGet u d).thermM = max 8 (min p.thermM p.grantM - 1))
      ∧ (moves = true → d.val < 8 → stack.toNat < 92 → (pwGet u d).thermM = (if p.thermM + 1 < p.grantM then p.thermM + 1 else 64))
      ∧ rdF u (pw d 0) 0 7 = min p.grantC (pwGet u d).thermC % 128
      ∧ rdB u (pw d 0) 14 = (decide ((pwGet u d).thermC < 64) || decide ((pwGet u d).thermM < 64))
      ∧ RegsBut (pw d 0 :: clock) s u ∧ Same [.regs, .power, .lateFlags, .mgmt, .mtcx] s u))
    ∧ (s.dev.vaux = true → Runs (.thermalTrip x) s (fun u => u.dev.thermTrip = true ∧ u.dev.rails = false ∧ u.dev.state = .failed
      ∧ u.job.state = .failed ∧ (x.val < 12 → rdB u (pw x 8) 2 = true)))
    ∧ (s.dev.state ≠ .cold → s.dev.state ≠ .starting → sinceOk a s.dev.steps.head? 10000000 = true → Runs (.leakageLearned d leak t) s (fun u =>
      (pwGet u d).leak = some leak ∧ rdB u (pw d 0) 15 = false
      ∧ Store.get (fun _ => 0) u.hist.leak d.val = leak ∧ rdB u (pw d 8) 3 = true ∧ RegsBut ([pw d 0, pw d 8] ++ clock ++ noticeKeys) s u
      ∧ Same [.regs, .power, .hist, .port, .mtcx] s u))
    ∧ (s.dev.state = .starting → Runs (.leakageLearned d leak t) s (fun u => u = a))

/-- R36, R539 to R542, R545, R546, R559, R561, R567, R568: supplies and the device's states. A start begins when VIN is in
regulation and the service pin lets it; a loss of VIN, a restart and a loss of VAUX keep what each keeps; the way into and
out of STABLED. R575, R576: the management target answers once it is ready: its addresses, its identifier, its interrupts,
and the register whose index was written last. What is the model's own choice in it is in log entries 4, 82 and 86. -/
def Obligations.SuppliesAndManagement : Prop :=
  (∀ (s : State) (serviceHigh format : Bool) (t : W64) (ch : StackIx × Fin 296),
    let z := advance s t
    let clock := [mtc 0, mtc 8, mtc 0x58]
    let kept (u : State) : Prop := u.mem = [] ∧ u.hostMem = s.hostMem ∧ u.pending = s.pending ∧ u.guard.deviceSeed = s.guard.deviceSeed
      ∧ u.guard.gpid = s.guard.gpid ∧ u.guard.operatorHash = s.guard.operatorHash ∧ u.guard.norFw = s.guard.norFw ∧ u.guard.norCfg = s.guard.norCfg
      ∧ u.depot.objects = s.depot.objects ∧ u.hist = s.hist ∧ u.marks = s.marks ∧ rd u (gd 0x18) = rd s (gd 0x18)
      ∧ u.job.state = .idle ∧ u.job.linkKey = 0 ∧ u.signals = [] ∧ u.engines = [] ∧ u.dies = []
    let begun (c : W64) (u : State) : Prop := u.dev.state = .starting ∧ u.dev.rails = true ∧ rdF u (hp 0x200) 0 4 = 1 ∧ rd u (hp 0x208) = c
      ∧ u.dev.steps = [c]
    (s.dev.vaux = false → Runs (.vauxValid serviceHigh) s (fun u =>
      u.dev = { s.dev with vaux := true, state := .cold, rails := false, service := !serviceHigh }
      ∧ now u = 0 ∧ mtcState u = 0 ∧ u.mtcx = State.reset.mtcx ∧ RegsBut [mtc 0, mtc 8, mtc 0x18, mtc 0x58, mtc 0x60] s u
      ∧ Same [.dev, .regs, .mtcx] s u))
    ∧ Runs (.vinValid) s (fun u => u.dev = { s.dev with vin := true } ∧ Same [.dev] s u)
    ∧ (s.dev.vaux = true → s.dev.vin = true → s.dev.service = false → s.dev.state = .cold → 1000000 ≤ (now z).toNat →
      Runs (.railsInRegulation t) s (fun u => begun (now z) u ∧ RegsBut ([hp 0x200, hp 0x208] ++ clock) s u ∧ Same [.regs, .dev, .mgmt, .mtcx] s u))
    ∧ (s.dev.service = true ∨ (now z).toNat < 1000000 → Runs (.railsInRegulation t) s (fun u => u = z))
    ∧ (s.dev.vaux = true → s.dev.state ≠ .cold → rdB s (gd 0) 4 = false → Runs (.vinLoss) s (fun u => kept u ∧ u.dev.state = .cold ∧ u.dev.rails = false
      ∧ u.dev.vin = false ∧ u.dev.vaux = true ∧ now u = now s ∧ mtcState u = mtcState s ∧ u.mtcx = s.mtcx))
    ∧ (s.dev.vaux = true → Runs (.vauxLoss) s (fun u => kept u ∧ u.dev.state = .cold ∧ u.dev.vaux = false ∧ now u = 0 ∧ mtcState u = 0
      ∧ u.mgmt.dynAddr = none ∧ u.mgmt.ready = false))
    ∧ (s.dev.vaux = true → Runs (.managementReady) s (fun u => u.mgmt = { s.mgmt with ready := true } ∧ 20000000 ≤ (now u).toNat
      ∧ Same [.mgmt] (advance s 20000000) u))
    ∧ (s.dev.restarting = true → Runs (.restart) s (fun u => kept u ∧ begun (now s) u ∧ u.dev.restarting = false ∧ now u = now s ∧ u.mtcx = s.mtcx))
    ∧ (s.dev.entering = true → (∀ c ∈ s.port.cmds, some c.seq ≠ s.dev.stableSeq) → s.dev.state ≠ .stabled →
      Runs (.stableEntryDone) s (fun u => u.dev.state = .stabled ∧ u.dev.entering = false ∧ (∀ p < 16, linkState u p = 0)
        ∧ (∀ n < 4, rdB u (np 0) (4 * n) = false) ∧ u.jlines = [] ∧ u.dir = []
        ∧ u.dev.wakeAt = (if s.dev.wakePending then some (now s) else s.dev.wakeAt)))
    ∧ (∀ w, s.dev.wakeAt = some w → s.dev.state = .stabled →
      let a := advance s (w + BitVec.ofNat 64 (wakeBeats.getD s.dev.wakeStep 0))
      (s.dev.wakeStep < 4 → Runs (.wakeStep true []) s (fun u => u.dev = { s.dev with wakeStep := s.dev.wakeStep + 1 } ∧ RegsBut [] a u ∧ Same [.dev] a u))
      ∧ (s.dev.wakeStep = 4 → s.hist.leak = [] → Runs (.wakeStep true []) s (fun u => u.dev = { s.dev with wakeStep := 5 } ∧ RegsBut [] a u ∧ Same [.dev] a u))
      ∧ (5 ≤ s.dev.wakeStep → Runs (.wakeStep true []) s (fun u => u.dev.state = .ready ∧ u.dev.wakeAt = none ∧ Posted a u 2 0 0
          ∧ exec (.wakeStep true [ch]) s = .next (channelFails u ch.1 ch.2)
          ∧ RegsBut noticeKeys a u ∧ Same [.regs, .port, .dev, .mgmt] a u))
      ∧ Runs (.wakeStep false []) s (fun u => u.dev.state = .failed ∧ u.job.state = .failed))
    ∧ (s.dev.state = .starting → s.dev.restarting = false →
      (stepLate z format = true → Runs (.startStepTimeout format t) s (fun u => u.dev.state = .failed
        ∧ rdF u (hp 0x200) 4 4 = 9 ∧ rdF u (hp 0x200) 8 8 = startStep s ∧ rdF u (hp 0x200) 0 4 = startStep s))
      ∧ (stepLate z format = false → Runs (.startStepTimeout format t) s (fun u => u = z))))
  ∧ (∀ (s : State) (target addr : BitVec 7) (i : Byte) (l : List Byte), s.dev.vaux = true → s.mgmt.ready = true →
    (s.mgmt.dynAddr = none → Runs (.entdaa addr) s (fun u => u.mgmt.dynAddr = some addr
        ∧ u.mgmt.answer = i3cPid s ++ [Config.i3cBcr, Config.i3cDcr] ∧ (i3cPid s).length = 6 ∧ Same [.mgmt] s u)
      ∧ Runs (.setdasa s.img.i3cAddr addr) s (fun u => u.mgmt = { s.mgmt with dynAddr := some addr } ∧ Same [.mgmt] s u))
    ∧ (target ≠ s.img.i3cAddr → Runs (.setdasa target addr) s (fun u => u = s))
    ∧ (s.mgmt.dynAddr ≠ none → ∀ a ∈ [Instr.entdaa addr, Instr.setdasa target addr], Runs a s (fun u => u = s))
    ∧ Runs (.rstdaa) s (fun u => u.mgmt = { s.mgmt with dynAddr := none } ∧ Same [.mgmt] s u)
    ∧ Runs (.getpid) s (fun u => u.mgmt = { s.mgmt with answer := i3cPid s } ∧ leNat (i3cPid s).reverse % 2 ^ 32 = s.guard.gpid.toNat ∧ Same [.mgmt] s u)
    ∧ Runs (.getbcr) s (fun u => u.mgmt = { s.mgmt with answer := [Config.i3cBcr] } ∧ Same [.mgmt] s u)
    ∧ Runs (.getdcr) s (fun u => u.mgmt = { s.mgmt with answer := [Config.i3cDcr] } ∧ Same [.mgmt] s u)
    ∧ Runs (.getstatus) s (fun u => u.mgmt.answer.length = 2 ∧ u.mgmt = { s.mgmt with answer := u.mgmt.answer } ∧ Same [.mgmt, .freeIx] s u)
    ∧ Runs (.enec) s (fun u => u.mgmt = { s.mgmt with ibiOn := true } ∧ Same [.mgmt] s u)
    ∧ Runs (.disec) s (fun u => u.mgmt = { s.mgmt with ibiOn := false } ∧ Same [.mgmt] s u)
    ∧ (i.toNat ≤ 8 → Runs (.managementIndexWrite [i]) s (fun u => u.mgmt = { s.mgmt with index := some i } ∧ Same [.mgmt] s u))
    ∧ ((8 < i.toNat ∨ l.length ≠ 1) → Runs (.managementIndexWrite (if l.length = 1 then [i] else l)) s (fun u => u = s))
    ∧ (∀ j, s.mgmt.index = some j → Runs (.managementPrivateRead) s (fun u => Same [.mgmt] s u
      ∧ u.mgmt = { s.mgmt with answer := u.mgmt.answer } ∧ u.mgmt.answer.length = 8
      ∧ (j = 0 → leNat u.mgmt.answer = (if s.dev.service then 6 else deviceCode s.dev.state) + 8 * jobCode s.job.state)
      ∧ (j = 1 → leNat u.mgmt.answer = s.guard.gpid.toNat)
      ∧ (j = 2 → leNat u.mgmt.answer = (readReg s (hp 0x200)).toNat) ∧ (j = 3 → leNat u.mgmt.answer = (rd s (hp 0x208)).toNat)
      ∧ (j = 4 → leNat u.mgmt.answer = (rd s (pw 0 0x1000)).toNat) ∧ (j = 5 → leNat u.mgmt.answer = (rd s (pw 0 0x1008)).toNat)
      ∧ (j = 6 → leNat u.mgmt.answer = hottest s 16 + 2 ^ 8 * hottest s 24)
      ∧ (j = 7 → leNat u.mgmt.answer = (now s).toNat) ∧ (j = 8 → leNat u.mgmt.answer = s.mgmt.lastReason % 2 ^ 64)))
    ∧ (s.mgmt.index = none → Runs (.managementPrivateRead) s (fun u => u.mgmt.answer.length = 8 ∧ Same [.mgmt, .freeIx] s u)))

/-- R301, R342, R359, R481 to R483, R492, R498, R501, R502, R516, R545 to R558: each start step ends with what it found, or the
start with its first failure; a core that faults is out of service from the next start; a Guard that misses its heartbeats
hands over. What is the model's own choice in it is in log entries 6, 14, 15, 83, 84 and 126. -/
def Obligations.StartStepsAndGuards : Prop :=
  ∀ (s : State) (fw cfg cert : List Byte) (a b c x1 : Bool) (gk : Option (BitVec 256)) (wire : Fin 12 × Fin 16 × Fin 8 × Fin 1056) (core : Fin 4)
    (site : Fin 40) (luns : BitVec 512) (lunBytes : W64) (blocks spares : W32) (found : StepFinding) (t : W64),
    let z := advance s t
    let clock := [mtc 0, mtc 8, mtc 0x58]
    let starting (n : Nat) : Prop := s.dev.state = .starting ∧ s.dev.restarting = false ∧ startStep s = n ∧ stepLate z false = false
    let handed := decide (rdB s (gd 0) 0 = x1)
    (s.dev.state = .starting → s.dev.restarting = false → stepLate z (stepFormats z found) = true → Runs (.startStepDone found t) s (fun u =>
      u.dev.state = .failed ∧ rdF u (hp 0x200) 4 4 = 9 ∧ rdF u (hp 0x200) 8 8 = startStep s))
    ∧ (starting 1 → Runs (.startStepDone .rom t) s (fun u => startStep u = 2 ∧ u.dev.state = .starting ∧ rdB u (gd 0) 0 = !s.guard.aliveX0
      ∧ rdB u (gd 0) 1 = (s.guard.aliveX0 && s.guard.aliveX1) ∧ u.guard.challenge = (upTo 32).map (fun i => Config.freeByte (s.freeIx + i))
      ∧ RegsBut ([hp 0x200, gd 0, gd 0x20, gd 0x28, gd 0x30, gd 0x38] ++ clock) s u ∧ Same [.regs, .guard, .freeIx, .dev, .mtcx] s u))
    ∧ (starting 2 →
      (fwCheck s fw a = 0 → cfgCheck s cfg b = 0 → Runs (.startStepDone (.images true fw cfg cert a b c gk) t) s (fun u => startStep u = 3
        ∧ u.guard.fwMeasure = imMeasure fw ∧ u.guard.cfgMeasure = imMeasure cfg
        ∧ u.guard.operatorHash = some (s.guard.operatorHash.getD (sha256 (imKey cfg)))
        ∧ rdF u (gd 0x10) 0 32 = imVersion fw ∧ rdF u (gd 0x10) 32 32 = imSvn fw ∧ rdF u (gd 0) 8 4 = 0
        ∧ (∀ l, recordsOf cfg = some l → u.img = cfgOfRecords l ∧ u.guard.groupKey = (if (recordOf l 11).isSome then gk else none)
            ∧ rdB u (gd 0) 3 = ((recordOf l 11).isSome && gk.isSome))
        ∧ u.dev.state = .starting))
      ∧ ((fwCheck s fw a ≠ 0 ∨ cfgCheck s cfg b ≠ 0) → Runs (.startStepDone (.images true fw cfg cert a b c gk) t) s (fun u => u.dev.state = .failed
        ∧ rdF u (hp 0x200) 4 4 = 1 ∧ rdF u (hp 0x200) 8 8 = (if fwCheck s fw a ≠ 0 then fwCheck s fw a else cfgCheck s cfg b)
        ∧ u.guard.operatorHash = s.guard.operatorHash))
      ∧ Runs (.startStepDone (.images false fw cfg cert a b c gk) t) s (fun u => u.dev.state = .failed ∧ rdF u (hp 0x200) 4 4 = 9
        ∧ rdF u (hp 0x200) 8 8 = 2 ∧ u.guard.norFw = s.guard.norFw))
    ∧ (starting 3 →
      Runs (.startStepDone (.wires [] []) t) s (fun u => startStep u = 4 ∧ u.dev.state = .starting ∧ u.cw = s.cw)
      ∧ Runs (.startStepDone (.wires [] [(wire.1, wire.2.1, wire.2.2.1)]) t) s (fun u => u.dev.state = .failed ∧ rdF u (hp 0x200) 4 4 = 2
        ∧ rdF u (hp 0x200) 8 8 = rxDie wire.1 wire.2.1))
    ∧ (starting 4 → s.img.format = false → Runs (.startStepDone (.depot true none 0 0 0 0 0) t) s (fun u => u.dev.state = .failed
      ∧ rdF u (hp 0x200) 4 4 = 7))
    ∧ (starting 4 → markedWires s = [] → dpState s = 0 → Runs (.startStepDone (.depot true (some s.img.layoutId) luns lunBytes blocks spares 0xFFF) t) s (fun u =>
      startStep u = 5 ∧ u.dev.state = .starting ∧ dpState u = (if spares.toNat * 200 < blocks.toNat then 2 else 1)
      ∧ rdF u (dp 0) 2 10 = ((upTo 512).filter (bitOf luns)).length % 1024 ∧ u.depot.objects = s.depot.objects ∧ rdB u (hp 0x200) 16 = true))
    ∧ (starting 5 → s.marks = [] → s.dev.badSites = [] → Runs (.startStepDone (.tests [] [] [] []) t) s (fun u => startStep u = 6
      ∧ u.dev.state = .starting ∧ (∀ d < 8, rd u (ma d 0x10) = 0x2020) ∧ (∀ h < 144, coreSite u h = h % 36)))
    ∧ (starting 6 → Runs (.startStepDone .cleared t) s (fun u => startStep u = 7 ∧ u.mem = [] ∧ u.possMap = [] ∧ u.jlines = [] ∧ u.dir = []
      ∧ u.poisoned = [] ∧ u.guard.memKey = some (BitVec.ofNat 512 (leNat ((upTo 64).map (fun i => Config.freeByte (s.freeIx + i))))) ∧ (∀ d < 8, rd u (jn d 8) = 0)
      ∧ Same [.regs, .dev, .dir, .jlines, .deferred, .possMap, .mem, .poisoned, .guard, .freeIx, .mtcx] s u))
    ∧ (starting 7 →
      (s.hist.runtime = true → Runs (.startStepDone (.runtime true b) t) s (fun u => startStep u = 8 ∧ u.hist.runtime = true
        ∧ RegsBut (hp 0x200 :: clock) s u ∧ Same [.regs, .dev, .hist, .mtcx] s u))
      ∧ Runs (.startStepDone (.runtime false true) t) s (fun u => startStep u = 8 ∧ u.hist.runtime = true ∧ rdB u (hp 0x200) 18 = true
        ∧ RegsBut (hp 0x200 :: clock) s u ∧ Same [.regs, .dev, .hist, .mtcx] s u)
      ∧ Runs (.startStepDone (.runtime false false) t) s (fun u => u.dev.state = .failed ∧ rdF u (hp 0x200) 4 4 = 8))
    ∧ (starting 8 → Runs (.startStepDone .ports t) s (fun u => u.dev.state = .ready ∧ u.dev.everReady = true ∧ u.guard.armEk.isSome = true
      ∧ (fwSvn s ≤ 64 → fwSvn s ≤ (rd u (gd 0x18)).toNat ∨ rd u (gd 0x18) = rd s (gd 0x18)) ∧ u.hist.unitSeq = s.hist.unitSeq + 1
      ∧ rdF u (hp 0x200) 0 4 = 9 ∧ Posted z u 2 0 0))
    ∧ Runs (.coreFault core site) s (fun u => Store.get (fun _ => false) u.dev.badSites (core * 64 + site) = true
      ∧ (∀ i, i ≠ core.val * 64 + site.val → Store.get (fun _ => false) u.dev.badSites i = Store.get (fun _ => false) s.dev.badSites i)
      ∧ Same [.dev] s u)
    ∧ ((if x1 then s.guard.aliveX0 else s.guard.aliveX1) = false → Runs (.heartbeatMiss x1) s (fun u => u.dev.state = .failed))
    ∧ ((if x1 then s.guard.aliveX0 else s.guard.aliveX1) = true → Runs (.heartbeatMiss x1) s (fun u =>
      rdB u (gd 0) 0 = (if handed then !x1 else rdB s (gd 0) 0) ∧ rdB u (gd 0) 1 = false
      ∧ rdB u (gd 8) (if handed then 0 else 1) = true
      ∧ u.hist.unitSeq = s.hist.unitSeq + (if handed then 1 else 0)
      ∧ RegsBut ([gd 0, gd 8] ++ noticeKeys) s u ∧ Same [.regs, .guard, .port, .hist] s u))
end

