-- ==== Sys2Proof/Laws/Bits.lean ====
section
/-! SUPPORT. Laws of bit fields: what a bit or a field reads after a field or a bit is written. -/

namespace Sys2Proof.Machine

theorem getLsbD_ones (n lo len j : Nat) : (ones n lo len).getLsbD j = (decide (j < n) && decide (lo ≤ j) && decide (j < lo + len)) := by
  unfold ones
  simp only [BitVec.getLsbD_shiftLeft, BitVec.getLsbD_ofNat, Nat.testBit_two_pow_sub_one]
  by_cases hn : j < n <;> by_cases hl : lo ≤ j <;> simp [hn, hl]
  · have h1 : ¬ j < lo := by omega
    have h2 : j - lo < n := by omega
    by_cases h3 : j < lo + len
    · have : j - lo < len := by omega
      simp [h1, h2, h3, this]
    · have : ¬ j - lo < len := by omega
      simp [h3, this]

/-- A bit after a field is written: the field's bit of `v` inside the field, the old bit outside. -/
theorem getLsbD_putFld {n : Nat} (w : BitVec n) (lo len v j : Nat) :
    (putFld w lo len v).getLsbD j =
      if lo ≤ j ∧ j < lo + len then decide (j < n) && v.testBit (j - lo) else w.getLsbD j := by
  unfold putFld
  simp only [BitVec.getLsbD_or, BitVec.getLsbD_and, BitVec.getLsbD_not, getLsbD_ones, BitVec.getLsbD_shiftLeft, BitVec.getLsbD_ofNat]
  by_cases hn : j < n
  · by_cases hl : lo ≤ j
    · by_cases hh : j < lo + len
      · have h1 : ¬ j < lo := by omega
        have h2 : j - lo < n := by omega
        have h3 : j - lo < len := by omega
        simp [hn, hl, hh, h1, h2, h3]
      · have h3 : ¬ j - lo < len := by omega
        simp [hn, hh, h3]
    · have h1 : j < lo := by omega
      simp [hn, hl, h1]
  · have hw : w.getLsbD j = false := BitVec.getLsbD_of_ge _ _ (by omega)
    simp [hn, hw]

theorem getLsbD_putBit {n : Nat} (w : BitVec n) (i j : Nat) (b : Bool) :
    (putBit w i b).getLsbD j = if j = i then (decide (j < n) && b) else w.getLsbD j := by
  unfold putBit
  rw [getLsbD_putFld]
  by_cases h : j = i
  · subst h
    cases b <;> simp
  · have : ¬ (i ≤ j ∧ j < i + 1) := by omega
    rw [if_neg this, if_neg h]

@[simp] theorem bitOf_putBit_same {n : Nat} (w : BitVec n) (i : Nat) (b : Bool) (h : i < n) : bitOf (putBit w i b) i = b := by
  unfold bitOf
  rw [getLsbD_putBit]
  simp [h]

theorem bitOf_putBit_ne {n : Nat} (w : BitVec n) {i j : Nat} (b : Bool) (h : j ≠ i) : bitOf (putBit w i b) j = bitOf w j := by
  simp [bitOf, getLsbD_putBit, h]

theorem bitOf_putFld_out {n : Nat} (w : BitVec n) (lo len v j : Nat) (h : j < lo ∨ lo + len ≤ j) :
    bitOf (putFld w lo len v) j = bitOf w j := by
  have : ¬ (lo ≤ j ∧ j < lo + len) := by omega
  simp [bitOf, getLsbD_putFld, this]

/-- Bit `i` of a field. -/
theorem testBit_fld {n : Nat} (w : BitVec n) (lo len i : Nat) : (fld w lo len).testBit i = (decide (i < len) && w.getLsbD (lo + i)) := by
  simp [fld, natField, Nat.testBit_mod_two_pow, Nat.testBit_shiftRight, BitVec.getLsbD]

/-- A field after the same field is written. -/
theorem fld_putFld_same {n : Nat} (w : BitVec n) (lo len v : Nat) (h : lo + len ≤ n) : fld (putFld w lo len v) lo len = v % 2 ^ len := by
  apply Nat.eq_of_testBit_eq
  intro i
  rw [testBit_fld, getLsbD_putFld, Nat.testBit_mod_two_pow]
  by_cases hi : i < len
  · have h1 : lo ≤ lo + i ∧ lo + i < lo + len := by omega
    have h2 : lo + i < n := by omega
    simp [hi, h1, h2]
  · simp [hi]

/-- A field after another is written. -/
theorem fld_putFld_out {n : Nat} (w : BitVec n) (lo len v a b : Nat) (h : a + b ≤ lo ∨ lo + len ≤ a) :
    fld (putFld w lo len v) a b = fld w a b := by
  apply Nat.eq_of_testBit_eq
  intro i
  rw [testBit_fld, testBit_fld, getLsbD_putFld]
  by_cases hi : i < b
  · have : ¬ (lo ≤ a + i ∧ a + i < lo + len) := by omega
    simp [this]
  · simp [hi]

end Sys2Proof.Machine
end

