-- ==== Sys2Proof/Laws/State.lean ====
section
/-! SUPPORT. One lemma per field per update of the state: a field that an update does not name is as it was. -/

namespace Sys2Proof.Machine

section wr

variable (s : State) (k : Nat) (v : W64)

@[simp] theorem wr_pending : (wr s k v).pending = s.pending := rfl
@[simp] theorem wr_mem : (wr s k v).mem = s.mem := rfl
@[simp] theorem wr_hostMem : (wr s k v).hostMem = s.hostMem := rfl
@[simp] theorem wr_nportMem : (wr s k v).nportMem = s.nportMem := rfl
@[simp] theorem wr_bar2 : (wr s k v).bar2 = s.bar2 := rfl
@[simp] theorem wr_poisoned : (wr s k v).poisoned = s.poisoned := rfl
@[simp] theorem wr_possMap : (wr s k v).possMap = s.possMap := rfl
@[simp] theorem wr_jlines : (wr s k v).jlines = s.jlines := rfl
@[simp] theorem wr_dir : (wr s k v).dir = s.dir := rfl
@[simp] theorem wr_dirAge : (wr s k v).dirAge = s.dirAge := rfl
@[simp] theorem wr_deferred : (wr s k v).deferred = s.deferred := rfl
@[simp] theorem wr_hostLines : (wr s k v).hostLines = s.hostLines := rfl
@[simp] theorem wr_imsic : (wr s k v).imsic = s.imsic := rfl
@[simp] theorem wr_msis : (wr s k v).msis = s.msis := rfl
@[simp] theorem wr_aplicIn : (wr s k v).aplicIn = s.aplicIn := rfl
@[simp] theorem wr_trans : (wr s k v).trans = s.trans := rfl
@[simp] theorem wr_mtcx : (wr s k v).mtcx = s.mtcx := rfl
@[simp] theorem wr_port : (wr s k v).port = s.port := rfl
@[simp] theorem wr_job : (wr s k v).job = s.job := rfl
@[simp] theorem wr_guard : (wr s k v).guard = s.guard := rfl
@[simp] theorem wr_img : (wr s k v).img = s.img := rfl
@[simp] theorem wr_dev : (wr s k v).dev = s.dev := rfl
@[simp] theorem wr_mgmt : (wr s k v).mgmt = s.mgmt := rfl
@[simp] theorem wr_power : (wr s k v).power = s.power := rfl
@[simp] theorem wr_depot : (wr s k v).depot = s.depot := rfl
@[simp] theorem wr_hist : (wr s k v).hist = s.hist := rfl
@[simp] theorem wr_npFunc : (wr s k v).npFunc = s.npFunc := rfl
@[simp] theorem wr_engines : (wr s k v).engines = s.engines := rfl
@[simp] theorem wr_vregs : (wr s k v).vregs = s.vregs := rfl
@[simp] theorem wr_cells : (wr s k v).cells = s.cells := rfl
@[simp] theorem wr_signals : (wr s k v).signals = s.signals := rfl
@[simp] theorem wr_sigOps : (wr s k v).sigOps = s.sigOps := rfl
@[simp] theorem wr_slotsDue : (wr s k v).slotsDue = s.slotsDue := rfl
@[simp] theorem wr_dies : (wr s k v).dies = s.dies := rfl
@[simp] theorem wr_scEntries : (wr s k v).scEntries = s.scEntries := rfl
@[simp] theorem wr_scStreams : (wr s k v).scStreams = s.scStreams := rfl
@[simp] theorem wr_scPre : (wr s k v).scPre = s.scPre := rfl
@[simp] theorem wr_scClock : (wr s k v).scClock = s.scClock := rfl
@[simp] theorem wr_scRange : (wr s k v).scRange = s.scRange := rfl
@[simp] theorem wr_calls : (wr s k v).calls = s.calls := rfl
@[simp] theorem wr_threads : (wr s k v).threads = s.threads := rfl
@[simp] theorem wr_resv : (wr s k v).resv = s.resv := rfl
@[simp] theorem wr_upds : (wr s k v).upds = s.upds := rfl
@[simp] theorem wr_ttx : (wr s k v).ttx = s.ttx := rfl
@[simp] theorem wr_reports : (wr s k v).reports = s.reports := rfl
@[simp] theorem wr_trains : (wr s k v).trains = s.trains := rfl
@[simp] theorem wr_om : (wr s k v).om = s.om := rfl
@[simp] theorem wr_colls : (wr s k v).colls = s.colls := rfl
@[simp] theorem wr_collRx : (wr s k v).collRx = s.collRx := rfl
@[simp] theorem wr_marks : (wr s k v).marks = s.marks := rfl
@[simp] theorem wr_lateFlags : (wr s k v).lateFlags = s.lateFlags := rfl
@[simp] theorem wr_cw : (wr s k v).cw = s.cw := rfl
@[simp] theorem wr_tap : (wr s k v).tap = s.tap := rfl
@[simp] theorem wr_slotWinner : (wr s k v).slotWinner = s.slotWinner := rfl
@[simp] theorem wr_bkBusy : (wr s k v).bkBusy = s.bkBusy := rfl
@[simp] theorem wr_bkLate : (wr s k v).bkLate = s.bkLate := rfl
@[simp] theorem wr_bkQueue : (wr s k v).bkQueue = s.bkQueue := rfl
@[simp] theorem wr_bkFeed : (wr s k v).bkFeed = s.bkFeed := rfl
@[simp] theorem wr_rebuildSlots : (wr s k v).rebuildSlots = s.rebuildSlots := rfl
@[simp] theorem wr_rebuildWon : (wr s k v).rebuildWon = s.rebuildWon := rfl
@[simp] theorem wr_bkGranted : (wr s k v).bkGranted = s.bkGranted := rfl
@[simp] theorem wr_ueTimes : (wr s k v).ueTimes = s.ueTimes := rfl
@[simp] theorem wr_refreshAt : (wr s k v).refreshAt = s.refreshAt := rfl
@[simp] theorem wr_sweeps : (wr s k v).sweeps = s.sweeps := rfl
@[simp] theorem wr_answer : (wr s k v).answer = s.answer := rfl
@[simp] theorem wr_freeIx : (wr s k v).freeIx = s.freeIx := rfl

end wr

section setEng

variable (s : State) (d e : Nat) (f : Engine → Engine)

@[simp] theorem setEng_pending : (setEng s d e f).pending = s.pending := rfl
@[simp] theorem setEng_regs : (setEng s d e f).regs = s.regs := rfl
@[simp] theorem setEng_mem : (setEng s d e f).mem = s.mem := rfl
@[simp] theorem setEng_hostMem : (setEng s d e f).hostMem = s.hostMem := rfl
@[simp] theorem setEng_nportMem : (setEng s d e f).nportMem = s.nportMem := rfl
@[simp] theorem setEng_bar2 : (setEng s d e f).bar2 = s.bar2 := rfl
@[simp] theorem setEng_poisoned : (setEng s d e f).poisoned = s.poisoned := rfl
@[simp] theorem setEng_possMap : (setEng s d e f).possMap = s.possMap := rfl
@[simp] theorem setEng_jlines : (setEng s d e f).jlines = s.jlines := rfl
@[simp] theorem setEng_dir : (setEng s d e f).dir = s.dir := rfl
@[simp] theorem setEng_dirAge : (setEng s d e f).dirAge = s.dirAge := rfl
@[simp] theorem setEng_deferred : (setEng s d e f).deferred = s.deferred := rfl
@[simp] theorem setEng_hostLines : (setEng s d e f).hostLines = s.hostLines := rfl
@[simp] theorem setEng_imsic : (setEng s d e f).imsic = s.imsic := rfl
@[simp] theorem setEng_msis : (setEng s d e f).msis = s.msis := rfl
@[simp] theorem setEng_aplicIn : (setEng s d e f).aplicIn = s.aplicIn := rfl
@[simp] theorem setEng_trans : (setEng s d e f).trans = s.trans := rfl
@[simp] theorem setEng_mtcx : (setEng s d e f).mtcx = s.mtcx := rfl
@[simp] theorem setEng_port : (setEng s d e f).port = s.port := rfl
@[simp] theorem setEng_job : (setEng s d e f).job = s.job := rfl
@[simp] theorem setEng_guard : (setEng s d e f).guard = s.guard := rfl
@[simp] theorem setEng_img : (setEng s d e f).img = s.img := rfl
@[simp] theorem setEng_dev : (setEng s d e f).dev = s.dev := rfl
@[simp] theorem setEng_mgmt : (setEng s d e f).mgmt = s.mgmt := rfl
@[simp] theorem setEng_power : (setEng s d e f).power = s.power := rfl
@[simp] theorem setEng_depot : (setEng s d e f).depot = s.depot := rfl
@[simp] theorem setEng_hist : (setEng s d e f).hist = s.hist := rfl
@[simp] theorem setEng_npFunc : (setEng s d e f).npFunc = s.npFunc := rfl
@[simp] theorem setEng_vregs : (setEng s d e f).vregs = s.vregs := rfl
@[simp] theorem setEng_cells : (setEng s d e f).cells = s.cells := rfl
@[simp] theorem setEng_signals : (setEng s d e f).signals = s.signals := rfl
@[simp] theorem setEng_sigOps : (setEng s d e f).sigOps = s.sigOps := rfl
@[simp] theorem setEng_slotsDue : (setEng s d e f).slotsDue = s.slotsDue := rfl
@[simp] theorem setEng_dies : (setEng s d e f).dies = s.dies := rfl
@[simp] theorem setEng_scEntries : (setEng s d e f).scEntries = s.scEntries := rfl
@[simp] theorem setEng_scStreams : (setEng s d e f).scStreams = s.scStreams := rfl
@[simp] theorem setEng_scPre : (setEng s d e f).scPre = s.scPre := rfl
@[simp] theorem setEng_scClock : (setEng s d e f).scClock = s.scClock := rfl
@[simp] theorem setEng_scRange : (setEng s d e f).scRange = s.scRange := rfl
@[simp] theorem setEng_calls : (setEng s d e f).calls = s.calls := rfl
@[simp] theorem setEng_threads : (setEng s d e f).threads = s.threads := rfl
@[simp] theorem setEng_resv : (setEng s d e f).resv = s.resv := rfl
@[simp] theorem setEng_upds : (setEng s d e f).upds = s.upds := rfl
@[simp] theorem setEng_ttx : (setEng s d e f).ttx = s.ttx := rfl
@[simp] theorem setEng_reports : (setEng s d e f).reports = s.reports := rfl
@[simp] theorem setEng_trains : (setEng s d e f).trains = s.trains := rfl
@[simp] theorem setEng_om : (setEng s d e f).om = s.om := rfl
@[simp] theorem setEng_colls : (setEng s d e f).colls = s.colls := rfl
@[simp] theorem setEng_collRx : (setEng s d e f).collRx = s.collRx := rfl
@[simp] theorem setEng_marks : (setEng s d e f).marks = s.marks := rfl
@[simp] theorem setEng_lateFlags : (setEng s d e f).lateFlags = s.lateFlags := rfl
@[simp] theorem setEng_cw : (setEng s d e f).cw = s.cw := rfl
@[simp] theorem setEng_tap : (setEng s d e f).tap = s.tap := rfl
@[simp] theorem setEng_slotWinner : (setEng s d e f).slotWinner = s.slotWinner := rfl
@[simp] theorem setEng_bkBusy : (setEng s d e f).bkBusy = s.bkBusy := rfl
@[simp] theorem setEng_bkLate : (setEng s d e f).bkLate = s.bkLate := rfl
@[simp] theorem setEng_bkQueue : (setEng s d e f).bkQueue = s.bkQueue := rfl
@[simp] theorem setEng_bkFeed : (setEng s d e f).bkFeed = s.bkFeed := rfl
@[simp] theorem setEng_rebuildSlots : (setEng s d e f).rebuildSlots = s.rebuildSlots := rfl
@[simp] theorem setEng_rebuildWon : (setEng s d e f).rebuildWon = s.rebuildWon := rfl
@[simp] theorem setEng_bkGranted : (setEng s d e f).bkGranted = s.bkGranted := rfl
@[simp] theorem setEng_ueTimes : (setEng s d e f).ueTimes = s.ueTimes := rfl
@[simp] theorem setEng_refreshAt : (setEng s d e f).refreshAt = s.refreshAt := rfl
@[simp] theorem setEng_sweeps : (setEng s d e f).sweeps = s.sweeps := rfl
@[simp] theorem setEng_answer : (setEng s d e f).answer = s.answer := rfl
@[simp] theorem setEng_freeIx : (setEng s d e f).freeIx = s.freeIx := rfl

end setEng

section setDie

variable (s : State) (d : Nat) (f : DieTT → DieTT)

@[simp] theorem setDie_pending : (setDie s d f).pending = s.pending := rfl
@[simp] theorem setDie_regs : (setDie s d f).regs = s.regs := rfl
@[simp] theorem setDie_mem : (setDie s d f).mem = s.mem := rfl
@[simp] theorem setDie_hostMem : (setDie s d f).hostMem = s.hostMem := rfl
@[simp] theorem setDie_nportMem : (setDie s d f).nportMem = s.nportMem := rfl
@[simp] theorem setDie_bar2 : (setDie s d f).bar2 = s.bar2 := rfl
@[simp] theorem setDie_poisoned : (setDie s d f).poisoned = s.poisoned := rfl
@[simp] theorem setDie_possMap : (setDie s d f).possMap = s.possMap := rfl
@[simp] theorem setDie_jlines : (setDie s d f).jlines = s.jlines := rfl
@[simp] theorem setDie_dir : (setDie s d f).dir = s.dir := rfl
@[simp] theorem setDie_dirAge : (setDie s d f).dirAge = s.dirAge := rfl
@[simp] theorem setDie_deferred : (setDie s d f).deferred = s.deferred := rfl
@[simp] theorem setDie_hostLines : (setDie s d f).hostLines = s.hostLines := rfl
@[simp] theorem setDie_imsic : (setDie s d f).imsic = s.imsic := rfl
@[simp] theorem setDie_msis : (setDie s d f).msis = s.msis := rfl
@[simp] theorem setDie_aplicIn : (setDie s d f).aplicIn = s.aplicIn := rfl
@[simp] theorem setDie_trans : (setDie s d f).trans = s.trans := rfl
@[simp] theorem setDie_mtcx : (setDie s d f).mtcx = s.mtcx := rfl
@[simp] theorem setDie_port : (setDie s d f).port = s.port := rfl
@[simp] theorem setDie_job : (setDie s d f).job = s.job := rfl
@[simp] theorem setDie_guard : (setDie s d f).guard = s.guard := rfl
@[simp] theorem setDie_img : (setDie s d f).img = s.img := rfl
@[simp] theorem setDie_dev : (setDie s d f).dev = s.dev := rfl
@[simp] theorem setDie_mgmt : (setDie s d f).mgmt = s.mgmt := rfl
@[simp] theorem setDie_power : (setDie s d f).power = s.power := rfl
@[simp] theorem setDie_depot : (setDie s d f).depot = s.depot := rfl
@[simp] theorem setDie_hist : (setDie s d f).hist = s.hist := rfl
@[simp] theorem setDie_npFunc : (setDie s d f).npFunc = s.npFunc := rfl
@[simp] theorem setDie_engines : (setDie s d f).engines = s.engines := rfl
@[simp] theorem setDie_vregs : (setDie s d f).vregs = s.vregs := rfl
@[simp] theorem setDie_cells : (setDie s d f).cells = s.cells := rfl
@[simp] theorem setDie_signals : (setDie s d f).signals = s.signals := rfl
@[simp] theorem setDie_sigOps : (setDie s d f).sigOps = s.sigOps := rfl
@[simp] theorem setDie_slotsDue : (setDie s d f).slotsDue = s.slotsDue := rfl
@[simp] theorem setDie_scEntries : (setDie s d f).scEntries = s.scEntries := rfl
@[simp] theorem setDie_scStreams : (setDie s d f).scStreams = s.scStreams := rfl
@[simp] theorem setDie_scPre : (setDie s d f).scPre = s.scPre := rfl
@[simp] theorem setDie_scClock : (setDie s d f).scClock = s.scClock := rfl
@[simp] theorem setDie_scRange : (setDie s d f).scRange = s.scRange := rfl
@[simp] theorem setDie_calls : (setDie s d f).calls = s.calls := rfl
@[simp] theorem setDie_threads : (setDie s d f).threads = s.threads := rfl
@[simp] theorem setDie_resv : (setDie s d f).resv = s.resv := rfl
@[simp] theorem setDie_upds : (setDie s d f).upds = s.upds := rfl
@[simp] theorem setDie_ttx : (setDie s d f).ttx = s.ttx := rfl
@[simp] theorem setDie_reports : (setDie s d f).reports = s.reports := rfl
@[simp] theorem setDie_trains : (setDie s d f).trains = s.trains := rfl
@[simp] theorem setDie_om : (setDie s d f).om = s.om := rfl
@[simp] theorem setDie_colls : (setDie s d f).colls = s.colls := rfl
@[simp] theorem setDie_collRx : (setDie s d f).collRx = s.collRx := rfl
@[simp] theorem setDie_marks : (setDie s d f).marks = s.marks := rfl
@[simp] theorem setDie_lateFlags : (setDie s d f).lateFlags = s.lateFlags := rfl
@[simp] theorem setDie_cw : (setDie s d f).cw = s.cw := rfl
@[simp] theorem setDie_tap : (setDie s d f).tap = s.tap := rfl
@[simp] theorem setDie_slotWinner : (setDie s d f).slotWinner = s.slotWinner := rfl
@[simp] theorem setDie_bkBusy : (setDie s d f).bkBusy = s.bkBusy := rfl
@[simp] theorem setDie_bkLate : (setDie s d f).bkLate = s.bkLate := rfl
@[simp] theorem setDie_bkQueue : (setDie s d f).bkQueue = s.bkQueue := rfl
@[simp] theorem setDie_bkFeed : (setDie s d f).bkFeed = s.bkFeed := rfl
@[simp] theorem setDie_rebuildSlots : (setDie s d f).rebuildSlots = s.rebuildSlots := rfl
@[simp] theorem setDie_rebuildWon : (setDie s d f).rebuildWon = s.rebuildWon := rfl
@[simp] theorem setDie_bkGranted : (setDie s d f).bkGranted = s.bkGranted := rfl
@[simp] theorem setDie_ueTimes : (setDie s d f).ueTimes = s.ueTimes := rfl
@[simp] theorem setDie_refreshAt : (setDie s d f).refreshAt = s.refreshAt := rfl
@[simp] theorem setDie_sweeps : (setDie s d f).sweeps = s.sweeps := rfl
@[simp] theorem setDie_answer : (setDie s d f).answer = s.answer := rfl
@[simp] theorem setDie_freeIx : (setDie s d f).freeIx = s.freeIx := rfl

end setDie

section setThread

variable (s : State) (k : Nat) (f : Thread → Thread)

@[simp] theorem setThread_pending : (setThread s k f).pending = s.pending := rfl
@[simp] theorem setThread_regs : (setThread s k f).regs = s.regs := rfl
@[simp] theorem setThread_mem : (setThread s k f).mem = s.mem := rfl
@[simp] theorem setThread_hostMem : (setThread s k f).hostMem = s.hostMem := rfl
@[simp] theorem setThread_nportMem : (setThread s k f).nportMem = s.nportMem := rfl
@[simp] theorem setThread_bar2 : (setThread s k f).bar2 = s.bar2 := rfl
@[simp] theorem setThread_poisoned : (setThread s k f).poisoned = s.poisoned := rfl
@[simp] theorem setThread_possMap : (setThread s k f).possMap = s.possMap := rfl
@[simp] theorem setThread_jlines : (setThread s k f).jlines = s.jlines := rfl
@[simp] theorem setThread_dir : (setThread s k f).dir = s.dir := rfl
@[simp] theorem setThread_dirAge : (setThread s k f).dirAge = s.dirAge := rfl
@[simp] theorem setThread_deferred : (setThread s k f).deferred = s.deferred := rfl
@[simp] theorem setThread_hostLines : (setThread s k f).hostLines = s.hostLines := rfl
@[simp] theorem setThread_imsic : (setThread s k f).imsic = s.imsic := rfl
@[simp] theorem setThread_msis : (setThread s k f).msis = s.msis := rfl
@[simp] theorem setThread_aplicIn : (setThread s k f).aplicIn = s.aplicIn := rfl
@[simp] theorem setThread_trans : (setThread s k f).trans = s.trans := rfl
@[simp] theorem setThread_mtcx : (setThread s k f).mtcx = s.mtcx := rfl
@[simp] theorem setThread_port : (setThread s k f).port = s.port := rfl
@[simp] theorem setThread_job : (setThread s k f).job = s.job := rfl
@[simp] theorem setThread_guard : (setThread s k f).guard = s.guard := rfl
@[simp] theorem setThread_img : (setThread s k f).img = s.img := rfl
@[simp] theorem setThread_dev : (setThread s k f).dev = s.dev := rfl
@[simp] theorem setThread_mgmt : (setThread s k f).mgmt = s.mgmt := rfl
@[simp] theorem setThread_power : (setThread s k f).power = s.power := rfl
@[simp] theorem setThread_depot : (setThread s k f).depot = s.depot := rfl
@[simp] theorem setThread_hist : (setThread s k f).hist = s.hist := rfl
@[simp] theorem setThread_npFunc : (setThread s k f).npFunc = s.npFunc := rfl
@[simp] theorem setThread_engines : (setThread s k f).engines = s.engines := rfl
@[simp] theorem setThread_vregs : (setThread s k f).vregs = s.vregs := rfl
@[simp] theorem setThread_cells : (setThread s k f).cells = s.cells := rfl
@[simp] theorem setThread_signals : (setThread s k f).signals = s.signals := rfl
@[simp] theorem setThread_sigOps : (setThread s k f).sigOps = s.sigOps := rfl
@[simp] theorem setThread_slotsDue : (setThread s k f).slotsDue = s.slotsDue := rfl
@[simp] theorem setThread_dies : (setThread s k f).dies = s.dies := rfl
@[simp] theorem setThread_scEntries : (setThread s k f).scEntries = s.scEntries := rfl
@[simp] theorem setThread_scStreams : (setThread s k f).scStreams = s.scStreams := rfl
@[simp] theorem setThread_scPre : (setThread s k f).scPre = s.scPre := rfl
@[simp] theorem setThread_scClock : (setThread s k f).scClock = s.scClock := rfl
@[simp] theorem setThread_scRange : (setThread s k f).scRange = s.scRange := rfl
@[simp] theorem setThread_calls : (setThread s k f).calls = s.calls := rfl
@[simp] theorem setThread_resv : (setThread s k f).resv = s.resv := rfl
@[simp] theorem setThread_upds : (setThread s k f).upds = s.upds := rfl
@[simp] theorem setThread_ttx : (setThread s k f).ttx = s.ttx := rfl
@[simp] theorem setThread_reports : (setThread s k f).reports = s.reports := rfl
@[simp] theorem setThread_trains : (setThread s k f).trains = s.trains := rfl
@[simp] theorem setThread_om : (setThread s k f).om = s.om := rfl
@[simp] theorem setThread_colls : (setThread s k f).colls = s.colls := rfl
@[simp] theorem setThread_collRx : (setThread s k f).collRx = s.collRx := rfl
@[simp] theorem setThread_marks : (setThread s k f).marks = s.marks := rfl
@[simp] theorem setThread_lateFlags : (setThread s k f).lateFlags = s.lateFlags := rfl
@[simp] theorem setThread_cw : (setThread s k f).cw = s.cw := rfl
@[simp] theorem setThread_tap : (setThread s k f).tap = s.tap := rfl
@[simp] theorem setThread_slotWinner : (setThread s k f).slotWinner = s.slotWinner := rfl
@[simp] theorem setThread_bkBusy : (setThread s k f).bkBusy = s.bkBusy := rfl
@[simp] theorem setThread_bkLate : (setThread s k f).bkLate = s.bkLate := rfl
@[simp] theorem setThread_bkQueue : (setThread s k f).bkQueue = s.bkQueue := rfl
@[simp] theorem setThread_bkFeed : (setThread s k f).bkFeed = s.bkFeed := rfl
@[simp] theorem setThread_rebuildSlots : (setThread s k f).rebuildSlots = s.rebuildSlots := rfl
@[simp] theorem setThread_rebuildWon : (setThread s k f).rebuildWon = s.rebuildWon := rfl
@[simp] theorem setThread_bkGranted : (setThread s k f).bkGranted = s.bkGranted := rfl
@[simp] theorem setThread_ueTimes : (setThread s k f).ueTimes = s.ueTimes := rfl
@[simp] theorem setThread_refreshAt : (setThread s k f).refreshAt = s.refreshAt := rfl
@[simp] theorem setThread_sweeps : (setThread s k f).sweeps = s.sweeps := rfl
@[simp] theorem setThread_answer : (setThread s k f).answer = s.answer := rfl
@[simp] theorem setThread_freeIx : (setThread s k f).freeIx = s.freeIx := rfl

end setThread

section sendSig

variable (s : State) (o : SigOp)

@[simp] theorem sendSig_pending : (sendSig s o).pending = s.pending := rfl
@[simp] theorem sendSig_regs : (sendSig s o).regs = s.regs := rfl
@[simp] theorem sendSig_mem : (sendSig s o).mem = s.mem := rfl
@[simp] theorem sendSig_hostMem : (sendSig s o).hostMem = s.hostMem := rfl
@[simp] theorem sendSig_nportMem : (sendSig s o).nportMem = s.nportMem := rfl
@[simp] theorem sendSig_bar2 : (sendSig s o).bar2 = s.bar2 := rfl
@[simp] theorem sendSig_poisoned : (sendSig s o).poisoned = s.poisoned := rfl
@[simp] theorem sendSig_possMap : (sendSig s o).possMap = s.possMap := rfl
@[simp] theorem sendSig_jlines : (sendSig s o).jlines = s.jlines := rfl
@[simp] theorem sendSig_dir : (sendSig s o).dir = s.dir := rfl
@[simp] theorem sendSig_dirAge : (sendSig s o).dirAge = s.dirAge := rfl
@[simp] theorem sendSig_deferred : (sendSig s o).deferred = s.deferred := rfl
@[simp] theorem sendSig_hostLines : (sendSig s o).hostLines = s.hostLines := rfl
@[simp] theorem sendSig_imsic : (sendSig s o).imsic = s.imsic := rfl
@[simp] theorem sendSig_msis : (sendSig s o).msis = s.msis := rfl
@[simp] theorem sendSig_aplicIn : (sendSig s o).aplicIn = s.aplicIn := rfl
@[simp] theorem sendSig_trans : (sendSig s o).trans = s.trans := rfl
@[simp] theorem sendSig_mtcx : (sendSig s o).mtcx = s.mtcx := rfl
@[simp] theorem sendSig_port : (sendSig s o).port = s.port := rfl
@[simp] theorem sendSig_job : (sendSig s o).job = s.job := rfl
@[simp] theorem sendSig_guard : (sendSig s o).guard = s.guard := rfl
@[simp] theorem sendSig_img : (sendSig s o).img = s.img := rfl
@[simp] theorem sendSig_dev : (sendSig s o).dev = s.dev := rfl
@[simp] theorem sendSig_mgmt : (sendSig s o).mgmt = s.mgmt := rfl
@[simp] theorem sendSig_power : (sendSig s o).power = s.power := rfl
@[simp] theorem sendSig_depot : (sendSig s o).depot = s.depot := rfl
@[simp] theorem sendSig_hist : (sendSig s o).hist = s.hist := rfl
@[simp] theorem sendSig_npFunc : (sendSig s o).npFunc = s.npFunc := rfl
@[simp] theorem sendSig_engines : (sendSig s o).engines = s.engines := rfl
@[simp] theorem sendSig_vregs : (sendSig s o).vregs = s.vregs := rfl
@[simp] theorem sendSig_cells : (sendSig s o).cells = s.cells := rfl
@[simp] theorem sendSig_signals : (sendSig s o).signals = s.signals := rfl
@[simp] theorem sendSig_slotsDue : (sendSig s o).slotsDue = s.slotsDue := rfl
@[simp] theorem sendSig_dies : (sendSig s o).dies = s.dies := rfl
@[simp] theorem sendSig_scEntries : (sendSig s o).scEntries = s.scEntries := rfl
@[simp] theorem sendSig_scStreams : (sendSig s o).scStreams = s.scStreams := rfl
@[simp] theorem sendSig_scPre : (sendSig s o).scPre = s.scPre := rfl
@[simp] theorem sendSig_scClock : (sendSig s o).scClock = s.scClock := rfl
@[simp] theorem sendSig_scRange : (sendSig s o).scRange = s.scRange := rfl
@[simp] theorem sendSig_calls : (sendSig s o).calls = s.calls := rfl
@[simp] theorem sendSig_threads : (sendSig s o).threads = s.threads := rfl
@[simp] theorem sendSig_resv : (sendSig s o).resv = s.resv := rfl
@[simp] theorem sendSig_upds : (sendSig s o).upds = s.upds := rfl
@[simp] theorem sendSig_ttx : (sendSig s o).ttx = s.ttx := rfl
@[simp] theorem sendSig_reports : (sendSig s o).reports = s.reports := rfl
@[simp] theorem sendSig_trains : (sendSig s o).trains = s.trains := rfl
@[simp] theorem sendSig_om : (sendSig s o).om = s.om := rfl
@[simp] theorem sendSig_colls : (sendSig s o).colls = s.colls := rfl
@[simp] theorem sendSig_collRx : (sendSig s o).collRx = s.collRx := rfl
@[simp] theorem sendSig_marks : (sendSig s o).marks = s.marks := rfl
@[simp] theorem sendSig_lateFlags : (sendSig s o).lateFlags = s.lateFlags := rfl
@[simp] theorem sendSig_cw : (sendSig s o).cw = s.cw := rfl
@[simp] theorem sendSig_tap : (sendSig s o).tap = s.tap := rfl
@[simp] theorem sendSig_slotWinner : (sendSig s o).slotWinner = s.slotWinner := rfl
@[simp] theorem sendSig_bkBusy : (sendSig s o).bkBusy = s.bkBusy := rfl
@[simp] theorem sendSig_bkLate : (sendSig s o).bkLate = s.bkLate := rfl
@[simp] theorem sendSig_bkQueue : (sendSig s o).bkQueue = s.bkQueue := rfl
@[simp] theorem sendSig_bkFeed : (sendSig s o).bkFeed = s.bkFeed := rfl
@[simp] theorem sendSig_rebuildSlots : (sendSig s o).rebuildSlots = s.rebuildSlots := rfl
@[simp] theorem sendSig_rebuildWon : (sendSig s o).rebuildWon = s.rebuildWon := rfl
@[simp] theorem sendSig_bkGranted : (sendSig s o).bkGranted = s.bkGranted := rfl
@[simp] theorem sendSig_ueTimes : (sendSig s o).ueTimes = s.ueTimes := rfl
@[simp] theorem sendSig_refreshAt : (sendSig s o).refreshAt = s.refreshAt := rfl
@[simp] theorem sendSig_sweeps : (sendSig s o).sweeps = s.sweeps := rfl
@[simp] theorem sendSig_answer : (sendSig s o).answer = s.answer := rfl
@[simp] theorem sendSig_freeIx : (sendSig s o).freeIx = s.freeIx := rfl

end sendSig

section pushNotice

variable (s : State) (ty st : Nat) (src : W32) (c : Nat) (a b x y : W64)

@[simp] theorem pushNotice_pending : (pushNotice s ty st src c a b x y).pending = s.pending := rfl
@[simp] theorem pushNotice_regs : (pushNotice s ty st src c a b x y).regs = s.regs := rfl
@[simp] theorem pushNotice_mem : (pushNotice s ty st src c a b x y).mem = s.mem := rfl
@[simp] theorem pushNotice_hostMem : (pushNotice s ty st src c a b x y).hostMem = s.hostMem := rfl
@[simp] theorem pushNotice_nportMem : (pushNotice s ty st src c a b x y).nportMem = s.nportMem := rfl
@[simp] theorem pushNotice_bar2 : (pushNotice s ty st src c a b x y).bar2 = s.bar2 := rfl
@[simp] theorem pushNotice_poisoned : (pushNotice s ty st src c a b x y).poisoned = s.poisoned := rfl
@[simp] theorem pushNotice_possMap : (pushNotice s ty st src c a b x y).possMap = s.possMap := rfl
@[simp] theorem pushNotice_jlines : (pushNotice s ty st src c a b x y).jlines = s.jlines := rfl
@[simp] theorem pushNotice_dir : (pushNotice s ty st src c a b x y).dir = s.dir := rfl
@[simp] theorem pushNotice_dirAge : (pushNotice s ty st src c a b x y).dirAge = s.dirAge := rfl
@[simp] theorem pushNotice_deferred : (pushNotice s ty st src c a b x y).deferred = s.deferred := rfl
@[simp] theorem pushNotice_hostLines : (pushNotice s ty st src c a b x y).hostLines = s.hostLines := rfl
@[simp] theorem pushNotice_imsic : (pushNotice s ty st src c a b x y).imsic = s.imsic := rfl
@[simp] theorem pushNotice_msis : (pushNotice s ty st src c a b x y).msis = s.msis := rfl
@[simp] theorem pushNotice_aplicIn : (pushNotice s ty st src c a b x y).aplicIn = s.aplicIn := rfl
@[simp] theorem pushNotice_trans : (pushNotice s ty st src c a b x y).trans = s.trans := rfl
@[simp] theorem pushNotice_mtcx : (pushNotice s ty st src c a b x y).mtcx = s.mtcx := rfl
@[simp] theorem pushNotice_job : (pushNotice s ty st src c a b x y).job = s.job := rfl
@[simp] theorem pushNotice_guard : (pushNotice s ty st src c a b x y).guard = s.guard := rfl
@[simp] theorem pushNotice_img : (pushNotice s ty st src c a b x y).img = s.img := rfl
@[simp] theorem pushNotice_dev : (pushNotice s ty st src c a b x y).dev = s.dev := rfl
@[simp] theorem pushNotice_mgmt : (pushNotice s ty st src c a b x y).mgmt = s.mgmt := rfl
@[simp] theorem pushNotice_power : (pushNotice s ty st src c a b x y).power = s.power := rfl
@[simp] theorem pushNotice_depot : (pushNotice s ty st src c a b x y).depot = s.depot := rfl
@[simp] theorem pushNotice_hist : (pushNotice s ty st src c a b x y).hist = s.hist := rfl
@[simp] theorem pushNotice_npFunc : (pushNotice s ty st src c a b x y).npFunc = s.npFunc := rfl
@[simp] theorem pushNotice_engines : (pushNotice s ty st src c a b x y).engines = s.engines := rfl
@[simp] theorem pushNotice_vregs : (pushNotice s ty st src c a b x y).vregs = s.vregs := rfl
@[simp] theorem pushNotice_cells : (pushNotice s ty st src c a b x y).cells = s.cells := rfl
@[simp] theorem pushNotice_signals : (pushNotice s ty st src c a b x y).signals = s.signals := rfl
@[simp] theorem pushNotice_sigOps : (pushNotice s ty st src c a b x y).sigOps = s.sigOps := rfl
@[simp] theorem pushNotice_slotsDue : (pushNotice s ty st src c a b x y).slotsDue = s.slotsDue := rfl
@[simp] theorem pushNotice_dies : (pushNotice s ty st src c a b x y).dies = s.dies := rfl
@[simp] theorem pushNotice_scEntries : (pushNotice s ty st src c a b x y).scEntries = s.scEntries := rfl
@[simp] theorem pushNotice_scStreams : (pushNotice s ty st src c a b x y).scStreams = s.scStreams := rfl
@[simp] theorem pushNotice_scPre : (pushNotice s ty st src c a b x y).scPre = s.scPre := rfl
@[simp] theorem pushNotice_scClock : (pushNotice s ty st src c a b x y).scClock = s.scClock := rfl
@[simp] theorem pushNotice_scRange : (pushNotice s ty st src c a b x y).scRange = s.scRange := rfl
@[simp] theorem pushNotice_calls : (pushNotice s ty st src c a b x y).calls = s.calls := rfl
@[simp] theorem pushNotice_threads : (pushNotice s ty st src c a b x y).threads = s.threads := rfl
@[simp] theorem pushNotice_resv : (pushNotice s ty st src c a b x y).resv = s.resv := rfl
@[simp] theorem pushNotice_upds : (pushNotice s ty st src c a b x y).upds = s.upds := rfl
@[simp] theorem pushNotice_ttx : (pushNotice s ty st src c a b x y).ttx = s.ttx := rfl
@[simp] theorem pushNotice_reports : (pushNotice s ty st src c a b x y).reports = s.reports := rfl
@[simp] theorem pushNotice_trains : (pushNotice s ty st src c a b x y).trains = s.trains := rfl
@[simp] theorem pushNotice_om : (pushNotice s ty st src c a b x y).om = s.om := rfl
@[simp] theorem pushNotice_colls : (pushNotice s ty st src c a b x y).colls = s.colls := rfl
@[simp] theorem pushNotice_collRx : (pushNotice s ty st src c a b x y).collRx = s.collRx := rfl
@[simp] theorem pushNotice_marks : (pushNotice s ty st src c a b x y).marks = s.marks := rfl
@[simp] theorem pushNotice_lateFlags : (pushNotice s ty st src c a b x y).lateFlags = s.lateFlags := rfl
@[simp] theorem pushNotice_cw : (pushNotice s ty st src c a b x y).cw = s.cw := rfl
@[simp] theorem pushNotice_tap : (pushNotice s ty st src c a b x y).tap = s.tap := rfl
@[simp] theorem pushNotice_slotWinner : (pushNotice s ty st src c a b x y).slotWinner = s.slotWinner := rfl
@[simp] theorem pushNotice_bkBusy : (pushNotice s ty st src c a b x y).bkBusy = s.bkBusy := rfl
@[simp] theorem pushNotice_bkLate : (pushNotice s ty st src c a b x y).bkLate = s.bkLate := rfl
@[simp] theorem pushNotice_bkQueue : (pushNotice s ty st src c a b x y).bkQueue = s.bkQueue := rfl
@[simp] theorem pushNotice_bkFeed : (pushNotice s ty st src c a b x y).bkFeed = s.bkFeed := rfl
@[simp] theorem pushNotice_rebuildSlots : (pushNotice s ty st src c a b x y).rebuildSlots = s.rebuildSlots := rfl
@[simp] theorem pushNotice_rebuildWon : (pushNotice s ty st src c a b x y).rebuildWon = s.rebuildWon := rfl
@[simp] theorem pushNotice_bkGranted : (pushNotice s ty st src c a b x y).bkGranted = s.bkGranted := rfl
@[simp] theorem pushNotice_ueTimes : (pushNotice s ty st src c a b x y).ueTimes = s.ueTimes := rfl
@[simp] theorem pushNotice_refreshAt : (pushNotice s ty st src c a b x y).refreshAt = s.refreshAt := rfl
@[simp] theorem pushNotice_sweeps : (pushNotice s ty st src c a b x y).sweeps = s.sweeps := rfl
@[simp] theorem pushNotice_answer : (pushNotice s ty st src c a b x y).answer = s.answer := rfl
@[simp] theorem pushNotice_freeIx : (pushNotice s ty st src c a b x y).freeIx = s.freeIx := rfl

end pushNotice

section wrBytes

variable (s : State) (a : Nat) (l : List Byte)

@[simp] theorem wrBytes_pending : (wrBytes s a l).pending = s.pending := rfl
@[simp] theorem wrBytes_regs : (wrBytes s a l).regs = s.regs := rfl
@[simp] theorem wrBytes_hostMem : (wrBytes s a l).hostMem = s.hostMem := rfl
@[simp] theorem wrBytes_nportMem : (wrBytes s a l).nportMem = s.nportMem := rfl
@[simp] theorem wrBytes_bar2 : (wrBytes s a l).bar2 = s.bar2 := rfl
@[simp] theorem wrBytes_possMap : (wrBytes s a l).possMap = s.possMap := rfl
@[simp] theorem wrBytes_jlines : (wrBytes s a l).jlines = s.jlines := rfl
@[simp] theorem wrBytes_dir : (wrBytes s a l).dir = s.dir := rfl
@[simp] theorem wrBytes_dirAge : (wrBytes s a l).dirAge = s.dirAge := rfl
@[simp] theorem wrBytes_deferred : (wrBytes s a l).deferred = s.deferred := rfl
@[simp] theorem wrBytes_hostLines : (wrBytes s a l).hostLines = s.hostLines := rfl
@[simp] theorem wrBytes_imsic : (wrBytes s a l).imsic = s.imsic := rfl
@[simp] theorem wrBytes_msis : (wrBytes s a l).msis = s.msis := rfl
@[simp] theorem wrBytes_aplicIn : (wrBytes s a l).aplicIn = s.aplicIn := rfl
@[simp] theorem wrBytes_trans : (wrBytes s a l).trans = s.trans := rfl
@[simp] theorem wrBytes_mtcx : (wrBytes s a l).mtcx = s.mtcx := rfl
@[simp] theorem wrBytes_port : (wrBytes s a l).port = s.port := rfl
@[simp] theorem wrBytes_job : (wrBytes s a l).job = s.job := rfl
@[simp] theorem wrBytes_guard : (wrBytes s a l).guard = s.guard := rfl
@[simp] theorem wrBytes_img : (wrBytes s a l).img = s.img := rfl
@[simp] theorem wrBytes_dev : (wrBytes s a l).dev = s.dev := rfl
@[simp] theorem wrBytes_mgmt : (wrBytes s a l).mgmt = s.mgmt := rfl
@[simp] theorem wrBytes_power : (wrBytes s a l).power = s.power := rfl
@[simp] theorem wrBytes_depot : (wrBytes s a l).depot = s.depot := rfl
@[simp] theorem wrBytes_hist : (wrBytes s a l).hist = s.hist := rfl
@[simp] theorem wrBytes_npFunc : (wrBytes s a l).npFunc = s.npFunc := rfl
@[simp] theorem wrBytes_engines : (wrBytes s a l).engines = s.engines := rfl
@[simp] theorem wrBytes_vregs : (wrBytes s a l).vregs = s.vregs := rfl
@[simp] theorem wrBytes_cells : (wrBytes s a l).cells = s.cells := rfl
@[simp] theorem wrBytes_signals : (wrBytes s a l).signals = s.signals := rfl
@[simp] theorem wrBytes_sigOps : (wrBytes s a l).sigOps = s.sigOps := rfl
@[simp] theorem wrBytes_slotsDue : (wrBytes s a l).slotsDue = s.slotsDue := rfl
@[simp] theorem wrBytes_dies : (wrBytes s a l).dies = s.dies := rfl
@[simp] theorem wrBytes_scEntries : (wrBytes s a l).scEntries = s.scEntries := rfl
@[simp] theorem wrBytes_scStreams : (wrBytes s a l).scStreams = s.scStreams := rfl
@[simp] theorem wrBytes_scPre : (wrBytes s a l).scPre = s.scPre := rfl
@[simp] theorem wrBytes_scClock : (wrBytes s a l).scClock = s.scClock := rfl
@[simp] theorem wrBytes_scRange : (wrBytes s a l).scRange = s.scRange := rfl
@[simp] theorem wrBytes_calls : (wrBytes s a l).calls = s.calls := rfl
@[simp] theorem wrBytes_threads : (wrBytes s a l).threads = s.threads := rfl
@[simp] theorem wrBytes_upds : (wrBytes s a l).upds = s.upds := rfl
@[simp] theorem wrBytes_ttx : (wrBytes s a l).ttx = s.ttx := rfl
@[simp] theorem wrBytes_reports : (wrBytes s a l).reports = s.reports := rfl
@[simp] theorem wrBytes_trains : (wrBytes s a l).trains = s.trains := rfl
@[simp] theorem wrBytes_om : (wrBytes s a l).om = s.om := rfl
@[simp] theorem wrBytes_colls : (wrBytes s a l).colls = s.colls := rfl
@[simp] theorem wrBytes_collRx : (wrBytes s a l).collRx = s.collRx := rfl
@[simp] theorem wrBytes_marks : (wrBytes s a l).marks = s.marks := rfl
@[simp] theorem wrBytes_lateFlags : (wrBytes s a l).lateFlags = s.lateFlags := rfl
@[simp] theorem wrBytes_cw : (wrBytes s a l).cw = s.cw := rfl
@[simp] theorem wrBytes_tap : (wrBytes s a l).tap = s.tap := rfl
@[simp] theorem wrBytes_slotWinner : (wrBytes s a l).slotWinner = s.slotWinner := rfl
@[simp] theorem wrBytes_bkBusy : (wrBytes s a l).bkBusy = s.bkBusy := rfl
@[simp] theorem wrBytes_bkLate : (wrBytes s a l).bkLate = s.bkLate := rfl
@[simp] theorem wrBytes_bkQueue : (wrBytes s a l).bkQueue = s.bkQueue := rfl
@[simp] theorem wrBytes_bkFeed : (wrBytes s a l).bkFeed = s.bkFeed := rfl
@[simp] theorem wrBytes_rebuildSlots : (wrBytes s a l).rebuildSlots = s.rebuildSlots := rfl
@[simp] theorem wrBytes_rebuildWon : (wrBytes s a l).rebuildWon = s.rebuildWon := rfl
@[simp] theorem wrBytes_bkGranted : (wrBytes s a l).bkGranted = s.bkGranted := rfl
@[simp] theorem wrBytes_ueTimes : (wrBytes s a l).ueTimes = s.ueTimes := rfl
@[simp] theorem wrBytes_refreshAt : (wrBytes s a l).refreshAt = s.refreshAt := rfl
@[simp] theorem wrBytes_sweeps : (wrBytes s a l).sweeps = s.sweeps := rfl
@[simp] theorem wrBytes_answer : (wrBytes s a l).answer = s.answer := rfl
@[simp] theorem wrBytes_freeIx : (wrBytes s a l).freeIx = s.freeIx := rfl

end wrBytes

section updCmd

variable (s : State) (q : W32) (f : Cmd → Cmd)

@[simp] theorem updCmd_pending : (updCmd s q f).pending = s.pending := rfl
@[simp] theorem updCmd_regs : (updCmd s q f).regs = s.regs := rfl
@[simp] theorem updCmd_mem : (updCmd s q f).mem = s.mem := rfl
@[simp] theorem updCmd_hostMem : (updCmd s q f).hostMem = s.hostMem := rfl
@[simp] theorem updCmd_nportMem : (updCmd s q f).nportMem = s.nportMem := rfl
@[simp] theorem updCmd_bar2 : (updCmd s q f).bar2 = s.bar2 := rfl
@[simp] theorem updCmd_poisoned : (updCmd s q f).poisoned = s.poisoned := rfl
@[simp] theorem updCmd_possMap : (updCmd s q f).possMap = s.possMap := rfl
@[simp] theorem updCmd_jlines : (updCmd s q f).jlines = s.jlines := rfl
@[simp] theorem updCmd_dir : (updCmd s q f).dir = s.dir := rfl
@[simp] theorem updCmd_dirAge : (updCmd s q f).dirAge = s.dirAge := rfl
@[simp] theorem updCmd_deferred : (updCmd s q f).deferred = s.deferred := rfl
@[simp] theorem updCmd_hostLines : (updCmd s q f).hostLines = s.hostLines := rfl
@[simp] theorem updCmd_imsic : (updCmd s q f).imsic = s.imsic := rfl
@[simp] theorem updCmd_msis : (updCmd s q f).msis = s.msis := rfl
@[simp] theorem updCmd_aplicIn : (updCmd s q f).aplicIn = s.aplicIn := rfl
@[simp] theorem updCmd_trans : (updCmd s q f).trans = s.trans := rfl
@[simp] theorem updCmd_mtcx : (updCmd s q f).mtcx = s.mtcx := rfl
@[simp] theorem updCmd_job : (updCmd s q f).job = s.job := rfl
@[simp] theorem updCmd_guard : (updCmd s q f).guard = s.guard := rfl
@[simp] theorem updCmd_img : (updCmd s q f).img = s.img := rfl
@[simp] theorem updCmd_dev : (updCmd s q f).dev = s.dev := rfl
@[simp] theorem updCmd_mgmt : (updCmd s q f).mgmt = s.mgmt := rfl
@[simp] theorem updCmd_power : (updCmd s q f).power = s.power := rfl
@[simp] theorem updCmd_depot : (updCmd s q f).depot = s.depot := rfl
@[simp] theorem updCmd_hist : (updCmd s q f).hist = s.hist := rfl
@[simp] theorem updCmd_npFunc : (updCmd s q f).npFunc = s.npFunc := rfl
@[simp] theorem updCmd_engines : (updCmd s q f).engines = s.engines := rfl
@[simp] theorem updCmd_vregs : (updCmd s q f).vregs = s.vregs := rfl
@[simp] theorem updCmd_cells : (updCmd s q f).cells = s.cells := rfl
@[simp] theorem updCmd_signals : (updCmd s q f).signals = s.signals := rfl
@[simp] theorem updCmd_sigOps : (updCmd s q f).sigOps = s.sigOps := rfl
@[simp] theorem updCmd_slotsDue : (updCmd s q f).slotsDue = s.slotsDue := rfl
@[simp] theorem updCmd_dies : (updCmd s q f).dies = s.dies := rfl
@[simp] theorem updCmd_scEntries : (updCmd s q f).scEntries = s.scEntries := rfl
@[simp] theorem updCmd_scStreams : (updCmd s q f).scStreams = s.scStreams := rfl
@[simp] theorem updCmd_scPre : (updCmd s q f).scPre = s.scPre := rfl
@[simp] theorem updCmd_scClock : (updCmd s q f).scClock = s.scClock := rfl
@[simp] theorem updCmd_scRange : (updCmd s q f).scRange = s.scRange := rfl
@[simp] theorem updCmd_calls : (updCmd s q f).calls = s.calls := rfl
@[simp] theorem updCmd_threads : (updCmd s q f).threads = s.threads := rfl
@[simp] theorem updCmd_resv : (updCmd s q f).resv = s.resv := rfl
@[simp] theorem updCmd_upds : (updCmd s q f).upds = s.upds := rfl
@[simp] theorem updCmd_ttx : (updCmd s q f).ttx = s.ttx := rfl
@[simp] theorem updCmd_reports : (updCmd s q f).reports = s.reports := rfl
@[simp] theorem updCmd_trains : (updCmd s q f).trains = s.trains := rfl
@[simp] theorem updCmd_om : (updCmd s q f).om = s.om := rfl
@[simp] theorem updCmd_colls : (updCmd s q f).colls = s.colls := rfl
@[simp] theorem updCmd_collRx : (updCmd s q f).collRx = s.collRx := rfl
@[simp] theorem updCmd_marks : (updCmd s q f).marks = s.marks := rfl
@[simp] theorem updCmd_lateFlags : (updCmd s q f).lateFlags = s.lateFlags := rfl
@[simp] theorem updCmd_cw : (updCmd s q f).cw = s.cw := rfl
@[simp] theorem updCmd_tap : (updCmd s q f).tap = s.tap := rfl
@[simp] theorem updCmd_slotWinner : (updCmd s q f).slotWinner = s.slotWinner := rfl
@[simp] theorem updCmd_bkBusy : (updCmd s q f).bkBusy = s.bkBusy := rfl
@[simp] theorem updCmd_bkLate : (updCmd s q f).bkLate = s.bkLate := rfl
@[simp] theorem updCmd_bkQueue : (updCmd s q f).bkQueue = s.bkQueue := rfl
@[simp] theorem updCmd_bkFeed : (updCmd s q f).bkFeed = s.bkFeed := rfl
@[simp] theorem updCmd_rebuildSlots : (updCmd s q f).rebuildSlots = s.rebuildSlots := rfl
@[simp] theorem updCmd_rebuildWon : (updCmd s q f).rebuildWon = s.rebuildWon := rfl
@[simp] theorem updCmd_bkGranted : (updCmd s q f).bkGranted = s.bkGranted := rfl
@[simp] theorem updCmd_ueTimes : (updCmd s q f).ueTimes = s.ueTimes := rfl
@[simp] theorem updCmd_refreshAt : (updCmd s q f).refreshAt = s.refreshAt := rfl
@[simp] theorem updCmd_sweeps : (updCmd s q f).sweeps = s.sweeps := rfl
@[simp] theorem updCmd_answer : (updCmd s q f).answer = s.answer := rfl
@[simp] theorem updCmd_freeIx : (updCmd s q f).freeIx = s.freeIx := rfl

end updCmd

/-! ### Notices: `post` changes the host port and two of its registers only -/

section post

variable (s : State) (ty st : Nat) (src : W32) (c : Nat) (a b x y : W64)

@[simp] theorem overflowNotice_pending : (overflowNotice s).pending = s.pending := by
  unfold overflowNotice; split <;> rfl
@[simp] theorem post_pending : (post s ty st src c a b x y).pending = s.pending := by
  unfold post; simp only []; split <;> simp [hpEvent, wrB, upd, inc]
@[simp] theorem overflowNotice_mem : (overflowNotice s).mem = s.mem := by
  unfold overflowNotice; split <;> rfl
@[simp] theorem post_mem : (post s ty st src c a b x y).mem = s.mem := by
  unfold post; simp only []; split <;> simp [hpEvent, wrB, upd, inc]
@[simp] theorem overflowNotice_hostMem : (overflowNotice s).hostMem = s.hostMem := by
  unfold overflowNotice; split <;> rfl
@[simp] theorem post_hostMem : (post s ty st src c a b x y).hostMem = s.hostMem := by
  unfold post; simp only []; split <;> simp [hpEvent, wrB, upd, inc]
@[simp] theorem overflowNotice_nportMem : (overflowNotice s).nportMem = s.nportMem := by
  unfold overflowNotice; split <;> rfl
@[simp] theorem post_nportMem : (post s ty st src c a b x y).nportMem = s.nportMem := by
  unfold post; simp only []; split <;> simp [hpEvent, wrB, upd, inc]
@[simp] theorem overflowNotice_bar2 : (overflowNotice s).bar2 = s.bar2 := by
  unfold overflowNotice; split <;> rfl
@[simp] theorem post_bar2 : (post s ty st src c a b x y).bar2 = s.bar2 := by
  unfold post; simp only []; split <;> simp [hpEvent, wrB, upd, inc]
@[simp] theorem overflowNotice_poisoned : (overflowNotice s).poisoned = s.poisoned := by
  unfold overflowNotice; split <;> rfl
@[simp] theorem post_poisoned : (post s ty st src c a b x y).poisoned = s.poisoned := by
  unfold post; simp only []; split <;> simp [hpEvent, wrB, upd, inc]
@[simp] theorem overflowNotice_possMap : (overflowNotice s).possMap = s.possMap := by
  unfold overflowNotice; split <;> rfl
@[simp] theorem post_possMap : (post s ty st src c a b x y).possMap = s.possMap := by
  unfold post; simp only []; split <;> simp [hpEvent, wrB, upd, inc]
@[simp] theorem overflowNotice_jlines : (overflowNotice s).jlines = s.jlines := by
  unfold overflowNotice; split <;> rfl
@[simp] theorem post_jlines : (post s ty st src c a b x y).jlines = s.jlines := by
  unfold post; simp only []; split <;> simp [hpEvent, wrB, upd, inc]
@[simp] theorem overflowNotice_dir : (overflowNotice s).dir = s.dir := by
  unfold overflowNotice; split <;> rfl
@[simp] theorem post_dir : (post s ty st src c a b x y).dir = s.dir := by
  unfold post; simp only []; split <;> simp [hpEvent, wrB, upd, inc]
@[simp] theorem overflowNotice_dirAge : (overflowNotice s).dirAge = s.dirAge := by
  unfold overflowNotice; split <;> rfl
@[simp] theorem post_dirAge : (post s ty st src c a b x y).dirAge = s.dirAge := by
  unfold post; simp only []; split <;> simp [hpEvent, wrB, upd, inc]
@[simp] theorem overflowNotice_deferred : (overflowNotice s).deferred = s.deferred := by
  unfold overflowNotice; split <;> rfl
@[simp] theorem post_deferred : (post s ty st src c a b x y).deferred = s.deferred := by
  unfold post; simp only []; split <;> simp [hpEvent, wrB, upd, inc]
@[simp] theorem overflowNotice_hostLines : (overflowNotice s).hostLines = s.hostLines := by
  unfold overflowNotice; split <;> rfl
@[simp] theorem post_hostLines : (post s ty st src c a b x y).hostLines = s.hostLines := by
  unfold post; simp only []; split <;> simp [hpEvent, wrB, upd, inc]
@[simp] theorem overflowNotice_imsic : (overflowNotice s).imsic = s.imsic := by
  unfold overflowNotice; split <;> rfl
@[simp] theorem post_imsic : (post s ty st src c a b x y).imsic = s.imsic := by
  unfold post; simp only []; split <;> simp [hpEvent, wrB, upd, inc]
@[simp] theorem overflowNotice_msis : (overflowNotice s).msis = s.msis := by
  unfold overflowNotice; split <;> rfl
@[simp] theorem post_msis : (post s ty st src c a b x y).msis = s.msis := by
  unfold post; simp only []; split <;> simp [hpEvent, wrB, upd, inc]
@[simp] theorem overflowNotice_aplicIn : (overflowNotice s).aplicIn = s.aplicIn := by
  unfold overflowNotice; split <;> rfl
@[simp] theorem post_aplicIn : (post s ty st src c a b x y).aplicIn = s.aplicIn := by
  unfold post; simp only []; split <;> simp [hpEvent, wrB, upd, inc]
@[simp] theorem overflowNotice_trans : (overflowNotice s).trans = s.trans := by
  unfold overflowNotice; split <;> rfl
@[simp] theorem post_trans : (post s ty st src c a b x y).trans = s.trans := by
  unfold post; simp only []; split <;> simp [hpEvent, wrB, upd, inc]
@[simp] theorem overflowNotice_mtcx : (overflowNotice s).mtcx = s.mtcx := by
  unfold overflowNotice; split <;> rfl
@[simp] theorem post_mtcx : (post s ty st src c a b x y).mtcx = s.mtcx := by
  unfold post; simp only []; split <;> simp [hpEvent, wrB, upd, inc]
@[simp] theorem overflowNotice_job : (overflowNotice s).job = s.job := by
  unfold overflowNotice; split <;> rfl
@[simp] theorem post_job : (post s ty st src c a b x y).job = s.job := by
  unfold post; simp only []; split <;> simp [hpEvent, wrB, upd, inc]
@[simp] theorem overflowNotice_guard : (overflowNotice s).guard = s.guard := by
  unfold overflowNotice; split <;> rfl
@[simp] theorem post_guard : (post s ty st src c a b x y).guard = s.guard := by
  unfold post; simp only []; split <;> simp [hpEvent, wrB, upd, inc]
@[simp] theorem overflowNotice_img : (overflowNotice s).img = s.img := by
  unfold overflowNotice; split <;> rfl
@[simp] theorem post_img : (post s ty st src c a b x y).img = s.img := by
  unfold post; simp only []; split <;> simp [hpEvent, wrB, upd, inc]
@[simp] theorem overflowNotice_dev : (overflowNotice s).dev = s.dev := by
  unfold overflowNotice; split <;> rfl
@[simp] theorem post_dev : (post s ty st src c a b x y).dev = s.dev := by
  unfold post; simp only []; split <;> simp [hpEvent, wrB, upd, inc]
@[simp] theorem overflowNotice_mgmt : (overflowNotice s).mgmt = s.mgmt := by
  unfold overflowNotice; split <;> rfl
@[simp] theorem post_mgmt : (post s ty st src c a b x y).mgmt = s.mgmt := by
  unfold post; simp only []; split <;> simp [hpEvent, wrB, upd, inc]
@[simp] theorem overflowNotice_power : (overflowNotice s).power = s.power := by
  unfold overflowNotice; split <;> rfl
@[simp] theorem post_power : (post s ty st src c a b x y).power = s.power := by
  unfold post; simp only []; split <;> simp [hpEvent, wrB, upd, inc]
@[simp] theorem overflowNotice_depot : (overflowNotice s).depot = s.depot := by
  unfold overflowNotice; split <;> rfl
@[simp] theorem post_depot : (post s ty st src c a b x y).depot = s.depot := by
  unfold post; simp only []; split <;> simp [hpEvent, wrB, upd, inc]
@[simp] theorem overflowNotice_hist : (overflowNotice s).hist = s.hist := by
  unfold overflowNotice; split <;> rfl
@[simp] theorem post_hist : (post s ty st src c a b x y).hist = s.hist := by
  unfold post; simp only []; split <;> simp [hpEvent, wrB, upd, inc]
@[simp] theorem overflowNotice_npFunc : (overflowNotice s).npFunc = s.npFunc := by
  unfold overflowNotice; split <;> rfl
@[simp] theorem post_npFunc : (post s ty st src c a b x y).npFunc = s.npFunc := by
  unfold post; simp only []; split <;> simp [hpEvent, wrB, upd, inc]
@[simp] theorem overflowNotice_engines : (overflowNotice s).engines = s.engines := by
  unfold overflowNotice; split <;> rfl
@[simp] theorem post_engines : (post s ty st src c a b x y).engines = s.engines := by
  unfold post; simp only []; split <;> simp [hpEvent, wrB, upd, inc]
@[simp] theorem overflowNotice_vregs : (overflowNotice s).vregs = s.vregs := by
  unfold overflowNotice; split <;> rfl
@[simp] theorem post_vregs : (post s ty st src c a b x y).vregs = s.vregs := by
  unfold post; simp only []; split <;> simp [hpEvent, wrB, upd, inc]
@[simp] theorem overflowNotice_cells : (overflowNotice s).cells = s.cells := by
  unfold overflowNotice; split <;> rfl
@[simp] theorem post_cells : (post s ty st src c a b x y).cells = s.cells := by
  unfold post; simp only []; split <;> simp [hpEvent, wrB, upd, inc]
@[simp] theorem overflowNotice_signals : (overflowNotice s).signals = s.signals := by
  unfold overflowNotice; split <;> rfl
@[simp] theorem post_signals : (post s ty st src c a b x y).signals = s.signals := by
  unfold post; simp only []; split <;> simp [hpEvent, wrB, upd, inc]
@[simp] theorem overflowNotice_sigOps : (overflowNotice s).sigOps = s.sigOps := by
  unfold overflowNotice; split <;> rfl
@[simp] theorem post_sigOps : (post s ty st src c a b x y).sigOps = s.sigOps := by
  unfold post; simp only []; split <;> simp [hpEvent, wrB, upd, inc]
@[simp] theorem overflowNotice_slotsDue : (overflowNotice s).slotsDue = s.slotsDue := by
  unfold overflowNotice; split <;> rfl
@[simp] theorem post_slotsDue : (post s ty st src c a b x y).slotsDue = s.slotsDue := by
  unfold post; simp only []; split <;> simp [hpEvent, wrB, upd, inc]
@[simp] theorem overflowNotice_dies : (overflowNotice s).dies = s.dies := by
  unfold overflowNotice; split <;> rfl
@[simp] theorem post_dies : (post s ty st src c a b x y).dies = s.dies := by
  unfold post; simp only []; split <;> simp [hpEvent, wrB, upd, inc]
@[simp] theorem overflowNotice_scEntries : (overflowNotice s).scEntries = s.scEntries := by
  unfold overflowNotice; split <;> rfl
@[simp] theorem post_scEntries : (post s ty st src c a b x y).scEntries = s.scEntries := by
  unfold post; simp only []; split <;> simp [hpEvent, wrB, upd, inc]
@[simp] theorem overflowNotice_scStreams : (overflowNotice s).scStreams = s.scStreams := by
  unfold overflowNotice; split <;> rfl
@[simp] theorem post_scStreams : (post s ty st src c a b x y).scStreams = s.scStreams := by
  unfold post; simp only []; split <;> simp [hpEvent, wrB, upd, inc]
@[simp] theorem overflowNotice_scPre : (overflowNotice s).scPre = s.scPre := by
  unfold overflowNotice; split <;> rfl
@[simp] theorem post_scPre : (post s ty st src c a b x y).scPre = s.scPre := by
  unfold post; simp only []; split <;> simp [hpEvent, wrB, upd, inc]
@[simp] theorem overflowNotice_scClock : (overflowNotice s).scClock = s.scClock := by
  unfold overflowNotice; split <;> rfl
@[simp] theorem post_scClock : (post s ty st src c a b x y).scClock = s.scClock := by
  unfold post; simp only []; split <;> simp [hpEvent, wrB, upd, inc]
@[simp] theorem overflowNotice_scRange : (overflowNotice s).scRange = s.scRange := by
  unfold overflowNotice; split <;> rfl
@[simp] theorem post_scRange : (post s ty st src c a b x y).scRange = s.scRange := by
  unfold post; simp only []; split <;> simp [hpEvent, wrB, upd, inc]
@[simp] theorem overflowNotice_calls : (overflowNotice s).calls = s.calls := by
  unfold overflowNotice; split <;> rfl
@[simp] theorem post_calls : (post s ty st src c a b x y).calls = s.calls := by
  unfold post; simp only []; split <;> simp [hpEvent, wrB, upd, inc]
@[simp] theorem overflowNotice_threads : (overflowNotice s).threads = s.threads := by
  unfold overflowNotice; split <;> rfl
@[simp] theorem post_threads : (post s ty st src c a b x y).threads = s.threads := by
  unfold post; simp only []; split <;> simp [hpEvent, wrB, upd, inc]
@[simp] theorem overflowNotice_resv : (overflowNotice s).resv = s.resv := by
  unfold overflowNotice; split <;> rfl
@[simp] theorem post_resv : (post s ty st src c a b x y).resv = s.resv := by
  unfold post; simp only []; split <;> simp [hpEvent, wrB, upd, inc]
@[simp] theorem overflowNotice_upds : (overflowNotice s).upds = s.upds := by
  unfold overflowNotice; split <;> rfl
@[simp] theorem post_upds : (post s ty st src c a b x y).upds = s.upds := by
  unfold post; simp only []; split <;> simp [hpEvent, wrB, upd, inc]
@[simp] theorem overflowNotice_ttx : (overflowNotice s).ttx = s.ttx := by
  unfold overflowNotice; split <;> rfl
@[simp] theorem post_ttx : (post s ty st src c a b x y).ttx = s.ttx := by
  unfold post; simp only []; split <;> simp [hpEvent, wrB, upd, inc]
@[simp] theorem overflowNotice_reports : (overflowNotice s).reports = s.reports := by
  unfold overflowNotice; split <;> rfl
@[simp] theorem post_reports : (post s ty st src c a b x y).reports = s.reports := by
  unfold post; simp only []; split <;> simp [hpEvent, wrB, upd, inc]
@[simp] theorem overflowNotice_trains : (overflowNotice s).trains = s.trains := by
  unfold overflowNotice; split <;> rfl
@[simp] theorem post_trains : (post s ty st src c a b x y).trains = s.trains := by
  unfold post; simp only []; split <;> simp [hpEvent, wrB, upd, inc]
@[simp] theorem overflowNotice_om : (overflowNotice s).om = s.om := by
  unfold overflowNotice; split <;> rfl
@[simp] theorem post_om : (post s ty st src c a b x y).om = s.om := by
  unfold post; simp only []; split <;> simp [hpEvent, wrB, upd, inc]
@[simp] theorem overflowNotice_colls : (overflowNotice s).colls = s.colls := by
  unfold overflowNotice; split <;> rfl
@[simp] theorem post_colls : (post s ty st src c a b x y).colls = s.colls := by
  unfold post; simp only []; split <;> simp [hpEvent, wrB, upd, inc]
@[simp] theorem overflowNotice_collRx : (overflowNotice s).collRx = s.collRx := by
  unfold overflowNotice; split <;> rfl
@[simp] theorem post_collRx : (post s ty st src c a b x y).collRx = s.collRx := by
  unfold post; simp only []; split <;> simp [hpEvent, wrB, upd, inc]
@[simp] theorem overflowNotice_marks : (overflowNotice s).marks = s.marks := by
  unfold overflowNotice; split <;> rfl
@[simp] theorem post_marks : (post s ty st src c a b x y).marks = s.marks := by
  unfold post; simp only []; split <;> simp [hpEvent, wrB, upd, inc]
@[simp] theorem overflowNotice_lateFlags : (overflowNotice s).lateFlags = s.lateFlags := by
  unfold overflowNotice; split <;> rfl
@[simp] theorem post_lateFlags : (post s ty st src c a b x y).lateFlags = s.lateFlags := by
  unfold post; simp only []; split <;> simp [hpEvent, wrB, upd, inc]
@[simp] theorem overflowNotice_cw : (overflowNotice s).cw = s.cw := by
  unfold overflowNotice; split <;> rfl
@[simp] theorem post_cw : (post s ty st src c a b x y).cw = s.cw := by
  unfold post; simp only []; split <;> simp [hpEvent, wrB, upd, inc]
@[simp] theorem overflowNotice_tap : (overflowNotice s).tap = s.tap := by
  unfold overflowNotice; split <;> rfl
@[simp] theorem post_tap : (post s ty st src c a b x y).tap = s.tap := by
  unfold post; simp only []; split <;> simp [hpEvent, wrB, upd, inc]
@[simp] theorem overflowNotice_slotWinner : (overflowNotice s).slotWinner = s.slotWinner := by
  unfold overflowNotice; split <;> rfl
@[simp] theorem post_slotWinner : (post s ty st src c a b x y).slotWinner = s.slotWinner := by
  unfold post; simp only []; split <;> simp [hpEvent, wrB, upd, inc]
@[simp] theorem overflowNotice_bkBusy : (overflowNotice s).bkBusy = s.bkBusy := by
  unfold overflowNotice; split <;> rfl
@[simp] theorem post_bkBusy : (post s ty st src c a b x y).bkBusy = s.bkBusy := by
  unfold post; simp only []; split <;> simp [hpEvent, wrB, upd, inc]
@[simp] theorem overflowNotice_bkLate : (overflowNotice s).bkLate = s.bkLate := by
  unfold overflowNotice; split <;> rfl
@[simp] theorem post_bkLate : (post s ty st src c a b x y).bkLate = s.bkLate := by
  unfold post; simp only []; split <;> simp [hpEvent, wrB, upd, inc]
@[simp] theorem overflowNotice_bkQueue : (overflowNotice s).bkQueue = s.bkQueue := by
  unfold overflowNotice; split <;> rfl
@[simp] theorem post_bkQueue : (post s ty st src c a b x y).bkQueue = s.bkQueue := by
  unfold post; simp only []; split <;> simp [hpEvent, wrB, upd, inc]
@[simp] theorem overflowNotice_bkFeed : (overflowNotice s).bkFeed = s.bkFeed := by
  unfold overflowNotice; split <;> rfl
@[simp] theorem post_bkFeed : (post s ty st src c a b x y).bkFeed = s.bkFeed := by
  unfold post; simp only []; split <;> simp [hpEvent, wrB, upd, inc]
@[simp] theorem overflowNotice_rebuildSlots : (overflowNotice s).rebuildSlots = s.rebuildSlots := by
  unfold overflowNotice; split <;> rfl
@[simp] theorem post_rebuildSlots : (post s ty st src c a b x y).rebuildSlots = s.rebuildSlots := by
  unfold post; simp only []; split <;> simp [hpEvent, wrB, upd, inc]
@[simp] theorem overflowNotice_rebuildWon : (overflowNotice s).rebuildWon = s.rebuildWon := by
  unfold overflowNotice; split <;> rfl
@[simp] theorem post_rebuildWon : (post s ty st src c a b x y).rebuildWon = s.rebuildWon := by
  unfold post; simp only []; split <;> simp [hpEvent, wrB, upd, inc]
@[simp] theorem overflowNotice_bkGranted : (overflowNotice s).bkGranted = s.bkGranted := by
  unfold overflowNotice; split <;> rfl
@[simp] theorem post_bkGranted : (post s ty st src c a b x y).bkGranted = s.bkGranted := by
  unfold post; simp only []; split <;> simp [hpEvent, wrB, upd, inc]
@[simp] theorem overflowNotice_ueTimes : (overflowNotice s).ueTimes = s.ueTimes := by
  unfold overflowNotice; split <;> rfl
@[simp] theorem post_ueTimes : (post s ty st src c a b x y).ueTimes = s.ueTimes := by
  unfold post; simp only []; split <;> simp [hpEvent, wrB, upd, inc]
@[simp] theorem overflowNotice_refreshAt : (overflowNotice s).refreshAt = s.refreshAt := by
  unfold overflowNotice; split <;> rfl
@[simp] theorem post_refreshAt : (post s ty st src c a b x y).refreshAt = s.refreshAt := by
  unfold post; simp only []; split <;> simp [hpEvent, wrB, upd, inc]
@[simp] theorem overflowNotice_sweeps : (overflowNotice s).sweeps = s.sweeps := by
  unfold overflowNotice; split <;> rfl
@[simp] theorem post_sweeps : (post s ty st src c a b x y).sweeps = s.sweeps := by
  unfold post; simp only []; split <;> simp [hpEvent, wrB, upd, inc]
@[simp] theorem overflowNotice_answer : (overflowNotice s).answer = s.answer := by
  unfold overflowNotice; split <;> rfl
@[simp] theorem post_answer : (post s ty st src c a b x y).answer = s.answer := by
  unfold post; simp only []; split <;> simp [hpEvent, wrB, upd, inc]
@[simp] theorem overflowNotice_freeIx : (overflowNotice s).freeIx = s.freeIx := by
  unfold overflowNotice; split <;> rfl
@[simp] theorem post_freeIx : (post s ty st src c a b x y).freeIx = s.freeIx := by
  unfold post; simp only []; split <;> simp [hpEvent, wrB, upd, inc]

end post

end Sys2Proof.Machine
end

