-- ==== Sys2Proof/Laws/Store.lean ====
section
/-! SUPPORT. Laws of the sparse store: a read after a write gives the value written, a write leaves every other key alone, and
every operation keeps the canonical form. -/

namespace Sys2Proof.Machine

variable {α : Type}

theorem Store.get_erase_ne (d : Nat → α) {k j : Nat} (h : j ≠ k) (st : Store α) :
    Store.get d (Store.erase k st) j = Store.get d st j := by
  induction st with
  | nil => rfl
  | cons p t ih =>
    obtain ⟨i, v⟩ := p
    by_cases hk : i = k
    · subst hk
      simpa [Store.erase, Store.get, h] using ih
    · have : Store.erase k ((i, v) :: t) = (i, v) :: Store.erase k t := by simp [Store.erase, hk]
      rw [this]
      by_cases hj : j = i <;> simp [Store.get, hj, ← ih]

theorem Store.get_erase_same (d : Nat → α) (k : Nat) (st : Store α) : Store.get d (Store.erase k st) k = d k := by
  induction st with
  | nil => rfl
  | cons p t ih =>
    obtain ⟨i, v⟩ := p
    by_cases hk : i = k
    · subst hk
      simpa [Store.erase] using ih
    · have : Store.erase k ((i, v) :: t) = (i, v) :: Store.erase k t := by simp [Store.erase, hk]
      rw [this]
      simpa [Store.get, Ne.symm hk] using ih

theorem Store.get_insert_ne (d : Nat → α) {k j : Nat} (h : j ≠ k) (v : α) (st : Store α) :
    Store.get d (Store.insert k v st) j = Store.get d st j := by
  induction st with
  | nil => simp [Store.insert, Store.get, h]
  | cons p t ih =>
    obtain ⟨i, w⟩ := p
    by_cases hk : k < i
    · simp [Store.insert, Store.get, hk, h]
    · simp [Store.insert, Store.get, hk, ih]

theorem Store.get_insert_same (d : Nat → α) (k : Nat) (v : α) (st : Store α) (h : ∀ p ∈ st, p.1 ≠ k) :
    Store.get d (Store.insert k v st) k = v := by
  induction st with
  | nil => simp [Store.insert, Store.get]
  | cons p t ih =>
    obtain ⟨i, w⟩ := p
    have hi : i ≠ k := h (i, w) (by simp)
    by_cases hk : k < i
    · simp [Store.insert, Store.get, hk]
    · simp only [Store.insert, hk, if_false, Store.get, Ne.symm hi]
      exact ih (fun p hp => h p (by simp [hp]))

theorem Store.erase_keys_ne (k : Nat) (st : Store α) : ∀ p ∈ Store.erase k st, p.1 ≠ k := by
  intro p hp
  simpa using (List.mem_filter.mp hp).2

variable [DecidableEq α]

theorem Store.get_set_ne (d : Nat → α) {k j : Nat} (h : j ≠ k) (v : α) (st : Store α) :
    Store.get d (Store.set d st k v) j = Store.get d st j := by
  unfold Store.set
  split
  · exact Store.get_erase_ne d h st
  · rw [Store.get_insert_ne d h, Store.get_erase_ne d h]

theorem Store.get_set_same (d : Nat → α) (k : Nat) (v : α) (st : Store α) :
    Store.get d (Store.set d st k v) k = v := by
  unfold Store.set
  split
  · rename_i h
    rw [Store.get_erase_same, h]
  · exact Store.get_insert_same d k v _ (Store.erase_keys_ne k st)

theorem Store.get_set (d : Nat → α) (k j : Nat) (v : α) (st : Store α) :
    Store.get d (Store.set d st k v) j = if j = k then v else Store.get d st j := by
  by_cases h : j = k
  · subst h; simp [Store.get_set_same]
  · simp [h, Store.get_set_ne]

/-! ### The canonical form -/

theorem Store.wf_iff (d : Nat → α) (st : Store α) :
    Store.wf d st = true ↔ st.Pairwise (fun a b => a.1 < b.1) ∧ ∀ p ∈ st, p.2 ≠ d p.1 := by
  simp [Store.wf]

theorem Store.wf_nil (d : Nat → α) : Store.wf d ([] : Store α) = true := by simp [Store.wf]

theorem Store.wf_filter (d : Nat → α) (f : Nat × α → Bool) {st : Store α} (h : Store.wf d st = true) :
    Store.wf d (st.filter f) = true := by
  rw [Store.wf_iff] at h ⊢
  exact ⟨h.1.filter f, fun p hp => h.2 p (List.mem_filter.mp hp).1⟩

omit [DecidableEq α] in
theorem Store.mem_insert {k : Nat} {v : α} {st : Store α} {p : Nat × α} (h : p ∈ Store.insert k v st) :
    p = (k, v) ∨ p ∈ st := by
  induction st with
  | nil => simpa [Store.insert] using h
  | cons q t ih =>
    obtain ⟨i, w⟩ := q
    by_cases hk : k < i
    · simpa [Store.insert, hk] using h
    · simp only [Store.insert, hk, if_false, List.mem_cons] at h ⊢
      rcases h with h | h
      · exact .inr (.inl h)
      · rcases ih h with h | h
        · exact .inl h
        · exact .inr (.inr h)

theorem Store.wf_insert (d : Nat → α) {k : Nat} {v : α} {st : Store α} (hv : v ≠ d k) (hk : ∀ p ∈ st, p.1 ≠ k)
    (h : Store.wf d st = true) : Store.wf d (Store.insert k v st) = true := by
  induction st with
  | nil => simp [Store.insert, Store.wf, hv]
  | cons q t ih =>
    obtain ⟨i, w⟩ := q
    rw [Store.wf_iff] at h
    have ht : Store.wf d t = true := (Store.wf_iff d t).mpr ⟨(List.pairwise_cons.mp h.1).2, fun p hp => h.2 p (by simp [hp])⟩
    have hi : i ≠ k := hk (i, w) (by simp)
    by_cases hlt : k < i
    · simp only [Store.insert, hlt, if_true]
      rw [Store.wf_iff]
      refine ⟨List.pairwise_cons.mpr ⟨?_, h.1⟩, ?_⟩
      · intro p hp
        rcases List.mem_cons.mp hp with rfl | hp
        · exact hlt
        · exact Nat.lt_trans hlt ((List.pairwise_cons.mp h.1).1 p hp)
      · intro p hp
        rcases List.mem_cons.mp hp with rfl | hp
        · exact hv
        · exact h.2 p hp
    · have ihw := ih (fun p hp => hk p (by simp [hp])) ht
      simp only [Store.insert, hlt, if_false]
      rw [Store.wf_iff] at ihw ⊢
      refine ⟨List.pairwise_cons.mpr ⟨?_, ihw.1⟩, ?_⟩
      · intro p hp
        rcases Store.mem_insert hp with rfl | hp
        · show i < k
          omega
        · exact (List.pairwise_cons.mp h.1).1 p hp
      · intro p hp
        rcases List.mem_cons.mp hp with rfl | hp
        · exact h.2 (i, w) (by simp)
        · exact ihw.2 p hp

theorem Store.wf_erase (d : Nat → α) (k : Nat) {st : Store α} (h : Store.wf d st = true) :
    Store.wf d (Store.erase k st) = true := Store.wf_filter d _ h

theorem Store.wf_set (d : Nat → α) (k : Nat) (v : α) {st : Store α} (h : Store.wf d st = true) :
    Store.wf d (Store.set d st k v) = true := by
  unfold Store.set
  split
  · exact Store.wf_erase d k h
  · exact Store.wf_insert d ‹_› (Store.erase_keys_ne k st) (Store.wf_erase d k h)

theorem Store.wf_eraseRange (d : Nat → α) (lo hi : Nat) {st : Store α} (h : Store.wf d st = true) :
    Store.wf d (Store.eraseRange st lo hi) = true := Store.wf_filter d _ h

end Sys2Proof.Machine
end

