-- ==== Sys2Proof/Laws/Ops.lean ====
section
/-! SUPPORT. What each shared operation does to the registers: a read after a write of the same register gives the value
written, and every other register is as it was; fields and bits the same; events and notices. -/

namespace Sys2Proof.Machine

/-! ### Registers -/

theorem rd_wr (s : State) (k j : Nat) (v : W64) : rd (wr s k v) j = if j = k then v else rd s j :=
  Store.get_set regReset k j v s.regs

@[simp] theorem rd_wr_same (s : State) (k : Nat) (v : W64) : rd (wr s k v) k = v := by simp [rd_wr]

theorem rd_wr_ne (s : State) {k j : Nat} (h : j ≠ k) (v : W64) : rd (wr s k v) j = rd s j := by simp [rd_wr, h]

/-- The updates of registers in terms of `wr`. -/
theorem upd_wr (s : State) (k : Nat) (f : W64 → W64) : upd s k f = wr s k (f (rd s k)) := rfl
theorem wrF_wr (s : State) (k lo len v : Nat) : wrF s k lo len v = wr s k (putFld (rd s k) lo len v) := rfl
theorem wrB_wr (s : State) (k i : Nat) (b : Bool) : wrB s k i b = wr s k (putBit (rd s k) i b) := rfl
theorem inc_wr (s : State) (k : Nat) : inc s k = wr s k (satInc (rd s k)) := rfl
theorem incBy_wr (s : State) (k n : Nat) : incBy s k n = wr s k (satAdd (rd s k) n) := rfl
theorem hpEvent_wr (s : State) (i : Nat) : hpEvent s i = wr s (bar0 0x78) (putBit (rd s (bar0 0x78)) i true) := rfl

theorem rdB_wrB_same (s : State) (k i : Nat) (b : Bool) (h : i < 64) : rdB (wrB s k i b) k i = b := by
  simp [rdB, wrB_wr, h]

theorem rdF_wrF_same (s : State) (k lo len v : Nat) (h : lo + len ≤ 64) : rdF (wrF s k lo len v) k lo len = v % 2 ^ len := by
  simp [rdF, wrF_wr, fld_putFld_same _ _ _ _ h]

/-- A state with the same registers reads the same registers. -/
theorem rd_congr {s t : State} (h : s.regs = t.regs) (k : Nat) : rd s k = rd t k := by unfold rd; rw [h]

/-! ### Notices -/

/-- The registers that a notice may change: the count of dropped notices, and HP_EVENT. -/
def noticeReg (k : Nat) : Prop := k = bar0 0x70 ∨ k = bar0 0x78

theorem rd_overflowNotice (s : State) {k : Nat} (h : ¬ noticeReg k) : rd (overflowNotice s) k = rd s k := by
  unfold overflowNotice
  split
  · rfl
  · rw [hpEvent_wr, rd_wr_ne _ (fun e => h (.inr e))]
    rfl

/-- Posting a notice changes no register but those two. -/
theorem rd_post (s : State) (ty st : Nat) (src : W32) (c : Nat) (a b x y : W64) {k : Nat} (h : ¬ noticeReg k) :
    rd (post s ty st src c a b x y) k = rd s k := by
  unfold post
  simp only []
  split
  · rw [← rd_overflowNotice s h]
    rfl
  · rw [hpEvent_wr, rd_wr_ne _ (fun e => h (.inr e)), ← rd_overflowNotice s h]
    show rd (inc _ _) k = _
    rw [inc_wr, rd_wr_ne _ (fun e => h (.inl e))]
    rfl

/-- Raising an event sets its bit. -/
theorem rdB_raise_same (s : State) (d off i : Nat) (a b x y : State → W64) (h : ¬ noticeReg (key d off)) (hi : i < 64) :
    rdB (raise s d off i a b x y) (key d off) i = true := by
  unfold raise rdB
  rw [rd_post _ _ _ _ _ _ _ _ _ h]
  exact rdB_wrB_same s (key d off) i true hi

/-- Raising an event changes no other register but those of the notice. -/
theorem rd_raise_ne (s : State) (d off i : Nat) (a b x y : State → W64) {k : Nat} (h : ¬ noticeReg k) (hk : k ≠ key d off) :
    rd (raise s d off i a b x y) k = rd s k := by
  unfold raise
  rw [rd_post _ _ _ _ _ _ _ _ _ h, wrB_wr, rd_wr_ne _ hk]

/-- A key of the control space is not a register that a notice changes. -/
theorem not_noticeReg {d off : Nat} (hd : d < 14) (ho : off < 2 ^ 30) : ¬ noticeReg (key d off) := by
  unfold noticeReg bar0 key
  omega

/-- Keys of different dies, or of different offsets, differ. -/
theorem key_inj {d e a b : Nat} (ha : a < 2 ^ 30) (hb : b < 2 ^ 30) : key d a = key e b ↔ d = e ∧ a = b := by
  unfold key
  omega

end Sys2Proof.Machine
end

