-- ==== Sys2Proof/Laws/Same.lean ====
section
  /-! SUPPORT. Which parts of the state an update leaves as they are (`Same` of Safety): composition, folds, and one
    lemma for each
field. -/

namespace Sys2Proof.Machine

theorem Same.refl (ps : List Part) (s : State) : Same ps s s := fun p _ => by cases p <;> rfl

theorem Agree.trans {p : Part} {s t u : State} (h : Agree p s t) (g : Agree p t u) : Agree p s u := by
  cases p <;> exact Eq.trans g h

theorem Same.trans {a b : List Part} {s t u : State} (h : Same a s t) (g : Same b t u) : Same (a ++ b) s u := by
  intro p hp
  rw [List.mem_append, not_or] at hp
  exact (h p hp.1).trans (g p hp.2)

theorem Same.mono {a b : List Part} {s t : State} (h : Same a s t) (g : ∀ p, p ∈ a → p ∈ b) : Same b s t :=
  fun p hp => h p (fun e => hp (g p e))

theorem Same.foldl {α : Type} {ps : List Part} (f : State → α → State) (h : ∀ s a, Same ps s (f s a))
    (l : List α) (s : State) : Same ps s (l.foldl f s) := by
  induction l generalizing s with
  | nil => exact Same.refl ps s
  | cons a l ih => exact ((h s a).trans (ih _)).mono (by simp)

/-- States that agree in every part are equal. -/
theorem same_nil {s u : State} (h : Same [] s u) : u = s := by
  have e : ∀ p, Agree p s u := fun p => h p (by simp)
  cases s
  cases u
  simp only [State.mk.injEq]
  exact ⟨e .pending, e .regs, e .mem, e .hostMem, e .nportMem, e .bar2, e .poisoned, e .possMap, e .jlines, e .dir,
    e .dirAge, e .deferred, e .hostLines, e .imsic, e .msis, e .aplicIn, e .trans, e .mtcx, e .port, e .job,
    e .guard, e .img, e .dev, e .mgmt, e .power, e .depot, e .hist, e .npFunc, e .engines, e .vregs, e .cells,
    e .signals, e .sigOps, e .slotsDue, e .dies, e .scEntries, e .scStreams, e .scPre, e .scClock, e .scRange,
    e .calls, e .threads, e .resv, e .upds, e .ttx, e .reports, e .trains, e .om, e .colls, e .collRx, e .marks, e .lateFlags,
    e .cw, e .tap, e .slotWinner, e .bkBusy, e .bkLate, e .bkQueue, e .bkFeed, e .rebuildSlots,
    e .rebuildWon, e .bkGranted, e .ueTimes, e .refreshAt,
    e .sweeps, e .answer, e .freeIx⟩

theorem same_wr (s : State) (k : Nat) (v : W64) : Same [.regs] s (wr s k v) := by
  intro p hp
  cases p <;> first | rfl | exact absurd (by simp) hp

theorem same_pending (s : State) (x : List Instr) : Same [.pending] s { s with pending := x } := by
  intro p hp
  cases p <;> first | rfl | exact absurd (by simp) hp
theorem same_regs (s : State) (x : Store W64) : Same [.regs] s { s with regs := x } := by
  intro p hp
  cases p <;> first | rfl | exact absurd (by simp) hp
theorem same_mem (s : State) (x : Store Byte) : Same [.mem] s { s with mem := x } := by
  intro p hp
  cases p <;> first | rfl | exact absurd (by simp) hp
theorem same_hostMem (s : State) (x : Store Byte) : Same [.hostMem] s { s with hostMem := x } := by
  intro p hp
  cases p <;> first | rfl | exact absurd (by simp) hp
theorem same_nportMem (s : State) (x : Store Byte) : Same [.nportMem] s { s with nportMem := x } := by
  intro p hp
  cases p <;> first | rfl | exact absurd (by simp) hp
theorem same_bar2 (s : State) (x : Store Byte) : Same [.bar2] s { s with bar2 := x } := by
  intro p hp
  cases p <;> first | rfl | exact absurd (by simp) hp
theorem same_poisoned (s : State) (x : Store Bool) : Same [.poisoned] s { s with poisoned := x } := by
  intro p hp
  cases p <;> first | rfl | exact absurd (by simp) hp
theorem same_possMap (s : State) (x : Store Bool) : Same [.possMap] s { s with possMap := x } := by
  intro p hp
  cases p <;> first | rfl | exact absurd (by simp) hp
theorem same_jlines (s : State) (x : Store JLine) : Same [.jlines] s { s with jlines := x } := by
  intro p hp
  cases p <;> first | rfl | exact absurd (by simp) hp
theorem same_dir (s : State) (x : Store DirEntry) : Same [.dir] s { s with dir := x } := by
  intro p hp
  cases p <;> first | rfl | exact absurd (by simp) hp
theorem same_dirAge (s : State) (x : Nat) : Same [.dirAge] s { s with dirAge := x } := by
  intro p hp
  cases p <;> first | rfl | exact absurd (by simp) hp
theorem same_deferred (s : State) (x : List Deferred) : Same [.deferred] s { s with deferred := x } := by
  intro p hp
  cases p <;> first | rfl | exact absurd (by simp) hp
theorem same_hostLines (s : State) (x : Store HostLine) : Same [.hostLines] s { s with hostLines := x } := by
  intro p hp
  cases p <;> first | rfl | exact absurd (by simp) hp
theorem same_imsic (s : State) (x : Store (BitVec 256)) : Same [.imsic] s { s with imsic := x } := by
  intro p hp
  cases p <;> first | rfl | exact absurd (by simp) hp
theorem same_msis (s : State) (x : List (Nat × W64 × W32)) : Same [.msis] s { s with msis := x } := by
  intro p hp
  cases p <;> first | rfl | exact absurd (by simp) hp
theorem same_aplicIn (s : State) (x : Store Bool) : Same [.aplicIn] s { s with aplicIn := x } := by
  intro p hp
  cases p <;> first | rfl | exact absurd (by simp) hp
theorem same_trans (s : State) (x : TransX) : Same [.trans] s { s with trans := x } := by
  intro p hp
  cases p <;> first | rfl | exact absurd (by simp) hp
theorem same_mtcx (s : State) (x : MtcX) : Same [.mtcx] s { s with mtcx := x } := by
  intro p hp
  cases p <;> first | rfl | exact absurd (by simp) hp
theorem same_port (s : State) (x : HostPort) : Same [.port] s { s with port := x } := by
  intro p hp
  cases p <;> first | rfl | exact absurd (by simp) hp
theorem same_job (s : State) (x : JobX) : Same [.job] s { s with job := x } := by
  intro p hp
  cases p <;> first | rfl | exact absurd (by simp) hp
theorem same_guard (s : State) (x : GuardX) : Same [.guard] s { s with guard := x } := by
  intro p hp
  cases p <;> first | rfl | exact absurd (by simp) hp
theorem same_img (s : State) (x : CfgImage) : Same [.img] s { s with img := x } := by
  intro p hp
  cases p <;> first | rfl | exact absurd (by simp) hp
theorem same_dev (s : State) (x : DevX) : Same [.dev] s { s with dev := x } := by
  intro p hp
  cases p <;> first | rfl | exact absurd (by simp) hp
theorem same_mgmt (s : State) (x : Mgmt) : Same [.mgmt] s { s with mgmt := x } := by
  intro p hp
  cases p <;> first | rfl | exact absurd (by simp) hp
theorem same_power (s : State) (x : PowerX) : Same [.power] s { s with power := x } := by
  intro p hp
  cases p <;> first | rfl | exact absurd (by simp) hp
theorem same_depot (s : State) (x : DepotX) : Same [.depot] s { s with depot := x } := by
  intro p hp
  cases p <;> first | rfl | exact absurd (by simp) hp
theorem same_hist (s : State) (x : HistX) : Same [.hist] s { s with hist := x } := by
  intro p hp
  cases p <;> first | rfl | exact absurd (by simp) hp
theorem same_npFunc (s : State) (x : Store Nat) : Same [.npFunc] s { s with npFunc := x } := by
  intro p hp
  cases p <;> first | rfl | exact absurd (by simp) hp
theorem same_engines (s : State) (x : Store Engine) : Same [.engines] s { s with engines := x } := by
  intro p hp
  cases p <;> first | rfl | exact absurd (by simp) hp
theorem same_vregs (s : State) (x : Store W32) : Same [.vregs] s { s with vregs := x } := by
  intro p hp
  cases p <;> first | rfl | exact absurd (by simp) hp
theorem same_cells (s : State) (x : Store Cell) : Same [.cells] s { s with cells := x } := by
  intro p hp
  cases p <;> first | rfl | exact absurd (by simp) hp
theorem same_signals (s : State) (x : Store W64) : Same [.signals] s { s with signals := x } := by
  intro p hp
  cases p <;> first | rfl | exact absurd (by simp) hp
theorem same_sigOps (s : State) (x : List SigOp) : Same [.sigOps] s { s with sigOps := x } := by
  intro p hp
  cases p <;> first | rfl | exact absurd (by simp) hp
theorem same_slotsDue (s : State) (x : Store Bool) : Same [.slotsDue] s { s with slotsDue := x } := by
  intro p hp
  cases p <;> first | rfl | exact absurd (by simp) hp
theorem same_dies (s : State) (x : Store DieTT) : Same [.dies] s { s with dies := x } := by
  intro p hp
  cases p <;> first | rfl | exact absurd (by simp) hp
theorem same_scEntries (s : State) (x : Store SCEntry) : Same [.scEntries] s { s with scEntries := x } := by
  intro p hp
  cases p <;> first | rfl | exact absurd (by simp) hp
theorem same_scStreams (s : State) (x : Store SCStream) : Same [.scStreams] s { s with scStreams := x } := by
  intro p hp
  cases p <;> first | rfl | exact absurd (by simp) hp
theorem same_scPre (s : State) (x : List (Nat × Nat)) : Same [.scPre] s { s with scPre := x } := by
  intro p hp
  cases p <;> first | rfl | exact absurd (by simp) hp
theorem same_scClock (s : State) (x : Nat) : Same [.scClock] s { s with scClock := x } := by
  intro p hp
  cases p <;> first | rfl | exact absurd (by simp) hp
theorem same_scRange (s : State) (x : List RangeOp) : Same [.scRange] s { s with scRange := x } := by
  intro p hp
  cases p <;> first | rfl | exact absurd (by simp) hp
theorem same_calls (s : State) (x : List Call) : Same [.calls] s { s with calls := x } := by
  intro p hp
  cases p <;> first | rfl | exact absurd (by simp) hp
theorem same_threads (s : State) (x : Store Thread) : Same [.threads] s { s with threads := x } := by
  intro p hp
  cases p <;> first | rfl | exact absurd (by simp) hp
theorem same_resv (s : State) (x : List (Nat × Nat)) : Same [.resv] s { s with resv := x } := by
  intro p hp
  cases p <;> first | rfl | exact absurd (by simp) hp
theorem same_upds (s : State) (x : List Upd) : Same [.upds] s { s with upds := x } := by
  intro p hp
  cases p <;> first | rfl | exact absurd (by simp) hp
theorem same_ttx (s : State) (x : TTX) : Same [.ttx] s { s with ttx := x } := by
  intro p hp
  cases p <;> first | rfl | exact absurd (by simp) hp
theorem same_trains (s : State) (x : List Train) : Same [.trains] s { s with trains := x } := by
  intro p hp
  cases p <;> first | rfl | exact absurd (by simp) hp
theorem same_om (s : State) (x : OmX) : Same [.om] s { s with om := x } := by
  intro p hp
  cases p <;> first | rfl | exact absurd (by simp) hp
theorem same_colls (s : State) (x : List Coll) : Same [.colls] s { s with colls := x } := by
  intro p hp
  cases p <;> first | rfl | exact absurd (by simp) hp
theorem same_collRx (s : State) (x : Store (List (BitVec 1792))) : Same [.collRx] s { s with collRx := x } := by
  intro p hp
  cases p <;> first | rfl | exact absurd (by simp) hp
theorem same_marks (s : State) (x : Store Bool) : Same [.marks] s { s with marks := x } := by
  intro p hp
  cases p <;> first | rfl | exact absurd (by simp) hp
theorem same_lateFlags (s : State) (x : Store (BitVec 16)) : Same [.lateFlags] s { s with lateFlags := x } := by
  intro p hp
  cases p <;> first | rfl | exact absurd (by simp) hp
theorem same_cw (s : State) (x : CwX) : Same [.cw] s { s with cw := x } := by
  intro p hp
  cases p <;> first | rfl | exact absurd (by simp) hp
theorem same_tap (s : State) (x : Tap) : Same [.tap] s { s with tap := x } := by
  intro p hp
  cases p <;> first | rfl | exact absurd (by simp) hp
theorem same_slotWinner (s : State) (x : Nat) : Same [.slotWinner] s { s with slotWinner := x } := by
  intro p hp
  cases p <;> first | rfl | exact absurd (by simp) hp
theorem same_reports (s : State) (x : Store (Nat × W64)) : Same [.reports] s { s with reports := x } := by
  intro p hp
  cases p <;> first | rfl | exact absurd (by simp) hp
theorem same_bkFeed (s : State) (x : Store (List BkOp)) : Same [.bkFeed] s { s with bkFeed := x } := by
  intro p hp
  cases p <;> first | rfl | exact absurd (by simp) hp
theorem same_rebuildWon (s : State) (x : Store Nat) : Same [.rebuildWon] s { s with rebuildWon := x } := by
  intro p hp
  cases p <;> first | rfl | exact absurd (by simp) hp
theorem same_bkGranted (s : State) (x : Store (Nat × Nat)) : Same [.bkGranted] s { s with bkGranted := x } := by
  intro p hp
  cases p <;> first | rfl | exact absurd (by simp) hp
theorem same_bkBusy (s : State) (x : Store BkBusy) : Same [.bkBusy] s { s with bkBusy := x } := by
  intro p hp
  cases p <;> first | rfl | exact absurd (by simp) hp
theorem same_bkLate (s : State) (x : Store (List BkOp)) : Same [.bkLate] s { s with bkLate := x } := by
  intro p hp
  cases p <;> first | rfl | exact absurd (by simp) hp
theorem same_bkQueue (s : State) (x : Store (List BkOp)) : Same [.bkQueue] s { s with bkQueue := x } := by
  intro p hp
  cases p <;> first | rfl | exact absurd (by simp) hp
theorem same_rebuildSlots (s : State) (x : Store Nat) : Same [.rebuildSlots] s { s with rebuildSlots := x } := by
  intro p hp
  cases p <;> first | rfl | exact absurd (by simp) hp
theorem same_ueTimes (s : State) (x : Store (List Nat)) : Same [.ueTimes] s { s with ueTimes := x } := by
  intro p hp
  cases p <;> first | rfl | exact absurd (by simp) hp
theorem same_refreshAt (s : State) (x : Store Nat) : Same [.refreshAt] s { s with refreshAt := x } := by
  intro p hp
  cases p <;> first | rfl | exact absurd (by simp) hp
theorem same_sweeps (s : State) (x : List (Nat × W64 × W64)) : Same [.sweeps] s { s with sweeps := x } := by
  intro p hp
  cases p <;> first | rfl | exact absurd (by simp) hp
theorem same_answer (s : State) (x : List Byte) : Same [.answer] s { s with answer := x } := by
  intro p hp
  cases p <;> first | rfl | exact absurd (by simp) hp
theorem same_freeIx (s : State) (x : Nat) : Same [.freeIx] s { s with freeIx := x } := by
  intro p hp
  cases p <;> first | rfl | exact absurd (by simp) hp

end Sys2Proof.Machine
end

