-- ==== Sys2Proof/Laws/Events.lean ====
section
/-! SUPPORT. What posting a notice and raising an event do, in the terms of the statements (Safety). -/

namespace Sys2Proof.Machine

/-! ### Registers that keep their value -/

theorem RegsBut.refl (ks : List Nat) (s : State) : RegsBut ks s s := fun _ _ => rfl

theorem RegsBut.trans {a b : List Nat} {s t u : State} (h : RegsBut a s t) (g : RegsBut b t u) : RegsBut (a ++ b) s u := by
  intro k hk
  rw [List.mem_append, not_or] at hk
  rw [g k hk.2, h k hk.1]

theorem RegsBut.mono {a b : List Nat} {s t : State} (h : RegsBut a s t) (g : ∀ k, k ∈ a → k ∈ b) : RegsBut b s t :=
  fun k hk => h k (fun e => hk (g k e))

theorem RegsBut.foldl {α : Type} {ks : List Nat} (f : State → α → State) (h : ∀ s a, RegsBut ks s (f s a)) (l : List α) (s : State) :
    RegsBut ks s (l.foldl f s) := by
  induction l generalizing s with
  | nil => exact RegsBut.refl ks s
  | cons a l ih => exact ((h s a).trans (ih _)).mono (by simp)

theorem regsBut_wr (s : State) (k : Nat) (v : W64) : RegsBut [k] s (wr s k v) := by
  intro j hj
  exact rd_wr_ne s (by simpa using hj) v

theorem regsBut_of_regs {s t : State} (h : t.regs = s.regs) : RegsBut [] s t := fun k _ => rd_congr h k

/-! ### Notices -/

theorem noticeReg_iff (k : Nat) : noticeReg k ↔ k ∈ noticeKeys := by simp [noticeReg, noticeKeys]

theorem not_mem_noticeKeys {d off : Nat} (hd : d < 14) (ho : off < 2 ^ 30) : key d off ∉ noticeKeys := by
  rw [← noticeReg_iff]
  exact not_noticeReg hd ho

theorem now_eq_of_regsBut {ks : List Nat} {s t : State} (h : RegsBut ks s t) (hk : mtc 0 ∉ ks) : now t = now s := h _ hk

theorem regsBut_overflowNotice (s : State) : RegsBut noticeKeys s (overflowNotice s) :=
  fun _ hk => rd_overflowNotice s (fun e => hk ((noticeReg_iff _).1 e))

theorem regsBut_post (s : State) (ty st : Nat) (src : W32) (c : Nat) (a b x y : W64) :
    RegsBut noticeKeys s (post s ty st src c a b x y) :=
  fun _ hk => rd_post s ty st src c a b x y (fun e => hk ((noticeReg_iff _).1 e))

theorem same_overflowNotice (s : State) : Same [.regs, .port] s (overflowNotice s) := by
  unfold overflowNotice
  split
  · exact Same.refl _ _
  · exact ((same_port s _).trans (same_wr _ _ _)).mono (by simp)

/-- Posting a notice changes registers and the host port's queue, and nothing else. -/
theorem same_post (s : State) (ty st : Nat) (src : W32) (c : Nat) (a b x y : W64) :
    Same [.regs, .port] s (post s ty st src c a b x y) := by
  unfold post
  extract_lets s1 p s2
  have h1 : Same [.regs, .port] s s1 := same_overflowNotice s
  split
  · exact (h1.trans (same_port s1 _)).mono (by simp)
  · have h2 : Same [.port] s1 s2 := same_port s1 _
    exact (((h1.trans h2).trans (same_wr s2 _ _)).trans (same_wr _ _ _)).mono (by simp)

theorem rd_overflowNotice_dropped (s : State) : rd (overflowNotice s) (bar0 0x70) = rd s (bar0 0x70) := by
  unfold overflowNotice
  split
  · rfl
  · rw [hpEvent_wr, rd_wr_ne _ (by decide)]
    rfl

theorem posted_post (s : State) (ty st : Nat) (src : W32) (c : Nat) (a b x y : W64) :
    Posted s (post s ty st src c a b x y) ty st c := by
  have hn : now (overflowNotice s) = now s := rd_overflowNotice s (not_noticeReg (d := 12) (off := 0x4000000) (by decide) (by decide))
  unfold post Posted
  simp only []
  split
  · left
    exact ⟨{ nseq := (overflowNotice s).port.nseq, typ := ty, status := st, mtc := now (overflowNotice s), source := src
             code := c, d0 := a, d1 := b, d2 := x, d3 := y }, by simp [pushNotice], rfl, rfl, rfl, hn⟩
  · right
    rw [hpEvent_wr, rd_wr_ne _ (by decide)]
    show rd (inc _ _) _ = _
    rw [inc_wr, rd_wr_same]
    exact congrArg satInc (rd_overflowNotice_dropped s)

/-! ### Events -/

theorem same_raise (s : State) (d off i : Nat) (a b x y : State → W64) : Same [.regs, .port] s (raise s d off i a b x y) :=
  ((same_wr s (key d off) _).trans (same_post _ _ _ _ _ _ _ _ _)).mono (by simp)

theorem regsBut_raise (s : State) (d off i : Nat) (a b x y : State → W64) :
    RegsBut (key d off :: noticeKeys) s (raise s d off i a b x y) :=
  (regsBut_wr s (key d off) _).trans (regsBut_post _ _ _ _ _ _ _ _ _)

theorem raised_raise (s : State) {d off i : Nat} (a b x y : State → W64) (hd : d < 14) (ho : off < 2 ^ 30) (hi : i < 64)
    (hm : key d off ≠ mtc 0) : Raised s (raise s d off i a b x y) d off i := by
  have hk := not_noticeReg hd ho
  refine ⟨rdB_raise_same s d off i a b x y hk hi, ?_⟩
  have h := posted_post (wrB s (key d off) i true) 8 0 (sourceOf d off) i (a (wrB s (key d off) i true))
    (b (wrB s (key d off) i true)) (x (wrB s (key d off) i true)) (y (wrB s (key d off) i true))
  have hn : now (wrB s (key d off) i true) = now s := rd_wr_ne s (Ne.symm hm) _
  have hb : rd (wrB s (key d off) i true) (bar0 0x70) = rd s (bar0 0x70) :=
    rd_wr_ne s (fun e => hk (.inl e.symm)) _
  unfold Posted at h ⊢
  rw [hn, hb] at h
  exact h

end Sys2Proof.Machine
end

