-- ==== Sys2Proof/Laws/Memory.lean ====
section
/-! SUPPORT. Laws of memory: what a byte reads after bytes are written, coherent bytes where no die holds their line, and that
every memory operation keeps the canonical form (`Memory.wf`), which the state after reset has. -/

namespace Sys2Proof.Machine

/-! ### Bytes of a store -/

@[simp] theorem rdBytes_length (s : State) (a n : Nat) : (rdBytes s a n).length = n := by simp [rdBytes, upTo]
@[simp] theorem cohBytes_length (s : State) (a n : Nat) : (cohBytes s a n).length = n := by simp [cohBytes, upTo]
@[simp] theorem hostBytes_length (s : State) (a n : Nat) : (hostBytes s a n).length = n := by simp [hostBytes, upTo]

/-- A byte after bytes are written from `a`: the byte written inside them, the old byte outside. -/
theorem get_putBytes (l : List Byte) : ∀ (m : Store Byte) (a x : Nat),
    Store.get memDefault (putBytes m a l) x = if a ≤ x ∧ x < a + l.length then l.getD (x - a) 0 else Store.get memDefault m x := by
  induction l with
  | nil =>
    intro m a x
    have : ¬ (a ≤ x ∧ x < a) := by omega
    simp [putBytes, this]
  | cons b t ih =>
    intro m a x
    rw [putBytes, ih, Store.get_set]
    by_cases h : x = a
    · subst h
      have h1 : ¬ (x + 1 ≤ x ∧ x < x + 1 + t.length) := by omega
      simp
    · by_cases h2 : a ≤ x ∧ x < a + (b :: t).length
      · have h3 : a + 1 ≤ x ∧ x < a + 1 + t.length := by simp only [List.length_cons] at h2; omega
        have h4 : x - a = (x - (a + 1)) + 1 := by omega
        rw [if_pos h3, if_pos h2, h4]
        simp
      · have h3 : ¬ (a + 1 ≤ x ∧ x < a + 1 + t.length) := by simp only [List.length_cons] at h2; omega
        rw [if_neg h3, if_neg h2, if_neg h]

/-- A byte outside the bytes that a write covers is as it was. -/
theorem rdByte_wrBytes_out (s : State) (a : Nat) (l : List Byte) (x : Nat) (h : x < a ∨ a + l.length ≤ x) :
    rdByte (wrBytes s a l) x = rdByte s x := by
  have : ¬ (a ≤ x ∧ x < a + l.length) := by omega
  simp [rdByte, wrBytes, get_putBytes, this]

/-- The bytes written are the bytes read. -/
theorem rdBytes_wrBytes (s : State) (a : Nat) (l : List Byte) : rdBytes (wrBytes s a l) a l.length = l := by
  apply List.ext_getElem
  · simp
  · intro i h1 h2
    simp [rdBytes, upTo, rdByte, wrBytes, get_putBytes, h2]

/-- A part of the bytes read is read by itself. -/
theorem slice_rdBytes (s : State) (a m k n : Nat) (h : k + n ≤ m) : slice (rdBytes s a m) k n = rdBytes s (a + k) n := by
  have hl : ((rdBytes s a m).drop k).length = m - k := by simp
  have hn : (((rdBytes s a m).drop k).take n).length = n := by simp; omega
  unfold slice
  simp only [hn, Nat.sub_self, List.replicate_zero, List.append_nil]
  apply List.ext_getElem
  · simp [hn]
  · intro i h1 h2
    simp [rdBytes, upTo, Nat.add_assoc]

/-- A field of the bytes read is a number read by itself. -/
theorem leAt_rdBytes (s : State) (a m k n : Nat) (h : k + n ≤ m) : leAt (rdBytes s a m) k n = rdNat s (a + k) n := by
  unfold leAt rdNat
  rw [slice_rdBytes s a m k n h]

/-! ### Coherent bytes -/

theorem leNat_lt (l : List Byte) : leNat l < 256 ^ l.length := by
  induction l with
  | nil => simp [leNat]
  | cons b t ih =>
    have hb := b.isLt
    simp only [leNat, List.length_cons, Nat.pow_succ]
    omega

/-- A digit of a little-endian number is the byte that stands there. -/
theorem leNat_digit (l : List Byte) : ∀ i (h : i < l.length), BitVec.ofNat 8 (leNat l / 256 ^ i) = l[i] := by
  induction l with
  | nil => intro i h; simp at h
  | cons b t ih =>
    intro i h
    cases i with
    | zero =>
      apply BitVec.eq_of_toNat_eq
      have hb := b.isLt
      simp only [leNat, Nat.pow_zero, Nat.div_one, BitVec.toNat_ofNat, List.getElem_cons_zero]
      omega
    | succ i =>
      have hi : i < t.length := by simpa using h
      have hb := b.isLt
      have hd : leNat (b :: t) / 256 ^ (i + 1) = leNat t / 256 ^ i := by
        rw [Nat.pow_succ, Nat.mul_comm, ← Nat.div_div_eq_div_mul]
        congr 1
        simp only [leNat]
        omega
      rw [hd, ih i hi]
      rfl

/-- Where no die holds a line, the coherent bytes are memory's. -/
theorem cohBytes_of_no_line (s : State) (h : s.jlines = []) (a n : Nat) : cohBytes s a n = rdBytes s a n := by
  have ho : ∀ l, ownerOf s l = none := by
    intro l
    simp [ownerOf, jGet, h, Store.get, jNone]
  unfold cohBytes rdBytes
  apply List.map_congr_left
  intro i _
  have hx : (a + i) % 64 < 64 := Nat.mod_lt _ (by decide)
  have hl : (rdBytes s (64 * ((a + i) / 64)) 64).length = 64 := by simp
  have hlt : leNat (rdBytes s (64 * ((a + i) / 64)) 64) < 2 ^ 512 := by
    have := leNat_lt (rdBytes s (64 * ((a + i) / 64)) 64)
    rw [hl] at this
    calc _ < 256 ^ 64 := this
      _ = 2 ^ 512 := by decide +kernel
  have hd := leNat_digit (rdBytes s (64 * ((a + i) / 64)) 64) ((a + i) % 64) (by rw [hl]; exact hx)
  simp only [lineValue, ho, memLine, rdNat, BitVec.toNat_ofNat, Nat.mod_eq_of_lt hlt, hd]
  simp [rdBytes, upTo, Nat.div_add_mod]

/-! ### The canonical form -/

theorem memory_wf_putBytes (l : List Byte) : ∀ (m : Store Byte) (a : Nat), Memory.wf m = true → Memory.wf (putBytes m a l) = true := by
  induction l with
  | nil => intro m a h; exact h
  | cons b t ih => intro m a h; exact ih _ _ (Store.wf_set memDefault a b h)

/-- A write of unified memory or of a window keeps the form. -/
theorem memory_wf_wrBytes (s : State) (a : Nat) (l : List Byte) (h : Memory.wf s.mem = true) : Memory.wf (wrBytes s a l).mem = true :=
  memory_wf_putBytes l s.mem a h

theorem memory_wf_putLine (s : State) (l : Nat) (v : BitVec 512) (h : Memory.wf s.mem = true) : Memory.wf (putLine s l v).mem = true :=
  memory_wf_putBytes _ s.mem _ h

/-- Forgetting the granules of a job keeps the form. -/
theorem memory_wf_forgetGranules (s : State) (base n : Nat) (h : Memory.wf s.mem = true) :
    Memory.wf (forgetGranules s base n).mem = true := Store.wf_eraseRange memDefault _ _ h

theorem foldl_keeps {α β : Type} (P : β → Prop) (f : β → α → β) (hf : ∀ b a, P b → P (f b a)) :
    ∀ (l : List α) (b : β), P b → P (l.foldl f b) := by
  intro l
  induction l with
  | nil => intro b h; exact h
  | cons a t ih => intro b h; exact ih _ (hf b a h)

@[simp] theorem jPut_mem (s : State) (d l : Nat) (v : JLine) : (jPut s d l v).mem = s.mem := rfl

theorem foldl_jPut_mem (hs : List Nat) (l : Nat) (v : JLine) : ∀ s : State, (hs.foldl (fun s d => jPut s d l v) s).mem = s.mem := by
  induction hs with
  | nil => intro s; rfl
  | cons d t ih => intro s; exact (ih _).trans rfl

theorem dirDrop_mem (s : State) (l : Nat) : (dirDrop s l).mem = s.mem := by
  unfold dirDrop
  split <;> rfl

/-- Invalidating a line keeps the form. -/
theorem memory_wf_invalidateLine (s : State) (l : Nat) (keep : Bool) (h : Memory.wf s.mem = true) :
    Memory.wf (invalidateLine s l keep).mem = true := by
  unfold invalidateLine
  rw [dirDrop_mem, foldl_jPut_mem]
  split
  · split
    · exact memory_wf_putLine s l _ h
    · exact h
  · exact h

/-- A coherent write keeps the form. -/
theorem memory_wf_cohWrite (s : State) (a : Nat) (l : List Byte) (h : Memory.wf s.mem = true) : Memory.wf (cohWrite s a l).mem = true := by
  unfold cohWrite
  exact memory_wf_wrBytes _ a l (foldl_keeps (fun s => Memory.wf s.mem = true) _
    (fun s x hs => memory_wf_invalidateLine s x _ hs) _ s h)

/-- Host memory: writing a line back keeps the form. -/
theorem memory_wf_dirtyEvict (s : State) (l : Nat) (h : Memory.wf s.hostMem = true) : Memory.wf (dirtyEvict s l).hostMem = true := by
  unfold dirtyEvict
  split
  · dsimp only
    split
    · exact memory_wf_putBytes _ s.hostMem _ h
    · exact h
  · exact h

theorem memory_wf_hostFlush (s : State) (a n : Nat) (h : Memory.wf s.hostMem = true) : Memory.wf (hostFlush s a n).hostMem = true :=
  foldl_keeps (fun s => Memory.wf s.hostMem = true) _ (fun s x hs => memory_wf_dirtyEvict s x hs) _ s h

/-- Keeping a host line keeps the form: at most one other line is written back. -/
theorem memory_wf_hostPut (s : State) (x : Nat) (v : HostLine) (h : Memory.wf s.hostMem = true) :
    Memory.wf (hostPut s x v).hostMem = true := by
  unfold hostPut
  dsimp only
  split
  · exact h
  · exact memory_wf_dirtyEvict s _ h

/-- A posted write to host memory keeps the form. -/
theorem memory_wf_hostPosted (s : State) (a : Nat) (l : List Byte) (h : Memory.wf s.hostMem = true) :
    Memory.wf (hostPosted s a l).hostMem = true :=
  memory_wf_putBytes l _ a (foldl_keeps (fun s => Memory.wf s.hostMem = true) _ (fun s x hs => memory_wf_dirtyEvict s x hs) _ s h)

/-- A write of the host port keeps the form. -/
theorem memory_wf_hostWrite (s : State) (a : Nat) (l : List Byte) (h : Memory.wf s.hostMem = true) :
    Memory.wf (hostWrite s a l).hostMem = true := by
  unfold hostWrite
  split
  · exact foldl_keeps (fun s => Memory.wf s.hostMem = true) _ (fun s x hs => memory_wf_hostPut s x _ hs) _ s h
  · exact memory_wf_hostPosted s a l h

/-- The memory of the state after reset has the form. -/
theorem memory_wf_reset : Memory.wf State.reset.mem = true ∧ Memory.wf State.reset.hostMem = true
    ∧ Memory.wf State.reset.nportMem = true ∧ Memory.wf State.reset.bar2 = true :=
  ⟨Store.wf_nil _, Store.wf_nil _, Store.wf_nil _, Store.wf_nil _⟩

end Sys2Proof.Machine
end

