-- ==== Sys2Proof/Laws/Mtc.lean ====
section
/-! SUPPORT. What the shared operations of machine time do: `advance`, `mtcEvent`, `mtcMove`, `sourceLost`. -/

namespace Sys2Proof.Machine

theorem regsBut_wrB (s : State) (k i : Nat) (b : Bool) : RegsBut [k] s (wrB s k i b) := regsBut_wr _ _ _
theorem regsBut_wrF (s : State) (k lo len v : Nat) : RegsBut [k] s (wrF s k lo len v) := regsBut_wr _ _ _
theorem regsBut_upd (s : State) (k : Nat) (f : W64 → W64) : RegsBut [k] s (upd s k f) := regsBut_wr _ _ _
theorem regsBut_incBy (s : State) (k n : Nat) : RegsBut [k] s (incBy s k n) := regsBut_wr _ _ _
theorem regsBut_mtcx (s : State) (x : MtcX) : RegsBut [] s { s with mtcx := x } := fun _ _ => rfl

/-! ### advance -/

theorem regsBut_advance (s : State) (t : W64) : RegsBut [mtc 0, mtc 8, mtc 0x58] s (advance s t) := by
  unfold advance
  split
  · exact RegsBut.refl _ _
  · extract_lets dt s1 fr x2 s2 s3
    have h1 : RegsBut [mtc 0] s s1 := regsBut_wr s _ t
    have h2 : RegsBut [mtc 0x58] s1 s2 := regsBut_incBy { s1 with mtcx := _ } _ _
    have h3 : RegsBut [mtc 8, mtc 0x58] s1 s3 := by
      unfold s3
      split
      · exact (h2.trans (regsBut_wrB s2 _ _ _)).mono (by simp)
      · exact RegsBut.refl _ _
    have h4 := h1.trans h3
    split
    · split
      · exact (h4.trans (regsBut_wrB s3 _ _ _)).mono (by simp)
      · exact h4.mono (by simp)
    · exact h4.mono (by simp)

/-- Up to the moment `t` the count moves forward to `t`, and never back. -/
theorem now_advance (s : State) (t : W64) :
    now (advance s t) = if t.toNat ≤ (now s).toNat ∨ s.dev.vaux = false then now s else t := by
  unfold advance
  split
  · rfl
  · extract_lets dt s1 fr x2 s2 s3
    have h1 : now s1 = t := rd_wr_same _ _ _
    have h2 : RegsBut [mtc 0x58] s1 s2 := regsBut_incBy { s1 with mtcx := _ } _ _
    have h3 : RegsBut [mtc 8, mtc 0x58] s1 s3 := by
      unfold s3
      split
      · exact (h2.trans (regsBut_wrB s2 _ _ _)).mono (by simp)
      · exact RegsBut.refl _ _
    have h4 : now s3 = t := (h3 (mtc 0) (by decide)).trans h1
    split
    · split
      · exact ((regsBut_wrB s3 (mtc 8) 4 false) (mtc 0) (by decide)).trans h4
      · exact h4
    · exact h4

/-- The passage of time changes registers of the MTC and its seconds of discipline, and nothing else. -/
theorem same_advance (s : State) (t : W64) : Same [.regs, .mtcx] s (advance s t) := by
  unfold advance
  split
  · exact Same.refl _ _
  · extract_lets dt s1 fr x2 s2 s3
    have h1 : Same [.regs] s s1 := same_wr s _ _
    have h2 : Same [.regs, .mtcx] s1 s2 := ((same_mtcx s1 _).trans (same_wr _ _ _)).mono (by simp)
    have h3 : Same [.regs, .mtcx] s s3 := by
      unfold s3
      split
      · exact ((h1.trans h2).trans (same_wr s2 _ _)).mono (by simp)
      · exact h1.mono (by simp)
    split
    · split
      · exact (h3.trans (same_wr s3 _ _)).mono (by simp)
      · exact h3
    · exact h3

/-- Of the MTC's own records it changes only the beats into the next second of discipline. -/
theorem mtcx_advance (s : State) (t : W64) : (advance s t).mtcx = { s.mtcx with discFrac := (advance s t).mtcx.discFrac } := by
  unfold advance
  split
  · rfl
  · extract_lets dt s1 fr x2 s2 s3
    have h3 : s3.mtcx = { s.mtcx with discFrac := s3.mtcx.discFrac } := by
      unfold s3
      split <;> rfl
    split
    · split
      · exact h3
      · exact h3
    · exact h3

/-- The bits of MTC_STATUS but TTOD_OK and HOLD_ELIGIBLE stay as time passes. -/
theorem status_advance (s : State) (t : W64) (i : Nat) (h4 : i ≠ 4) (h6 : i ≠ 6) : rdB (advance s t) (mtc 8) i = rdB s (mtc 8) i := by
  have wr8 : ∀ (x : State) (j : Nat) (b : Bool), i ≠ j → rdB (wrB x (mtc 8) j b) (mtc 8) i = rdB x (mtc 8) i := by
    intro x j b h
    simp only [rdB, wrB_wr, rd_wr_same]
    exact bitOf_putBit_ne _ _ h
  unfold advance
  split
  · rfl
  · extract_lets dt s1 fr x2 s2 s3
    have h1 : rdB s1 (mtc 8) i = rdB s (mtc 8) i := by
      unfold rdB
      rw [regsBut_wr s (mtc 0) t (mtc 8) (by decide)]
    have h2 : rdB s2 (mtc 8) i = rdB s1 (mtc 8) i := by
      have h : RegsBut [mtc 0x58] s1 s2 := regsBut_incBy { s1 with mtcx := _ } _ _
      unfold rdB
      rw [h (mtc 8) (by decide)]
    have h3 : rdB s3 (mtc 8) i = rdB s (mtc 8) i := by
      unfold s3
      split
      · rw [wr8 _ _ _ h6, h2, h1]
      · exact h1
    split
    · split
      · rw [wr8 _ _ _ h4, h3]
      · exact h3
    · exact h3

/-- A field of MTC_STATUS from its bits. -/
theorem rdF_eq_of_bits {s u : State} {k lo len : Nat} (h : ∀ i, i < len → rdB u k (lo + i) = rdB s k (lo + i)) :
    rdF u k lo len = rdF s k lo len := by
  apply Nat.eq_of_testBit_eq
  intro i
  simp only [rdF, testBit_fld]
  by_cases hi : i < len
  · have e : (rd u k).getLsbD (lo + i) = (rd s k).getLsbD (lo + i) := h i hi
    rw [e]
  · simp [hi]

theorem mtcState_advance (s : State) (t : W64) : mtcState (advance s t) = mtcState s :=
  rdF_eq_of_bits (fun i hi => status_advance s t (0 + i) (by omega) (by omega))

theorem mtcSource_advance (s : State) (t : W64) : mtcSource (advance s t) = mtcSource s := by
  unfold mtcSource rdF
  rw [regsBut_advance s t (mtc 0x10) (by decide)]

/-! ### mtcEvent, mtcMove and sourceLost -/

theorem regsBut_mtcEvent (s : State) (i : Nat) : RegsBut (mtc 0x68 :: noticeKeys) s (mtcEvent s i) := by
  unfold mtcEvent
  split
  · exact (regsBut_wrB s (mtc 0x68) i true).trans (regsBut_post _ _ _ _ _ _ _ _ _)
  · exact regsBut_raise s 12 0x4000068 i _ _ _ _

theorem same_mtcEvent (s : State) (i : Nat) : Same [.regs, .port] s (mtcEvent s i) := by
  unfold mtcEvent
  split
  · exact ((same_wr s (mtc 0x68) _).trans (same_post _ _ _ _ _ _ _ _ _)).mono (by simp)
  · exact same_raise s 12 0x4000068 i _ _ _ _

/-- A move of the MTC changes registers of its block, its own records, and posts its notice. -/
theorem same_mtcMove (s : State) (st : Nat) : Same [.regs, .port, .mtcx] s (mtcMove s st) := by
  unfold mtcMove
  split
  · exact Same.refl _ _
  · extract_lets s1 x1 s2 a b x2 s3
    have h2 : Same [.regs, .mtcx] s s2 := (same_wr s (mtc 8) _).trans (same_mtcx s1 _)
    have h3 : Same [.regs, .mtcx] s2 s3 := by
      unfold s3
      split
      · have ha : Same [.regs] s2 a := ((same_wr s2 _ _).trans (same_wr _ _ _)).mono (by simp)
        have hb : Same [.regs] a b := ((((same_wr a _ _).trans (same_wr _ _ _)).trans (same_wr _ _ _)).trans (same_wr _ _ _)).mono (by simp)
        exact ((ha.trans hb).trans (same_mtcx b _)).mono (by simp)
      · split
        · exact (same_wr s2 _ _).mono (by simp)
        · exact Same.refl _ _
    exact ((h2.trans h3).trans (same_mtcEvent s3 0)).mono (by simp)

theorem same_sourceLost (s : State) : Same [.regs, .port, .mtcx] s (sourceLost s) := by
  unfold sourceLost
  extract_lets st
  split
  · exact same_mtcMove _ _
  · split
    · split <;> exact same_mtcMove _ _
    · exact Same.refl _ _

theorem regsBut_mtcMove (s : State) (st : Nat) :
    RegsBut ([mtc 8, mtc 0x18, mtc 0x58, mtc 0x60, mtc 0x68] ++ noticeKeys) s (mtcMove s st) := by
  unfold mtcMove
  split
  · exact RegsBut.refl _ _
  · extract_lets s1 x1 s2 a b x2 s3
    have h1 : RegsBut [mtc 8] s s1 := regsBut_wrF s _ _ _ _
    have h2 : RegsBut [] s1 s2 := regsBut_mtcx s1 _
    have ha : RegsBut [mtc 0x58, mtc 0x18] s2 a := (regsBut_wr s2 (mtc 0x58) 0).trans (regsBut_wr _ (mtc 0x18) 0)
    have hb : RegsBut ([mtc 8, mtc 8, mtc 8] ++ [mtc 0x60]) a b :=
      (((regsBut_wrB a (mtc 8) 6 false).trans (regsBut_wrB _ (mtc 8) 7 false)).trans
        (regsBut_wrF _ (mtc 8) 16 16 0xFFFF)).trans (regsBut_wr _ (mtc 0x60) 0)
    clear_value b a
    have h3 : RegsBut [mtc 0x58, mtc 0x18, mtc 8, mtc 0x60, mtc 0x58] s2 s3 := by
      unfold s3
      split
      · exact ((ha.trans hb).trans (regsBut_mtcx b _)).mono (by simp)
      · split
        · exact (regsBut_wr s2 (mtc 0x60) 0).mono (by simp)
        · exact RegsBut.refl _ _
    clear_value s3
    have h5 := (h1.trans h2).trans (h3.trans (regsBut_mtcEvent s3 0))
    exact h5.mono (by simp [noticeKeys, mtc, key, bar0])

theorem regsBut_sourceLost (s : State) :
    RegsBut ([mtc 8, mtc 0x18, mtc 0x58, mtc 0x60, mtc 0x68] ++ noticeKeys) s (sourceLost s) := by
  unfold sourceLost
  extract_lets st
  split
  · exact regsBut_mtcMove _ _
  · split
    · split <;> exact regsBut_mtcMove _ _
    · exact RegsBut.refl _ _

/-- The MTC is in the state it moved to. -/
theorem mtcState_mtcMove (s : State) (st : Nat) (h : st < 4) : mtcState (mtcMove s st) = st := by
  unfold mtcMove
  split
  · assumption
  · extract_lets s1 x1 s2 a b x2 s3
    have h2 : mtcState s2 = st := by
      show rdF s1 (mtc 8) 0 2 = st
      rw [rdF_wrF_same _ _ _ _ _ (by decide)]
      omega
    have hw : ∀ (x : State) (k : Nat) (v : W64), k ≠ mtc 8 → mtcState (wr x k v) = mtcState x := by
      intro x k v hk
      unfold mtcState rdF
      rw [rd_wr_ne _ (Ne.symm hk)]
    have hb : ∀ (x : State) (i : Nat) (b : Bool), 2 ≤ i → mtcState (wrB x (mtc 8) i b) = mtcState x := by
      intro x i b hi
      unfold mtcState rdF
      rw [wrB_wr, rd_wr_same]
      exact fld_putFld_out _ _ _ _ _ _ (by omega)
    have hf : ∀ (x : State) (lo len v : Nat), 2 ≤ lo → mtcState (wrF x (mtc 8) lo len v) = mtcState x := by
      intro x lo len v hi
      unfold mtcState rdF
      rw [wrF_wr, rd_wr_same]
      exact fld_putFld_out _ _ _ _ _ _ (by omega)
    have hm : ∀ (x : State) (y : MtcX), mtcState { x with mtcx := y } = mtcState x := fun _ _ => rfl
    have hb' : mtcState b = mtcState a := by
      unfold b
      rw [hw _ _ _ (by decide), hf _ _ _ _ (by decide), hb _ _ _ (by decide), hb _ _ _ (by decide)]
    have ha' : mtcState a = mtcState s2 := by
      unfold a
      rw [hw _ _ _ (by decide), hw _ _ _ (by decide)]
    clear_value b a
    have h3 : mtcState s3 = st := by
      unfold s3
      split
      · rw [hm, hb', ha', h2]
      · split
        · rw [hw _ _ _ (by decide), h2]
        · exact h2
    clear_value s3
    unfold mtcState rdF
    rw [regsBut_mtcEvent s3 0 (mtc 8) (by decide)]
    exact h3

end Sys2Proof.Machine
end

