-- ==== Sys2Proof/WellFormed.lean ====
section
/-! DEFINITION. Which commands are well formed: the checks that the operands' types do not make already. -/

namespace Sys2Proof

/-- A flit's link word and PATH are in the layout of R374: ACKKIND 3 is reserved, and only BOOKED and COLL flits name a path. -/
def Flit.wf (f : Flit) : Bool :=
  decide (f.ackKind ≠ 3) && (decide (f.path = 0) || decide (f.kind = 1) || decide (f.kind = 2))

/-- A write at a window carries as many bytes as it says. -/
def writeWf (len : BitVec 13) (w : Option (List Byte)) : Bool := w.all (fun l => decide (l.length = len.toNat))

/-- The checks of each command: lengths of what it carries, and lists without repetition. -/
def Instr.wf : Instr → Bool
  | .signalOpArrival _ picks => decide picks.Nodup
  | .probeDone _ _ _ wires => decide wires.Nodup
  | .platformWindowAccess _ _ _ len w => writeWf len w
  | .nportInboundRequest _ _ len w => writeWf len w
  | .slotRead b => decide (b.length ≤ 1024)
  | .landingWrite off data => decide (0 < data.length) && decide (off.toNat % 65536 + data.length ≤ 65536)
  | .doeSession k => decide (k.length = 1184)
  | .managementIndexWrite b => !b.isEmpty
  | .timeFlit _ f => f.wf
  | .bookedWrite _ f => f.wf
  | .readReq _ f => f.wf
  | .readData _ f => f.wf
  | .reqRead _ f => f.wf
  | .reqWrite _ f => f.wf
  | .collFlit _ f => f.wf
  | .respFlit _ f => f.wf
  | _ => true

end Sys2Proof
end

