-- ==== Sys2Proof/Tests/Slice0.lean ====
section
/-! SUPPORT. The model's own tests: an ill-formed term for each check of `Instr.wf`, and for every statement with premises one
theorem that shows values that meet the premises of each of its clauses. -/

open Sys2Proof Sys2Proof.Machine

namespace Sys2Proof.Tests

set_option Elab.async false

/-! ### States -/

/-- The state after reset with these registers written. -/
def setRegs (s : State) (l : List (Nat × Nat)) : State := l.foldl (fun s p => wr s p.1 (BitVec.ofNat 64 p.2)) s

/-- The state with its job in state `j`. -/
def inJob (s : State) (j : JobState) : State := { s with job := { s.job with state := j } }

/-- The state with its device in state `x`, and standby power. -/
def inDev (s : State) (x : DeviceState) : State := { s with dev := { s.dev with state := x, vaux := true, rails := true } }

/-- The state with a command's operation due in the engine of a die. -/
def withEng (s : State) (d e : Nat) (x : Engine) : State := { s with engines := [(d * 15 + e, x)] }

/-- Two stations of dies 0 and 2. -/
def twoStations : List Station :=
  [{ depart := 1000, segLen := 50, dieMask := 5, pkgMask := 0 }, { depart := 3000, segLen := 50, dieMask := 5, pkgMask := 0 }]

/-- The state with order `o` alone in the first segment of engine `e` of die `d`. -/
def withOrder (s : State) (d e : Nat) (o : Order) : State :=
  setDie s d (fun x => { x with stations := twoStations, orders := [(e, [o])], next := 1 })

/-- Engine `e` of die 2 at cycle 5, next free cycle 6, with nothing in flight; the die in RUNNING. -/
def atCycle (e : Nat) : State := setRegs (withEng State.reset 2 e { Engine.idle 0 with cycle := 5, next := 6 }) [(tt 2 0, 4)]

/-- The same, with an order to issue at cycle 6 in its stream. -/
def atOrder (e op : Nat) (ops : BitVec 96) : State := withOrder (atCycle e) 2 e (mkOrder op 6 ops)

/-- It may issue there. -/
def may (e op : Nat) (ops : BitVec 96) : Bool := canIssue (atOrder e op ops) 2 e (mkOrder op 6 ops)

theorem quiet_of_none (s : State) (d e c : Nat) (h : (eng s d e).reads = [] ∧ (eng s d e).writes = []) : Quiet s d e c := by
  unfold Quiet; simp [h.1, h.2]

/-- An open call of cluster 3 of die 2, ready. -/
def call : Call :=
  { die := 2, cluster := 3, issue := 3, desc := 1, win := 9, endSig := 3, endEn := true, opened := true, ready := true
    flushed := false, expired := false, ended := false, killed := false, entry := 0xFFFFFFFFFE000000, grid := 2, fsets := 1
    fgrp := 0, grace := 4, arg0 := 1, arg1 := 2, stack := 0x1000, stackBytes := 16, seats := [⟨5, 1, false⟩], figDone := 0
    fflags := 0, lastOps := [], heldSlots := [] }

/-- Thread `t` of set slot 5 at the call's entry, with x5 = `a`. -/
def thr (a : Nat) (b : Block) : Thread :=
  { live := true, pc := 0xFFFFFFFFFE000000, x := [(5, BitVec.ofNat 64 a), (6, 0x3F800000), (7, 3)], f := [], fcsr := 0
    instret := 4, block := b, awaits := [] }

/-- The word `w` at the entry, in `n` threads of slot 5 with x5 = `a`. -/
def inSet (w n a : Nat) : State :=
  { wrBytes (setRegs State.reset [(tt 2 0, 4)]) (winBase 2 3) (leBytes 4 w) with
    calls := [call], threads := (upTo n).map (fun t => (thKey 19 5 t, thr a .none)) }

/-- An instruction word with rd 7, rs1 5, rs2 6. -/
def word (op f3 f7 : Nat) : Nat := op + 7 * 128 + f3 * 4096 + 5 * 32768 + 6 * 2 ^ 20 + f7 * 2 ^ 25

/-- The first local byte that these tests use. -/
def local0 : Nat := 0xFFFFFFFFFE000040

/-- What set slot 5 of cluster 3 of die 2 issues. -/
def issued (s : State) : SetIssue := (setIssue s 2 3 5).getD ⟨call, [], none⟩

theorem issued_of_some (s : State) (h : (setIssue s 2 3 5).isSome = true) : setIssue s 2 3 5 = some (issued s) := by
  unfold issued; cases hx : setIssue s 2 3 5
  · rw [hx] at h; cases h
  · rfl

/-- A booked flit with nothing in it. -/
def flit0 : Flit :=
  { lseq := 0, lack := 0, ackKind := 0, kind := 1, path := 0, tag := 0, dst := 0, src := 0, pseq := 0, payload := 0
    fecOk := true, macOk := true, ts := 0 }

/-- One row of 40 bytes from unified 0x1000 to `dst`. -/
def oneRow (dst : Nat) : BitVec 512 :=
  BitVec.ofNat 512 (0x1000 + dst * 2 ^ 64 + 1 * 2 ^ 128 + 40 * 2 ^ 160 + 5 * 2 ^ 320)

/-- A train of engine 0 of die 2, issued at cycle 7. -/
def train (x : BitVec 512) (arrive : Bool) : Train :=
  { die := 2, engine := 0, issue := 7, desc := x, index := 0, transpose := false, arriveSig := 5, arrive := arrive, book := 0
    wait := none, heldAt := none, faulted := false, data := [], landed := 0, asked := false, sent := false, dead := false }

/-! ### Host commands -/

/-- A command of the host, in this phase, with this slot and result. -/
def cmd (q : Nat) (b : List Byte) (ph : CmdPhase) (res : List Byte) : Cmd :=
  { seq := BitVec.ofNat 32 q, slot := b, phase := ph, muted := false, status := 5, detail := 6, value := 7, result := res }

/-- A slot of R425: sequence, opcode, flags, inline length, result address and length, arguments, inline data. -/
def slot (q op fl inl ra rl : Nat) (args data : List Byte) : List Byte :=
  let b := leBytes 4 q ++ leBytes 2 op ++ leBytes 2 fl ++ leBytes 4 0 ++ leBytes 2 inl ++ leBytes 2 0 ++ leBytes 8 ra ++ leBytes 4 rl
    ++ leBytes 4 0 ++ slice args 0 32 ++ slice data 0 960
  b.take 8 ++ leBytes 4 (crc32c (b.take (64 + inl))).toNat ++ b.drop 12

/-- The slot of command 7 with these arguments. -/
def slot7 (op : Nat) (args : List Byte) : List Byte := slot 7 op 0 0 0 64 args []

/-- A ready device with the job in state `j` and command 7 waiting with this slot. -/
def hosted (x : DeviceState) (j : JobState) (b : List Byte) : State :=
  let s := inJob (inDev State.reset x) j
  { s with port := { s.port with cmds := [cmd 7 b .waiting []] } }

/-- `Starts`, as a test that computes. -/
def startsNow (s : State) (op : Nat) (b : List Byte) : Bool :=
  (startable s 7).any (fun c => decide (c.slot = b)) && decide (slotOp b = op) && admitted s b

theorem starts_of_startsNow {s : State} {op : Nat} {b : List Byte} (h : startsNow s op b = true) : Starts s 7 op b := by
  simp only [startsNow, Bool.and_eq_true, decide_eq_true_eq, Option.any_eq_true] at h
  obtain ⟨⟨⟨c, hc, hs⟩, ho⟩, ha⟩ := h
  exact ⟨⟨c, hc, hs⟩, ho, ha⟩

/-- A memory that holds these bytes from `a`, in its canonical form. -/
def memAt (a : Nat) (l : List Byte) : Store Byte := ((upTo l.length).zip l).filterMap (fun p => if p.2 = 0 then none else some (a + p.1, p.2))

/-! ### Ill-formed commands -/

theorem test_wf_flit :
    ([Instr.timeFlit 0, .bookedWrite 0, .readReq 0, .readData 0, .reqRead 0, .reqWrite 0, .collFlit 0, .respFlit 0].all fun c =>
      (c flit0).wf && !(c { flit0 with ackKind := 3 }).wf && !(c { flit0 with kind := 3, path := 1 }).wf) = true := by decide
theorem test_wf_lists :
    (Instr.signalOpArrival 0 [0, 1]).wf = true ∧ (Instr.signalOpArrival 0 [1, 1]).wf = false
    ∧ (Instr.probeDone 0 0 0 [5, 5]).wf = false ∧ (Instr.managementIndexWrite []).wf = false := by decide
theorem test_wf_windows :
    (Instr.platformWindowAccess 0 0 0 2 (some [1, 2])).wf = true ∧ (Instr.platformWindowAccess 0 0 0 2 (some [1])).wf = false
    ∧ (Instr.nportInboundRequest 0 0 2 (some [1])).wf = false ∧ (Instr.landingWrite 0xFFFF [1]).wf = true
    ∧ (Instr.landingWrite 0xFFFF [1, 2]).wf = false ∧ (Instr.landingWrite 0 []).wf = false := by decide
theorem test_wf_lengths :
    (Instr.slotRead (List.replicate 1025 0)).wf = false ∧ (Instr.doeSession []).wf = false := by decide +kernel

/-! ### Premises: the clock, registers, signals -/

/-- A valid TTOD message for second 77. -/
def todMsg : BitVec 160 :=
  let b := leBytes 3 0x015AA5 ++ leBytes 1 0 ++ leBytes 8 77 ++ leBytes 2 3 ++ leBytes 1 5 ++ leBytes 1 0
  BitVec.ofNat 160 (leNat (b ++ leBytes 4 (crc32c b).toNat))

theorem witness_StepRunsFrontCommand :
    ({ State.reset with pending := [.trefLost 5] } : State).pending = .trefLost 5 :: [] := by decide +kernel
theorem witness_EveryStepKeepsInvariant : State.reset.Inv ∧ ∃ u, step State.reset = .next u :=
  ⟨by unfold State.Inv; decide +kernel, _, rfl⟩
theorem witness_CommandsKeepQueueAndFuses :
    ∃ u, exec (.signalOpArrival 0 []) { State.reset with guard := { State.reset.guard with operatorHash := some [1] } } = .next u :=
  ⟨_, rfl⟩
/-- The tie between 2 and 3 in FP4, and the least FP64 above 0. -/
theorem witness_RoundingIsToNearestEven :
    (Fmt.fp4 ∈ [Fmt.fp4, Fmt.e4m3, Fmt.e5m2, Fmt.bf16, Fmt.fp16, Fmt.fp32, Fmt.fp64] ∧ 0 < 5
      ∧ (roundFin .fp4 .rne true 5 (-1)).2.getLsbD 1 = false)
    ∧ (Fmt.fp64 ∈ [Fmt.fp4, Fmt.e4m3, Fmt.e5m2, Fmt.bf16, Fmt.fp16, Fmt.fp32, Fmt.fp64] ∧ 0 < 1
      ∧ (roundFin .fp64 .rne false 1 (-1074)).2.getLsbD 1 = false) := by decide +kernel
/-- The last entry of A0's block in ARMING, and in another die's block. -/
theorem witness_RoutingTableWrites :
    (((0 : ADie).val = 0 ∧ ((inJob State.reset .arming).job.state = .idle ∨ (inJob State.reset .arming).job.state = .arming)))
    ∧ ¬ ((7 : ADie).val = 0 ∧ (State.reset.job.state = .idle ∨ State.reset.job.state = .arming))
    ∧ (255 : Byte) ≠ 254 := by decide +kernel
theorem witness_ArmDoneNeedsEveryRoute :
    (let s := { State.reset with job := { State.reset.job with state := .arming, groupSize := 2, groupPos := 1, armSeq := some 7 } }
     s.job.state = .arming ∧ (∃ g < s.job.groupSize, g ≠ s.job.groupPos ∧ bitOf (orEntry s g) 19 = false) ∧ s.job.armSeq = some 7)
    ∧ State.reset.job.state ≠ .arming
    ∧ (State.reset.job.state ≠ .armed ∧ State.reset.job.state ≠ .departed ∧ State.reset.job.state ≠ .held) := by decide +kernel
theorem witness_MtcCountsAndRegisters :
    (let s := setRegs (inDev State.reset .ready) [(mtc 0, 2 ^ 64 - 2)]
     s.pending = [] ∧ s.dev.vaux = true ∧ rd s (mtc 0x18) = 0 ∧ 0 ≤ s.mtcx.rateFrac ∧ s.mtcx.rateFrac < 2 ^ 40
       ∧ (now s).toNat + 1 < 2 ^ 64)
    ∧ (jobRuns (inDev State.reset .ready) = true ∨ (inDev State.reset .ready).cw.erased = [])
    ∧ (let s := { State.reset with dev := { State.reset.dev with vaux := false } }
       s.pending = [] ∧ s.dev.vaux = false)
    ∧ ((inDev State.reset .maintenance).dev.state = .maintenance ∧ fld (2 : W64) 0 2 ≠ 3 ∧ (0x38 : BitVec 24).toNat ≠ 0x10)
    ∧ (State.reset.dev.state ≠ .maintenance)
    ∧ ((inDev State.reset .maintenance).dev.state = .maintenance ∧ (0x10 : BitVec 24).toNat = 0x10 ∧ fld (3 : W64) 0 2 = 3)
    ∧ (0x68 : BitVec 24).toNat = 0x68 := by decide +kernel
theorem witness_TrefAndHoldover :
    ((inDev State.reset .ready).dev.vaux = true ∧ (inDev State.reset .ready).mtcx.trefLostAt = none)
    ∧ (let s := { inDev State.reset .ready with mtcx := { State.reset.mtcx with trefLostAt := some 5 } }
       s.dev.vaux = true ∧ trefOver s 1000000005 = true ∧ trefOver s 1000000004 = false ∧ s.mtcx.trefLostAt ≠ none
        ∧ s.dev.state ≠ .failed)
    ∧ (let s := setRegs (inDev State.reset .ready) [(mtc 8, 3), (mtc 0x38, 1), (mtc 0, sec)]
       mtcState s = 3 ∧ s.mtcx.holdSince.toNat + rdF s (mtc 0x38) 0 32 * sec ≤ (now (advance s 0)).toNat)
    ∧ (let s := setRegs (inDev State.reset .ready) [(mtc 0x58, 600)]
       600 ≤ (rd (advance s 0) (mtc 0x58)).toNat) := by decide +kernel
theorem witness_WiredTimeReference :
    let s := { setRegs (inDev State.reset .ready) [(mtc 8, 2), (mtc 0x10, 1), (mtc 0, 5 * sec)] with
      mtcx := { State.reset.mtcx with lastEdge := some (256 * 4900000000), edgeBase := some (256 * 4900000000), lastTod := some 4900000000, pendingSec := some 5 } }
    mtcSource s = 1
    ∧ (TtodValid s 5000000000 todMsg ∧ TtodValid s 5800000000 todMsg)
    ∧ ¬ TtodValid s 5000000000 (todMsg + 1)
    ∧ secondOffset (256 * ((5 * sec + 100000 : Nat) : Int) - (rdF s (mtc 0x28) 0 24 : Int)) ≤ 256 * 100000
    ∧ mtcState (setRegs s [(mtc 8, 1)]) ≤ 1
    ∧ s.mtcx.pendingSec = some 5
    ∧ (jobLive s = true ∨ ∀ n, s.mtcx.pendingSec = some n →
        (256 * (sec * n.toNat : Nat) - (256 * ((5 * sec + 1000000 : Nat) : Int) - (rdF s (mtc 0x28) 0 24 : Int))).natAbs ≤ 256 * 1000000)
    ∧ (edgeMissing (advance s 6000100001) 6000100001 ≠ none ∧ edgeMissing (advance s 6000100000) 6000100000 = none)
    ∧ (∀ a, s.mtcx.lastTod = some a → a.toNat + 16 * sec ≤ (now (advance s 20900000000)).toNat) := by
  intro s
  unfold TtodValid
  refine ⟨by decide +kernel, ⟨⟨by decide +kernel, by decide +kernel, by decide +kernel, _, rfl, by decide +kernel⟩,
    by decide +kernel, by decide +kernel, by decide +kernel, _, rfl, by decide +kernel⟩, ?_, by decide +kernel, by decide +kernel,
    rfl, ?_, by decide +kernel, ?_⟩
  · exact fun h => absurd h.1 (by decide +kernel)
  · refine .inr (fun n h => ?_); cases h; decide +kernel
  · intro a h; cases h; decide +kernel
theorem witness_RegisterWriteFollowsAccessType :
    (hartAccess [4, 8] (0x4C : BitVec 30).toNat (8 : BitVec 4).toNat = false)
    ∧ ((0 : Fin 15).val < 8 ∧ aW1c 0x48 = true)
    ∧ ((7 : Fin 15).val < 8 ∧ aW1c 0x10 = false ∧ aMask 0x10 ≠ 0)
    ∧ (aW1c 0x9999 = false ∧ aMask 0x9999 = 0 ∧ 0x9999 ≠ 0x5000020)
    ∧ (fld (0x80C00 : W64) 10 2 ∈ [0, 3] ∧ fld (0x80000 : W64) 10 2 ∈ [0, 3])
    ∧ ((0x14 : BitVec 30).toNat % 4 = 0 ∧ isW1c (7 : Fin 15) 0x10 = false ∧ aMask 0x10 ≠ 0 ∧ isW1c (7 : Fin 15) 0x48 = true)
    ∧ ((12 : Fin 15).val = 12 ∧ 0x1000018 ∈ [0x10, 0x18, 0x20, 0x28, 0x1000018])
    ∧ ((14 : Fin 15).val = 14 ∧ rdB State.reset (bar0 0x48) 0 = false)
    ∧ rdB (setRegs State.reset [(bar0 0x48, 1)]) (bar0 0x48) 0 = true := by decide +kernel

theorem witness_SignalOrdersAndWaits :
    (canIssue (atOrder 14 0 0) 2 14 (mkOrder 0 6 0) = true ∧ fld (mkOrder 0 6 0) 0 32 = (6 : BitVec 24).toNat
      ∧ Quiet (atOrder 14 0 0) 2 14 6 ∧ Quiet (atOrder 14 0 0) 2 14 5)
    ∧ ((5 : BitVec 96).getLsbD 14 = false ∧ ∀ op ∈ [0x10, 0x11], canIssue (atOrder 14 op 5) 2 14 (mkOrder op 6 5) = true)
    ∧ ((0x4005 : BitVec 96).getLsbD 14 = true ∧ ∀ op ∈ [0x10, 0x11], canIssue (atOrder 0 op 0x4005) 2 0 (mkOrder op 6 0x4005) = true)
    ∧ (let s := setRegs (atCycle 14) [(key 0 (0x7200000 + 8 * 7), 2 ^ 19 + 2 ^ 4)]
       pathPort s 70 7 = some 4)
    ∧ (∀ op ∈ [0x12, 0x13, 0x14], canIssue (atOrder 14 op 5) 2 14 (mkOrder op 6 5) = true)
    ∧ (waitHolds 0 (sigVal (atCycle 14) 5) 0 = true ∧ waitHolds 0 (sigVal (atCycle 14) 5) 1 = false)
    ∧ (let s := withEng State.reset 2 0 { Engine.idle 0 with next := 6, hold := some (.wait 1 5 0 false) }
       (eng s 2 0).hold = some (.wait 1 5 0 false) ∧ waitHolds 1 (sigVal s 5) 0 = true ∧ Quiet s 2 0 ((eng s 2 0).next - 1)) :=
  ⟨⟨by decide +kernel, by decide +kernel, quiet_of_none _ _ _ _ (by decide +kernel), quiet_of_none _ _ _ _ (by decide +kernel)⟩,
    by decide +kernel, by decide +kernel, by decide +kernel, by decide +kernel, by decide +kernel,
    by decide +kernel, by decide +kernel, quiet_of_none _ _ _ _ (by decide +kernel)⟩

/-- An operation of the update sequencer of die 0 on signal 4101, which die 2 hosts. -/
def sigOp (e : Nat) (add : Bool) (v : W64) : SigOp :=
  { sig := 4101, add := add, value := v, order := some (e, 0), asker := 0, askId := 0, setMode := false }

theorem witness_SignalsAtTheirHost :
    let s := { State.reset with sigOps := [sigOp 14 true 3, sigOp 14 false 100] }
    (s.sigOps[0]? = some (sigOp 14 true 3) ∧ s.sigOps[1]? = some (sigOp 14 false 100) ∧ sigHost 4101 = 2)
    ∧ ((sigOp 14 true 3).asker = 0 ∧ (sigOp 14 false 100).asker = 0 ∧ (sigOp 14 true 3).sig = (sigOp 14 false 100).sig
      ∧ (sigOp 14 true 3).order ≠ none ∧ (sigOp 14 true 3).add = true ∧ (sigOp 14 false 100).add = false)
    ∧ (∀ e x, (sigOp 14 false 100).order = some (e, x) → e < 15 ∧ x < 8)
    ∧ (sigOpen s = false ∧ sigOpen (inJob s .departed) = true)
    ∧ (fld (0x1000 : W64) 11 2 ≠ 3 ∧ fld (0x1800 : W64) 11 2 = 3)
    ∧ (let s := setRegs State.reset [(sg 2 (0x8000 + 32 * 63), 0x2000)]
       rdB s (sg 2 (0x8000 + 32 * (63 : BitVec 6).toNat)) 13 = true ∧ slotHolds s 2 63 = true) := by
  refine ⟨by decide +kernel, by decide +kernel, ?_, by decide +kernel, by decide +kernel, by decide +kernel⟩
  intro e x h; cases h; decide

/-! ### Premises: trains, timetables, loads -/

/-- Die 2 on its way to station `n`, with these arrivals seen. -/
def atDie (n : Nat) (seen : List (Nat × Nat)) : DieTT :=
  { DieTT.none 0 with stations := twoStations, descs := [[oneRow 0x2000], [], [], []], next := n, seen := seen }

/-- The state with die 2 loaded. -/
def loaded (s : State) (n : Nat) (seen : List (Nat × Nat)) : State := { s with dies := [(2, atDie n seen)] }

theorem witness_TrainOrdersStartTrains :
    let s := withOrder (loaded (atCycle 9) 1 []) 2 9 (mkOrder 0x20 6 0)
    ((dieTT s 2).descs.getD 0 [])[fld (0 : BitVec 96) 0 20]? = some (oneRow 0x2000)
    ∧ (canIssue s 2 9 (mkOrder 0x20 6 0) = true
      ∧ canIssue (withOrder (loaded (atCycle 9) 1 []) 2 9 (mkOrder 0x21 6 0)) 2 9 (mkOrder 0x21 6 0) = true)
    ∧ Quiet s 2 9 6 :=
  ⟨by decide +kernel, by decide +kernel, quiet_of_none _ _ _ _ (by decide +kernel)⟩
theorem witness_TrainArrivalLandsItsBytes :
    let t := train (oneRow (unifiedEnd - 40)) true
    let s := { loaded (atCycle 9) 1 [] with trains := [t] }
    let m := trainMove s t (tdBytes t.desc)
    let x := trainNow m t
    (findTrain s 2 0 7 = some t ∧ dstAway m x = false)
    ∧ (¬ (x.heldAt ≠ none ∨ x.dead = true ∨ delayWaits m (trainOwner 2 0 7) = true) ∧ trainLanded x = true)
    ∧ (train (oneRow 0x2000) false).arrive = false
    ∧ (tdRows t.desc = 1 ∧ t.transpose = false ∧ t.data = [] ∧ t.landed = 0 ∧ 0 < tdBytes t.desc ∧ t.heldAt = none ∧ t.dead = false
      ∧ tdSrcSpace t.desc = 1)
    ∧ (tdDstSpace t.desc = 1 ∧ tdNat t.desc 8 8 = unifiedEnd - 40 ∧ t.arrive = true
      ∧ ∀ i < 40, physByte s (unifiedEnd - 40 + i) = true)
    ∧ poisonedRange s (tdNat t.desc 0 8) (tdBytes t.desc) = false := by
  decide +kernel

/-- The engines of die 2 at the end of a segment of 50 cycles; those in `l` have arrived. -/
def atEnd (l : List Nat) : List (Nat × Engine) :=
  (upTo 15).map (fun e => (30 + e, { Engine.idle 0 with cycle := 50, arrived := l.contains e }))

theorem witness_ArrivalsAndDepartures :
    (let s := { loaded (atCycle 14) 2 [] with engines := atEnd [] }
     ttState s 2 = 4 ∧ (eng s 2 14).arrived = false ∧ windowBlocks s 2 14 (segLen s 2) = false ∧ engineClear s 2 14 = true
      ∧ (eng s 2 14).cycle ≤ segLen s 2 ∧ mayReach s 2 14 (segLen s 2) = true ∧ ∃ x : EngineIx, x ≠ 14 ∧ (eng s 2 x).arrived = false)
    ∧ (let s := { loaded (atCycle 14) 2 [] with engines := atEnd (upTo 14) }
     ttState s 2 = 4 ∧ (eng s 2 14).arrived = false ∧ windowBlocks s 2 14 (segLen s 2) = false ∧ engineClear s 2 14 = true
      ∧ (eng s 2 14).cycle ≤ segLen s 2 ∧ mayReach s 2 14 (segLen s 2) = true ∧ ∀ x : EngineIx, x ≠ 14 → (eng s 2 x).arrived = true)
    ∧ (let s := { State.reset with ttx := { State.reset.ttx with msgs := [(2, 7, 1)] } }
       s.ttx.msgs.find? (fun m => decide (m.1 = (2 : ADie).val) && decide (m.2.1 = (7 : ADie).val)) = some (2, 7, 1))
    ∧ (let s := setRegs (loaded (inJob State.reset .departed) 1 [(1, 2), (1, 0)]) [(tt 2 0, 5), (mtc 0, 5000)]
       s.job.state = .departed ∧ 0 < atStation s 2 ∧ mayDepart s 2 (atStation s 2) = true
        ∧ dueAt s 2 (atStation s 2) ≤ dieNow (advance s 0) 2 ∧ atStation s 2 ≠ ttCount s 2)
    ∧ (let s := setRegs (loaded (inJob State.reset .held) 2 [(2, 2), (2, 0)]) [(tt 2 0, 5), (mtc 0, 5000)]
       s.job.state = .held ∧ 0 < atStation s 2 ∧ mayDepart s 2 (atStation s 2) = true
        ∧ dueAt s 2 (atStation s 2) ≤ dieNow (advance s 0) 2 ∧ atStation s 2 = ttCount s 2)
    ∧ (let s := setRegs (loaded (inJob State.reset .departed) 1 []) [(tt 2 0, 5), (mtc 0, 2000000)]
       jobLive s = true ∧ ttState s 2 = 5 ∧ dueAt s 2 (atStation s 2) + s.job.stationTimeout ≤ (now (advance s 0)).toNat
        ∧ dueAt s 2 (atStation s 2) + 1000000 ≤ (now (advance s 0)).toNat) := by decide +kernel
theorem witness_OrdersWriteAtTheirWriteCycle :
    ∀ p ∈ [Put.byte (unifiedEnd - 1) 5, .lane 77 0 8 5, .plane 2 1 3 7, .cfg 3 4, .reg 99 4],
    let w : WriteOp := { time := 9, issue := 3, put := p }
    let s := { withEng State.reset 2 0 { Engine.idle 0 with cycle := 9, writes := [w] } with
      engines := [0, 14].map (fun e => (30 + e, { Engine.idle 0 with cycle := 9, writes := [w] })) }
    (∀ e ∈ [0, 14], (eng s 2 e).writes = [w] ∧ (eng s 2 e).reads = [] ∧ (eng s 2 e).cycle ≤ w.time ∧ mayReach s 2 e w.time = true)
    ∧ (0 : EngineIx) < 14 := by decide +kernel

/-! ### Premises: loads -/

/-- A header of R102: level, length, children, position, and the offsets of the sections. -/
def imgHeader (level len children pos : Nat) (secs : List Nat) : List Byte :=
  leBytes 4 0x39475454 ++ leBytes 2 1 ++ leBytes 1 level ++ leBytes 1 0 ++ leBytes 4 len ++ leBytes 4 1 ++ leBytes 2 children
    ++ leBytes 2 pos ++ leBytes 12 0 ++ secs.flatMap (leBytes 4) ++ leBytes 4 0

/-- A package image of one station and no die, at unified 0x1000. -/
def pkgImage : List Byte :=
  imgHeader 2 128 0 0 [64, 0, 0, 0, 0, 0, 0] ++ leBytes 8 5000000 ++ leBytes 4 50 ++ leBytes 1 4 ++ leBytes 51 0

/-- ARMING, with an image in unified memory, a load of die 2 under way, and its measurement. -/
def loading (image : List Byte) (measure : List Byte) : State :=
  let s := setRegs (inJob State.reset .arming) [(tt 2 8, 1), (tt 2 0x10, 0x1000)]
  let s := { s with job := { s.job with ttMeasure := measure } }
  wrBytes s 0x1000 image

theorem witness_LoadsAndFlushes :
    (bitOf (1 : W64) 0 = true ∧ rdB State.reset (tt 2 8) 0 = false ∧ (inJob State.reset .arming).job.state = .arming
      ∧ State.reset.job.state ≠ .arming)
    ∧ (let s := loading pkgImage (sha256 pkgImage)
       rdB s (tt 2 8) 0 = true ∧ s.job.state = .arming ∧ rdB s (hp 0x108) 0 = false
        ∧ (match readTree s 2 with | .ok t => decide (loadFail s t = none) | .error _ => false) = true)
    ∧ (let s := loading pkgImage []
       rdB s (tt 2 8) 0 = true ∧ s.job.state = .arming ∧ (match readTree s 2 with | .ok t => (loadFail s t).isSome | .error _ => false) = true)
    ∧ (let s := wrBytes (setRegs (loading pkgImage []) [(tt 2 0x10, unifiedEnd - 64)]) (unifiedEnd - 56) [65]
       rdB s (tt 2 8) 0 = true ∧ s.job.state = .arming ∧ (match readTree s 2 with | .ok _ => false | .error _ => true) = true)
    ∧ (let p : Poss := { base := 0x200000, granules := 2, start := 0, stop := 1, begun := true, flushing := 5, ended := false, left := 0 }
       let s := { State.reset with ttx := { State.reset.ttx with poss := [p] } }
       s.ttx.poss.find? (fun p => decide (p.base = (0x200000 : W64).toNat) && bitOf p.flushing 2) = some p
        ∧ s.job.state ≠ .arming) := by decide +kernel

/-! ### Premises: the engines' orders -/

theorem witness_MainArrayConfigurationOrders :
    (∀ op ∈ [0x41, 0x42, 0x43], may 0 op 5 = true) ∧ Quiet (atOrder 0 0x41 5) 2 0 6 :=
  ⟨by decide +kernel, quiet_of_none _ _ _ _ (by decide +kernel)⟩

/-- Operands of an MA_MMA of 40 rows in two passes, with DRAIN; of an MA_LOAD of 4,096 bits, and of one element row more. -/
def mmaOps : BitVec 96 :=
  BitVec.ofNat 96 (130 + 1 * 2 ^ 10 + 40 * 2 ^ 20 + 1 * 2 ^ 36 + 4 * 2 ^ 43 + 5 * 2 ^ 65 + 1 * 2 ^ 87 + 1 * 2 ^ 88 + 2 ^ 90)
def loadOps (m : Nat) : BitVec 96 := BitVec.ofNat 96 (m * 16 + 63 * 2 ^ 11)

theorem witness_MainArrayDataOrders :
    ((may 0 0x40 mmaOps = true ∧ may 0 0x44 0 = true ∧ may 0 0x45 (loadOps 1) = true ∧ may 0 0x45 (loadOps 2) = true)
      ∧ Quiet (atOrder 0 0x40 mmaOps) 2 0 6)
    ∧ (1 < (mmaOf (mkOrder 0x40 6 mmaOps)).passes * (mmaOf (mkOrder 0x40 6 mmaOps)).steps
      ∧ 0 < (mmaOf (mkOrder 0x40 6 mmaOps)).passes ∧ bitOf mmaOps 87 = true)
    ∧ (fld (loadOps 1) 4 7 + 1) * (fld (loadOps 1) 11 7 + 1) * (cFmt (fld (loadOps 1) 18 4)).bits = 4096
    ∧ 4096 < (fld (loadOps 2) 4 7 + 1) * (fld (loadOps 2) 11 7 + 1) * (cFmt (fld (loadOps 2) 18 4)).bits := by
  refine ⟨⟨by decide +kernel, quiet_of_none _ _ _ _ (by decide +kernel)⟩, ?_⟩; decide +kernel

/-- A read in flight of the main array of die 2, of order `op`, part `p`, at cycle `t`. -/
def maRead (op p t : Nat) : State :=
  withEng State.reset 2 0 { Engine.idle 0 with
    reads := [{ time := t, issue := 3, order := mkOrder op 3 mmaOps, cfg := [0, 1, 2, 0, 4, 5], part := p, got := [] }] }

theorem witness_MainArrayPartsAndSums :
    (let s := maRead 0x44 0 1
     (eng s 2 0).writes = []
      ∧ ∃ r, (eng s 2 0).reads = [r] ∧ (eng s 2 0).cycle ≤ r.time ∧ mayReach s 2 0 r.time = true ∧ fld r.order 24 8 = 0x44 ∧ 1 ≤ r.time)
    ∧ (let s := maRead 0x40 1 90
       let q := mmaOf (mkOrder 0x40 3 mmaOps)
       (eng s 2 0).writes = []
        ∧ ∃ r, (eng s 2 0).reads = [r] ∧ (eng s 2 0).cycle ≤ r.time ∧ mayReach s 2 0 r.time = true ∧ fld r.order 24 8 = 0x40 ∧ r.part < 2 ^ 32
          ∧ r.part % q.steps * q.cps ≤ r.time ∧ r.part + 1 < q.passes * q.steps)
    ∧ (let w : WriteOp := { time := 9, issue := 3, put := .terms 2 3 16383 1 [(.fin false 1 0, false)] }
       let s := withEng State.reset 2 0 { Engine.idle 0 with writes := [w] }
       (eng s 2 0).reads = [] ∧ (eng s 2 0).writes = [w] ∧ (eng s 2 0).cycle ≤ w.time ∧ mayReach s 2 0 w.time = true) := by
  refine ⟨⟨by decide +kernel, _, rfl, ?_⟩, ⟨by decide +kernel, _, rfl, ?_⟩, ?_⟩ <;> decide +kernel
/-- A cluster's engine takes an order at cycle 6; 1,024 elements are one chunk, 1,025 are two. -/
theorem witness_VectorLaneOrders :
    ((∀ op ∈ [0x82, 0x83, 0x84, 0x85, 0x86, 0x87, 0x88, 0x89, 0x8A, 0x8B, 0x8C, 0x90, 0x91, 0x92, 0x93, 0x94, 0x95, 0xA0, 0xA3, 0xA8, 0xA9, 0xAA,
      0xAB, 0xAE], may 8 op 1023 = true ∧ may 8 op 1024 = true) ∧ Quiet (atOrder 8 0x82 1023) 2 8 6)
    ∧ fld (1023 : BitVec 96) 0 14 < 1024 ∧ 1024 ≤ fld (1024 : BitVec 96) 0 14 :=
  ⟨⟨by decide +kernel, quiet_of_none _ _ _ _ (by decide +kernel)⟩, by decide +kernel, by decide +kernel⟩
theorem witness_VectorGroupOrders :
    ((∀ op ∈ [0x80, 0x81, 0x98, 0xA2, 0xA1, 0xAC, 0xAD], may 1 op 0 = true ∧ may 1 op (BitVec.ofNat 96 (2 ^ 96 - 1)) = true)
      ∧ Quiet (atOrder 1 0x80 0) 2 1 6)
    ∧ (vN (mkOrder 0x98 6 1023) ≤ 1024 ∧ 1024 < vN (mkOrder 0x98 6 1024))
    ∧ 256 < vN (mkOrder 0xA2 6 256)
    ∧ (lK (mkOrder 0xA1 6 0) ≤ gemvP (mkOrder 0xA1 6 0)
      ∧ gemvP (mkOrder 0xA1 6 (BitVec.ofNat 96 (2 ^ 96 - 1))) < lK (mkOrder 0xA1 6 (BitVec.ofNat 96 (2 ^ 96 - 1))))
    ∧ (lK (mkOrder 0xAC 6 0) = 1 ∧ 1 < lK (mkOrder 0xAC 6 (BitVec.ofNat 96 (2 ^ 96 - 1)))) := by
  refine ⟨⟨by decide +kernel, quiet_of_none _ _ _ _ (by decide +kernel)⟩, ?_⟩; decide +kernel

/-! ### Premises: gathers, stream caches, windows, set mode -/

/-- A window of cluster 3 of die 2 over one element of FP32 at index `i`. -/
def window (op i : Nat) : GatherWin :=
  { issue := 3, stop := 20, cfg := [0, 0, 0, 0, 1, 0x20, 0, 0], got := [i], wait := none
    order := mkOrder op 3 (BitVec.ofNat 96 (3 * 2 ^ 14 + 5 * 2 ^ 22)) }

/-- That window open, with the engine's hold. -/
def inWin (h : Option Hold) (w : GatherWin) : State := withEng State.reset 2 4 { Engine.idle 0 with hold := h, win := some w }

/-- The translation of the first 2 MiB of die 2, and a sector of it wanted by cluster 3. -/
def wanting : State :=
  { State.reset with
    scPre := [(19, 0x3040)]
    trans := { State.reset.trans with tlb := [⟨2, none, 0, 0x200000, 0x400000, true, true, false⟩] } }

/-- Range operation 1 of cluster 3 of die 2. -/
def range1 : RangeOp := { cl := 19, op := 1, base := 0x1000, len := 70, order := false }

theorem witness_GathersAndStreamCaches :
    ((∀ op ∈ [0xB0, 0xB1, 0xB2], may 4 op 0 = true) ∧ Quiet (atOrder 4 0xB0 0) 2 4 6)
    ∧ (let w : GatherWin := { window 0xB0 0x7000 with cfg := [0, 0, 0, 0, 0, 0x20, 0, 0] }
       (winFault State.reset 2 3 w).isSome = true)
    ∧ (let w := window 0xB2 1
       let s := { inWin none w with scRange := [{ range1 with order := true }] }
       (eng s 2 4).win = some w ∧ w.wait = none ∧ winFault s 2 3 w = none ∧ fld w.order 24 8 = 0xB2 ∧ scopDone s 2 3 = false
        ∧ scopDone (inWin none w) 2 3 = true)
    ∧ (let s := inWin none (window 0xB0 1)
       (eng s 2 4).win = some (window 0xB0 1) ∧ winFault s 2 3 (window 0xB0 1) = none ∧ (eng s 2 4).hold = none
        ∧ (eng s 2 4).writes = [] ∧ (eng s 2 4).reads = [])
    ∧ (let o := (window 0xB0 1).order
       fld o 24 8 = 0xB0 ∧ gsSpace o (window 0xB0 1).cfg = 1 ∧ vFmt (vCode o) = .fp32 ∧ opKind (vDst o) = 0 ∧ vN o ≤ 1024)
    ∧ (let w := window 0xB0 0x700000
       (∀ b < gsSize w.order, inWindow (inWin none w) 2 3 (gsAddr w.order w.cfg w.got 0 + b) = false)
        ∧ decide (gsAddr w.order w.cfg w.got 0 + gsSize w.order ≤ 0x2000000) = true)
    ∧ (let w := window 0xB0 0x7FFFFF8
       (decide (gsAddr w.order w.cfg w.got 0 + gsSize w.order ≤ 0x2000000) = false))
    ∧ (let w := window 0xB1 1
       let s := inWin none w
       (eng s 2 4).win = some w ∧ winFault s 2 3 w = none ∧ gsSpace w.order w.cfg = 1 ∧ vN w.order = 1
        ∧ decide (gsAddr w.order w.cfg w.got 0 + gsSize w.order ≤ 0x2000000) = true
        ∧ (upTo (gsSize w.order)).all (fun b => inWindow s 2 3 (gsAddr w.order w.cfg w.got 0 + b)) = true)
    ∧ (let s := inWin (some .overrun) (window 0xB0 1)
       (eng s 2 4).win = some (window 0xB0 1) ∧ winFault s 2 3 (window 0xB0 1) = none ∧ (eng s 2 4).hold = some .overrun
        ∧ (window 0xB0 1).wait = none)
    ∧ (wanting.scPre.contains (clIx 2 3, (0x3044 : W64).toNat / 32 * 32) = true
      ∧ translate wanting 2 4 (BitVec.ofNat 64 ((0x3044 : W64).toNat / 32 * 32)) false = .ok 0x403040
      ∧ scFind wanting (clIx 2 3) ((0x3044 : W64).toNat / 4096) = none ∧ 0 < scSize wanting (clIx 2 3) ∧ wanting.scEntries = [])
    ∧ (let s := { State.reset with calls := [{ call with figDone := 2 }] }
       openCall s 2 3 = some { call with figDone := 2 })
    ∧ (let s := { State.reset with calls := [{ call with ready := false }] }
       openCall s 2 3 = some { call with ready := false })
    ∧ (State.reset.job.state = .idle ∧ (∀ x < 8, (dieTT State.reset x).stations = []) ∧ fld (5 : W64) 0 3 ≤ 5 ∧ 5 < fld (6 : W64) 0 3)
    ∧ ((inJob State.reset .departed).job.state ≠ .idle ∧ (inJob State.reset .departed).job.state ≠ .arming)
    ∧ (rdB State.reset (vc 2 3 0x38) 0 = false ∧ fld (3 : W64) 0 2 ≠ 0 ∧ fld (4 : W64) 0 2 = 0
      ∧ rdB (setRegs State.reset [(vc 2 3 0x38, 1)]) (vc 2 3 0x38) 0 = true)
    ∧ (∃ x < 8, (dieTT (withOrder State.reset 7 0 0) x).stations ≠ [])
    ∧ (∀ q ∈ [true, false], ∀ r ∈ [{ range1 with order := q }],
       let s := { State.reset with scRange := [r] }
       s.scRange.find? (fun r => decide (r.cl = clIx 2 3)) = some r ∧ r.order = q) := by
  refine ⟨⟨by decide +kernel, quiet_of_none _ _ _ _ (by decide +kernel)⟩, ?_⟩; and_intros <;> decide +kernel
theorem witness_PlatformWindowAccesses :
    (¬ ((3 : BitVec 13).toNat = 1 ∨ (3 : BitVec 13).toNat = 2 ∨ (3 : BitVec 13).toNat = 4 ∨ (3 : BitVec 13).toNat = 8)
      ∧ (0x17FFFF8 : W32).toNat % (8 : BitVec 13).toNat = 0)
    ∧ (0x10000000 ≤ (0x100FFFFF : W32).toNat ∧ (0x100FFFFF : W32).toNat < 0x10100000)
    ∧ (let l : List Byte := [1, 2]
       (0x0F7FFFFE : W32).toNat + l.length ≤ 0x10000000 ∧ (0x0F7FFFFE : W32).toNat % 0x2000000 + l.length ≤ 0x1800000)
    ∧ (0x17FFFFF % 0x2000000 < 0x1800000) := by decide +kernel

/-- The call as its window asks: closed. -/
def waiting : Call := { call with opened := false, ready := false, issue := 10, seats := [] }

/-- The call descriptor with this entry at its place. -/
def withDesc (s : State) (e : Nat) : State :=
  wrBytes s (winBase 2 3 + 32) (leBytes 8 e ++ leBytes 4 2 ++ [1, 0, 4, 0] ++ leBytes 8 5 ++ leBytes 8 6 ++ leBytes 8 0x1000
    ++ leBytes 4 16)

theorem witness_SetModeCalls :
    (may 14 0xEF 3 = true ∧ Quiet (atOrder 14 0xEF 3) 2 14 6)
    ∧ (let s := { withDesc (setRegs State.reset [(tt 2 0, 4)]) 0xFFFFFFFFFE000000 with calls := [waiting] }
       s.calls.find? (fun k => decide (k.die = (2 : ADie).val) && decide (k.cluster = (3 : Cluster).val) && !k.opened) = some waiting
        ∧ ttState s 2 = 4 ∧ openCall s 2 3 = none ∧ mayReach s 2 4 waiting.issue = true
        ∧ waiting.issue ≤ (eng (withEng s 2 4 { Engine.idle 0 with cycle := 10 }) 2 4).cycle
        ∧ (eng s 2 4).reads = [] ∧ (eng s 2 4).writes = [] ∧ (eng s 2 14).reads = [] ∧ (eng s 2 14).writes = []
        ∧ s.calls.Nodup ∧ waiting.ended = false
        ∧ descOk (rdBytes s (winBase 2 3 + waiting.desc * 32) 64) = true
        ∧ descOk (rdBytes (withDesc s 5) (winBase 2 3 + waiting.desc * 32) 64) = false)
    ∧ (let s := { State.reset with calls := [call] }
       openCall s 2 3 = some call ∧ call.ready = true ∧ call.killed = false ∧ (1 : BitVec 6).toNat < call.seatCount
        ∧ call.seats.find? (fun x => decide (x.seat = (1 : BitVec 6).toNat)) = none ∧ (1 : BitVec 6).toNat < call.grid
        ∧ s.calls = [call] ∧ mayReach s 2 4 (call.issue + call.win) = true)
    ∧ (∀ e ∈ [true, false],
       let k := { call with figDone := 2, flushed := true, expired := e }
       let s := { State.reset with calls := [k] }
       openCall s 2 3 = some k ∧ s.calls = [k] ∧ k.workDone = true ∧ k.flushed = true ∧ k.fflags = 0 ∧ k.expired = e)
    ∧ (call.grace ≠ 0 ∧ { call with expired := true }.expired = true ∧ { call with expired := true }.killed = false) := by
  refine ⟨⟨by decide +kernel, quiet_of_none _ _ _ _ (by decide +kernel)⟩, ?_⟩; and_intros <;> decide +kernel

/-- ADDI, RDTIME, 0x7F, LB, SD, SM.PREFETCH. -/
theorem witness_SetModeInstructions :
    (∀ w ∈ [word 0x13 0 3, 0xC01 * 2 ^ 20 + 0x73 + 2 * 4096 + 7 * 128, 0x7F],
      let s := inSet w 2 local0
      (setIssue s 2 3 5).isSome = true ∧ (issued s).instr = some (BitVec.ofNat 32 w))
    ∧ (let w : W32 := BitVec.ofNat 32 (word 0x13 0 3)
       setRow w = .plain ∧ rvOp w = 0x13 ∧ rvF3 w = 0 ∧ (issued (inSet w.toNat 1 local0)).keys = [thKey 19 5 0])
    ∧ (∃ h, ∀ env, rvExec env (BitVec.ofNat 32 (word 0x13 0 3)) (thr local0 .none) = .ok h)
    ∧ (let w : W32 := BitVec.ofNat 32 (0xC01 * 2 ^ 20 + 0x73 + 2 * 4096 + 7 * 128)
       rvOp w = 0x73 ∧ rvF3 w = 2 ∧ rvRs1 w = 0 ∧ fld w 20 12 = 0xC01)
    ∧ rvOp (0x7F : W32) = 0x7F
    ∧ (let w : W32 := BitVec.ofNat 32 (0x03 + 7 * 128 + 5 * 32768)
       let s := inSet w.toNat 2 local0
       (setIssue s 2 3 5).isSome = true ∧ (issued s).instr = some w ∧ setRow w = .memory ∧ memIsStore w = false
        ∧ ∀ k ∈ (issued s).keys, (localOff s 2 3 (memAddr w (thread s k)) (memSize w)).isSome = true)
    ∧ (let w : W32 := BitVec.ofNat 32 (0x23 + 3 * 4096 + 5 * 32768 + 6 * 2 ^ 20)
       let s := inSet w.toNat 1 local0
       (setIssue s 2 3 5).isSome = true ∧ (issued s).instr = some w ∧ setRow w = .memory ∧ memIsStore w = true
        ∧ (issued s).keys = [thKey 19 5 0] ∧ localOff s 2 3 (memAddr w (thread s (thKey 19 5 0))) (memSize w) = some 0x40)
    ∧ (let w : W32 := BitVec.ofNat 32 (0x0B + 3 * 4096 + 5 * 32768)
       let s := inSet w.toNat 2 local0
       (setIssue s 2 3 5).isSome = true ∧ (issued s).instr = some w ∧ setRow w = .prefetch
        ∧ ∀ k ∈ (issued s).keys, localBase ≤ memAddr w (thread s k)) := by
  refine ⟨?_, ?_, ⟨(thr local0 .none).put 7 ((thr local0 .none).rx 5 + 102), fun env => ?_⟩, ?_⟩
  · decide +kernel
  · decide +kernel
  · rfl
  · decide +kernel

/-- A later thread of the figure, at pc + 4. -/
def laterThread (s : State) : State :=
  { s with threads := s.threads ++ [(thKey 19 5 9, { thr local0 .none with pc := 0xFFFFFFFFFE000004 })] }

/-- The issuing set, its instruction, and the row of it. -/
def Issues (s : State) (w : W32) : Prop := (setIssue s 2 3 5).isSome = true ∧ (issued s).instr = some w

/-- SM.BARRIER with one thread behind, SM.EXIT of the whole figure, SM.ACCRD of a plane in mode 3 and of one in mode 0, and a
figure whose threads all wait. -/
theorem witness_SetModeFigures :
    (let w : W32 := BitVec.ofNat 32 (0x0B + 2 * 2 ^ 20)
     let s := laterThread (inSet w.toNat 2 local0)
     Issues s w ∧ setRow w = .barrier
      ∧ ∃ x ∈ figureLive s 2 3 5 (issued s).call, x ∉ (issued s).keys ∧ (thread s x).block = .none)
    ∧ (let w : W32 := 0x100B
       let s := inSet w.toNat 2 local0
       Issues s w ∧ setRow w = .exit ∧ (∀ x ∈ figureLive s 2 3 5 (issued s).call, x ∈ (issued s).keys)
        ∧ ((issued s).call.seatOf 5).isSome = true)
    ∧ (∀ f ∈ [0, 1, 2, 3], let w : W32 := BitVec.ofNat 32 (0x0B + 2 * 4096 + 7 * 128 + 7 * 32768 + f * 2 ^ 20)
       let s := setRegs (inSet w.toNat 2 local0) [(planeInfo 2 0, 3)]
       Issues s w ∧ setRow w = .accrd ∧ (∀ k ∈ (issued s).keys, ((thread s k).rx (rvRs1 w)).toNat < 65536)
        ∧ (∀ k ∈ (issued s).keys, ((thread s k).rx (rvRs1 w)).toNat = 16384 * 0 + 3)
        ∧ fld w 20 2 = f ∧ planeMode s 2 0 = 3 ∧ rvRd w ≠ 0)
    ∧ (let s := { State.reset with calls := [call], threads := (upTo 2).map (fun t => (thKey 19 5 t, thr 0 (.barrier 2))) }
       openCall s 2 3 = some call ∧ figureLive s 2 3 5 call ≠ [] ∧ ∀ x ∈ figureLive s 2 3 5 call, (thread s x).block = .barrier 2) := by
  unfold Issues; decide +kernel

/-- An ordered operation of the local window: funct7 `f7`, width `f3`, rs2 x6, rd x7. -/
def amo (f5 f3 : Nat) : W32 := BitVec.ofNat 32 (word 0x2F f3 (4 * f5))

/-- One thread issues the operation `w`, of this row, on the 8-byte place at local0. -/
def Orders (w : W32) (row : SetRow) : Prop :=
  let s := inSet w.toNat 1 local0
  let h := thread s (thKey 19 5 0)
  Issues s w ∧ amoAddr w h % amoSize w = 0 ∧ localOff s 2 3 (amoAddr w h) (amoSize w) = some 0x40 ∧ setRow w = row
    ∧ (issued s).keys = [thKey 19 5 0]

/-- LR.D has no rs2. -/
def lrWord : W32 := BitVec.ofNat 32 (word 0x2F 3 8 - 6 * 2 ^ 20)

theorem witness_SetModeOrderedOperations :
    (let s := inSet (amo 0 2).toNat 2 local0
     Issues s (amo 0 2) ∧ amoAddr (amo 0 2) (thread s (thKey 19 5 0)) % amoSize (amo 0 2) = 0
      ∧ localOff s 2 3 (amoAddr (amo 0 2) (thread s (thKey 19 5 0))) (amoSize (amo 0 2)) = some 0x40
      ∧ setRow (amo 0 2) = .combine ∧ (issued s).keys = [thKey 19 5 0, thKey 19 5 1] ∧ thKey 19 5 0 ≠ thKey 19 5 1
      ∧ amoAddr (amo 0 2) (thread s (thKey 19 5 1)) = amoAddr (amo 0 2) (thread s (thKey 19 5 0)))
    ∧ (Orders (amo 1 3) .serial ∧ fld (amo 1 3) 27 5 = 1) ∧ (Orders lrWord .serial ∧ fld lrWord 27 5 = 2)
    ∧ (Orders (amo 3 3) .serial ∧ fld (amo 3 3) 27 5 = 3)
    ∧ (thKey 19 5 0, (winBase 2 3 + 0x40) / 8) ∉ (inSet (amo 3 3).toNat 1 local0).resv
    ∧ (let s := { inSet (amo 3 3).toNat 1 local0 with resv := [(thKey 19 5 0, (winBase 2 3 + 0x40) / 8)] }
       (thKey 19 5 0, (winBase 2 3 + 0x40) / 8) ∈ s.resv ∧ Issues s (amo 3 3) ∧ (issued s).keys = [thKey 19 5 0])
    ∧ Orders (BitVec.ofNat 32 (word 0x2B 3 1)) .cas ∧ Orders (BitVec.ofNat 32 (word 0x2B 2 0)) .fadd := by
  unfold Orders Issues
  refine ⟨?_, ⟨?_, ?_⟩, ⟨?_, ?_⟩, ⟨?_, ?_⟩, ?_, ?_, ?_, ?_⟩ <;> decide +kernel

/-- A signal operation: funct7 `f`, rd `rd`, number in x5, operand in x6. -/
def sigWord (f rd : Nat) : W32 := BitVec.ofNat 32 (0x0B + rd * 128 + 4 * 4096 + 5 * 32768 + 6 * 2 ^ 20 + f * 2 ^ 25)

/-- The operand of these is 0x3F800000: signal 4099 holds it, signal 4105 does not. -/
theorem witness_SetModeSignals :
    (∀ f ∈ [0, 1], ∀ n ∈ [16383, 16384], let s := inSet (sigWord f 7).toNat 1 n
       Issues s (sigWord f 7) ∧ (issued s).keys = [thKey 19 5 0] ∧ setRow (sigWord f 7) = .sig f
        ∧ ((thread s (thKey 19 5 0)).rx (rvRs1 (sigWord f 7))).toNat = n)
    ∧ (∀ f ∈ [0, 1, 2], ∀ x ∈ [(4099, true), (4105, false)],
       let s := { inSet (sigWord (f + 2) 7).toNat 1 x.1 with signals := [(4099, 0x3F800000)] }
       Issues s (sigWord (f + 2) 7) ∧ (issued s).keys = [thKey 19 5 0] ∧ setRow (sigWord (f + 2) 7) = .sig (f + 2)
        ∧ x.1 < 16384 ∧ x.1 / 2048 = (2 : ADie).val ∧ decide (sigVal s x.1 = 0x3F800000) = x.2) := by
  unfold Issues; decide +kernel

/-! ### Premises: mismatches, updates -/

/-- The state that an outcome goes on in. -/
def nextOf (o : Host.Outcome State Fault Refusal) : State := match o with
  | .next u => u
  | _ => State.reset

theorem witness_ResidueMismatchFailsTheJob :
    (let s := inJob (atOrder 0 0x40 0) .departed
     jobLive s = true ∧ canIssue s 2 0 (mkOrder 0x40 6 0) = true ∧ ∃ v, exec (.maMma 2 6 0 []) s = .next v ∧ jobLive v = true
      ∧ ((0 : Fin 33).val ≠ rdF v (ma 2 0x10) 0 6 ∧ (31 : Fin 33).val ≠ rdF v (ma 2 0x10) 8 6) ∧ (eng v 2 0).mismatched = false)
    ∧ (let s := inJob (atOrder 8 0x83 0) .departed
       jobLive s = true ∧ canIssue s 2 8 (mkOrder 0x83 6 0) = true ∧ ∃ v, exec (.vadd 2 7 6 0 []) s = .next v ∧ jobLive v = true
        ∧ laneOut v 2 7 1023 = false ∧ (eng v 2 8).mismatched = false)
    ∧ (let s := inJob (atOrder 8 0xB0 0) .departed
       jobLive s = true ∧ canIssue s 2 8 (mkOrder 0xB0 6 0) = true ∧ ∃ v, exec (.vgather 2 7 6 0 []) s = .next v ∧ jobLive v = true
        ∧ laneOut v 2 7 0 = false ∧ (eng v 2 8).mismatched = false)
    ∧ (let s := inJob (inSet (word 0x13 0 3) 2 local0) .departed
       jobLive s = true ∧ (setIssue s 2 3 5).isSome = true ∧ ∃ v, exec (.setInstruction 2 3 5 0 []) s = .next v ∧ jobLive v = true
        ∧ laneOut v 2 3 1023 = false ∧ (eng v 2 4).mismatched = false) := by
  refine ⟨⟨by decide +kernel, by decide +kernel, _, rfl, ?_⟩, ⟨by decide +kernel, by decide +kernel, _, rfl, ?_⟩,
    ⟨by decide +kernel, by decide +kernel, _, rfl, ?_⟩, ⟨by decide +kernel, by decide +kernel, _, rfl, ?_⟩⟩ <;> decide +kernel

/-- An update of die 2, issued at cycle 7. -/
def upd (opened ended : Bool) : Upd :=
  { die := 2, issue := 7, order := BitVec.ofNat 128 (5 * 2 ^ 38 + 2 ^ 84 + 9 * 2 ^ 70), rule := [], cfg := [], opened := opened
    openedAt := 0, marks := [], expired := false, ended := ended, bad := false }

theorem witness_UpdateOrdersAndWindow :
    ((∀ op ∈ [0xE0, 0xE1, 0xE2, 0xE3], may 14 op 0 = true) ∧ Quiet (atOrder 14 0xE0 0) 2 14 6)
    ∧ (let row (s : State) : List Byte := (upTo 16).flatMap (fun i => leBytes 8 (rd s (up 2 (0x1000 + 8 * i))).toNat)
       let q (s : State) : Upd := { die := 2, issue := 6, order := mkOrder 0xE3 6 0, rule := row s, cfg := usCfg s 2, opened := false
                                    openedAt := 0, marks := [], expired := false, ended := false, bad := false }
       let s := inJob (atCycle 14) .departed
       ruleOk (q s) = true ∧ jobLive s = true ∧ ruleOk (q (setRegs s [(up 2 0x1020, 9)])) = false)
    ∧ (let q := upd false false
       let s := { setRegs State.reset [(tt 2 0, 4)] with upds := [q] }
       s.upds = [q] ∧ q.die = (2 : ADie).val ∧ q.opened = false ∧ q.bad = false ∧ ttState s 2 = 4 ∧ s.calls = []
        ∧ ∀ e ∈ upEngines q, mayReach s 2 e q.issue = true ∧ (eng s 2 e).reads = [] ∧ (eng s 2 e).writes = [])
    ∧ (upEngines (upd false false) ≠ [] ∧ 0 < (upMarks State.reset (upd false false)).getD 0 0)
    ∧ ((upd true true).opened = true ∧ (upd true true).ended = true ∧ (upd true false).ended = false
      ∧ (upd true true).issue = (7 : BitVec 24).toNat)
    ∧ ((inJob State.reset .arming).job.state = .arming ∧ State.reset.job.state ≠ .arming ∧ State.reset.job.state ≠ .armed) := by
  refine ⟨⟨by decide +kernel, quiet_of_none _ _ _ _ (by decide +kernel)⟩, ?_⟩; and_intros <;> decide +kernel
theorem witness_UpdateRecurrence :
    let q : Upd := { upd true false with order := 0, rule := leBytes 4 0x3F666666 ++ leBytes 124 0
                                         cfg := [0x1000, 0x1004, 0x3000, 0, 0, 0, 0, 0, 0, 0, 0] }
    let s := { State.reset with upds := [q] }
    s.upds = [q] ∧ q.die = (2 : ADie).val ∧ q.issue = (7 : BitVec 24).toNat ∧ q.opened = true ∧ q.ended = false ∧ q.expired = false
    ∧ q.cfg = [0x1000, 0x1004, 0x3000, 0, 0, 0, 0, 0, 0, 0, 0] ∧ leAt q.rule 32 1 = 0 ∧ leAt q.rule 33 1 = 0 ∧ fld q.order 38 8 = 0
    ∧ 0x1000 + 4 ≤ 0x1004 := by decide +kernel

/-! ### Premises: storage, translation, coherence, links between dies -/

/-- An operation on row 5 of track 3 of stack 6. -/
def bkOp (k : BkKind) : BkOp :=
  { kind := k, pa := BitVec.ofNat 41 (blockAt State.reset 6 3 5 * 256 + 40), len := 5, owner := none, ce := 5, ue := 0 }

/-- The state with this much in track 3 of stack 6: what is in progress, delayed operations, waiting operations. -/
def track (busy : BkBusy) (late queue : List BkOp) : State :=
  { setRegs State.reset [(pw 1 0, 64 * 128)] with
    bkBusy := [(trackKey 6 3, busy)], bkLate := [(trackKey 6 3, late)], bkQueue := [(trackKey 6 3, queue)] }

/-- The same with every slot of the track bookedTrack, in RUNNING. -/
def bookedTrack : State :=
  setDie (setRegs (track (BkBusy.none 0) [] []) [(tt 1 0, 4)]) 1
    (fun x => { x with books := [BitVec.ofNat 128 (1 + 2 ^ 16 + 2 ^ 32 + 2 ^ 96)] })

/-- Spare 2 of stack 6 rebuilds slot 4 of track 3, `rows` done and `due` slots elapsed. -/
def rebuilding (rows due : Nat) : State :=
  { setRegs State.reset [(bkSpare 6 2, 1 + 4 * 3 + 128 * 4 + rows * 2048), (bkSlot 6 3 4, 31 + 2 * 512)] with
    rebuildSlots := [(trackKey 6 3, due)] }

theorem slot_at_reset : ∀ t < 32, ∀ j < 9, rdF (inDev State.reset .maintenance) (bkSlot 6 t j) 0 9 = 9 * t + j := by decide +kernel

theorem witness_BamkanTracks_slots :
    (∃ ix, memSlot bookedTrack 1 = some ix ∧ onTrack bookedTrack 6 3 (bkOp .blockRead) = true
      ∧ (useGrant bookedTrack 6 3 (some (bkOp .blockRead))).1 = some (bkOp .blockRead) ∧ slotWithheld bookedTrack 1 = false
      ∧ stepDue bookedTrack 6 3 = false ∧ (bkBusy bookedTrack 6 3).granted = 0)
    ∧ slotWithheld (setRegs State.reset [(pw 1 0, 0)]) 1 = true ∧ (useGrant State.reset 6 3 none).1 = none
    ∧ (let s := setRegs (rebuilding 4 95) [(pw 1 0, 64 * 128)]
       slotWithheld s 1 = false ∧ stepDue s 6 3 = true)
    ∧ (∀ k ∈ [BkKind.blockRead, .blockWrite, .sectorRead], bkRecon bookedTrack 6 3 (bkOp k) = false ∧ bkUe bookedTrack 6 3 (bkOp k) = 0
      ∧ (bkOp k).kind ≠ .partialWrite)
    ∧ (∀ x ∈ [(⟨2, true, 0, 0⟩, []), (⟨0, false, 1, 0⟩, []), (⟨0, false, 0, 0⟩, [bkOp .blockRead]), (⟨0, false, 0, 3⟩, []),
        ((⟨0, false, 0, 0⟩ : BkBusy), ([] : List BkOp))],
       let s := track x.1 x.2 []
       slotWithheld s 1 = false ∧ stepDue s 6 3 = false ∧ (useGrant s 6 3 none).1 = none ∧ bkBusy s 6 3 = x.1
        ∧ Store.get (fun _ => []) s.bkLate (trackKey 6 3) = x.2 ∧ unbooked s 6 3 = [])
    ∧ (∀ x ∈ [(BkKind.blockWrite, false), (.sectorRead, true)],
       let s := track (BkBusy.none 0) [] [bkOp x.1]
       (unbooked s 6 3).take 64 = [bkOp x.1] ∧ shareable s 6 3 (bkOp x.1) = x.2
        ∧ (∀ y ∈ (share s 6 3 (bkData (bkOp x.1)) []).1, bkUe s 6 3 y = 0)) := by
  refine ⟨⟨_, rfl, ?_⟩, ?_⟩
  · decide +kernel
  · and_intros <;> decide +kernel

theorem witness_BamkanTracks_channels :
    (liveChannels State.reset 6).Nodup
    ∧ (fills State.reset 6 27 = some (3, 0) ∧ trackState State.reset 6 3 = .isProtected ∧ (freeSpare State.reset 6).isSome = true)
    ∧ ((0 : Nat) < 8 ∧ bitOf (bkData (bkOp .blockRead)) 0 = true ∧ (bkOp .blockRead).kind ≠ .blockWrite
      ∧ sweptChannel State.reset 6 = none ∧ onTrack State.reset 6 3 (bkOp .blockRead) = true)
    ∧ (let s := setRegs State.reset [(bkSlot 6 3 2, 29 + 512)]
       fills s 6 27 = some (3, 0) ∧ trackState s 6 3 ≠ .isProtected ∧ s.dev.state ≠ .failed)
    ∧ (∀ r ∈ [4, 8388607],
       let s := { rebuilding r 0 with rebuildWon := [(trackKey 6 3, 1)] }
       rebuildSpare s 6 3 = some 2 ∧ 0 < Store.get (fun _ => 0) s.rebuildWon (trackKey 6 3) ∧ s.dev.state ≠ .failed
        ∧ rowsDone s 6 3 = r)
    ∧ State.reset.dev.state ≠ .maintenance
    ∧ (let s := inDev State.reset .maintenance
       let v : W64 := BitVec.ofNat 64 (2 ^ 11 + 2 ^ 12 * 9 + 27)
       s.dev.state = .maintenance ∧ bitOf v 11 = true ∧ rdB s (bkS 6 0x48) 11 = false ∧ fld v 12 8 ≠ 0 ∧ fld v 0 9 = (27 : Fin 296).val
        ∧ fills s 6 27 = some (3, 0) ∧ (∀ t' < 32, trackState s 6 t' = .isProtected))
    ∧ (∀ t' < 32, ∀ j' < 9, ∀ t'' < 32, ∀ j'' < 9, rdF (inDev State.reset .maintenance) (bkSlot 6 t' j') 0 9
        = rdF (inDev State.reset .maintenance) (bkSlot 6 t'' j'') 0 9 → t' = t'' ∧ j' = j'')
    ∧ rdB (setRegs State.reset [(bkS 6 0x48, 2 ^ 11)]) (bkS 6 0x48) 11 = true := by
  refine ⟨?_, ?_, ?_, ?_, ?_, ?_, ?_, ?_, ?_⟩
  case refine_8 =>
    intro t ht j hj t' ht' j' hj' h
    rw [slot_at_reset t ht j hj, slot_at_reset t' ht' j' hj'] at h
    omega
  all_goals decide +kernel

/-- A page table of die 2 at 0x100000 whose second level holds `leaf` for address 0, and a walk of engine 3 in progress. -/
def walking (leaf : Nat) : State :=
  let s := setRegs (inJob State.reset .departed) [(tu 2 0, 9 * 2 ^ 60 + 0x100 + 7 * 2 ^ 44)]
  let s := wrBytes (wrBytes s 0x100000 (leBytes 8 (0x101 * 1024 + 1))) 0x101000 (leBytes 8 leaf)
  { s with trans := { s.trans with walks := [⟨2, 3, 0x12345678, false⟩] } }

/-- Fault record `i` of die `d` holds key `k`. -/
def record (d i k : Nat) : List (Nat × Nat) := [(recKey d i 0, k), (recKey d i 1, 2 ^ 63 + 2 + 2 ^ 9)]

/-- A walk's fault, if it ends in one. -/
def walkFault (o : Except Nat Leaf) : Option Nat := match o with
  | .ok _ => none
  | .error n => some n

/-- A gather that waits for the record of key `k`. -/
def held (k : W64) : GatherWin := { issue := 3, stop := 20, order := mkOrder 0xB0 3 0, cfg := [0, 0, 0, 0, 1, 0x20, 0, 0], got := [1], wait := some k }

theorem witness_TranslationWalksAndFaults :
    ((inJob State.reset .arming).job.state = .arming ∧ State.reset.job.state ≠ .arming)
    ∧ (jobLive (inJob State.reset .departed) = true ∧ tlbHit (inJob State.reset .departed) 2 14 0 false = none)
    ∧ (let s := walking 0xDF
       let w : Walk := ⟨2, 3, 0x12345678, false⟩
       s.trans.walks.find? (fun w => decide (w.die = (2 : ADie).val) && decide (w.engine = (3 : EngineIx).val)) = some w
        ∧ walkFault (walk s 2 w.va w.write) = none ∧ tlbHit s 2 3 w.va w.write = none)
    ∧ (let s := walking 0
       let w : Walk := ⟨2, 3, 0x12345678, false⟩
       s.trans.walks.find? (fun w => decide (w.die = (2 : ADie).val) && decide (w.engine = (3 : EngineIx).val)) = some w
        ∧ walkFault (walk s 2 w.va w.write) = some 1 ∧ tlbHit s 2 3 w.va w.write = none
        ∧ findRec s 2 (faultKey s 2 w.va) false = none ∧ ((upTo 1024).find? (fun n => !recValid s 2 n)).isSome = true)
    ∧ (let s := { setRegs State.reset (record 2 1023 77 ++ record 5 0 77) with
         trans := { State.reset.trans with keysSent := [(2, 5, 77, false)] } }
       (2, 5, 77, false) ∈ s.trans.keysSent ∧ findRec s 2 77 false = some 1023 ∧ findRec s 5 77 false = some 0)
    ∧ (let s := setRegs (inJob State.reset .departed) (record 2 1023 77)
       recValid s 2 1023 = true ∧ s.trans.fullHolds = [] ∧ s.trains = [] ∧ s.calls = [] ∧ ∀ c < 8, (eng s 2 (1 + c)).win = none)
    ∧ (let s := setRegs (withEng (inJob State.reset .departed) 2 1 { Engine.idle 0 with win := some (held 77) }) (record 2 1023 77)
       recValid s 2 1023 = true ∧ s.trans.fullHolds = [] ∧ s.trains = [] ∧ s.calls = [] ∧ (eng s 2 1).win = some (held 77)
        ∧ (held 77).wait = some (rd s (recKey 2 1023 0)) ∧ rdB s (recKey 2 1023 1) 7 = false ∧ jobLive s = true
        ∧ winFault s 2 0 (held 77) = none)
    ∧ (let g : GatherWin := { held 77 with cfg := [0, 0, 0, 0, 0, 0x20, 0, 0], got := [0x7000] }
       let s := setRegs (withEng (inJob State.reset .departed) 2 1 { Engine.idle 0 with win := some g }) (record 2 1023 77)
       recValid s 2 1023 = true ∧ (eng s 2 1).win = some g ∧ g.wait = some (rd s (recKey 2 1023 0)) ∧ rdB s (recKey 2 1023 1) 7 = false
        ∧ (winFault s 2 0 g).isSome = true)
    ∧ (fld (BitVec.ofNat 64 (1023 + 2 ^ 10) : W64) 0 10 = (1023 : BitVec 10).toNat ∧ fld (BitVec.ofNat 64 (1023 + 2 ^ 10) : W64) 10 2 = 1
      ∧ fld (BitVec.ofNat 64 (1023 + 2 ^ 11) : W64) 0 10 = (1023 : BitVec 10).toNat ∧ fld (BitVec.ofNat 64 (1023 + 2 ^ 11) : W64) 10 2 = 2
      ∧ fld (1023 : W64) 10 2 = 0 ∧ fld (0xFFF : W64) 10 2 = 3)
    ∧ recValid State.reset 2 1023 = false := by
  and_intros <;> decide +kernel

/-- A fence of hart 9 that the dies of `p` have not acknowledged. -/
def fence (p : Byte) : Fence := { id := 4, hart := 9, va := none, asid := none, pendingDies := p, removed := [] }

theorem witness_FencesAndWindowRegisters :
    (State.reset.trans.waiting.any (fun w => decide (w.1 = (143 : Fin 144).val)) = false)
    ∧ (∀ p ∈ [(4 : Byte), 5], let s := { State.reset with trans := { State.reset.trans with fences := [fence p], waiting := [(9, [4])] } }
       s.trans.fences = [fence p] ∧ (fence p).id = 4 ∧ (fence p).pendingDies.getLsbD 2 = true ∧ s.scEntries = []
        ∧ s.trans.waiting = [((9 : Fin 144).val, [4])])
    ∧ ((fence 4).pendingDies = BitVec.ofNat 8 (2 ^ 2) ∧ (fence 5).pendingDies ≠ BitVec.ofNat 8 (2 ^ 2))
    ∧ ((0 : ADie).val = 0 ∧ State.reset.job.state = .idle ∧ (7 : ADie).val ≠ 0)
    ∧ ((inJob State.reset .departed).job.state ≠ .idle ∧ (inJob State.reset .departed).job.state ≠ .arming)
    ∧ bitOf (1 : W64) 0 = true := by decide +kernel

/-- The state with line `l` in the cache of die `d` and in the directory, its data in since beat 100. -/
def cached (l d m nowAt : Nat) : State :=
  { setRegs State.reset [(mtc 0, nowAt)] with
    jlines := if m = 0 then [] else [(jKey d l, { moesi := m, data := 77, arrived := 100 })]
    dir := [(l, { state := m, owner := if m = 0 then none else some d, sharers := 0, age := 3 })] }

/-- The last line of unified memory. -/
def lastLine : Nat := unifiedEnd / 64 - 1

/-- A read or a write of the last line by die 2 meets what every request meets: memory, no possession, nothing deferred. -/
def Asks (s : State) (d : Nat) (write : Bool) : Prop :=
  64 * lastLine + 64 ≤ unifiedEnd ∧ possessed s (64 * lastLine) 64 = false ∧ blockers s d lastLine write = []
    ∧ poisonedRange s (64 * lastLine) 64 = false ∧ (dirGet s lastLine).isSome = true

/-- A request of die 5 for line 5 that waits for a snoop of die 2. -/
def waitsFor (m : Nat) : Deferred :=
  { die := 2, line := 5, invalidate := true, req := some { die := m, write := true, ordered := false, data := 1, mask := 255 } }

theorem witness_CoherentLines :
    (let s := cached lastLine 2 0 100
     Asks s 2 false ∧ s.jlines = [] ∧ (0 : Nat) < jCapacity 2 ∧ (jGet s 2 lastLine).moesi = 0)
    ∧ (let s := cached lastLine 2 4 100
       Asks s 2 true ∧ (jGet s 2 lastLine).moesi = 4 ∧ holders s lastLine = [(2 : Fin 12).val] ∧ s.jlines.length = 1)
    ∧ (let s := { cached lastLine 2 0 100 with poisoned := [(lastLine / 4, true)] }
       64 * lastLine + 64 ≤ unifiedEnd ∧ possessed s (64 * lastLine) 64 = false ∧ poisonedRange s (64 * lastLine) 64 = true
        ∧ holders s lastLine = [])
    ∧ (let s := cached 5 2 4 115
       64 * 5 + 64 ≤ unifiedEnd ∧ possessed s (64 * 5) 64 = false ∧ blockers s 3 5 true = 2 :: [] ∧ blockers s 3 5 false = 2 :: [])
    ∧ (let s := { State.reset with possMap := [(possKey 0 0, true)] }
       64 * 5 + 64 ≤ unifiedEnd ∧ possessed s (64 * 5) 64 = true)
    ∧ (let s := cached 5 2 1 115
       (jGet s 2 5).moesi ≠ 0 ∧ (now s).toNat < (jGet s 2 5).arrived.toNat + 16 ∧ inHold s 2 5 = true)
    ∧ (let s := { cached 5 2 1 116 with deferred := [waitsFor 5] }
       inHold s 2 5 = false ∧ s.deferred = [waitsFor 5] ∧ (∃ q ∈ s.deferred, q.die = (2 : Fin 12).val ∧ q.line = 5))
    ∧ (let s := cached 5 2 3 116
       3 ≤ (jGet s 2 5).moesi ∧ inHold s 2 5 = false ∧ (∀ q ∈ s.deferred, ¬ (q.die = (2 : Fin 12).val ∧ q.line = 5)))
    ∧ (let s := { cached 5 2 3 116 with deferred := [{ die := 2, line := 5, invalidate := true, req := none }] }
       3 ≤ (jGet s 2 5).moesi ∧ inHold s 2 5 = false
        ∧ s.deferred = [{ die := 2, line := 5, invalidate := true, req := none }]) := by
  unfold Asks; and_intros <;> decide +kernel

/-- The cache of die 2 holds lines 0 to n - 1. -/
def fullCache (n : Nat) : State :=
  { cached lastLine 2 0 100 with jlines := (List.range n).map (fun i => (jKey 2 i, { moesi := 1, data := 0, arrived := 0 })) }

theorem get_map_ne {α : Type} (d : Nat → α) (f : Nat → Nat) (v : α) (k : Nat) (l : List Nat) (h : ∀ i ∈ l, k ≠ f i) :
    Store.get d (l.map (fun i => (f i, v))) k = d k := by
  induction l with
  | nil => rfl
  | cons a r ih => simp only [List.map_cons, Store.get, if_neg (h a (by simp))]; exact ih (fun i hi => h i (by simp [hi]))

/-- Of the lines of a full cache, the last of memory is none. -/
theorem fullCache_held (n : Nat) (h : n ≤ 2 ^ 20) :
    (Store.keysIn (fullCache n).jlines (jKey 2 0) (jKey (2 + 1) 0)).map (fun k => k % 2 ^ 35) = List.range n := by
  unfold Store.keysIn fullCache
  rw [List.filter_eq_self.2]
  · rw [List.map_map, List.map_map]
    conv => rhs; rw [← List.map_id (List.range n)]
    refine List.map_congr_left fun i hi => ?_
    have := List.mem_range.1 hi
    simp only [Function.comp, jKey, id]; omega
  · intro p hp
    obtain ⟨i, hi, rfl⟩ := List.mem_map.1 hp
    have := List.mem_range.1 hi
    simp [jKey]; omega

theorem fullCache_line (n x : Nat) (h : n ≤ 2 ^ 20) (_ : x < 12) : (jGet (fullCache n) x lastLine).moesi = 0 := by
  unfold jGet fullCache
  rw [get_map_ne]
  · rfl
  · intro i hi
    have := List.mem_range.1 hi
    simp only [jKey, lastLine, unifiedEnd]; omega

theorem witness_CoherentLines_full :
    let s := fullCache (2 ^ 20)
    let held := (Store.keysIn s.jlines (jKey 2 0) (jKey (2 + 1) 0)).map (fun k => k % 2 ^ 35)
    Asks s 2 false ∧ jCapacity 2 ≤ held.length ∧ lastLine ∉ held := by
  intro s held
  have hh : held = List.range (2 ^ 20) := fullCache_held _ (le_refl _)
  refine ⟨⟨by decide, rfl, ?_, rfl, by decide +kernel⟩, ?_, ?_⟩
  · have e : holders s lastLine = [] := by
      unfold holders
      refine List.filter_eq_nil_iff.2 fun x hx => ?_
      have hx : x < 12 := by simpa [upTo] using hx
      rw [fullCache_line _ _ (le_refl _) hx]; simp
    simp [blockers, e]
  · rw [hh, List.length_range]; decide
  · rw [hh, List.mem_range]; decide

theorem witness_HostLinesAndMessageInterrupts :
    (let h : HostLine := { dirty := true, shared := false, data := 12345 }
     { State.reset with hostLines := [(5, h)] }.hostLines = [((5 : BitVec 58).toNat, h)] ∧ h.dirty = true)
    ∧ ({ dirty := false, shared := false, data := 12345 } : HostLine).dirty = false
    ∧ (let a : W64 := BitVec.ofNat 64 (0x8000000000000 + 9 * 2 ^ 30 + 0xD001000)
       { State.reset with msis := [(3, a, 255)] }.msis.find? (fun m => decide (m.1 = (3 : Fin 9).val)) = some (3, a, 255)
        ∧ (imsicFile a.toNat).isSome = true ∧ 0 < (255 : W32).toNat ∧ (255 : W32).toNat < 256)
    ∧ imsicFile (0x8000000000000 + 9 * 2 ^ 30 + 0xD001004) = none := by decide +kernel

/-- A booking of the wires from die 0 to die 1, one slot in ten from slot 3. -/
def wireBook : BitVec 128 := BitVec.ofNat 128 (2 + 1 * 2 ^ 19 + 10 * 2 ^ 32 + 3 * 2 ^ 64 + 2 * 2 ^ 96)

/-- The same, on die 0 in RUNNING in the beat of its departure. -/
def wired : State :=
  setDie (setRegs State.reset [(tt 0 0, 4)]) 0 (fun x => { x with books := [wireBook] })

/-- And a replay of the first bundle. -/
def repairing : State := { wired with cw := { wired.cw with replays := [rxKey 0 1 0] } }

theorem witness_ChawenSlotsAndWires :
    (tParent 8 = some 12 ∧ (12, 8) ∉ State.reset.cw.due)
    ∧ (linkWidth 0 1 ≤ (8 : Nat) ∧ linkWidth 12 8 ≤ (7 : Fin 8).val)
    ∧ ((0 : Fin 8).val < linkWidth 0 1 ∧ cwRepairing repairing 0 1 0 = true ∧ cwGranted State.reset 0 1 0 3 = false
      ∧ cwGranted repairing 0 1 0 3 = true ∧ (1 : Die).val < 8)
    ∧ (cwRepairing wired 0 1 0 = false ∧ cwGranted wired 0 1 0 3 = true ∧ cwGranted wired 0 1 0 2 = false ∧ cwDelayed wired 0 1 = [])
    ∧ (let s := { wired with cw := { wired.cw with delayed := [(1, [7, 8])] } }
       cwRepairing s 0 1 0 = false ∧ cwGranted s 0 1 0 2 = false ∧ cwDelayed s 0 1 = 7 :: [8])
    ∧ ((7 : Fin 8).val + 1 = linkWidth 0 1 ∧ (0, 1) ∉ wired.cw.due ∧ bitOf (4 : BitVec 9) 2 = true ∧ bitOf (0x1E0 : BitVec 9) 2 = false
      ∧ ¬ ((0 : Fin 8).val + 1 = linkWidth 0 1))
    ∧ (let s := { State.reset with cw := { State.reset.cw with due := [(12, 8)] } }
       (linkWidth 12 8 - 1) + 1 = linkWidth 12 8 ∧ (12, 8) ∈ s.cw.due ∧ cwRepairing s 12 8 (linkWidth 12 8 - 1) = false
        ∧ cwGranted s 12 8 (linkWidth 12 8 - 1) 0 = false ∧ cwDelayed s 12 8 = [])
    ∧ (let s := { State.reset with cw := { State.reset.cw with fly := [(12, 8, 777, 256000)] } }
       s.cw.fly.find? (fun m => decide (m.2.1 = (8 : Die).val)) = some (12, 8, 777, 256000) ∧ (8 : Die).val ≠ 12)
    ∧ (fld (0x010B : BitVec 256) 0 8 < 12 ∧ fld (0x010B : BitVec 256) 8 8 = 1 ∧ (12 : Die).val = 12)
    ∧ (fld (0x020B : BitVec 256) 0 8 = (11 : Die).val ∧ fld (0x020B : BitVec 256) 8 8 = 2 ∧ (11 : Die).val < 12)
    ∧ (bundleExists 2 3 1 = true ∧ (7 : Fin 32).val < (freeSpares State.reset 2 3 1).length
      ∧ cwErased State.reset (cwKey 2 3 1) = [] ∧ cwKey 2 3 1 ∉ State.reset.cw.replays ∧ cwKey 2 3 1 ∉ State.reset.cw.probes)
    ∧ (let s := { inJob State.reset .held with
         cw := { State.reset.cw with replays := [cwKey 2 3 1], probes := [cwKey 2 3 1] } }
       cwKey 2 3 1 ∈ s.cw.replays ∧ cwKey 2 3 1 ∈ s.cw.probes ∧ cwErased s (cwKey 2 3 1) = [] ∧ s.job.state = .held
        ∧ bitOf s.cw.transient 2 = false)
    ∧ (State.reset.job.state ≠ .departed ∧ State.reset.job.state ≠ .held ∧ 2 ≤ (freeSpares State.reset 2 3 1).length) := by
  and_intros <;> decide +kernel
theorem witness_TestPortInstructions :
    (let s := { inDev State.reset .maintenance with dev := { (inDev State.reset .maintenance).dev with testOpen := true } }
     s.dev.state = .maintenance ∧ s.dev.testOpen = true)
    ∧ State.reset.dev.testOpen = false
    ∧ ((0xFF : Byte) ≠ 1 ∧ (0xFF : Byte) ≠ 2 ∧ (0xFF : Byte) ≠ 3 ∧ (0xFF : Byte) ≠ 4 ∧ (0xFF : Byte) ≠ 5 ∧ (0xFF : Byte) ≠ 0x20) := by
  decide +kernel

/-! ### Premises: the ports to the partners -/

/-- Port 5 in link state `st` with these lanes in service and this lane map. -/
def portAt (st lanes map : Nat) : State :=
  { setRegs State.reset [(omP 5 0, st + 16 * lanes), (omP 5 0x18, map)] with
    om := { State.reset.om with ports := [(5, { OmPort.idle 0 with nextRx := 4095 })] } }

/-- The state with port 5's own record changed. -/
def withPort (s : State) (x : OmPort) : State := { s with om := { s.om with ports := [(5, x)] } }

/-- A flit of position 3 that is the next on port 5. -/
def flitOf (kind : Nat) (pl : BitVec 1792) : Flit :=
  { flit0 with lseq := 4095, kind := BitVec.ofNat 8 kind, src := 3, payload := pl, ts := 5 }

/-- Port 5 with a lane change on its way. -/
def changing (k : Nat) (mine : Bool) : OmPort :=
  { OmPort.idle 0 with nextRx := 4095, change := some (2, k, mine), agreed := true }

theorem witness_OmmetLanes :
    rdB State.reset (hp 0x100) 5 = false
    ∧ (linkState State.reset 5 = 0 ∧ portFunc State.reset 5 = 0)
    ∧ (linkState (portAt 1 0 0) 5 = 1 ∧ 7 ≤ ((upTo 9).filter (fun l => (0x0FE : BitVec 9).getLsbD l)).length
      ∧ 7 ≤ ((upTo 9).filter (fun l => (0x1FF : BitVec 9).getLsbD l)).length)
    ∧ (let s := portAt 2 0x1FF 0x876543210
       rdB s (hp 0x100) 5 = false ∧ linkUp s 5 = true ∧ laneOk s 5 8 = true ∧ (∀ i < 8, laneOf s 5 i ≠ 8)
        ∧ laneOk s 5 7 = true ∧ laneOf s 5 7 = 7 ∧ (∀ j < 7, laneOf s 5 j ≠ 7) ∧ linkState s 5 = 2 ∧ (omPort s 5).change = none)
    ∧ (let s := portAt 3 0x1FF 0x876543210
       linkUp s 5 = true ∧ laneOk s 5 7 = true ∧ laneOf s 5 7 = 7 ∧ linkState s 5 = 3 ∧ portBooked s 5 = false ∧ portFunc s 5 ≠ 1
        ∧ rdB s (omP 5 0) 13 = false)
    ∧ (let s := portAt 2 0x1FF 0x876543210
       FlitPasses s 5 (flitOf 8 (linkPayload 1 7 0xF 4)) ∧ payNat (linkPayload 1 7 0xF 4) 0 1 = 1 ∧ payNat (linkPayload 1 7 0xF 4) 1 1 < 8
        ∧ payNat (linkPayload 1 7 0xF 4) 2 1 = 0xF ∧ 4 ≤ payNat (linkPayload 1 7 0xF 4) 3 1 ∧ payNat (linkPayload 1 7 8 4) 2 1 < 9)
    ∧ (let s := withPort (portAt 2 0x1FF 0x876543210) (changing 8 true)
       FlitPasses s 5 (flitOf 8 (linkPayload 2 2 8 4)) ∧ payNat (linkPayload 2 2 8 4) 0 1 = 2
        ∧ (omPort s 5).change = some (payNat (linkPayload 2 2 8 4) 1 1, payNat (linkPayload 2 2 8 4) 2 1, true))
    ∧ (let s := portAt 3 0x1FF 0x876543210
       FlitPasses s 5 (flitOf 8 (linkPayload 3 0 0 0)) ∧ payNat (linkPayload 3 0 0 0) 0 1 = 3 ∧ portBooked s 5 = false
        ∧ portFunc s 5 ≠ 1 ∧ rdB s (omP 5 0) 13 = false)
    ∧ (∀ k ∈ [8, 0xF],
       let s := withPort (portAt 2 0x1FF 0x876543210) (changing k false)
       (omPort s 5).change = some (2, k, false) ∧ (omPort s 5).agreed = true ∧ linkUp s 5 = true ∧ laneOf s 5 2 < 9
        ∧ (∀ i < 8, i ≠ 2 → laneOf s 5 i ≠ 0xF → laneOk s 5 (laneOf s 5 i) = true ∧ laneOf s 5 i < 9 ∧ laneOf s 5 i ≠ laneOf s 5 2)
        ∧ laneOk s 5 8 = true ∧ 8 ≠ laneOf s 5 2 ∧ linkState s 5 = 2) := by
  unfold FlitPasses
  and_intros <;> decide +kernel

/-- A flit that waits: of this kind, on this path. -/
def txOf (kind path lseq : Nat) : TxFlit :=
  { kind := kind, path := path, tag := 7, dst := 3, src := 0, pseq := 0, payload := 99, lseq := lseq, delayed := false
    resend := false, naks := 0, owner := 0 }

/-- Port 5 up in a live job of tag 7, die 2 with one slot in ten of path 64 toward position 3. -/
def linked (q : List TxFlit) (un : List TxFlit) : State :=
  let b : BitVec 128 := BitVec.ofNat 128 (3 + 64 * 2 ^ 16 + 3 * 2 ^ 24 + 10 * 2 ^ 32 + 1 * 2 ^ 96)
  let s := setRegs (inJob State.reset .departed)
    [(omP 5 0, 2 + 16 * 0x1FF), (omP 5 0x18, 0x876543210), (key 0 (0x7200000 + 24), 2 ^ 19 + 32), (tt 2 0, 4)]
  { s with
    job := { s.job with tag := 7 }
    dies := [(2, { DieTT.none 0 with books := [b] })]
    om := { s.om with ports := [(5, { OmPort.idle 0 with nextRx := 4095, queue := q, unacked := un, nakDue := [9], ackDue := true })] } }

/-- The same in the port's slot `n`, with a link duty of `g` of 64. -/
def inSlot (s : State) (n g : Nat) : State :=
  let s := setPort s 5 (fun x => { x with slot := n })
  { s with power := { s.power with dies := Store.set powerNone s.power.dies 2 { pwGet s 2 with grantL := g } } }

theorem witness_OmmetLinkLayer :
    (∀ n ∈ [10, 3], let s := inSlot (linked [txOf 4 0 0, txOf 1 64 0] []) n 64
     linkUp s 5 = true ∧ (∀ x ∈ (omPort s 5).unacked, x.lseq < 4096) ∧ (omPort s 5).fec = []
      ∧ decide ((omPort s 5).slot % 64 < (pwGet s 2).grantL) = true
      ∧ slotPath s 5 (omPort s 5).slot = (if n = 10 then some 64 else none)
      ∧ (omPort s 5).queue.find? (fun y => y.booked && decide (y.path = 64)) = some (txOf 1 64 0) ∧ (omPort s 5).unacked.length < 1024
      ∧ slotPick (omPort s 5) (slotPath s 5 (omPort s 5).slot) = .new (if n = 10 then txOf 1 64 0 else txOf 4 0 0)
      ∧ (txOf 1 64 0).kind < 6 ∧ (omPort s 5).nakDue.head? = some 9)
    ∧ (let s := inSlot (linked [txOf 4 0 0, txOf 1 64 0] []) 10 10
       decide ((omPort s 5).slot % 64 < (pwGet s 2).grantL) = false
        ∧ (omPort s 5).queue.find? (fun y => y.booked && decide (slotPath s 5 (omPort s 5).slot = some y.path) && !y.delayed)
          = some (txOf 1 64 0) ∧ (txOf 1 64 0).owner = 0)
    ∧ (let s := inSlot (linked [txOf 4 0 0, txOf 1 64 0] []) 3 3
       decide ((omPort s 5).slot % 64 < (pwGet s 2).grantL) = false
        ∧ (omPort s 5).queue.find? (fun y => y.booked && decide (slotPath s 5 (omPort s 5).slot = some y.path) && !y.delayed) = none)
    ∧ (let s := inSlot (linked [txOf 4 0 0] []) 3 64
       (omPort s 5).fec = [] ∧ (∀ x ∈ (omPort s 5).queue, x.booked = false) ∧ (4096 : BitVec 16) ≠ 0 ∧ (4096 : BitVec 16).toNat ≤ 4096
        ∧ 4096 < (4097 : BitVec 16).toNat ∧ laneOk s 5 8 = true ∧ ∀ i < 8, laneOf s 5 i ≠ 8)
    ∧ (let s := linked [] [txOf 4 0 4095]
       linkUp s 5 = true ∧ (∀ x ∈ (omPort s 5).unacked, x.lseq < 4096)
        ∧ ∀ x ∈ (omPort s 5).unacked, x.lseq = (4095 : BitVec 12).toNat → x.naks ≠ 7)
    ∧ (let s := setPort (linked [] [{ txOf 4 0 4095 with naks := 7 }]) 5 (fun x => { x with fec := [(0, 8, 100)] })
       linkUp s 5 = true ∧ (∃ x ∈ (omPort s 5).unacked, x.lseq = (4095 : BitVec 12).toNat ∧ x.naks = 7) ∧ worstLane s 5 = 8
        ∧ laneOk s 5 8 = true ∧ ∀ i < 8, laneOf s 5 i ≠ 8)
    ∧ (let s := linked [] []
       (flitOf 9 0).fecOk = true ∧ (flitOf 9 0).ackKind = 0 ∧ (flitOf 9 0).lseq.toNat = (omPort s 5).nextRx ∧ (omPort s 5).held = []
        ∧ 8 < (flitOf 9 0).kind.toNat)
    ∧ (let s := linked [] []
       let f := { flitOf 4 (linkPayload 5 0 0 0) with tag := 8 }
       f.kind = 4 ∧ payNat f.payload 0 1 = 5 ∧ f.tag ≠ s.job.tag ∧ (omPort s 5).tagSeen = false)
    ∧ (let s := linked [] []
       let f := { flitOf 4 (linkPayload 5 0 0 0) with tag := 7, macOk := false }
       tagOk s f = true ∧ f.dst.toNat = ownPos s ∧ f.macOk = false ∧ jobLive s = true) := by
  and_intros <;> decide +kernel

/-- The payload of a booked flit of operation `op`. -/
def booked (op flags a n m : Nat) : BitVec 1792 := bookedPayload op flags 0 n 777 a 0 m (List.replicate 160 5)

/-- A flit of tag 7 on path 65. -/
def bookedFlit (kind : Nat) (pl : BitVec 1792) : Flit := { flitOf kind pl with tag := 7, path := 65 }

/-- The state `linked`, with granule 0 in a possession. -/
def possessing : State := { linked [] [] with possMap := [(possKey 0 0, true)] }

/-- A train of die 2 that has asked position 3 for its bytes. -/
def asking : Train :=
  { train (BitVec.ofNat 512 (3 * 2 ^ 41 + 0x1000 + 0x2000 * 2 ^ 64 + 1 * 2 ^ 128 + 400 * 2 ^ 160 + 7 * 2 ^ 320)) true with asked := true }

theorem witness_BookedFlitsHaveTheirEffect :
    (let f := bookedFlit 1 (booked 1 7 (256 + 64) 192 0)
     FlitPasses possessing 5 f ∧ f.kind = 1 ∧ payNat f.payload 0 1 = 1 ∧ Nat.testBit (payNat f.payload 1 1) 2 = true
      ∧ 0 < payNat f.payload 4 2 ∧ payNat f.payload 4 2 ≤ 192 ∧ payNat f.payload 8 8 % 256 + payNat f.payload 4 2 ≤ 256
      ∧ payNat f.payload 8 8 + payNat f.payload 4 2 ≤ unifiedEnd ∧ possessed possessing (256 + 64) 192 = true)
    ∧ (FlitPasses (linked [] []) 5 (bookedFlit 1 (booked 1 7 (256 + 64) 192 0)) ∧ possessed (linked [] []) (256 + 64) 192 = false)
    ∧ (let f := bookedFlit 1 (booked 2 4 (256 + 96) 0 160)
       FlitPasses possessing 5 f ∧ f.kind = 1 ∧ payNat f.payload 0 1 = 2 ∧ Nat.testBit (payNat f.payload 1 1) 2 = true
        ∧ 0 < payNat f.payload 24 8 ∧ payNat f.payload 24 8 ≤ 160 ∧ payNat f.payload 8 8 % 256 + payNat f.payload 24 8 ≤ 256
        ∧ possessed possessing (256 + 96) 160 = true ∧ poisonedRange possessing (256 + 96) 160 = false ∧ payNat f.payload 16 1 = 0)
    ∧ (let s := { linked [] [] with trains := [asking] }
       let f := bookedFlit 1 (booked 3 0 0 192 0)
       FlitPasses s 5 f ∧ f.kind = 1 ∧ payNat f.payload 0 1 = 3 ∧ payNat f.payload 4 2 = 192 ∧ s.trains = [asking] ∧ asking.asked = true
        ∧ asking.data.length + 192 < tdBytes asking.desc ∧ srcPlace s asking 0 = .ok (.away f.src.toNat 1 0 0x1000))
    ∧ (∀ c ∈ [4, 5], let f := bookedFlit 1 (booked c 0 0 0 3)
       FlitPasses (linked [] []) 5 f ∧ f.kind = 1 ∧ payNat f.payload 0 1 = c)
    ∧ (FlitPasses (linked [] []) 5 (bookedFlit 2 0) ∧ ∀ q ∈ (linked [] []).colls, q.die ≠ (65 : Byte).toNat / 32)
    ∧ FlitPasses (linked [] []) 5 (bookedFlit 3 (booked 9 0 0 0 0)) := by
  unfold FlitPasses
  and_intros <;> decide +kernel

/-- A replica of position 3 with two bytes, written. -/
def replica : DepotObj :=
  { name := leBytes 32 0x1234567, rank := 5, replica := true, state := 1, flags := 1, gpid := 7, groupPos := 3, buddy := 0, tag := 7
    created := 3, committed := 0, length := 2, digest := [], measure := [], ckKey := 0, buddied := none, data := [(0, 5)] }

/-- A request of operation `op` at `a` of `n` bytes, with field `m`. -/
def req (op flags n a agent m : Nat) (data : List Byte) : Flit :=
  bookedFlit 4 (reqPayload op flags 0 n a 8 agent m (leBytes 32 0x1234567) data)

/-- The partner's port with the depot ready and these objects. -/
def depotUp (l : List DepotObj) : State :=
  let s := setRegs (linked [] []) [(dp 0, 1), (dp 0x30, 5000), (hp 0x118, 55), (key 0 (0x7200000 + 24), 2 ^ 19 + 32 + 7 * 2 ^ 32)]
  { s with depot := { s.depot with objects := l } }

/-- A control flit of position 3. -/
def ctrl (op flags tag gpid : Nat) : Flit := { flitOf 7 (ctrlPayload op flags tag gpid 5 55) with dst := 0 }

theorem witness_RequestsAndControlFlits :
    (let f := req 1 1 0 (256 + 96) 0 160 []
     FlitPasses (linked [] []) 5 f ∧ f.kind = 4 ∧ payNat f.payload 0 1 = 1 ∧ payNat f.payload 20 1 ≠ 2 ∧ payNat f.payload 1 1 % 2 = 1
      ∧ 0 < payNat f.payload 24 8 ∧ payNat f.payload 24 8 ≤ 160 ∧ payNat f.payload 8 8 % 256 + payNat f.payload 24 8 ≤ 256
      ∧ payNat f.payload 8 8 + payNat f.payload 24 8 ≤ unifiedEnd ∧ possessed (linked [] []) (256 + 96) 160 = false
      ∧ poisonedRange (linked [] []) (256 + 96) 160 = false ∧ FlitPasses possessing 5 f ∧ possessed possessing (256 + 96) 160 = true)
    ∧ (let f := req 2 3 160 (256 + 96) 0 0 (List.replicate 160 5)
       let s := linked [] []
       FlitPasses s 5 f ∧ f.kind = 4 ∧ payNat f.payload 0 1 = 2 ∧ payNat f.payload 1 1 % 4 = 3 ∧ 0 < payNat f.payload 4 4
        ∧ payNat f.payload 4 4 ≤ 160 ∧ payNat f.payload 8 8 % 256 + payNat f.payload 4 4 ≤ 256 ∧ possessed s (256 + 96) 160 = false
        ∧ Store.get (fun _ => false) s.om.refused (reqKey f.src.toNat (payNat f.payload 16 4)) = false)
    ∧ (FlitPasses (linked [] []) 5 (req 3 0 0 9 0 3 []) ∧ payNat (req 3 0 0 9 0 3 []).payload 0 1 = 3
      ∧ FlitPasses (linked [] []) 5 (req 4 0 0 9 0 3 []) ∧ payNat (req 4 0 0 9 0 3 []).payload 0 1 = 4)
    ∧ (FlitPasses (linked [] []) 5 (req 5 0 160 0 0 3 []) ∧ payNat (req 5 0 160 0 0 3 []).payload 0 1 = 5
      ∧ payNat (req 5 0 160 0 0 3 []).payload 4 4 ≤ 160)
    ∧ (let f := req 6 2 2 0 0 5 [1, 2]
       let s := depotUp []
       FlitPasses s 5 f ∧ payNat f.payload 0 1 = 6 ∧ payNat f.payload 1 1 % 4 / 2 = 1 ∧ payNat f.payload 4 4 ≤ 160 ∧ dpState s = 1
        ∧ depotRoom s (payNat f.payload 4 4) = true ∧ s.depot.objects.length < 1048576
        ∧ findObj s (payBytes f.payload 32 32) (payNat f.payload 24 8 % 2 ^ 20) true = none)
    ∧ (let s := depotUp [replica]
       FlitPasses s 5 (req 7 0 0 0 0 5 []) ∧ payNat (req 7 0 0 0 0 5 []).payload 0 1 = 7
        ∧ findObj s (payBytes (req 7 0 0 0 0 5 []).payload 32 32) 5 true = some replica ∧ replica.ckKey = s.job.ckKey ∧ dpState s = 1
        ∧ replica.length = 2)
    ∧ (let s := { linked [] [] with om := { (linked [] []).om with reqs := [⟨8, 0, 2, 3, 9, 5⟩] } }
       let f := bookedFlit 5 (reqPayload 1 1 0 0 0 8 0 0 [] [])
       FlitPasses s 5 f ∧ f.kind = 5 ∧ ∃ r, s.om.reqs = [r] ∧ r.id = payNat f.payload 16 4 ∧ r.agent = payNat f.payload 20 1 ∧ r.agent ≠ 3
        ∧ r.agent ≠ 2 ∧ r.dst = f.src.toNat)
    ∧ (let s := depotUp []
       let f := ctrl 1 0 7 7
       FlitPasses s 5 f ∧ f.kind = 7 ∧ payNat f.payload 0 1 = 1 ∧ payNat f.payload 1 1 = 0 ∧ rdB s (hp 0x100) 5 = false ∧ s.job.tag ≠ 0
        ∧ payNat f.payload 2 2 = s.job.tag.toNat ∧ payNat f.payload 4 4 = fld (orEntry s f.src.toNat) 32 32
        ∧ bitOf (orEntry s f.src.toNat) 19 = true ∧ payNat f.payload 16 8 = (rd s (hp 0x118)).toNat)
    ∧ (let s := depotUp []
       s.job.quarantine.length < 256 ∧ FlitPasses s 5 (ctrl 2 1 9 7) ∧ payNat (ctrl 2 1 9 7).payload 0 1 = 2
        ∧ payNat (ctrl 2 1 9 7).payload 1 1 = 1 ∧ FlitPasses s 5 (ctrl 3 1 9 7) ∧ payNat (ctrl 3 1 9 7).payload 0 1 = 3) := by
  unfold FlitPasses
  refine ⟨?_, ?_, ?_, ?_, ?_, ?_, ⟨?_, ?_, ⟨8, 0, 2, 3, 9, 5⟩, ?_⟩, ?_, ?_⟩ <;> decide +kernel
/-- A committed replica whose bytes have this digest is read by the depot of its position, at the whole length. -/
theorem witness_replica_read :
    ∀ g ∈ [sha256 [5, 0], []],
    let o := { replica with state := 2, digest := g, ckKey := 0 }
    let s := depotUp [o]
    let f := req 1 1 0 0 2 2 []
    (FlitPasses s 5 f ∧ f.kind = 4 ∧ payNat f.payload 0 1 = 1 ∧ payNat f.payload 20 1 = 2 ∧ payNat f.payload 24 8 ≤ 160
      ∧ payNat f.payload 8 8 = 0 ∧ dpState s ≠ 0
      ∧ s.depot.objects.find? (fun x => x.replica && decide (x.name = payBytes f.payload 32 32) && decide (x.groupPos = f.src.toNat)) = some o
      ∧ o.state = 2 ∧ o.ckKey = s.job.ckKey ∧ o.length = payNat f.payload 24 8)
    ∧ decide (sha256 ((upTo 2).map (fun i => Store.get memDefault o.data i)) = o.digest) = !g.isEmpty := by
  unfold FlitPasses; decide +kernel
/-- Both commit clauses: the digest is the payload's bytes 64 to 95, or it is not. -/
theorem witness_replica_digest :
    sha256 ((upTo replica.length).map (fun i => Store.get memDefault replica.data i))
        = payBytes (req 7 0 0 0 0 5 (sha256 [5, 0])).payload 64 32
    ∧ sha256 ((upTo replica.length).map (fun i => Store.get memDefault replica.data i)) ≠ payBytes (req 7 0 0 0 0 5 []).payload 64 32 := by
  decide +kernel

/-- Port 5 up as the in-band source, the state of the MTC `st`. -/
def inBand (st : Nat) (t1 : Option Nat) (prev : Option (Nat × Nat × Nat)) : State :=
  let s := setRegs (portAt 2 0x1FF 0x876543210)
    [(mtc 8, st + 16 + 64), (mtc 0x10, 2 + 4 * 5 + 64), (gd 0, 8), (mtc 0, 1000), (key 0 (0x7200000 + 24), 2 ^ 19 + 32)]
  { s with mtcx := { s.mtcx with ibT1 := t1, ibPrev := prev } }

/-- A TIME flit of kind `k`, with the sender's state and depth. -/
def timeOf (k st depth : Nat) : Flit := flitOf 6 (timePayload k st depth 1000 (if k = 1 then 0 else 2000))

theorem witness_InBandTimeTransfer :
    (let s := inBand 1 none none
     mtcSource s = 2 ∧ linkUp s 5 = true ∧ rdB s (gd 0) 3 = true)
    ∧ (FlitPasses (inBand 1 none none) 5 (flitOf 6 0) ∧ (flitOf 6 0).kind = 6 ∧ timeFormed (flitOf 6 0).payload = false)
    ∧ (FlitPasses (inBand 1 none none) 5 (timeOf 1 2 1) ∧ timeFormed (timeOf 1 2 1).payload = true
      ∧ payNat (timeOf 1 2 1).payload 0 2 = 1)
    ∧ (let f := timeOf 2 2 3
       FlitPasses (inBand 1 (some 1000) none) 5 f ∧ timeFormed f.payload = true ∧ payNat f.payload 0 2 = 2
        ∧ mtcSource (inBand 1 (some 1000) none) = 2 ∧ ibPort (inBand 1 (some 1000) none) = 5
        ∧ (inBand 1 (some 1000) none).mtcx.ibT1 = some 1000 ∧ payNat f.payload 2 1 = 2 ∧ payNat f.payload 3 1 = 3
        ∧ (inBand 1 (some 1000) none).mtcx.ibPrev = none)
    ∧ (let s := inBand 2 (some 1000) (some (100, 200, 300))
       FlitPasses s 5 (timeOf 2 3 0) ∧ payNat (timeOf 2 3 0).payload 2 1 = 3 ∧ s.mtcx.ibPrev = some (100, 200, 300)
        ∧ FlitPasses s 5 (timeOf 2 1 0) ∧ timeFormed (timeOf 2 1 0).payload = true ∧ payNat (timeOf 2 1 0).payload 2 1 ≤ 1) := by
  unfold FlitPasses
  and_intros <;> decide +kernel

/-! ### Premises: collectives, registers of ports, sealed frames -/

/-- A collective descriptor: operation `op` over `pp` participants of one block of `n`, the partner's position and path 65. -/
def colDesc (op pp n : Nat) : List Byte :=
  leBytes 1 op ++ leBytes 3 0 ++ leBytes 2 pp ++ leBytes 2 0 ++ leBytes 4 n ++ leBytes 4 0 ++ leBytes 4 (0x1000 / 64)
    ++ leBytes 4 (0x2000 / 64) ++ leBytes 4 (0x3000 / 64) ++ leBytes 36 0 ++ [0, 0, 3, 65]

/-- Die 2 in a segment with the descriptor at its place, and path 65 booked toward position 3. -/
def collecting (b : List Byte) : State :=
  let s := setRegs (inJob State.reset .departed) [(key 0 (0x7200000 + 24), 2 ^ 19 + 32 + 16), (tt 2 0, 4)]
  let s := wrBytes s (maAddr 2 16) b
  { s with dies := [(2, { DieTT.none 0 with stations := twoStations, orders := [(13, [mkOrder 0xC0 0 16])], next := 1, books := [BitVec.ofNat 128 (3 + 65 * 2 ^ 16 + 3 * 2 ^ 24 + 10 * 2 ^ 32 + 100 * 2 ^ 96)] })] }

/-- What CE_COLL reads of the descriptor. -/
def collOf (s : State) : Coll :=
  let o := mkOrder 0xC0 0 16
  let at_ := maAddr 2 (fld o 32 22)
  { die := 2, issue := 0, order := o, desc := rdBytes s at_ (64 + 2 * min 256 (rdNat s (at_ + 4) 2)), own := [], bad := true
    shared := false, expired := false, ended := false }

/-- A collective of die 2 by itself, in progress. -/
def collRun (bad ended expired : Bool) : Coll :=
  { die := 2, issue := 0, order := mkOrder 0xC0 0 (BitVec.ofNat 96 (2 ^ 60)), desc := colDesc 0 1 4, own := List.replicate 16 0
    bad := bad, shared := false, expired := expired, ended := ended }

theorem witness_CollectivesBeginAndEnd :
    (let s := collecting (colDesc 0 2 4)
     let q := { collOf s with bad := false, own := List.replicate 64 0 }
     canIssue s 2 13 (mkOrder 0xC0 0 16) = true ∧ (eng s 2 13).reads = [] ∧ (eng s 2 13).writes = [] ∧ s.colls = [] ∧ colOk s (collOf s) = true
      ∧ colScatter (collOf s) = false ∧ colOthers s q = [1] ∧ colLead q = 0 ∧ 0 < partBytes q 1 ∧ (colPart q q.own 1).length ≤ 224
      ∧ pathPort s (colPath q 1) (colGpos q 1) = some 4)
    ∧ (let s := collecting (colDesc 0 1 4)
       colOk s (collOf s) = true ∧ colOthers s { collOf s with bad := false } = [])
    ∧ (let s := collecting (colDesc 9 2 4)
       canIssue s 2 13 (mkOrder 0xC0 0 16) = true ∧ colOk s (collOf s) = false ∧ jobLive s = true)
    ∧ (∀ ended ∈ [true, false], ∀ bad ∈ [true, false], let x := collRun bad ended false
       { State.reset with colls := [x] }.colls = [x] ∧ x.die = 2 ∧ x.issue = (0 : BitVec 24).toNat ∧ x.bad = bad ∧ x.ended = ended
        ∧ x.expired = false ∧ bitOf x.order 92 = true)
    ∧ (let x := collRun false false true
       let s := { collecting (colDesc 0 1 4) with colls := [x] }
       x.bad = false ∧ x.ended = false ∧ (colMe s x).getD 0 = 0 ∧ colResultBytes s x 0 = some (List.replicate 16 0, 0)
        ∧ (upTo (colP x)).any (anchorOff s x 0) = false) := by
  and_intros <;> decide +kernel

theorem witness_PortAndSealRegisters :
    (portFunc State.reset 5 = 0 ∧ portBooked State.reset 5 = false)
    ∧ (portFunc (collecting []) 4 = 0 ∧ portBooked (collecting []) 4 = true)
    ∧ 2 ≤ portFunc (setRegs State.reset [(omP 5 0, 8)]) 5
    ∧ (portFunc (setRegs State.reset [(omP 5 0, 4)]) 5 = 1 ∧ funcWork (setRegs State.reset [(omP 5 0, 4)]) 1 5 = 0)
    ∧ ((0 : ADie).val = 0 ∧ setupOpen State.reset = true ∧ setupOpen (inJob State.reset .departed) = false ∧ (7 : ADie).val ≠ 0)
    ∧ ((4096 : W64).toNat ≤ 4096
      ∧ (let p : Poss := { base := 0x400000, granules := 1, start := 0, stop := 9, begun := true, ended := false, left := 0, flushing := 0 }
         let s := { setRegs State.reset [(np 8, 0x600000)] with ttx := { State.reset.ttx with poss := [p] } }
         setupOpen s = true ∧ ∀ x ∈ possRanges s, rangesMeet (sealBase (wr s (np 0x10) 4096)) (sealBytes (wr s (np 0x10) 4096)) x.1 x.2 = false))
    ∧ (Store.get (fun _ => 0) State.reset.npFunc (0 : NPortIx).val ≠ 2 ∧ (inDev State.reset .ready).dev.rails = true)
    ∧ rdB (setRegs State.reset [(np 0, 1)]) (np 0) (4 * (0 : NPortIx).val) = true := by decide +kernel

/-- The one piece of a range that has one. -/
def okPiece (x : Except Nat (List (Nat × Nat))) : Option (Nat × Nat) := match x with
  | .ok [p] => some p
  | _ => none

/-- An entry of the seal ring. -/
def ringEntry (op rank fa k : Nat) : List Byte :=
  leBytes 2 op ++ leBytes 2 0 ++ leBytes 4 rank ++ leBytes 8 0x3000 ++ leBytes 8 fa ++ leBytes 4 k ++ leBytes 4 0

/-- A live job of tag 7, rank 3 whose ring holds this entry; a page of 1 GiB for the data, and a frame of rank 5 at 0x400100. -/
def sealing (op rank fa k : Nat) : State :=
  let s := setRegs (inJob State.reset .departed)
    [(tu 0 0, 9 * 2 ^ 60 + 0x100), (gd 0, 16), (np 8, 0x400000), (np 0x10, 1), (np 0x18, 0x800000 + 4), (np 0x20, 1), (npPeer 7 0, 2 ^ 63 + 5),
      (npPeer 7 1, 99), (np 0, 16)]
  let s := { s with job := { s.job with tag := 7, rank := 3, sealTx := 9 } }
  let s := wrBytes (wrBytes s 0x100000 (leBytes 8 (0x101 * 1024 + 1))) 0x101000 (leBytes 8 0xDF)
  let s := wrBytes s (npEntry s 0) (ringEntry op rank fa k)
  wrBytes s 0x400100 (frameHeader false 7 5 3 77 4 s.guard.gpid)

theorem witness_SealedFramesAndEndpoints :
    (let s := sealing 1 5 0x400100 4
     npNext s = some (ringEntry 1 5 0x400100 4) ∧ leAt (ringEntry 1 5 0x400100 4) 0 2 = 1 ∧ sealCheck s (ringEntry 1 5 0x400100 4) = 0
      ∧ peerOf s 5 = some (npPeer 7 0) ∧ okPiece (jobPieces s 0x3000 4 false) = some (0x3000, 4) ∧ poisonedRange s 0x3000 4 = false
      ∧ 0x400100 + 4 + 48 ≤ npEntry s 0)
    ∧ (npNext (sealing 3 5 0x400100 4) = some (ringEntry 3 5 0x400100 4) ∧ leAt (ringEntry 3 5 0x400100 4) 0 2 = 3)
    ∧ (let s := sealing 1 5 0x5FFFF0 4
       npNext s = some (ringEntry 1 5 0x5FFFF0 4) ∧ sealCheck s (ringEntry 1 5 0x5FFFF0 4) ≠ 0)
    ∧ (let s := sealing 2 5 0x400100 4
       let f := cohBytes s 0x400100 (4 + 48)
       npNext s = some (ringEntry 2 5 0x400100 4) ∧ sealCheck s (ringEntry 2 5 0x400100 4) = 0 ∧ frameOk s false f none = none
        ∧ frameOk s false f (some [1, 2, 3, 4]) = some [1, 2, 3, 4] ∧ okPiece (jobPieces s 0x3000 4 true) = some (0x3000, 4)
        ∧ 0x3000 + 4 ≤ npEntry s 0)
    ∧ (let s := sealing 1 5 0x400100 4
       rdB s (np 0) (4 * (1 : NPortIx).val) = true ∧ inSeal s 0x5FFFFE 2 = true ∧ inSeal s 0x5FFFFE 3 = false) := by
  and_intros <;> decide +kernel

/-! ### Premises: jobs, teardowns, functions -/

/-- A job manifest for position 0 of two with two ranges, its envelope for the arm key [1, 2, 3]. -/
def manifest : List Byte :=
  slice (leBytes 4 0x3947424A ++ leBytes 2 1 ++ leBytes 1 20 ++ leBytes 1 1 ++ leBytes 4 (192 + 32 + 1280 + 7856) ++ leBytes 2 5 ++ leBytes 2 0
    ++ leBytes 4 77 ++ leBytes 4 9 ++ leBytes 1 1 ++ leBytes 1 0 ++ leBytes 2 2 ++ leBytes 4 4 ++ leBytes 4 4 ++ leBytes 4 4 ++ leBytes 4 4
    ++ leBytes 4 4 ++ leBytes 8 2000000 ++ leBytes 4 60 ++ leBytes 4 2) 0 64
  ++ leBytes 64 0 ++ leBytes 4 192 ++ leBytes 4 224 ++ leBytes 56 0
  ++ leBytes 8 0x800000 ++ leBytes 8 1 ++ leBytes 8 0xC00000 ++ leBytes 8 2
  ++ leBytes 4 0x3947454B ++ leBytes 4 1 ++ leBytes 8 77 ++ sha256 [1, 2, 3]

/-- The slot of an ARM_JOB with the manifest at offset 0x100 of the landing region. -/
def armSlot : List Byte := slot7 0x20 (leBytes 4 0x100 ++ leBytes 4 20000)

/-- READY and IDLE with the manifest in the landing region and ARM_JOB waiting. -/
def armable : State :=
  let s := setRegs (hosted .ready .idle armSlot) [(hp 0, 0x1000000), (hp 8, 4), (hp 0x110, 0x2000000), (mtc 0, 1000)]
  { s with img := { s.img with tempos := 0x3F }, guard := { s.guard with gpid := 77, armEk := some [1, 2, 3] }, mem := memAt 0x1000100 manifest }

/-- The manifest in the landing region. -/
def landed : List Byte := rdBytes armable 0x1000100 9360

theorem landed_fields (k n : Nat) (h : k + n ≤ 9360) : leAt landed k n = rdNat armable (0x1000100 + k) n := leAt_rdBytes _ _ _ _ _ h

theorem landed_eq : cohBytes armable (landBase armable + leAt armSlot 32 4) 9360 = landed := by
  rw [show landBase armable + leAt armSlot 32 4 = 0x1000100 by decide +kernel]
  exact cohBytes_of_no_line _ rfl _ _

theorem landed_mfFields : mfFields landed = true := by
  unfold mfFields mfTag mfSection mfPos mfSize mfLen
  simp (disch := decide) only [landed_fields]
  decide +kernel

theorem landed_envelope : envelopeOk armable (mfEnvelope landed) = true := by
  have h : mfEnvelope landed = rdBytes armable (0x1000100 + 224) 1280 := by
    unfold mfEnvelope
    rw [landed_fields 132 4 (by decide), show rdNat armable (0x1000100 + 132) 4 = 224 by decide +kernel]
    exact slice_rdBytes _ _ _ _ _ (by decide)
  rw [h]
  unfold envelopeOk
  rw [slice_rdBytes _ _ 1280 16 32 (by decide)]
  simp (disch := decide) only [leAt_rdBytes]
  decide +kernel

theorem landed_ranges : rangesFail armable landed = 0 := by
  have h : mfRanges landed = [(0x800000, 1), (0xC00000, 2)] := by
    unfold mfRanges
    rw [landed_fields 60 4 (by decide), landed_fields 128 4 (by decide), show rdNat armable (0x1000100 + 60) 4 = 2 by decide +kernel,
      show rdNat armable (0x1000100 + 128) 4 = 192 by decide +kernel, show upTo 2 = [0, 1] from rfl]
    simp (disch := decide) only [List.map_cons, List.map_nil, landed_fields]
    decide +kernel
  unfold rangesFail
  rw [h]
  decide +kernel

theorem landed_manifest : manifestFail armable landed true = (0, 0) ∧ (manifestFail armable landed false).1 ≠ 0 := by
  refine ⟨?_, by unfold manifestFail; decide +kernel⟩
  have ht : mfTempo landed = 20 := by
    unfold mfTempo; rw [landed_fields 6 1 (by decide)]; decide +kernel
  have hf : mfTable armable landed = 0 := by
    unfold mfTable mfSize mfTag
    rw [landed_fields 32 4 (by decide), landed_fields 26 2 (by decide), landed_fields 36 4 (by decide), landed_fields 40 4 (by decide),
      landed_fields 44 4 (by decide), landed_fields 28 4 (by decide), landed_fields 12 2 (by decide)]
    decide +kernel
  unfold manifestFail
  rw [landed_mfFields, landed_fields 16 4 (by decide), ht, hf]
  decide +kernel

theorem witness_arm_job :
    startsNow armable 0x20 armSlot = true
    ∧ (leNat (cohBytes armable (landBase armable + leAt armSlot 32 4 + 8) 4) = 9360
      ∧ (rd armable (hp 0x110)).toNat ≠ 0 ∧ inUnified (rd armable (hp 0x110)).toNat 0x100000 = true ∧ 192 + sigBytes ≤ 9360
      ∧ 9360 ≤ leAt armSlot 36 4 ∧ leAt armSlot 32 4 + leAt armSlot 36 4 ≤ landBytes armable ∧ armable.mtcx.stepDue = none
      ∧ 9360 ≤ 2 ^ 20 ∧ possessed armable (landBase armable + leAt armSlot 32 4) 9360 = false
      ∧ poisonedRange armable (landBase armable + leAt armSlot 32 4) 9360 = false)
    ∧ cohBytes armable (landBase armable + leAt armSlot 32 4) 9360 = landed
    ∧ manifestFail armable landed true = (0, 0) ∧ envelopeOk armable (mfEnvelope landed) = true ∧ rangesFail armable landed = 0
    ∧ (manifestFail armable landed false).1 ≠ 0 :=
  ⟨by decide +kernel, by decide +kernel, landed_eq, landed_manifest.1, landed_envelope, landed_ranges, landed_manifest.2⟩

/-- A job of two positions in state `j`, die 0 at `t0` and the other A-dies at `t1`, every die loaded if `ld`. -/
def jobOf (j : JobState) (t0 t1 : Nat) (ld : Bool) : State :=
  let s := setRegs (inJob (inDev State.reset .ready) j) ((upTo 8).map (fun d => (tu d 0, 9 * 2 ^ 60))
    ++ (upTo 8).map (fun d => (tt d 0, if d = 0 then t0 else t1))
    ++ [(gd 0, 8 + 16), (mtc 0, 1000), (mtc 0x70, 20), (key 0 (0x7200000 + 8), 2 ^ 19 + 2 ^ 5), (omP 5 0, 2), (hp 0x118, 1000)])
  { s with
    job := { s.job with armSeq := some 7, tempo := 20, groupSize := 2, groupPos := 0, tag := 5, linkKey := 9, armedAt := 0, armLimit := 0 }
    dies := if ld then (upTo 8).map (fun d => (d, { DieTT.none 0 with
      stations := [{ depart := 1000, segLen := 50, dieMask := 0, pkgMask := 0 }] })) else [] }

/-- The slot of a RIGHT_AWAY at MTC time `r`. -/
def awaySlot (r : Nat) : List Byte := slot7 0x21 (leBytes 8 r)

theorem witness_JobsArmAndDepart :
    (State.reset.job.state = .idle ∧ (inJob State.reset .arming).job.state ≠ .idle)
    ∧ (let s := jobOf .arming 2 2 false
       s.job.state = .arming ∧ rdB s (hp 0x108) 0 = false ∧ armDoneOk s = true ∧ dieSetLoaded s = false)
    ∧ (let s := jobOf .arming 2 2 true
       s.job.state = .arming ∧ rdB s (hp 0x108) 0 = false ∧ armDoneOk s = true ∧ dieSetLoaded s = true
        ∧ rdF s (mtc 0x70) 0 8 = s.job.tempo ∧ asidsOk s = true ∧ s.job.armSeq = some 7)
    ∧ (let s := setRegs (jobOf .arming 2 2 true) [(key 0 (0x7200000 + 8), 0)]
       armDoneOk s = false ∧ s.job.armSeq = some 7 ∧ rdB s (gd 0) 4 = true)
    ∧ (State.reset.job.state ≠ .arming ∧ jobLive State.reset = false ∧ jobLive (jobOf .held 4 4 true) = true)
    ∧ (let s := jobOf .arming 2 2 true
       s.job.armedAt.toNat + s.job.armLimit * 1000000 ≤ (now (advance s 0)).toNat)
    ∧ (let s := jobOf .armed 2 2 true
       s.job.state = .armed ∧ groupKeyed s = true ∧ groupOthers s = [1] ∧ routePort s 12 1 = some 5
        ∧ s.job.announcedAt.toNat + 1000000 ≤ (now (advance s 1000000)).toNat
        ∧ (now (advance s 999999)).toNat < s.job.announcedAt.toNat + 1000000)
    ∧ (let s := hosted .ready .armed (awaySlot 5001000)
       startsNow (setRegs s [(mtc 0, 1000)]) 0x21 (awaySlot 5001000) = true ∧ leAt (awaySlot 5001000) 32 8 = 5001000
        ∧ (now (setRegs s [(mtc 0, 1000)])).toNat + 5000000 ≤ 5001000 ∧ 5001000 < (now (setRegs s [(mtc 0, 1001)])).toNat + 5000000)
    ∧ (let s := jobOf .armed 3 2 true
       rd s (hp 0x118) ≠ 0 ∧ (rd s (hp 0x118)).toNat ≤ (now (advance s 0)).toNat ∧ ttState s 0 = 3 ∧ mayDepart (advance s 0) 0 0 = true)
    ∧ (let s := jobOf .armed 3 3 true
       lineFailing s = none ∧ lineFailing { s with ttx := { s.ttx with lineMask := 2 } } = some (1, 3)) := by
  refine ⟨?_, ?_, ?_, ?_, ?_, ?_, ?_, ?_, ?_, ?_⟩ <;> decide +kernel

/-- The slot of a TEARDOWN. -/
def downSlot : List Byte := slot 7 0x22 0 0 64 64 [] []

theorem witness_TeardownsLeaveNothing :
    (startsNow (hosted .ready .departed downSlot) 0x22 downSlot = true ∧ startsNow (hosted .ready .failed downSlot) 0x22 downSlot = true)
    ∧ (let s := { inJob State.reset .tearingDown with sigOps := [⟨3, true, 4, none, 2, 9, false⟩] }
       s.job.state = .tearingDown ∧ npNext s = none ∧ jobWork s = true
        ∧ tdOver (advance s 100000000) = true ∧ tdOver (advance s 99999999) = false)
    ∧ (let s := setRegs { State.reset with job := { State.reset.job with state := .tearingDown, tdSeq := some 7, tag := 5, ranges := [(0x400000, 1)] } }
         [(gd 0, 24)]
       s.job.state = .tearingDown ∧ jobWork s = false ∧ s.job.tdSeq = some 7 ∧ rdB s (gd 0) 4 = true ∧ s.ttx.poss = [])
    ∧ ((inJob State.reset .clear).job.state = .clear ∧ tagCarried (inJob State.reset .clear) = false
      ∧ tdOver (advance (inJob State.reset .clear) 100000000) = true)
    ∧ (let s := setRegs { State.reset with job := { State.reset.job with quarantine := [(9, 3), (5, 4)] } } [(mtc 0, 4 + sec)]
       ((5 : BitVec 16), (4 : W64)) ∈ s.job.quarantine ∧ (4 : W64).toNat + sec ≤ (now (advance s 0)).toNat) := by
  and_intros <;> decide +kernel

/-- The slot of a SET_FUNCTION for function `i` of this kind: 0 to disable it, 1 to enable it. -/
def funcSlot (kind i want : Nat) : List Byte := slot7 0x30 (leBytes 1 kind ++ leBytes 1 i ++ leBytes 1 want)

/-- The function of a kind in state `f` (0 enabled, 1 draining, 2 disabled), with SET_FUNCTION waiting. -/
def withFunc (kind i want f : Nat) : State :=
  let s := setRegs (hosted .ready .idle (funcSlot kind i want)) [(omP 5 0, 2 + 4 * f), (dpCh 9, f)]
  { s with npFunc := [(1, f)] }

/-- Whether the premises that concern one function and its state hold. -/
def funcCase (kind i want f : Nat) : Bool :=
  let s := withFunc kind i want f
  startsNow s 0x30 (funcSlot kind i want) && decide (leAt (funcSlot kind i want) 32 1 = kind) && decide (1 ≤ kind) && decide (kind ≤ 3)
    && decide (leAt (funcSlot kind i want) 33 1 = i) && decide (i < kindUnits kind) && decide (leAt (funcSlot kind i want) 34 1 = want)
    && decide (funcState s kind i = funcOf f)

theorem witness_FunctionsDrainAndReturn :
    ([(1, 5), (2, 1), (3, 9)].all (fun u => [0, 1].all (fun want => [0, 1, 2].all (fun f => funcCase u.1 u.2 want f))) = true)
    ∧ (disableFail (withFunc 1 5 0 0) 1 5 = 0 ∧ disableFail (withFunc 2 1 0 0) 2 1 = 0 ∧ disableFail (withFunc 3 9 0 0) 3 9 = 0)
    ∧ (let s := { withFunc 1 5 0 0 with dies := [(2, { DieTT.none 0 with
         books := [BitVec.ofNat 128 (3 + 65 * 2 ^ 16 + 3 * 2 ^ 24 + 10 * 2 ^ 32 + 100 * 2 ^ 96)] })] }
       let s := setRegs s [(key 0 (0x7200000 + 24), 2 ^ 19 + 32)]
       funcState s 1 5 = .enabled ∧ disableFail s 1 5 ≠ 0)
    ∧ (State.reset.port.func = .enabled ∧ { State.reset.port with func := .disabled }.func ≠ .enabled)
    ∧ ((funcKind (.ommet 5)).1 ≠ 4 ∧ funcState (withFunc 1 5 0 1) 1 5 = .draining ∧ funcWork (withFunc 1 5 0 1) 1 5 = 0
      ∧ (funcKind (.depot 9)).1 = 3 ∧ funcState (withFunc 3 9 0 1) 3 9 = .draining ∧ funcWork (withFunc 3 9 0 1) 3 9 = 0
      ∧ (funcKind (.nport 1)).1 = 2 ∧ funcState (withFunc 2 1 0 1) 2 1 = .draining ∧ funcWork (withFunc 2 1 0 1) 2 1 = 0)
    ∧ (∀ x ∈ [(withFunc 1 5 0 1, 1, 5), (withFunc 2 1 0 1, 2, 1), (withFunc 3 9 0 1, 3, 9), (State.reset, 4, 0)],
        drainOver (advance x.1 100000000) x.2.1 x.2.2 = true ∧ drainOver (advance x.1 99999999) x.2.1 x.2.2 = false)
    ∧ (let s := { hosted .ready .idle [] with port := { (hosted .ready .idle []).port with func := .draining } }
       (funcKind .host).1 = 4 ∧ s.port.func = .draining ∧ s.port.cmds.all (fun c => decide (c.phase = .waiting)) = true) := by
  and_intros <;> decide +kernel

/-! ### Premises: the depot -/

/-- A descriptor of the depot's ring: OP, memory address, offset or key, length, name. -/
def depotDesc (op mem off len : Nat) (name : List Byte) : List Byte :=
  slice (leBytes 2 op ++ leBytes 6 0 ++ leBytes 8 mem ++ leBytes 8 off ++ leBytes 8 len ++ name) 0 64

/-- A name, and an object under it in state `st`. -/
def objName : List Byte := leBytes 32 0x1234567
def depotObj (st : Nat) : DepotObj :=
  { name := objName, rank := 5, replica := false, state := st, flags := 0, gpid := 7, groupPos := 0, buddy := 0, tag := 7, created := 3
    committed := 0, length := 8192, digest := [], measure := [], ckKey := 0, buddied := some false, data := [(0, 5)] }

/-- The rank 5 of a departed job whose depot is ONLINE with 100,000 bytes free, this descriptor next in the ring, and these
objects and pages. -/
def depotState (b : List Byte) (objs : List DepotObj) (pages : List (W64 × Nat × List Byte)) : State :=
  let s := setRegs (inJob (inDev State.reset .ready) .departed)
    [(tu 0 0, 9 * 2 ^ 60 + 0x100), (dp 0x10, 0x800000 + 4), (dp 0x18, 3), (dp 0x20, 1), (dp 0, 1), (dp 0x30, 100000)]
  let s := { s with job := { s.job with tag := 7, rank := 5 }, depot := { s.depot with objects := objs, pages := pages } }
  let s := wrBytes (wrBytes s 0x100000 (leBytes 8 (0x101 * 1024 + 1))) 0x101000 (leBytes 8 0xDF)
  wrBytes s (dpEntry s 1) b

/-- The descriptor is next, its operation is `op`, and it passes the checks of R471. -/
def depotGood (s : State) (b : List Byte) (op : Nat) : Bool :=
  decide (dpNext s = some (((rd s (dp 0x20)).toNat + s.depot.reqs.length) % max 1 (dpRingSize s), b)) && decide (rqOp b = op)
    && ringOpen s (dpEntry s 1) 64 && s.depot.reqs.all (fun r => !decide (rqKey r.desc = rqKey b)) && decide (rqCheck s b = 0) && !rqBuddy b && !rqFrom b

/-- A ring whose next entry is all zeros but for its OP, on an idle device: R471 refuses it. -/
def depotRefused (op : Nat) : State :=
  { setRegs State.reset [(dp 0x10, 4), (dp 0x18, 3), (dp 0x20, 1)] with mem := [(64, BitVec.ofNat 8 op)] }

/-- The premises on a request that R471 refuses. -/
def depotBad (op : Nat) : Bool :=
  decide (dpNext (depotRefused op) = some (1, BitVec.ofNat 8 op :: List.replicate 63 0))
    && decide (rqOp (BitVec.ofNat 8 op :: List.replicate 63 0) = op)
    && decide (rqCheck (depotRefused op) (BitVec.ofNat 8 op :: List.replicate 63 0) ≠ 0) && ringOpen (depotRefused op) (dpEntry (depotRefused op) 1) 64

/-- A read that decodes at ladder step `n`, of LUN 4 of channel 3. -/
def ladder (n : Fin 7) : LadderRead := { step := n, ch := 3, lun := 4, block := 5, page := 6, cw := 1 }

theorem sha256_ne_nil (l : List Byte) : sha256 l ≠ [] := by
  intro h
  have := congrArg List.length h
  simp [sha256, ShaHash.words, leBytes] at this

/-- A page of 4,096 bytes under the key 4096. -/
def depotPage : W64 × Nat × List Byte := (4096, 0x4000, List.replicate 4096 1)

/-- An object of the job under this name, and the premises on it. -/
def depotMine (s : State) (o : DepotObj) : Bool :=
  decide (findObj s objName s.job.rank false = some o) && decide (o.ckKey = s.job.ckKey)

theorem witness_DepotRequests_objects :
    (let b := depotDesc 1 0x3000 4096 4096 objName
     let s := depotState b [] []
     rqName b = objName ∧ depotGood s b 1 = true ∧ findObj s objName s.job.rank false = none ∧ s.depot.objects.length < 1048576
      ∧ depotRoom s (rqOff b + rqLen b) = true ∧ okPiece (jobPieces s (rqMem b) (rqLen b) false) = some (0x3000, 4096)
      ∧ poisonedRange s 0x3000 4096 = false)
    ∧ (let b := depotDesc 2 0 0 0 objName
       let s := depotState b [depotObj 1] []
       rqName b = objName ∧ depotGood s b 2 = true ∧ depotMine s (depotObj 1) = true ∧ (depotObj 1).buddied = some false)
    ∧ (let b := depotDesc 3 0x3000 4096 4096 objName
       let s := depotState b [depotObj 1] []
       rqName b = objName ∧ depotGood s b 3 = true ∧ depotMine s (depotObj 1) = true ∧ (depotObj 1).state = 1
        ∧ rqOff b + rqLen b ≤ (depotObj 1).length ∧ okPiece (jobPieces s (rqMem b) (rqLen b) true) = some (0x3000, 4096))
    ∧ (let b := depotDesc 3 0x3000 0 4096 objName
       let o := { depotObj 2 with length := 4096 }
       let s := depotState b [o] []
       depotGood s b 3 = true ∧ depotMine s o = true ∧ o.state = 2 ∧ rqOff b = 0 ∧ rqLen b = o.length
        ∧ o.digest = [] ∧ ladderStep s (ladder 5) < 6 ∧ ladderStep s (ladder 6) = 6
        ∧ okPiece (jobPieces s (rqMem b) (rqLen b) true) = some (0x3000, 4096))
    ∧ (let b := depotDesc 4 0x3000 0 0 objName
       let s := depotState b [depotObj 2] []
       rqName b = objName ∧ depotGood s b 4 = true ∧ depotMine s (depotObj 2) = true
        ∧ okPiece (jobPieces s (rqMem b) 256 true) = some (0x3000, 256))
    ∧ (let b := depotDesc 5 0 0 0 objName
       let s := depotState b [depotObj 3] []
       rqName b = objName ∧ depotGood s b 5 = true ∧ depotMine s (depotObj 3) = true) := by
  and_intros <;> decide +kernel

theorem witness_DepotRequests_pages_and_ring :
    (let b := depotDesc 6 0x4000 4096 4096 []
     let s := depotState b [] []
     depotGood s b 6 = true ∧ depotRoom s (rqLen b) = true ∧ inUnified (rqMem b) (rqLen b) = true
      ∧ possessed s (rqMem b) (rqLen b) = false ∧ poisonedRange s (rqMem b) (rqLen b) = false)
    ∧ (let b := depotDesc 7 0x4000 4096 4096 []
       let s := depotState b [] [depotPage]
       depotGood s b 7 = true ∧ inUnified (rqMem b) (rqLen b) = true ∧ possessed s (rqMem b) (rqLen b) = false
        ∧ (s.depot.pages.find? (fun p => decide (p.1 = BitVec.ofNat 64 (rqOff b)) && decide (p.2.2.length = rqLen b))).isSome = true)
    ∧ (let b := depotDesc 8 0 4096 4096 []
       let s := depotState b [] [depotPage]
       depotGood s b 8 = true
        ∧ (s.depot.pages.find? (fun p => decide (p.1 = BitVec.ofNat 64 (rqOff b)) && decide (p.2.2.length = rqLen b))).isSome = true)
    ∧ ((upTo 8).all (fun i => depotBad (i + 1)) = true)
    ∧ (let r : DepotReq := { index := 3, desc := [], status := some 5, data := [], ids := [], startedAt := 4 }
       let s := { State.reset with depot := { State.reset.depot with reqs := [r] } }
       let w := { State.reset with depot := { State.reset.depot with reqs := [{ r with status := none }] } }
       s.depot.reqs.find? (fun r => decide (r.index = (3 : BitVec 11).toNat)) = some r
        ∧ ringOpen s (dpEntry s (3 : BitVec 11).toNat + 2) 2 = true
        ∧ w.depot.reqs.any (fun r => decide (r.index = (3 : BitVec 11).toNat) && r.status.isNone
            && decide (r.startedAt.toNat + 100000000 ≤ (now (advance w 100000004)).toNat)) = true
        ∧ (∀ r ∈ w.depot.reqs, (now (advance w 100000003)).toNat < r.startedAt.toNat + 100000000)
        ∧ rd s (dp 0x20) = rd s (dp 0x18) ∧ rd (setRegs s [(dp 0x18, 1)]) (dp 0x20) ≠ rd (setRegs s [(dp 0x18, 1)]) (dp 0x18)) := by
  and_intros <;> decide +kernel

/-- Block 5 of LUN 4 of channel 3 at `now`, with its refresh flag, its last refresh from step 4, and its spares. -/
def nandState (refresh : Bool) (at4 : Option W64) (nw spares : Nat) : State :=
  let s := setRegs (inDev State.reset .ready) [(dp 0, 1 + 4 * 10), (dpCh 3, 4 * 16 + 2 ^ 23 * spares), (mtc 0, nw)]
  { s with depot := { s.depot with
      chanBlocks := 200, rebuilds := [9, 3 * 16 + 4]
      blocks := [(nandKey 3 4 5, { erases := 0, refresh := refresh, retired := false, offset := false, step4At := at4 }),
        (nandKey 3 4 6, { erases := 60000, refresh := false, retired := false, offset := false, step4At := none })] } }

theorem witness_DepotNand :
    (∀ n ∈ [1, 2, 5, 6], let s := nandState true none 0 5
     nandOn s = true ∧ lunUp s (ladder n).ch (ladder n).lun = true ∧ ladderStep s (ladder n) = n.val)
    ∧ (let s := depotState [] [{ depotObj 2 with name := leBytes 32 (7 : BitVec 256).toNat }] []
       findObj s (leBytes 32 (7 : BitVec 256).toNat) (5 : BitVec 20).toNat false
        = some { depotObj 2 with name := leBytes 32 (7 : BitVec 256).toNat })
    ∧ (let s := setRegs State.reset [(dpCh 3, 1)]
       rdF s (dpCh 3) 0 2 = 1 ∧ drainOver (advance s 100000000) 3 3 = true)
    ∧ (let s := nandState true (some 5) (weekBeats + 6) 5
     let blk := nand s (nandKey 3 4 5)
     nandOn s = true ∧ lunUp s 3 4 = true ∧ blk.refresh = true ∧ blk.retired = false ∧ dpState s = 1
      ∧ blk.step4At = some 5 ∧ (5 : W64).toNat + weekBeats < (now s).toNat)
    ∧ (let s := nandState true (some 5) (weekBeats + 5) 5
       let blk := nand s (nandKey 3 4 5)
       nandOn s = true ∧ lunUp s 3 4 = true ∧ blk.refresh = true ∧ blk.retired = false ∧ dpState s = 1
        ∧ blk.step4At = some 5 ∧ (now s).toNat ≤ (5 : W64).toNat + weekBeats)
    ∧ (let s := nandState false none 0 5
       let blk := nand s (nandKey 3 4 5)
       nandOn s = true ∧ lunUp s 3 4 = true ∧ (5 : BitVec 16) ≠ 6 ∧ (nand s (nandKey 3 4 6)).retired = false
        ∧ blk.erases + 500 < lunMean s 3 4)
    ∧ (let s := nandState false none 0 1
       let blk := nand s (nandKey 3 4 5)
       nandOn s = true ∧ lunUp s 3 4 = true ∧ blk.retired = false
        ∧ (Store.get (fun _ => []) s.depot.retiredAt (3 * 16 + 4)).length < 31 ∧ 0 < rdF s (dpCh 3) 23 32)
    ∧ (let s := nandState false none 0 5
       nandOn s = true ∧ rdB s (dpCh 3) (7 + 4) = false ∧ (3 : DChanIx).val * 16 + (4 : Fin 16).val ∈ s.depot.rebuilds) := by
  and_intros <;> decide +kernel

/-! ### Premises: the host's commands and notices -/

/-- A ready device that expects command 7, with the producer index at `tail` and these bytes in slot 7. -/
def intake (tail : Nat) (b : List Byte) : State :=
  let s := setRegs (inDev State.reset .ready) [(bar0 0x20, 7)]
  { s with bar2 := memAt (7 * 1024) b, port := { s.port with tail := BitVec.ofNat 32 tail } }

theorem witness_HostCommandIntake :
    (let s := intake 8 []
     hostUp s = true ∧ 4096 < ((4104 : W32) - expSeq s).toNat ∧ ((4103 : W32) - expSeq s).toNat ≤ 4096 ∧ stopped s = false
      ∧ stopped (setRegs s [(bar0 0x20, 7 + 2 ^ 39)]) = true)
    ∧ (let s := intake 8 []
       intakeOpen s = true ∧ (slot7 0x01 []).length = 1024 ∧ slotFault (expSeq s) (slotBytes s 7) ≠ 0 ∧ s.port.rereads < 64
        ∧ 64 ≤ { s.port with rereads := 64 }.rereads)
    ∧ (let s := intake 8 (slot7 0x01 [])
       intakeOpen s = true ∧ (expSeq s).toNat % 4096 = 7 ∧ slotFault (expSeq s) (slotBytes s 7) = 0)
    ∧ (let c := cmd 7 (slot7 0x01 []) .done [1, 2, 3]
       let s := { intake 8 [] with port := { (intake 8 []).port with cmds := [c] } }
       s.port.cmds.find? (fun c => decide (c.seq = 7) && decide (c.phase = .done)) = some c ∧ s.port.func = .enabled
        ∧ slotOp c.slot ≠ 0x41 ∧ c.muted = false ∧ slotOp c.slot ≠ 0x12 ∧ Nat.testBit (slotFlags c.slot) 1 = false) := by
  refine ⟨?_, ?_, ?_, ?_⟩ <;> decide +kernel

/-- Whether command 7 with this slot waits, has opcode `op` (and this byte of its arguments), and is not admitted. -/
def notAdmitted (op k v : Nat) : Bool :=
  let b := slot7 op (List.replicate (k - 32) 0 ++ [BitVec.ofNat 8 v])
  let s := hosted (if op = 0x41 ∧ v = 2 then .ready else .failed) .idle b
  (startable s 7).any (fun c => decide (c.slot = b)) && decide (slotOp b = op) && decide (k = 0 ∨ leAt b k 1 = v) && !admitted s b

theorem witness_HostCommandsComplete_states :
    (([(0x10, 0, 0), (0x11, 0, 0), (0x12, 0, 0), (0x23, 32, 0), (0x23, 32, 1), (0x23, 32, 2)] : List (Nat × Nat × Nat)).all
      (fun c => notAdmitted c.1 c.2.1 c.2.2) = true)
    ∧ (([(0x40, 0, 0), (0x41, 32, 1), (0x41, 32, 2), (0x42, 40, 1), (0x42, 40, 2), (0x50, 0, 0)] : List (Nat × Nat × Nat)).all
      (fun c => notAdmitted c.1 c.2.1 c.2.2) = true) := by decide +kernel

/-- MAP_LANDING of `n` pieces from piece 3 to offset `off`, in a landing region of four pieces. -/
def mapSlot (n off : Nat) : List Byte := slot7 0x10 (leBytes 4 3 ++ leBytes 4 n ++ leBytes 8 off)
def mapState (n off : Nat) : State := setRegs (hosted .ready .idle (mapSlot n off)) [(hp 8, 4)]

/-- PUT of a frame of `n` bytes at the landing region's start to job address 0x3000; GET of `n` bytes from it; SIGNAL of form `f` on signal `g`. -/
def putSlot (n : Nat) : List Byte := slot 7 0x11 0 0 0 0 (leBytes 4 0 ++ leBytes 4 n ++ leBytes 8 0x3000) []
def getSlot (n : Nat) : List Byte := slot 7 0x12 0 0 64 200 (leBytes 8 0x3000 ++ leBytes 4 n) []
def sigSlot (f g : Nat) : List Byte := slot7 0x23 (leBytes 2 f ++ leBytes 2 g)

/-- A departed job whose page table maps the job's first GiB, with this slot. -/
def mapped (b : List Byte) : State :=
  let s := setRegs (hosted .ready .departed b) [(tu 0 0, 9 * 2 ^ 60 + 0x100), (gd 0, 16), (hp 0, 0x900000), (hp 8, 4)]
  wrBytes (wrBytes s 0x100000 (leBytes 8 (0x101 * 1024 + 1))) 0x101000 (leBytes 8 0xDF)

/-- The frame of the host for the mapped job, of a payload of four bytes, with counter 7. -/
def hostFrame : List Byte :=
  frameHeader true State.reset.job.tag 0 State.reset.job.rank 7 4 State.reset.guard.gpid ++ List.replicate 20 0

theorem witness_HostCommandsComplete_jobs :
    (let b := slot7 0x01 []
     startsNow (hosted .failed .idle b) 0x01 b = true ∧ startsNow (hosted .failed .idle (slot7 0x02 [])) 0x02 (slot7 0x02 []) = true
      ∧ startsNow (hosted .ready .idle (slot7 0x50 [])) 0x50 (slot7 0x50 []) = true)
    ∧ (let b := mapSlot 2 0x20000
       let s := mapState 2 0x20000
       startsNow s 0x10 b = true ∧ leAt b 36 4 ≠ 0 ∧ leAt b 32 4 + leAt b 36 4 ≤ 4096
        ∧ leAt b 40 8 + leAt b 36 4 * 65536 ≤ landBytes s ∧ leAt b 40 8 % 65536 = 0)
    ∧ (let b := mapSlot 2 0x30000
       let s := mapState 2 0x30000
       startsNow s 0x10 b = true ∧ landBytes s < leAt b 40 8 + leAt b 36 4 * 65536)
    ∧ (let b := putSlot 52
       let s := wrBytes (mapped b) 0x900000 hostFrame
       startsNow s 0x11 b = true ∧ Nat.testBit (slotFlags b) 2 = false ∧ leAt b 36 4 = 52 ∧ leAt b 32 4 + 52 ≤ landBytes s
        ∧ (putFrame s b).1 = 0 ∧ frameOk s true (putFrame s b).2.1 none = none
        ∧ frameOk s true (putFrame s b).2.1 (some [1, 2, 3, 4]) = some [1, 2, 3, 4]
        ∧ okPiece (jobPieces s (leAt b 40 8) 4 true) = some (0x3000, 4))
    ∧ (let b := getSlot 100
       let s := mapped b
       startsNow s 0x12 b = true ∧ leAt b 44 1 = 0 ∧ leAt b 40 4 = 100
        ∧ okPiece (jobPieces s (leAt b 32 8) (leAt b 40 4) false) = some (0x3000, 100) ∧ poisonedRange s 0x3000 100 = false)
    ∧ ([0, 1, 2].all (fun f => startsNow (hosted .ready .held (sigSlot f 16383)) 0x23 (sigSlot f 16383)
        && decide (leAt (sigSlot f 16383) 34 2 ≤ 16383) && decide (leAt (sigSlot f 16383) 32 1 = f)) = true)
    ∧ (let b := funcSlot 1 15 0
       let s := withFunc 1 15 0 0
       startsNow s 0x30 b = true ∧ leAt b 32 1 = 1 ∧ leAt b 33 1 = 15 ∧ leAt b 34 1 = 0 ∧ funcState s 1 15 = .enabled ∧ portBooked s 15 = false)
    ∧ (let b := funcSlot 1 5 1
       let s := withFunc 1 5 1 2
       startsNow s 0x30 b = true ∧ leAt b 32 1 = 1 ∧ leAt b 33 1 = 5 ∧ leAt b 34 1 = 1 ∧ funcState s 1 5 = .disabled) := by
  refine ⟨?_, ?_, ?_, ?_, ?_, ?_, ?_, ?_⟩ <;> decide +kernel

/-! ### Premises: images and authorisations -/

theorem slice_left (x y : List Byte) (k n : Nat) (h : k + n ≤ x.length) : slice (x ++ y) k n = slice x k n := by
  unfold slice
  rw [List.drop_append_of_le_length (by omega), List.take_append_of_le_length (by simp; omega)]

theorem slice_right (x y : List Byte) (k n : Nat) : slice (x ++ y) (x.length + k) n = slice y k n := by
  unfold slice
  rw [List.drop_append, List.drop_eq_nil_of_le (by omega), Nat.add_sub_cancel_left, List.nil_append]

theorem slice_whole (y : List Byte) : slice y 0 y.length = y := by simp [slice]

/-- The first 24 bytes of an image of this kind and security version, with a body of 8 bytes. -/
def imageHead (kind svn : Nat) : List Byte :=
  leBytes 4 0x39474D49 ++ leBytes 2 1 ++ leBytes 1 kind ++ leBytes 1 0 ++ leBytes 4 8 ++ leBytes 4 3 ++ leBytes 4 svn ++ leBytes 4 0

/-- A signed image: header, signer's key, an empty body, a signature. -/
def image (kind svn : Nat) (k : List Byte) : List Byte := imageHead kind svn ++ (k ++ (List.replicate 16 0 ++ List.replicate 7856 0))

theorem image_length (kind svn : Nat) (k : List Byte) (h : k.length = 32) : (image kind svn k).length = 7928 := by
  simp only [image, List.length_append, h, List.length_replicate]; rfl

theorem image_head (kind svn : Nat) (k : List Byte) (o n : Nat) (h : o + n ≤ 24) :
    leAt (image kind svn k) o n = leAt (imageHead kind svn) o n := by
  unfold leAt image; rw [slice_left _ _ _ _ h]

theorem image_key (kind svn : Nat) (k : List Byte) (h : k.length = 32) : imKey (image kind svn k) = k := by
  have := slice_right (imageHead kind svn) (k ++ (List.replicate 16 0 ++ List.replicate 7856 0)) 0 32
  unfold imKey image
  rw [show 24 = (imageHead kind svn).length + 0 from rfl, this, slice_left _ _ _ _ (by omega), ← h, slice_whole]

theorem image_tail (kind svn : Nat) (k : List Byte) (h : k.length = 32) (o n : Nat) (ho : o + n ≤ 16) :
    slice (image kind svn k) (56 + o) n = slice (List.replicate 16 0) o n := by
  have h1 := slice_right (imageHead kind svn) (k ++ (List.replicate 16 0 ++ List.replicate 7856 0)) (32 + o) n
  have h2 := slice_right k (List.replicate 16 0 ++ List.replicate 7856 0) o n
  unfold image
  rw [show 56 + o = (imageHead kind svn).length + (32 + o) by rw [show (imageHead kind svn).length = 24 from rfl]; omega, h1, ← h, h2,
    slice_left _ _ _ _ (by simpa using ho)]

/-- The fields of a header that do not depend on the key. -/
def headOk (kind svn : Nat) : Bool :=
  decide (leAt (imageHead kind svn) 0 4 = 0x39474D49) && decide (leAt (imageHead kind svn) 4 2 = 1) && decide (leAt (imageHead kind svn) 6 1 = kind)
    && decide (leAt (imageHead kind svn) 7 1 = 0) && decide (leAt (imageHead kind svn) 8 4 = 8) && decide (leAt (imageHead kind svn) 16 4 = svn)

theorem image_len (kind svn : Nat) (k : List Byte) (hk : headOk kind svn = true) : imLen (image kind svn k) = 8 := by
  simp only [headOk, Bool.and_eq_true, decide_eq_true_eq] at hk
  unfold imLen; rw [image_head kind svn k 8 4 (by decide), hk.1.2]

theorem image_wrapper (kind svn room : Nat) (k : List Byte) (h : k.length = 32) (hk : headOk kind svn = true) (hr : 7928 ≤ room) :
    wrapperOk (image kind svn k) kind room = true := by
  have ht : leAt (image kind svn k) 56 8 = 0 := by
    unfold leAt; rw [image_tail kind svn k h 0 8 (by decide)]; decide
  have hb : imBytes (image kind svn k) = 7928 := by
    unfold imBytes; rw [image_len kind svn k hk]; rfl
  simp only [headOk, Bool.and_eq_true, decide_eq_true_eq] at hk
  unfold wrapperOk
  rw [ht, hb, image_length kind svn k h, image_head kind svn k 0 4 (by decide), image_head kind svn k 4 2 (by decide),
    image_head kind svn k 6 1 (by decide), image_head kind svn k 7 1 (by decide), hk.1.1.1.1.1, hk.1.1.1.1.2, hk.1.1.1.2, hk.1.1.2]
  simp [hr]

theorem image_svn (kind svn : Nat) (k : List Byte) (hk : headOk kind svn = true) : imSvn (image kind svn k) = svn := by
  simp only [headOk, Bool.and_eq_true, decide_eq_true_eq] at hk
  unfold imSvn; rw [image_head kind svn k 16 4 (by decide), hk.2]

theorem head_fw : headOk 1 5 = true := by decide
theorem head_cfg : headOk 2 0 = true := by decide

theorem image_records (kind svn : Nat) (k : List Byte) (h : k.length = 32) (hk : headOk kind svn = true) : recordsOf (image kind svn k) = some [] := by
  unfold recordsOf
  rw [image_len kind svn k hk, show (64 : Nat) = 56 + 8 from rfl, image_tail kind svn k h 8 8 (by decide)]
  decide

/-- The fuses hold a hash of the maker's key: an image under a key of that hash passes (R481). -/
theorem image_fw (s : State) (k : List Byte) (h : k.length = 32) (hk : sha256 k = Config.romFwKeyHash)
    (hs : rdF s (gd 0x18) 0 7 ≤ 5) : fwCheck s (image 1 5 k) true = 0 := by
  unfold fwCheck
  rw [image_wrapper 1 5 fwRoom k h head_fw (by decide), image_key 1 5 k h, image_svn 1 5 k head_fw, hk]
  simp; omega

/-- With the operator fuses blank, a well-formed image whose signature verifies passes (R482). -/
theorem image_cfg (s : State) (k : List Byte) (h : k.length = 32) (hs : s.guard.operatorHash = none) :
    cfgCheck s (image 2 0 k) true = 0 := by
  have hg : imGpid (image 2 0 k) = 0 := by unfold imGpid; rw [image_head 2 0 k 20 4 (by decide)]; rfl
  unfold cfgCheck
  rw [image_wrapper 2 0 cfgRoom k h head_cfg (by decide), image_svn 2 0 k head_cfg, image_records 2 0 k h head_cfg, hs, hg]
  simp

/-- What a command reads at the start of the landing region are these bytes, and the read succeeds. -/
def Lands (s : State) (l : List Byte) : Prop := (landFile s 0 l.length).1 = 0 ∧ (landFile s 0 l.length).2.1 = l

/-- Bytes written from the landing region's start, where nothing is possessed or poisoned, are what a command reads there. -/
theorem lands_wrBytes (s : State) (l : List Byte) (hj : s.jlines = []) (hp : s.possMap = []) (hx : s.poisoned = [])
    (hn : l.length ≤ landBytes s) : Lands (wrBytes s (landBase s) l) l := by
  have hb : landBytes (wrBytes s (landBase s) l) = landBytes s := rfl
  have ha : landBase (wrBytes s (landBase s) l) = landBase s := rfl
  have hc : (wrBytes s (landBase s) l).jlines = [] := hj
  have hq : possessed (wrBytes s (landBase s) l) (landBase s) l.length = false := by
    rw [show possessed (wrBytes s (landBase s) l) = possessed s from rfl]; unfold possessed; rw [hp]; rfl
  have hr : poisonedRange (wrBytes s (landBase s) l) (landBase s) l.length = false := by
    unfold poisonedRange wrBytes; rw [hx]; rfl
  have hm := rdBytes_wrBytes s (landBase s) l
  unfold Lands landFile landRead
  simp only [hb, ha, Nat.zero_add, Nat.add_zero, Nat.not_lt.mpr hn, if_false, hq, hr, Bool.false_eq_true, cohBytes_of_no_line _ hc, hm, and_self]

/-- UPDATE of the image at the landing region's start: target 1 firmware, 2 configuration. -/
def updateSlot (t : Nat) : List Byte := slot7 0x42 (leBytes 4 0 ++ leBytes 4 7928 ++ leBytes 1 t)

/-- MAINTENANCE with four pieces of landing region. -/
def maintenance0 : State := setRegs (hosted .maintenance .idle []) [(hp 0, 0x900000), (hp 8, 4)]

/-- The same with these permissions, UPDATE waiting. -/
def maintaining (t : Nat) (perms : BitVec 16) : State :=
  { maintenance0 with
    guard := { maintenance0.guard with perms := perms }
    port := { maintenance0.port with cmds := [cmd 7 (updateSlot t) .waiting []] } }

/-- The same with this image in the landing region. -/
def updating (t : Nat) (perms : BitVec 16) (im : List Byte) : State := wrBytes (maintaining t perms) (landBase (maintaining t perms)) im

theorem lands_updating (t : Nat) (perms : BitVec 16) (im : List Byte) (h : im.length = 7928) : Lands (updating t perms im) im := by
  have hl : landBytes (maintaining t perms) = landBytes maintenance0 := rfl
  exact lands_wrBytes (maintaining t perms) im rfl rfl rfl (by rw [h, hl]; decide +kernel)

theorem witness_update_fields : leAt (updateSlot 1) 32 4 = 0 ∧ leAt (updateSlot 1) 36 4 = 7928 ∧ leAt (updateSlot 1) 40 1 = 1
    ∧ leAt (updateSlot 2) 32 4 = 0 ∧ leAt (updateSlot 2) 36 4 = 7928 ∧ leAt (updateSlot 2) 40 1 = 2
    ∧ bitOf (3 : BitVec 16) 0 = true ∧ bitOf (3 : BitVec 16) 1 = true ∧ bitOf (0 : BitVec 16) 0 = false ∧ bitOf (0 : BitVec 16) 1 = false := by
  decide +kernel

/-- A range past the landing region is refused. -/
theorem witness_HostCommandsComplete_no_file :
    let b := slot7 0x42 (leBytes 4 262143 ++ leBytes 4 2 ++ leBytes 1 2)
    let s := { maintenance0 with port := { maintenance0.port with cmds := [cmd 7 b .waiting []] } }
    startsNow s 0x42 b = true ∧ leAt b 40 1 = 2 ∧ (landFile s (leAt b 32 4) (leAt b 36 4)).1 ≠ 0 := by
  decide +kernel

/-- An image that passes as firmware is one under a key of the maker's hash; every other premise is met here. -/
theorem witness_HostCommandsComplete_update (k : List Byte) (h : k.length = 32) :
    (startsNow (updating 1 3 (image 1 5 k)) 0x42 (updateSlot 1) = true ∧ Lands (updating 1 3 (image 1 5 k)) (image 1 5 k)
      ∧ (updating 1 3 (image 1 5 k)).guard.perms = 3
      ∧ (sha256 k = Config.romFwKeyHash → fwCheck (updating 1 3 (image 1 5 k)) (image 1 5 k) true = 0))
    ∧ (startsNow (updating 2 3 (image 2 0 k)) 0x42 (updateSlot 2) = true ∧ Lands (updating 2 3 (image 2 0 k)) (image 2 0 k)
      ∧ (updating 2 3 (image 2 0 k)).guard.perms = 3 ∧ cfgCheck (updating 2 3 (image 2 0 k)) (image 2 0 k) true = 0)
    ∧ (startsNow (updating 1 0 (image 1 5 k)) 0x42 (updateSlot 1) = true ∧ Lands (updating 1 0 (image 1 5 k)) (image 1 5 k)
      ∧ (updating 1 0 (image 1 5 k)).guard.perms = 0)
    ∧ (startsNow (updating 2 0 (image 2 0 k)) 0x42 (updateSlot 2) = true ∧ Lands (updating 2 0 (image 2 0 k)) (image 2 0 k)
      ∧ (updating 2 0 (image 2 0 k)).guard.perms = 0) := by
  have hs : ∀ t p im, startsNow (updating t p im) 0x42 (updateSlot t) = startsNow (updating t 0 []) 0x42 (updateSlot t) := fun _ _ _ => rfl
  have h1 : startsNow (updating 1 0 []) 0x42 (updateSlot 1) = true := by decide +kernel
  have h2 : startsNow (updating 2 0 []) 0x42 (updateSlot 2) = true := by decide +kernel
  have hr : rdF (updating 1 3 (image 1 5 k)) (gd 0x18) 0 7 ≤ 5 := by
    rw [show rdF (updating 1 3 (image 1 5 k)) (gd 0x18) 0 7 = rdF (updating 1 3 []) (gd 0x18) 0 7 from rfl]; decide +kernel
  exact ⟨⟨(hs _ _ _).trans h1, lands_updating _ _ _ (image_length _ _ _ h), rfl, fun hk => image_fw _ k h hk hr⟩,
    ⟨(hs _ _ _).trans h2, lands_updating _ _ _ (image_length _ _ _ h), rfl, image_cfg _ k h rfl⟩,
    ⟨(hs _ _ _).trans h1, lands_updating _ _ _ (image_length _ _ _ h), rfl⟩,
    ⟨(hs _ _ _).trans h2, lands_updating _ _ _ (image_length _ _ _ h), rfl⟩⟩

/-- An authorisation for GPID 0, all permissions but none in test, challenge and key of zeros. -/
def authHead : List Byte :=
  leBytes 4 0x3947414D ++ leBytes 2 1 ++ leBytes 2 3 ++ leBytes 4 0 ++ leBytes 4 0 ++ List.replicate 32 0 ++ List.replicate 32 0
def auth : List Byte := authHead ++ List.replicate 7856 0

/-- MAINTENANCE's slot: action 1 with the authorisation at the landing region's start, or action 2. -/
def enterSlot : List Byte := slot7 0x41 (leBytes 4 1 ++ leBytes 4 0 ++ leBytes 4 7936)
def restartSlot : List Byte := slot7 0x41 (leBytes 4 2)

/-- A ready device whose operator's key has the hash of 32 zeros, MAINTENANCE waiting. -/
def ready0 : State := setRegs (hosted .ready .idle []) [(hp 0, 0x900000), (hp 8, 4)]
def toEnter : State :=
  { ready0 with
    guard := { ready0.guard with gpid := 0, challenge := List.replicate 32 0, operatorHash := some (sha256 (List.replicate 32 0)) }
    port := { ready0.port with cmds := [cmd 7 enterSlot .waiting []] } }
def entering : State := wrBytes toEnter (landBase toEnter) auth

theorem auth_length : auth.length = 7936 := by
  simp only [auth, List.length_append, List.length_replicate]; rfl

theorem auth_authorised : authorised entering auth true = true := by
  have f : ∀ o n, o + n ≤ 80 → leAt auth o n = leAt authHead o n := fun o n h => by
    unfold leAt auth; rw [slice_left _ _ _ _ (by exact h)]
  have g : ∀ o, o + 32 ≤ 80 → slice auth o 32 = slice authHead o 32 := fun o h => slice_left _ _ _ _ (by exact h)
  unfold authorised
  rw [auth_length, f 0 4 (by decide), f 4 2 (by decide), f 8 4 (by decide), g 16 (by decide), g 48 (by decide),
    show leAt authHead 0 4 = 0x3947414D by decide, show leAt authHead 4 2 = 1 by decide, show leAt authHead 8 4 = 0 by decide,
    show slice authHead 16 32 = List.replicate 32 0 by decide, show slice authHead 48 32 = List.replicate 32 0 by decide]
  simp [entering, toEnter, wrBytes]

theorem witness_HostCommandsComplete_device :
    (startsNow (hosted .ready .idle (slot7 0x40 [])) 0x40 (slot7 0x40 []) = true)
    ∧ (startsNow (hosted .failed .idle restartSlot) 0x41 restartSlot = true ∧ leAt restartSlot 32 1 = 2)
    ∧ (startsNow entering 0x41 enterSlot = true ∧ leAt enterSlot 32 1 = 1 ∧ leAt enterSlot 36 4 = 0 ∧ leAt enterSlot 40 4 = 7936)
    ∧ Lands entering auth ∧ authorised entering auth true = true ∧ authorised entering auth false = false := by
  have hl : Lands entering auth := lands_wrBytes toEnter auth rfl rfl rfl (by rw [auth_length]; decide +kernel)
  have h3 : startsNow toEnter 0x41 enterSlot = true := by decide +kernel
  have hs : ∀ a im, startsNow (wrBytes toEnter a im) 0x41 enterSlot = startsNow toEnter 0x41 enterSlot := fun _ _ => rfl
  exact ⟨by decide +kernel, by decide +kernel, ⟨(hs _ _).trans h3, by decide +kernel, by decide +kernel, by decide +kernel⟩, hl,
    auth_authorised, by unfold authorised; simp⟩

/-- An authorisation in a poisoned block is an error of the read. -/
theorem witness_HostCommandsComplete_poisoned :
    let s := { toEnter with poisoned := [(0x900000 / 256, true)] }
    startsNow s 0x41 enterSlot = true ∧ leAt enterSlot 32 1 = 1 ∧ (landFile s (leAt enterSlot 36 4) (leAt enterSlot 40 4)).1 = stFault := by
  decide +kernel

/-! ### Premises: notices, landings, resets -/

/-- A ready device with a landing region of four pieces at 0x900000, whose piece 3 leads to `n`; its notice ring has 8 entries. -/
def landing (n : Nat) : State :=
  let s := setRegs (inDev State.reset .ready)
    [(hp 0, 0x900000), (hp 8, 4), (bar0 0x30, 3), (bar0 0x28, 0x10000), (bar0 0x38, 8), (bar0 0x40, 10), (bar0 0x48, 0x501), (bar0 0x8008, 5)]
  { s with port := { s.port with pages := [(3, n + 1)] } }

/-- A notice. -/
def ntc : Notice := { nseq := 17, typ := 2, status := 3, mtc := 4, source := 5, code := 6, d0 := 7, d1 := 8, d2 := 9, d3 := 10 }

theorem witness_NoticesLandingsAndResets_windows :
    (let s := landing 1
     hostUp s = true ∧ landPiece s (((3 * 65536 + 65535 : Nat) : BitVec 28).toNat / 65536) = some 1
      ∧ possessed s (0x900000 + 1 * 65536 + 65535) 1 = false ∧ inUnified (0x900000 + 1 * 65536 + 65535) 1 = true)
    ∧ (let s := { landing 1 with possMap := [(possKey 0 4, true)] }
       hostUp s = true ∧ landPiece s 3 = some 1 ∧ possessed s (0x900000 + 1 * 65536) 3 = true)
    ∧ (landPiece (landing 1) (((4 * 65536 : Nat) : BitVec 28).toNat / 65536) = none ∧ 0 < { (landing 1).port with deniedCount := 1 }.deniedCount)
    ∧ (rdB (setRegs (landing 1) [(bar0 0x48, 0x500)]) (bar0 0x48) 0 = false ∧ rdB (landing 1) (bar0 0x48) 0 = true
      ∧ fld (0x701 : W64) 8 8 ≠ rdF (landing 1) (bar0 0x48) 8 8)
    ∧ (let s := landing 1
       let tail := rdF s (bar0 0x40) 0 32
       let head := rdF s (bar0 0x38) 0 32
       ((10 : W64).toNat + 2 ^ 32 - head) % 2 ^ 32 ≤ (tail + 2 ^ 32 - head) % 2 ^ 32
        ∧ (tail + 2 ^ 32 - head) % 2 ^ 32 < ((11 : W64).toNat + 2 ^ 32 - head) % 2 ^ 32)
    ∧ (let s := landing 1
       s.port.func = .enabled ∧ rdB s (bar0 0x48) 0 = true ∧ ringUsed s < ringSize s ∧ s.port.dropped = 0 ∧ rdB s (bar0 0x8008) 32 = false
        ∧ rdB (setRegs s [(bar0 0x8008, 2 ^ 32)]) (bar0 0x8008) 32 = true
        ∧ { s.port with noticeQ := [ntc] }.noticeQ = ntc :: [] ∧ { s.port with msixDue := true }.msixDue = true)
    ∧ (let at5 := fun n => { landing 1 with port := { (landing 1).port with msixAt := some n } }
       sinceOk (advance (at5 5) 5005) (at5 5).port.msixAt (1000 * rdF (at5 5) (bar0 0x48) 8 8) = true
        ∧ sinceOk (advance (at5 5) 5004) (at5 5).port.msixAt (1000 * rdF (at5 5) (bar0 0x48) 8 8) = false) := by
  refine ⟨?_, ?_, ?_, ?_, ?_, ?_, ?_⟩ <;> decide +kernel

theorem witness_NoticesLandingsAndResets_device :
    (bitOf (1 : W64) 0 = true
      ∧ (let s := inDev State.reset .stabled
         s.dev.entering = false ∧ s.dev.state = .stabled ∧ s.dev.wakeAt = none ∧ { s.dev with entering := true }.entering = true))
    ∧ (let s := inDev State.reset .ready
       s.job.state = .idle ∧ s.port.pages = [] ∧ (65536 : W64).toNat ≤ 65536 ∧ (inJob s .held).job.state ≠ .idle)
    ∧ (State.reset.port.dropped = 0 ∧ queueRoom State.reset = true)
    ∧ (let s := { State.reset with port := { State.reset.port with doe := some (5, 2) } }
       s.port.doe = some (5, 2))
    ∧ (let s := { State.reset with port := { State.reset.port with deniedAt := some 5 } }
       sinceOk (advance s 1000005) s.port.deniedAt 1000000 = true ∧ sinceOk (advance s 1000004) s.port.deniedAt 1000000 = false)
    ∧ (State.reset.port.func = .enabled ∧ { State.reset.port with func := .disabled }.func = .disabled) := by
  refine ⟨?_, ?_, ?_, ?_, ?_, ?_⟩ <;> decide +kernel

/-! ### Premises: power, supplies, starts -/

/-- The power manager's words of a die with demands 100, floors 3, and a grant on its way. -/
def powerDie : PowerDie :=
  { powerNone 0 with dem1 := 100, dem2 := 50, dem3 := 25, floor1 := 3, floor2 := 3, floor3 := 3, thermC := 60, grantC := 63, capSeen := true
                     thermSeen := true, arrived := some (7, 8, 9), arrivedIn := 4
                     thermAt := some 9 }

/-- A cap of `cap` with priorities 1, 2, 3. -/
def capped (cap : Nat) : State :=
  { setRegs State.reset [(pw 0 0x1000, cap + (1 + 8 + 48) * 2 ^ 32)] with
    power := { State.reset.power with dies := (upTo 12).map (fun d => (d, powerDie)), period := 5 } }

/-- The premises of the budget period with this fixed power, and whether every demand fits. -/
def capCase (cap fixed : Nat) (fits : Bool) : Bool :=
  let s := capped cap
  let st := rd s (pw 0 0x1000)
  let dies := (upTo 12).map (pwGet s)
  dies.all (fun p => decide (p.floor1 ≤ p.dem1 ∧ p.floor2 ≤ p.dem2 ∧ p.floor3 ≤ p.dem3))
    && decide ([fld st 32 2, fld st 34 2, fld st 36 2] = [1, 2, 3])
    && decide (fixed + (dies.map (fun p => p.floor1 + p.floor2 + p.floor3)).sum ≤ 8 * fld st 0 16)
    && (decide (fixed + (dies.map (fun p => p.dem1 + p.dem2 + p.dem3)).sum ≤ 8 * fld st 0 16) == fits)

theorem witness_GrantsStayWithinTheCap : capCase 5000 40 true = true ∧ capCase 60 300 false = true := by decide +kernel

theorem witness_DutiesDroopsAndHeat :
    (let s := capped 5000
     (pwGet s 2).arrived = some (7, 8, 9) ∧ (2 : Fin 12).val < 8 ∧ (pwGet s 2).arrivedIn < s.power.period ∧ (pwGet s 2).capSeen = true
      ∧ (pwGet s 9).thermSeen = true ∧ { s.power with period := 4 }.period ≤ (pwGet s 2).arrivedIn ∧ (pwGet State.reset 2).arrived = none)
    ∧ (let s := capped 5000
       sinceOk (advance s 100009) (pwGet s 2).thermAt 100000 = true ∧ sinceOk (advance s 100008) (pwGet s 2).thermAt 100000 = false)
    ∧ (let s := { inDev State.reset .ready with dev := { (inDev State.reset .ready).dev with steps := [3] } }
       s.dev.state ≠ .cold ∧ s.dev.state ≠ .starting ∧ sinceOk (advance s 10000003) s.dev.steps.head? 10000000 = true
        ∧ (inDev State.reset .starting).dev.state = .starting)
    ∧ (105 < (106 : Byte).toNat ∧ (101 : Byte).toNat < 102 ∧ 102 ≤ (103 : Byte).toNat ∧ (103 : Byte).toNat ≤ 105)
    ∧ ((inDev State.reset .ready).dev.vaux = true ∧ (11 : Die).val < 12) := by
  refine ⟨?_, ?_, ?_, ?_, ?_⟩ <;> decide +kernel

theorem witness_SuppliesAndManagement :
    ({ State.reset.dev with vaux := false }.vaux = false ∧ (inDev State.reset .ready).dev.vaux = true)
    ∧ (let s := { State.reset with dev := { State.reset.dev with vaux := true, vin := true, state := .cold } }
       s.dev.vaux = true ∧ s.dev.vin = true ∧ s.dev.service = false ∧ s.dev.state = .cold ∧ { s.dev with service := true }.service = true
        ∧ 1000000 ≤ (now (advance s 1000000)).toNat ∧ (now (advance s 999999)).toNat < 1000000)
    ∧ (let s := inDev State.reset .ready
       s.dev.vaux = true ∧ s.dev.state ≠ .cold ∧ rdB s (gd 0) 4 = false ∧ { s.dev with restarting := true }.restarting = true)
    ∧ (let s := { inDev State.reset .ready with dev := { (inDev State.reset .ready).dev with entering := true, stableSeq := some 7 } }
       s.dev.entering = true ∧ (∀ c ∈ s.port.cmds, some c.seq ≠ s.dev.stableSeq) ∧ s.dev.state ≠ .stabled)
    ∧ (let d := { (inDev State.reset .stabled).dev with wakeAt := some 500, wakeStep := 4 }
       d.wakeAt = some 500 ∧ d.state = .stabled ∧ d.wakeStep = 4 ∧ { d with wakeStep := 3 }.wakeStep < 4 ∧ 5 ≤ { d with wakeStep := 5 }.wakeStep
        ∧ State.reset.hist.leak = [])
    ∧ (let s := setRegs (inDev State.reset .starting) [(hp 0x200, 1)]
       s.dev.state = .starting ∧ s.dev.restarting = false ∧ stepLate (advance s 1) false = false
        ∧ stepLate (advance { s with dev := { s.dev with steps := [0] } } 50000000) false = false
        ∧ stepLate (advance { s with dev := { s.dev with steps := [0] } } 50000001) false = true)
    ∧ (let s := { inDev State.reset .ready with mgmt := { State.reset.mgmt with ready := true } }
       s.dev.vaux = true ∧ s.mgmt.ready = true ∧ s.mgmt.dynAddr = none ∧ { s.mgmt with dynAddr := some 4 }.dynAddr ≠ none
        ∧ s.mgmt.index = none ∧ { s.mgmt with index := some 8 }.index = some 8)
    ∧ (State.reset.img.i3cAddr + 1 ≠ State.reset.img.i3cAddr ∧ (8 : Byte).toNat ≤ 8 ∧ 8 < (9 : Byte).toNat ∧ ([] : List Byte).length ≠ 1) := by
  refine ⟨?_, ?_, ?_, ?_, ?_, ?_, ?_, ?_⟩ <;> decide +kernel

/-- A start at step `n`. -/
def startAt (n : Nat) : State := setRegs (inDev State.reset .starting) [(hp 0x200, n)]

/-- The premises of the start's steps but for those that name the images. -/
theorem witness_StartStepsAndGuards :
    ((upTo 8).all (fun i => decide ((startAt (i + 1)).dev.state = .starting) && decide ((startAt (i + 1)).dev.restarting = false)
      && decide (startStep (startAt (i + 1)) = i + 1) && !stepLate (advance (startAt (i + 1)) 0) false) = true)
    ∧ (let z := advance { startAt 5 with dev := { (startAt 5).dev with steps := [0] } } (2 ^ 40)
       stepLate z (stepFormats z (.tests [] [] [] [])) = true)
    ∧ ((startAt 4).img.format = false ∧ markedWires (startAt 4) = [] ∧ dpState (startAt 4) = 0)
    ∧ ((startAt 5).marks = [] ∧ (startAt 5).dev.badSites = [])
    ∧ ({ (startAt 7).hist with runtime := true }.runtime = true)
    ∧ (fwSvn (startAt 8) ≤ 64)
    ∧ (let g := { State.reset.guard with aliveX0 := true, aliveX1 := false }
       (if true then g.aliveX0 else g.aliveX1) = true ∧ (if false then g.aliveX0 else g.aliveX1) = false) := by
  refine ⟨?_, ?_, ?_, ?_, ?_, ?_, ?_⟩ <;> decide +kernel

/-- The premises on the images: an image that passes as firmware is one under a key of the maker's hash. -/
theorem witness_StartStepsAndGuards_images (k : List Byte) (h : k.length = 32) :
    (sha256 k = Config.romFwKeyHash → fwCheck (startAt 2) (image 1 5 k) true = 0)
    ∧ cfgCheck (startAt 2) (image 2 0 k) true = 0 ∧ recordsOf (image 2 0 k) = some []
    ∧ fwCheck (startAt 2) [] true ≠ 0 :=
  ⟨fun hk => image_fw _ k h hk (by decide +kernel), image_cfg _ k h (by decide +kernel), image_records 2 0 k h head_cfg, by
    unfold fwCheck; decide +kernel⟩

/-! ### Worked examples of the spec -/

/-- The decoding example of chapter 10: LOCAL stack S18, track T19; PACKAGE stack S31, track T18. -/
theorem test_address_decoding :
    (let s := State.reset
     let a := 0x0123456789 * 256
     s.img.package = false ∧ homeOf s a = 4 ∧ blockOf s a = 0x23456789 ∧ trackOf (blockOf s a) = 83 ∧ rowOf (blockOf s a) = 4623055
      ∧ 83 / 32 + 4 * 4 = 18 ∧ 83 % 32 = 19)
    ∧ (let s := { State.reset with img := { State.reset.img with package := true } }
       let a := 0x0123456789 * 256
       homeOf s a = 7 ∧ blockOf s a = 0x2468AC89 ∧ trackOf (blockOf s a) = 114 ∧ rowOf (blockOf s a) = 4772185
        ∧ 114 / 32 + 7 * 4 = 31 ∧ 114 % 32 = 18) := by decide +kernel

/-- The route example of chapter 11: from A0 to A7 by P1 and P2, 3 hops. -/
theorem test_route : route 0 7 = [0, 9, 10, 7] ∧ hops 0 7 = 3 := by decide +kernel

/-- The body of the example of chapter 18: CAP 4,800 W, PRIORITY memory, links, compute, END. -/
theorem test_records :
    records ([1, 0, 4, 0, 0xC0, 0x12, 0, 0] ++ [2, 0, 4, 0, 2, 1, 3, 0] ++ [0, 0, 0, 0, 0, 0, 0, 0]) 4 0
      = some [(1, [0xC0, 0x12, 0, 0]), (2, [2, 1, 3, 0])]
    ∧ recordOk State.reset (1, [0xC0, 0x12, 0, 0]) = true ∧ recordOk State.reset (2, [2, 1, 3, 0]) = true
    ∧ recordOk State.reset (1, leBytes 4 5601) = false
    ∧ (cfgOfRecords [(1, [0xC0, 0x12, 0, 0]), (2, [2, 1, 3, 0])]).cap = 4800 := by decide +kernel

/-- The check value of CRC-32C over the digits 1 to 9. -/
theorem test_crc32c : crc32c [0x31, 0x32, 0x33, 0x34, 0x35, 0x36, 0x37, 0x38, 0x39] = 0xE3069283 := by decide +kernel

/-- The message "abc" of FIPS 180-4. -/
theorem test_sha256 : leNat (sha256 [0x61, 0x62, 0x63]).reverse
    = 0xba7816bf8f01cfea414140de5dae2223b00361a396177a9cb410ff61f20015ad := by decide +kernel

end Sys2Proof.Tests
end

section
/-! Laws of the write of an event register (R13, R14): what the APLIC on P0 changes when it follows its inputs, and what `w1c` does
to the register, to the other registers and to the rest of the state. -/

namespace Sys2Proof.Machine

/-- A register outside the control space of P0. -/
def OffP0 (k : Nat) : Prop := k < key 8 0 ∨ key 9 0 ≤ k

theorem offP0_key {d o : Nat} (hd : d ≠ 8) (ho : o < 2 ^ 30) : OffP0 (key d o) := by
  unfold OffP0 key
  omega

/-! ### The APLIC follows its inputs -/

theorem apDomain_lt (s : State) (i : Nat) : apDomain s i < 2 := by
  unfold apDomain b2n
  split <;> omega

theorem keysIn_bounds {α : Type} {st : Store α} {lo hi k : Nat} (h : k ∈ Store.keysIn st lo hi) : lo ≤ k ∧ k < hi := by
  obtain ⟨p, hp, rfl⟩ := List.mem_map.1 h
  simpa using (List.mem_filter.1 hp).2

theorem lt_of_mem_apSources {s : State} {i : Nat} (h : i ∈ apSources s) : i < 1024 := by
  have hi := List.mem_dedup.1 (List.mem_filter.1 h).1
  rw [List.mem_append, List.mem_map, List.mem_map] at hi
  rcases hi with ⟨k, hk, rfl⟩ | ⟨k, hk, rfl⟩ <;>
  · have := (keysIn_bounds hk).2
    omega

/-- A pending bit of a source stands in a register of P0. -/
theorem rd_apPut_pending (s : State) {m i k : Nat} (b : Bool) (hm : m < 2) (hi : i < 1024) (hk : OffP0 k) :
    rd (apPut s m 0x1C00 i b) k = rd s k := by
  refine rd_wr_ne s ?_ _
  unfold OffP0 key at hk
  unfold apBase ic key
  omega

/-- What following its inputs may leave of the state: registers off P0 are as they were, and so is every part but these two. -/
def ApKeeps (s u : State) : Prop := (∀ k, OffP0 k → rd u k = rd s k) ∧ Same [.regs, .aplicIn] s u

theorem ApKeeps.refl (s : State) : ApKeeps s s := ⟨fun _ _ => rfl, Same.refl _ _⟩

theorem ApKeeps.trans {s t u : State} (h : ApKeeps s t) (g : ApKeeps t u) : ApKeeps s u :=
  ⟨fun k hk => (g.1 k hk).trans (h.1 k hk), (h.2.trans g.2).mono (by simp)⟩

theorem apKeeps_aplicIn (s : State) (x : Store Bool) : ApKeeps s { s with aplicIn := x } :=
  ⟨fun _ _ => rfl, (same_aplicIn s x).mono (by simp)⟩

theorem apKeeps_apPut_pending (s : State) {m i : Nat} (b : Bool) (hm : m < 2) (hi : i < 1024) : ApKeeps s (apPut s m 0x1C00 i b) :=
  ⟨fun _ hk => rd_apPut_pending s b hm hi hk, (same_wr s _ _).mono (by simp)⟩

theorem apKeeps_aplicSync (s : State) : ApKeeps s (aplicSync s) := by
  unfold aplicSync
  refine List.foldlRecOn (motive := ApKeeps s) _ _ (ApKeeps.refl s) ?_
  intro t ht i hi
  refine ht.trans ?_
  have h1024 := lt_of_mem_apSources hi
  have hin := apKeeps_aplicIn t (Store.set (fun _ => false) t.aplicIn i (apHigh t i))
  dsimp only
  split
  · exact ApKeeps.refl t
  · split
    · exact hin.trans (apKeeps_apPut_pending _ _ (apDomain_lt _ _) h1024)
    · split
      · exact hin.trans (apKeeps_apPut_pending _ _ (apDomain_lt _ _) h1024)
      · exact hin

/-! ### The write -/

/-- The register keeps the bits that the write does not clear, and those that the G9 sets in its cycle (R14). -/
theorem rd_w1c_same (s : State) {k : Nat} (v same : W64) (hk : OffP0 k) :
    rd (w1c s k v same) k = rd s k &&& ~~~(v &&& ~~~same) := by
  unfold w1c
  rw [(apKeeps_aplicSync _).1 k hk, upd_wr, rd_wr_same, (apKeeps_aplicSync s).1 k hk]

theorem rd_w1c_ne (s : State) {k j : Nat} (v same : W64) (hj : OffP0 j) (h : j ≠ k) : rd (w1c s k v same) j = rd s j := by
  unfold w1c
  rw [(apKeeps_aplicSync _).1 j hj, upd_wr, rd_wr_ne _ h, (apKeeps_aplicSync s).1 j hj]

theorem same_w1c (s : State) (k : Nat) (v same : W64) : Same [.regs, .aplicIn] s (w1c s k v same) :=
  (((apKeeps_aplicSync s).2.trans (same_wr _ k _)).trans (apKeeps_aplicSync _).2).mono (by simp)

end Sys2Proof.Machine
end

section
/-! REGISTER_WRITE (R13, R309): which access reaches a register, and what each access type then makes of it. -/

namespace Sys2Proof.Machine

/-! ### Registers stand at multiples of 8 -/

theorem aligned_of_aW1c {o : Nat} (h : aW1c o = true) : o % 8 = 0 := by
  unfold aW1c at h
  simp only [Bool.or_eq_true, Bool.and_eq_true, decide_eq_true_eq, List.contains_iff_mem, List.mem_cons, List.not_mem_nil,
    or_false] at h
  omega

theorem aligned_of_aMask {o : Nat} (h : aMask o ≠ 0) : o % 8 = 0 := by
  by_contra hne
  refine h ?_
  unfold aMask
  simp only [Bool.and_eq_true, decide_eq_true_eq]
  repeat rw [if_neg (by omega)]

/-! ### Which access reaches a register -/

theorem exec_registerWrite (s : State) (die : Fin 15) (off : BitVec 30) (len : BitVec 4) (v same : W64) :
    exec (.registerWrite die off len v same) s = execRegisterWrite die off len v same s := rfl

theorem exec_registerWrite_misaligned (s : State) (die : Fin 15) (off : BitVec 30) (len : BitVec 4) (v same : W64)
    (h : hartAccess [4, 8] off.toNat len.toNat = false) : exec (.registerWrite die off len v same) s = .next s := by
  simp [exec_registerWrite, execRegisterWrite, h]

theorem exec_registerWrite_whole (s : State) (die : Fin 15) (off : BitVec 30) (v same : W64) (h : off.toNat % 8 = 0) :
    exec (.registerWrite die off 8 v same) s = .next (writeWhole s die.val off.toNat v same) := by
  simp [exec_registerWrite, execRegisterWrite, hartAccess, h]

/-- A write of 8 bytes that is not aligned changes nothing, and neither does one that the register's type refuses. -/
theorem exec_registerWrite_nothing (s : State) (die : Fin 15) (off : BitVec 30) (v same : W64)
    (h : writeWhole s die.val off.toNat v same = s) : exec (.registerWrite die off 8 v same) s = .next s := by
  by_cases h8 : off.toNat % 8 = 0
  · rw [exec_registerWrite_whole s die off v same h8, h]
  · exact exec_registerWrite_misaligned s die off 8 v same (by simp [hartAccess, h8])

/-- A write of a half of an A-die's register is a write of the whole register with the other half's value (R309). -/
theorem exec_registerWrite_half (s : State) (die : Fin 15) (off : BitVec 30) (v same : W64) (hd : die.val < 8)
    (h : off.toNat % 4 = 0) :
    exec (.registerWrite die off 4 v same) s
      = .next (writeWhole s die.val (off.toNat / 8 * 8) (halfValue s die.val off.toNat v) same) := by
  have hp : ¬ 8 ≤ die.val := by omega
  simp [exec_registerWrite, execRegisterWrite, hartAccess, h, hp]

/-! ### What each access type does -/

theorem writeWhole_aDie (s : State) {d : Nat} (o : Nat) (v same : W64) (hd : d < 8) :
    writeWhole s d o v same = writeA s d o v same := by
  simp [writeWhole, hd]

theorem writeA_w1c (s : State) (d : Nat) {o : Nat} (v same : W64) (h : aW1c o = true) :
    writeA s d o v same = w1c s (key d o) v same := by
  simp [writeA, h]

/-- A register with writable bits takes them; TU_RESOLVE has a row of its own, and no mask. -/
theorem writeA_masked (s : State) (d : Nat) {o : Nat} (v same : W64) (h1 : aW1c o = false) (hm : aMask o ≠ 0) :
    writeA s d o v same = wr s (key d o) (v &&& aMask o) := by
  have hr : o ≠ 0x5000020 := by
    rintro rfl
    exact hm (by decide)
  unfold writeA
  rw [if_neg (by simp [h1]), if_neg hr, if_neg hm]

theorem writeA_readOnly (s : State) (d : Nat) {o : Nat} (v same : W64) (h1 : aW1c o = false) (hm : aMask o = 0)
    (hr : o ≠ 0x5000020) : writeA s d o v same = s := by
  unfold writeA
  rw [if_neg (by simp [h1]), if_neg hr, if_pos hm]

theorem writeA_resolveNothing (s : State) (d : Nat) (v same : W64) (h : fld v 10 2 ∈ [0, 3]) :
    writeA s d 0x5000020 v same = tuEvent s d 2 := by
  have h1 : fld v 10 2 ≠ 1 := by rintro e; simp [e] at h
  have h2 : fld v 10 2 ≠ 2 := by rintro e; simp [e] at h
  have hw : aW1c 0x5000020 = false := by decide
  simp [writeA, hw, writeResolve, h1, h2, resolveIgnored]

theorem writeWhole_x0_plain (s : State) {o : Nat} (v same : W64) (h : o ∈ [0x10, 0x18, 0x20, 0x28, 0x1000018]) :
    writeWhole s 12 o v same = wr s (key 12 o) v := by
  simp only [List.mem_cons, List.not_mem_nil, or_false] at h
  rcases h with rfl | rfl | rfl | rfl | rfl <;> rfl

/-- The notice ring's place is taken while the ring is disabled, and its write is an error while it is not (R422). -/
theorem writeWhole_noticeBase (s : State) (v same : W64) :
    writeWhole s 14 0x28 v same = if rdB s (bar0 0x48) 0 then hpEvent s 5 else wr s (bar0 0x28) v := rfl

theorem low_half_eq (v : W64) : v &&& 0xFFFFFFFF = BitVec.ofNat 64 (fld v 0 32) := by
  apply BitVec.eq_of_toNat_eq
  have hm : (v &&& 0xFFFFFFFF).toNat = v.toNat % 2 ^ 32 := Nat.and_two_pow_sub_one_eq_mod v.toNat 32
  simp only [hm, BitVec.toNat_ofNat, fld, natField, Nat.shiftRight_zero]
  omega

/-- The half of an event register that is written carries its bits, and the other half zeros (R309). -/
theorem halfValue_w1c (s : State) {d o : Nat} (v : W64) (h : isW1c d (o / 8 * 8) = true) :
    halfValue s d o v = if o % 8 = 4 then (v &&& 0xFFFFFFFF) <<< 32 else v &&& 0xFFFFFFFF := by
  have hlo : fld (0 : W64) 0 32 = 0 := rfl
  have hhi : fld (0 : W64) 32 32 = 0 := rfl
  unfold halfValue
  simp only [h, if_true, low_half_eq, hlo, hhi]
  split
  · apply BitVec.eq_of_toNat_eq
    simp only [BitVec.toNat_ofNat, BitVec.toNat_shiftLeft, Nat.shiftLeft_eq]
    omega
  · simp

end Sys2Proof.Machine

open Sys2Proof Sys2Proof.Machine

/-- Settles O11: each clause names the access that reaches the register and what the register's access type makes of it. -/
theorem registerWriteFollowsAccessType : Obligations.RegisterWriteFollowsAccessType := by
  intro s die off len v same k
  have hoff : off.toNat < 2 ^ 30 := off.isLt
  have offP0_die (o : Nat) (hd : die.val < 8) (ho : o < 2 ^ 30) : OffP0 (key die.val o) := offP0_key (by omega) ho
  refine ⟨fun h => ⟨s, exec_registerWrite_misaligned s die off len v same h, rfl⟩, fun hd h1 => ?w1c, fun hd h1 hm => ?masked,
    fun hd h1 hm hr => ?readOnly, fun hd ho hf => ?resolve, fun hd h4 h1 hm => ?halfMasked, fun hd h4 h1 => ?halfW1c,
    fun hd ho => ?x0, fun hd ho hb => ?ringOff, fun hd ho hb => ?ringOn⟩
  case w1c =>
    have hk := offP0_die _ hd hoff
    refine ⟨w1c s (key die.val off.toNat) v same, ?_, rd_w1c_same s v same hk, same_w1c s _ v same, ?_⟩
    · rw [exec_registerWrite_whole s die off v same (aligned_of_aW1c h1), writeWhole_aDie s _ v same hd, writeA_w1c s _ v same h1]
    · intro d o _ ho h8 hne
      exact rd_w1c_ne s v same (offP0_key h8 ho) (fun e => hne (by simpa using (key_inj ho hoff).1 e))
  case masked =>
    refine ⟨wr s (key die.val off.toNat) (v &&& aMask off.toNat), ?_, rd_wr_same _ _ _, regsBut_wr _ _ _, same_wr _ _ _⟩
    rw [exec_registerWrite_whole s die off v same (aligned_of_aMask hm), writeWhole_aDie s _ v same hd, writeA_masked s _ v same h1 hm]
  case readOnly =>
    refine ⟨s, exec_registerWrite_nothing s die off v same ?_, Same.refl _ _⟩
    rw [writeWhole_aDie s _ v same hd, writeA_readOnly s _ v same h1 hm hr]
  case resolve =>
    refine ⟨tuEvent s die.val 2, ?_, raised_raise s _ _ _ _ (by omega) (by decide) (by decide) ?_, regsBut_raise _ _ _ _ _ _ _ _,
      same_raise _ _ _ _ _ _ _ _⟩
    · rw [exec_registerWrite_whole s die off v same (by omega), writeWhole_aDie s _ v same hd, ho, writeA_resolveNothing s _ v same hf]
    · unfold mtc key
      omega
  case halfMasked =>
    have hw : aW1c (off.toNat / 8 * 8) = false := by simpa [isW1c, hd] using h1
    refine ⟨wr s k (halfValue s die.val off.toNat v &&& aMask (off.toNat / 8 * 8)), ?_, rd_wr_same _ _ _, regsBut_wr _ _ _,
      same_wr _ _ _⟩
    rw [exec_registerWrite_half s die off v same hd h4, writeWhole_aDie s _ _ same hd, writeA_masked s _ _ same hw hm]
  case halfW1c =>
    have hw : aW1c (off.toNat / 8 * 8) = true := by simpa [isW1c, hd] using h1
    refine ⟨w1c s k (halfValue s die.val off.toNat v) same, ?_, ?_, same_w1c _ _ _ _⟩
    · rw [exec_registerWrite_half s die off v same hd h4, writeWhole_aDie s _ _ same hd, writeA_w1c s _ _ same hw]
    · rw [← halfValue_w1c s v h1]
      exact rd_w1c_same s _ same (offP0_die _ hd (by omega))
  case x0 =>
    refine ⟨wr s (key 12 off.toNat) v, ?_, rd_wr_same _ _ _, regsBut_wr _ _ _, same_wr _ _ _⟩
    have h8 : off.toNat % 8 = 0 := by
      simp only [List.mem_cons, List.not_mem_nil, or_false] at ho
      omega
    rw [exec_registerWrite_whole s die off v same h8, hd, writeWhole_x0_plain s v same ho]
  case ringOff =>
    refine ⟨wr s (bar0 0x28) v, ?_, rd_wr_same _ _ _, regsBut_wr _ _ _, same_wr _ _ _⟩
    rw [exec_registerWrite_whole s die off v same (by omega), hd, ho, writeWhole_noticeBase, hb]
    rfl
  case ringOn =>
    refine ⟨hpEvent s 5, ?_, rdB_wrB_same s _ _ _ (by decide), regsBut_wrB _ _ _ _, same_wr _ _ _⟩
    rw [exec_registerWrite_whole s die off v same (by omega), hd, ho, writeWhole_noticeBase, hb]
    rfl
end

section
/-! The cycle of the MTC domain that an empty queue leaves (entry 5), and MTC_REGISTER_WRITE (R61). -/

namespace Sys2Proof.Machine

/-! ### The move of erased wires to spares (R26, R362) -/

/-- What the move of wires to spares leaves: the count, and every part of the state but these. -/
def CwKeeps (s u : State) : Prop := now u = now s ∧ Same [.regs, .cw, .hist, .port] s u

theorem CwKeeps.refl (s : State) : CwKeeps s s := ⟨rfl, Same.refl _ _⟩

theorem CwKeeps.trans {s t u : State} (h : CwKeeps s t) (g : CwKeeps t u) : CwKeeps s u :=
  ⟨g.1.trans h.1, (h.2.trans g.2).mono (by simp)⟩

theorem CwKeeps.foldl {α : Type} (f : State → α → State) (l : List α) (h : ∀ s, ∀ a ∈ l, CwKeeps s (f s a)) (s : State) :
    CwKeeps s (l.foldl f s) :=
  List.foldlRecOn (motive := CwKeeps s) l f (CwKeeps.refl s) (fun t ht a ha => ht.trans (h t a ha))

theorem cwKeeps_wr (s : State) {k : Nat} (v : W64) (h : k ≠ mtc 0) : CwKeeps s (wr s k v) :=
  ⟨rd_wr_ne s h.symm v, (same_wr s k v).mono (by simp)⟩

theorem cwKeeps_cw (s : State) (x : CwX) : CwKeeps s { s with cw := x } := ⟨rfl, (same_cw s x).mono (by simp)⟩

theorem cwKeeps_unitChanged (s : State) : CwKeeps s (unitChanged s) := ⟨rfl, (same_hist s _).mono (by simp)⟩

/-- The registers of a Chawen block are none of X0's. -/
theorem cw_ne_count {d off : Nat} (hd : d < 12) (ho : off < 2 ^ 20) : cw d off ≠ mtc 0 := by
  unfold cw mtc key
  omega

theorem cwRx_ne_count {d e b : Nat} (hd : d < 12) (he : e < 16) (hb : b < 8) : cwRx d e b ≠ mtc 0 :=
  cw_ne_count hd (by omega)

theorem cwRepair_ne_count {d e b n : Nat} (hd : d < 12) (he : e < 16) (hb : b < 8) (hn : n < 32) : cwRepair d e b (n / 4) ≠ mtc 0 := by
  unfold cwRepair cwRx cw mtc key
  omega

theorem mtc_count_not_mem_noticeKeys : mtc 0 ∉ noticeKeys := not_mem_noticeKeys (d := 12) (by decide) (by decide)

theorem cwKeeps_cwEvent (s : State) {d : Nat} (i : Nat) (hd : d < 12) : CwKeeps s (cwEvent s d i) := by
  have hk : mtc 0 ∉ cw d 8 :: noticeKeys := by
    rw [List.mem_cons, not_or]
    exact ⟨(cw_ne_count hd (by decide)).symm, mtc_count_not_mem_noticeKeys⟩
  exact ⟨now_eq_of_regsBut (regsBut_raise s d 0xA000008 i _ _ _ _) hk, (same_raise s d 0xA000008 i _ _ _ _).mono (by simp)⟩

section
variable {d e b : Nat} (hd : d < 12) (he : e < 16) (hb : b < 8)
include hd he hb

theorem cwKeeps_setErased (s : State) (l : List Nat) : CwKeeps s (setErased s d e b l) := by
  have hrx := cwRx_ne_count hd he hb
  exact (((cwKeeps_cw s _).trans (cwKeeps_wr _ _ hrx)).trans (cwKeeps_wr _ _ hrx)).trans (cwKeeps_wr _ _ (cw_ne_count hd (by decide)))

theorem cwKeeps_useSpare (s : State) {n : Nat} (w : Nat) (hn : n < 32) : CwKeeps s (useSpare s d e b n w) :=
  ((cwKeeps_wr s _ (cwRepair_ne_count hd he hb hn)).trans (cwKeeps_wr _ _ (cwRx_ne_count hd he hb))).trans
    (cwKeeps_wr _ _ (cw_ne_count hd (by decide)))

theorem cwKeeps_remapBundle (s : State) : CwKeeps s (remapBundle s d e b) := by
  unfold remapBundle
  refine CwKeeps.foldl _ _ (fun t w _ => ?_) s
  split
  next n m rest hfree =>
    have hn : n < 32 := by
      have hmem : n ∈ freeSpares t d e b := by simp [hfree]
      exact List.mem_range.1 (List.mem_filter.1 hmem).1
    exact ((((cwKeeps_useSpare hd he hb t w hn).trans (cwKeeps_setErased hd he hb _ _)).trans
      (cwKeeps_wr _ _ (cw_ne_count hd (by decide)))).trans (cwKeeps_unitChanged _)).trans (cwKeeps_cwEvent _ 1 hd)
  next => exact CwKeeps.refl t

end

theorem cwKeeps_remapBlock (s : State) {d : Nat} (entries : Nat) (hd : d < 12) : CwKeeps s (remapBlock s d entries) :=
  CwKeeps.foldl _ _ (fun t k _ => cwKeeps_remapBundle hd (Nat.mod_lt _ (by decide)) (Nat.mod_lt _ (by decide)) t) s

/-! ### A cycle on an empty queue -/

theorem step_idle {s : State} (h : s.pending = []) : step s = .next (idleTick s) := by
  unfold step
  rw [h]

theorem idleTick_eq_mtcTick {s : State} (h : jobRuns (mtcTick s) = true ∨ (mtcTick s).cw.erased = [] ∨ (mtcTick s).dev.vaux = false) :
    idleTick s = mtcTick s := by
  unfold idleTick
  rcases h with h | h | h <;> simp [h]

theorem cwKeeps_idleTick (s : State) : CwKeeps (mtcTick s) (idleTick s) := by
  unfold idleTick
  dsimp only
  split
  · exact CwKeeps.refl _
  · exact CwKeeps.foldl _ _ (fun t d hd => cwKeeps_remapBlock t 16 (List.mem_range.1 hd)) _

theorem mtcTick_without_vaux {s : State} (h : s.dev.vaux = false) : mtcTick s = s := by
  simp [mtcTick, h]

/-- Without a rate correction a cycle lets the count reach its next beat (R50). -/
theorem mtcTick_one_beat {s : State} (hv : s.dev.vaux = true) (hr : rd s (mtc 0x18) = 0) (h0 : 0 ≤ s.mtcx.rateFrac)
    (h1 : s.mtcx.rateFrac < 2 ^ 40) : mtcTick s = advance s (now s + 1) := by
  have hmod : s.mtcx.rateFrac % 2 ^ 40 = s.mtcx.rateFrac := Int.emod_eq_of_lt h0 h1
  have hdiv : s.mtcx.rateFrac / 2 ^ 40 = 0 := Int.ediv_eq_zero_of_lt h0 h1
  have hnow : BitVec.ofInt 64 ((now s).toNat + 1 + 0) = now s + 1 := by
    apply BitVec.eq_of_toNat_eq
    simp only [BitVec.toNat_ofInt, BitVec.toNat_add]
    rfl
  have hz : (0 : W64).toInt = 0 := rfl
  simp only [mtcTick, mtcTick.toSignedInt, hv, hr, if_true, hz, Int.add_zero, hmod, hdiv]
  rw [← hnow]
  rfl

theorem now_advance_one {s : State} (hv : s.dev.vaux = true) (h : (now s).toNat + 1 < 2 ^ 64) : now (advance s (now s + 1)) = now s + 1 := by
  have ht : (now s + 1).toNat = (now s).toNat + 1 := by
    rw [BitVec.toNat_add]
    exact Nat.mod_eq_of_lt h
  rw [now_advance, if_neg]
  rw [ht, hv]
  simp

/-! ### MTC_REGISTER_WRITE (R61) -/

theorem exec_mtcRegisterWrite (s : State) (off : BitVec 24) (v same : W64) :
    exec (.mtcRegisterWrite off v same) s = execMtcRegisterWrite off v same s := rfl

theorem omStatus_ne_ctrl {p : Nat} (hp : p < 16) : omP p 0 ≠ mtc 0x10 := by
  unfold omP om mtc key
  omega

/-- A change of source leaves the register that selects it. -/
theorem rd_sourceChanged_ctrl (s : State) (old : W64) : rd (sourceChanged s old) (mtc 0x10) = rd s (mtc 0x10) := by
  unfold sourceChanged
  split
  · rfl
  · extract_lets s1 s2 x s3
    have h1 : rd s1 (mtc 0x10) = rd s (mtc 0x10) := regsBut_sourceLost s _ (by decide)
    have h2 : RegsBut [mtc 8, mtc 8, mtc 8, mtc 8] s1 s2 :=
      (((regsBut_wrB s1 _ 3 false).trans (regsBut_wrB _ _ 5 false)).trans (regsBut_wrF _ _ 8 4 0)).trans (regsBut_wrF _ _ 12 3 0)
    have h3 : rd s3 (mtc 0x10) = rd s (mtc 0x10) := (regsBut_mtcx s2 x _ (by simp)).trans ((h2 _ (by decide)).trans h1)
    clear_value s3
    refine List.foldlRecOn (motive := fun t => rd t (mtc 0x10) = rd s (mtc 0x10)) _ _ h3 ?_
    intro t ht p hp
    rw [wrB_wr, rd_wr_ne _ (omStatus_ne_ctrl (List.mem_range.1 hp)).symm, ht]

/-- A write that the MTC refuses is a WRITE_IGNORED event (R61, R62). -/
theorem raised_writeIgnored (s : State) : Raised s (mtcEvent s 4) 12 0x4000068 4 :=
  raised_raise s _ _ _ _ (by decide) (by decide) (by decide) (by decide)

/-- The bits of an RW register of the MTC block that a write sets (R61). -/
def mtcMask (o : Nat) : W64 :=
  if o = 0x10 then 0x7F else if o = 0x28 then 0xFFFFFF else if o = 0x30 then 0xFFFF else 0xFFFFFFFF

/-- The RW registers of the MTC block (R61). -/
def mtcRw (o : Nat) : Prop := o = 0x10 ∨ o = 0x28 ∨ o = 0x30 ∨ o = 0x38

theorem execMtcRegisterWrite_ctrl (s : State) {off : BitVec 24} (v same : W64) (ho : off.toNat = 0x10)
    (hm : s.dev.state = .maintenance) (hv : fld v 0 2 ≠ 3) :
    execMtcRegisterWrite off v same s = .next (sourceChanged (wr s (mtc 0x10) (v &&& 0x7F)) (rd s (mtc 0x10))) := by
  simp [execMtcRegisterWrite, ho, hm, hv]

theorem execMtcRegisterWrite_plain (s : State) {off : BitVec 24} (v same : W64) (ho : mtcRw off.toNat) (h10 : off.toNat ≠ 0x10)
    (hm : s.dev.state = .maintenance) :
    execMtcRegisterWrite off v same s = .next (wr s (mtc off.toNat) (v &&& mtcMask off.toNat)) := by
  rcases ho with h | h | h | h
  · exact absurd h h10
  all_goals simp [execMtcRegisterWrite, mtcMask, h, hm]

theorem execMtcRegisterWrite_ignored (s : State) {off : BitVec 24} (v same : W64) (ho : mtcRw off.toNat)
    (h : s.dev.state ≠ .maintenance ∨ (off.toNat = 0x10 ∧ fld v 0 2 = 3)) :
    execMtcRegisterWrite off v same s = .next (mtcEvent s 4) := by
  have hrw : (off.toNat = 0x10 || off.toNat = 0x28 || off.toNat = 0x30 || off.toNat = 0x38) = true := by
    simpa [mtcRw, or_assoc] using ho
  unfold execMtcRegisterWrite
  simp only [hrw, if_true]
  by_cases hm : s.dev.state = .maintenance
  · obtain ⟨h10, hv⟩ := h.resolve_left (fun hn => hn hm)
    simp [hm, h10, hv]
  · simp [hm]

theorem execMtcRegisterWrite_event (s : State) {off : BitVec 24} (v same : W64) (ho : off.toNat = 0x68) :
    execMtcRegisterWrite off v same s = .next (w1c s (mtc 0x68) v same) := by
  simp [execMtcRegisterWrite, ho]

end Sys2Proof.Machine

open Sys2Proof Sys2Proof.Machine

/-- Settles O8: the cycle of an empty queue through `mtcTick` and the move of wires, and one case per kind of register write. -/
theorem mtcCountsAndRegisters : Obligations.MtcCountsAndRegisters := by
  refine ⟨fun s hq => ⟨fun hv hr h0 h1 hn => ?beat, fun hv => ?noSupply⟩, fun s off v same => ?_⟩
  case beat =>
    have htick := mtcTick_one_beat hv hr h0 h1
    have hsame : Same [.regs, .mtcx] s (mtcTick s) := htick ▸ same_advance s _
    have hregs : RegsBut [mtc 0, mtc 8, mtc 0x58] s (mtcTick s) := htick ▸ regsBut_advance s _
    obtain ⟨hnow, hidle⟩ := cwKeeps_idleTick s
    refine ⟨idleTick s, step_idle hq, ?_, (hsame.trans hidle).mono (by simp), fun hj => ?_⟩
    · rw [hnow, htick, now_advance_one hv hn]
    · have hjob : (mtcTick s).job = s.job := hsame .job (by decide)
      have hcw : (mtcTick s).cw = s.cw := hsame .cw (by decide)
      have hstay : jobRuns (mtcTick s) = true ∨ (mtcTick s).cw.erased = [] := by
        unfold jobRuns at hj ⊢
        rwa [hjob, hcw]
      rw [idleTick_eq_mtcTick (hstay.imp_right .inl)]
      exact ⟨hregs, hsame⟩
  case noSupply =>
    have htick := mtcTick_without_vaux hv
    rw [step_idle hq, idleTick_eq_mtcTick (.inr (.inr (by rw [htick, hv]))), htick]
  intro o rw
  refine ⟨fun ho hm hv => ?_, fun ho h => ?_, fun ho => ?_⟩
  · by_cases h10 : o = 0x10
    · refine ⟨_, execMtcRegisterWrite_ctrl s v same h10 hm (hv h10), ?_, fun hne => absurd h10 hne⟩
      rw [h10, rd_sourceChanged_ctrl, rd_wr_same]
      rfl
    · exact ⟨_, execMtcRegisterWrite_plain s v same ho h10 hm, rd_wr_same _ _ _, fun _ => ⟨regsBut_wr _ _ _, same_wr _ _ _⟩⟩
  · exact ⟨_, execMtcRegisterWrite_ignored s v same ho h, raised_writeIgnored s, regsBut_mtcEvent s 4, same_mtcEvent s 4⟩
  · exact ⟨_, execMtcRegisterWrite_event s v same ho, rd_w1c_same s v same (offP0_key (by decide) (by decide)), same_w1c _ _ _ _⟩
end

section
/-! The queue and the identity (the seed, the GPID, the ordering code, the operator hash) under the model's operations: `fixedPart`
reads them off a state, each operation leaves `fixedPart` as it is, and a fold does when its step does. The one exception, the
fuses of start step 2 (R482), stands at the end. A proof that is `(rfl)` in brackets keeps simp from using the lemma by
unfolding: it then rewrites with it, and no check compares two whole states. -/

namespace Sys2Proof.Machine

/-- The identity seed, the GPID, the ordering code and the operator key hash. -/
def identity (g : GuardX) : BitVec 256 × W32 × Nat × Option (List Byte) :=
  (g.deviceSeed, g.gpid, g.ordering, g.operatorHash)

/-- The queue and the identity. -/
def fixedPart (s : State) : List Instr × BitVec 256 × W32 × Nat × Option (List Byte) := (s.pending, identity s.guard)

@[simp] theorem identity_mk {d p o h x4 x5 x6 x7 x8 x9 x10 x11 x12 x13 x14 x15} :
    identity (.mk d p o h x4 x5 x6 x7 x8 x9 x10 x11 x12 x13 x14 x15) = (d, p, o, h) := (rfl)

@[simp] theorem identity_eta (g : GuardX) : (g.deviceSeed, g.gpid, g.ordering, g.operatorHash) = identity g := (rfl)

@[simp] theorem fixedPart_mk {q x1 x2 x3 x4 x5 x6 x7 x8 x9 x10 x11 x12 x13 x14 x15 x16 x17 x18 x19 g x21 x22 x23 x24 x25 x26 x27
      x28 x29 x30 x31 x32 x33 x34 x35 x36 x37 x38 x39 x40 x41 x42 x43 x44 x45 x46 x47 x48 x49 x50 x51 x52 x53 x54 x55 x56 x57
      x58 x59 x60 x61 x62 x63 x64 x65 x66} :
    fixedPart (.mk q x1 x2 x3 x4 x5 x6 x7 x8 x9 x10 x11 x12 x13 x14 x15 x16 x17 x18 x19 g x21 x22 x23 x24 x25 x26 x27
      x28 x29 x30 x31 x32 x33 x34 x35 x36 x37 x38 x39 x40 x41 x42 x43 x44 x45 x46 x47 x48 x49 x50 x51 x52 x53 x54 x55 x56 x57
      x58 x59 x60 x61 x62 x63 x64 x65 x66) = (q, identity g) := (rfl)

@[simp] theorem fixedPart_eta (s : State) : (s.pending, identity s.guard) = fixedPart s := (rfl)

@[simp] theorem fixedPart_ite (c : Prop) [Decidable c] (a b : State) :
    fixedPart (if c then a else b) = if c then fixedPart a else fixedPart b := apply_ite fixedPart c a b

/-- A fold keeps the fixed part of the state in its accumulator when each of its steps does. -/
theorem fixedPart_foldl_of {σ α : Type} (p : σ → State) {f : σ → α → σ} (h : ∀ r a, fixedPart (p (f r a)) = fixedPart (p r))
    (l : List α) (r : σ) : fixedPart (p (l.foldl f r)) = fixedPart (p r) := by
  induction l generalizing r with
  | nil => rfl
  | cons a l ih => rw [List.foldl_cons, ih, h]

@[simp] theorem fixedPart_foldl {α : Type} {f : State → α → State} (h : ∀ s a, fixedPart (f s a) = fixedPart s)
    (l : List α) (s : State) : fixedPart (l.foldl f s) = fixedPart s := fixedPart_foldl_of id h l s

@[simp] theorem fixedPart_foldr {α : Type} {f : α → State → State} (h : ∀ a s, fixedPart (f a s) = fixedPart s)
    (l : List α) (s : State) : fixedPart (l.foldr f s) = fixedPart s := by
  induction l with
  | nil => rfl
  | cons a l ih => rw [List.foldr_cons, h, ih]

/-- If the command answers a next state, that state has the same queue and identity. -/
def Keeps (s : State) (o : Host.Outcome State Fault Refusal) : Prop := ∀ u, o = .next u → fixedPart u = fixedPart s

@[simp] theorem keeps_next {s u : State} : Keeps s (.next u) ↔ fixedPart u = fixedPart s := by simp [Keeps]

/-! ### Ops -/

@[simp] theorem fixedPart_wr (s k v) : fixedPart (wr s k v) = fixedPart s := (rfl)
@[simp] theorem fixedPart_upd (s k f) : fixedPart (upd s k f) = fixedPart s := by simp [upd]
@[simp] theorem fixedPart_wrF (s k lo len v) : fixedPart (wrF s k lo len v) = fixedPart s := by simp [wrF]
@[simp] theorem fixedPart_wrB (s k i b) : fixedPart (wrB s k i b) = fixedPart s := by simp [wrB]
@[simp] theorem fixedPart_inc (s k) : fixedPart (inc s k) = fixedPart s := by simp [inc]
@[simp] theorem fixedPart_incBy (s k n) : fixedPart (incBy s k n) = fixedPart s := by simp [incBy]
@[simp] theorem fixedPart_drawWord (s) : fixedPart (drawWord s).2 = fixedPart s := (rfl)
@[simp] theorem fixedPart_drawBytes (s n) : fixedPart (drawBytes s n).2 = fixedPart s := (rfl)
@[simp] theorem fixedPart_otherOp (s mine key kind) : fixedPart (otherOp s mine key kind) = fixedPart s := by simp [otherOp]
@[simp] theorem fixedPart_pushNotice (s typ status src code d0 d1 d2 d3) :
    fixedPart (pushNotice s typ status src code d0 d1 d2 d3) = fixedPart s := (rfl)
@[simp] theorem fixedPart_hpEvent (s i) : fixedPart (hpEvent s i) = fixedPart s := by simp [hpEvent]
@[simp] theorem fixedPart_overflowNotice (s) : fixedPart (overflowNotice s) = fixedPart s := by simp [overflowNotice]
@[simp] theorem fixedPart_post (s typ status src code d0 d1 d2 d3) :
    fixedPart (post s typ status src code d0 d1 d2 d3) = fixedPart s := by simp [post]
@[simp] theorem fixedPart_raise (s d off i w0 w1 w2 w3) : fixedPart (raise s d off i w0 w1 w2 w3) = fixedPart s := by simp [raise]
@[simp] theorem fixedPart_mtcEvent (s i) : fixedPart (mtcEvent s i) = fixedPart s := by simp [mtcEvent]
@[simp] theorem fixedPart_mtcMove (s st) : fixedPart (mtcMove s st) = fixedPart s := by simp [mtcMove]
@[simp] theorem fixedPart_gdEvent (s i) : fixedPart (gdEvent s i) = fixedPart s := by simp [gdEvent]
@[simp] theorem fixedPart_forgetGranules (s base n) : fixedPart (forgetGranules s base n) = fixedPart s := (rfl)
@[simp] theorem fixedPart_destroyKeys (s) : fixedPart (destroyKeys s) = fixedPart s := by simp [destroyKeys]
@[simp] theorem fixedPart_setJob (s st status) : fixedPart (setJob s st status) = fixedPart s := by simp [setJob]
@[simp] theorem fixedPart_setDevice (s st status) : fixedPart (setDevice s st status) = fixedPart s := by simp [setDevice]
@[simp] theorem fixedPart_refreshAlerts (s) : fixedPart (refreshAlerts s) = fixedPart s := by simp [refreshAlerts]
@[simp] theorem fixedPart_unitChanged (s) : fixedPart (unitChanged s) = fixedPart s := (rfl)
@[simp] theorem fixedPart_updCmd (s q f) : fixedPart (updCmd s q f) = fixedPart s := by simp [updCmd]
@[simp] theorem fixedPart_doneCmd (s q status detail value result) :
    fixedPart (doneCmd s q status detail value result) = fixedPart s := by simp [doneCmd]
@[simp] theorem fixedPart_failCmd (s q status) : fixedPart (failCmd s q status) = fixedPart s := by simp [failCmd]

@[simp] theorem fixedPart_endJobCmds (s status) : fixedPart (endJobCmds s status) = fixedPart s := by
  simp only [endJobCmds]
  repeat' split
  all_goals simp

@[simp] theorem fixedPart_ttFailed (s) : fixedPart (ttFailed s) = fixedPart s := by simp [ttFailed]
@[simp] theorem fixedPart_failJob (s status) : fixedPart (failJob s status) = fixedPart s := by simp [failJob]
@[simp] theorem fixedPart_openGates (s) : fixedPart (openGates s) = fixedPart s := by simp [openGates]
@[simp] theorem fixedPart_failDevice (s) : fixedPart (failDevice s) = fixedPart s := by simp [failDevice]

/-! ### Aplic -/

@[simp] theorem fixedPart_apPut (s m off i b) : fixedPart (apPut s m off i b) = fixedPart s := by simp [apPut]
@[simp] theorem fixedPart_aplicSync (s) : fixedPart (aplicSync s) = fixedPart s := by simp [aplicSync]
@[simp] theorem fixedPart_apSend (s m w) : fixedPart (apSend s m w) = fixedPart s := by simp [apSend]

@[simp] theorem fixedPart_aplicForward (s) : fixedPart (aplicForward s) = fixedPart s := by
  simp only [aplicForward, fixedPart_ite]
  repeat' split
  all_goals simp

@[simp] theorem fixedPart_apSetPending (s m i) : fixedPart (apSetPending s m i) = fixedPart s := by simp [apSetPending]
@[simp] theorem fixedPart_apSource (s m off i b) : fixedPart (apSource s m off i b) = fixedPart s := by simp [apSource]
@[simp] theorem fixedPart_apSourceCfg (s m i w) : fixedPart (apSourceCfg s m i w) = fixedPart s := by simp [apSourceCfg]
@[simp] theorem fixedPart_aplicWrite (s m o w) : fixedPart (aplicWrite s m o w) = fixedPart s := by simp [aplicWrite]
@[simp] theorem fixedPart_w1c (s k v same) : fixedPart (w1c s k v same) = fixedPart s := by simp [w1c]

/-! ### Mtc -/

@[simp] theorem fixedPart_advance (s t) : fixedPart (advance s t) = fixedPart s := by
  simp only [advance, fixedPart_ite]
  repeat' split
  all_goals simp

@[simp] theorem fixedPart_sourceLost (s) : fixedPart (sourceLost s) = fixedPart s := by simp [sourceLost]
@[simp] theorem fixedPart_shiftParts (s f) : fixedPart (shiftParts s f) = fixedPart s := (rfl)
@[simp] theorem fixedPart_shiftTimers (s d) : fixedPart (shiftTimers s d) = fixedPart s := by simp [shiftTimers]
@[simp] theorem fixedPart_mtcStep (s off) : fixedPart (mtcStep s off) = fixedPart s := by simp [mtcStep]
@[simp] theorem fixedPart_slewed (s off since) : fixedPart (slewed s off since).2 = fixedPart s := by simp [slewed]

@[simp] theorem fixedPart_applyStep (s) : fixedPart (applyStep s) = fixedPart s := by
  unfold applyStep
  split <;> simp

@[simp] theorem fixedPart_learn (s) : fixedPart (learn s) = fixedPart s := by simp [learn]
@[simp] theorem fixedPart_runsReset (s) : fixedPart (runsReset s) = fixedPart s := (rfl)
@[simp] theorem fixedPart_measure (s off goodRun badRun) : fixedPart (measure s off goodRun badRun) = fixedPart s := by
  simp [measure]
@[simp] theorem fixedPart_missEdge (s base) : fixedPart (missEdge s base) = fixedPart s := by simp [missEdge]

@[simp] theorem fixedPart_ttodMessage (s t msg) : fixedPart (ttodMessage s t msg) = fixedPart s := by
  simp only [ttodMessage, fixedPart_ite, fixedPart_advance, fixedPart_upd, fixedPart_wr, fixedPart_wrB, fixedPart_mtcEvent
    , fixedPart_mtcMove, fixedPart_mk, fixedPart_eta, ite_self]

@[simp] theorem fixedPart_tppsEdge (s t) : fixedPart (tppsEdge s t) = fixedPart s := by
  simp only [tppsEdge, fixedPart_ite]
  repeat' split
  all_goals simp

@[simp] theorem fixedPart_ibMeasure (s off) : fixedPart (ibMeasure s off) = fixedPart s := by simp [ibMeasure]
@[simp] theorem fixedPart_noteCause (s d bit) : fixedPart (noteCause s d bit) = fixedPart s := (rfl)
@[simp] theorem keeps_execTrefLost (t s) : Keeps s (execTrefLost t s) := by simp [execTrefLost]
@[simp] theorem keeps_execTrefReturn (t s) : Keeps s (execTrefReturn t s) := by simp [execTrefReturn]
@[simp] theorem keeps_execTrefHoldExpiry (t s) : Keeps s (execTrefHoldExpiry t s) := by simp [execTrefHoldExpiry]
@[simp] theorem keeps_execTtodTimeout (t s) : Keeps s (execTtodTimeout t s) := by simp [execTtodTimeout]

@[simp] theorem keeps_execTppsMissing (t s) : Keeps s (execTppsMissing t s) := by
  simp only [execTppsMissing, keeps_next]
  split <;> simp

@[simp] theorem keeps_execHoldoverExpiry (t s) : Keeps s (execHoldoverExpiry t s) := by simp [execHoldoverExpiry]
@[simp] theorem keeps_execHoldEligible (t s) : Keeps s (execHoldEligible t s) := by simp [execHoldEligible]
@[simp] theorem fixedPart_sourceChanged (s old) : fixedPart (sourceChanged s old) = fixedPart s := by simp [sourceChanged]
@[simp] theorem keeps_execMtcRegisterWrite (off v same s) : Keeps s (execMtcRegisterWrite off v same s) := by
  simp [execMtcRegisterWrite]

/-! ### Memory -/

@[simp] theorem fixedPart_wrBytes (s a l) : fixedPart (wrBytes s a l) = fixedPart s := by simp [wrBytes]
@[simp] theorem fixedPart_ttEvent (s d i) : fixedPart (ttEvent s d i) = fixedPart s := by simp [ttEvent]
@[simp] theorem fixedPart_denyAt (s h pa die kind) : fixedPart (denyAt s h pa die kind) = fixedPart s := by simp [denyAt]
@[simp] theorem fixedPart_deny (s pa die kind) : fixedPart (deny s pa die kind) = fixedPart s := by simp [deny]
@[simp] theorem fixedPart_jPut (s d l v) : fixedPart (jPut s d l v) = fixedPart s := (rfl)
@[simp] theorem fixedPart_putLine (s l v) : fixedPart (putLine s l v) = fixedPart s := (rfl)
@[simp] theorem fixedPart_dirDrop (s l) : fixedPart (dirDrop s l) = fixedPart s := by simp [dirDrop]

@[simp] theorem fixedPart_dirRefresh (s l) : fixedPart (dirRefresh s l) = fixedPart s := by
  unfold dirRefresh
  split <;> simp

@[simp] theorem fixedPart_invalidateLine (s l keep) : fixedPart (invalidateLine s l keep) = fixedPart s := by
  unfold invalidateLine
  split <;> simp

@[simp] theorem fixedPart_snoopReadLine (s l) : fixedPart (snoopReadLine s l) = fixedPart s := by simp [snoopReadLine]
@[simp] theorem fixedPart_cohTouch (s a n) : fixedPart (cohTouch s a n) = fixedPart s := by simp [cohTouch]
@[simp] theorem fixedPart_cohWrite (s a l) : fixedPart (cohWrite s a l) = fixedPart s := by simp [cohWrite]

@[simp] theorem fixedPart_dirtyEvict (s l) : fixedPart (dirtyEvict s l) = fixedPart s := by
  unfold dirtyEvict
  split <;> simp

@[simp] theorem fixedPart_hostPut (s x v) : fixedPart (hostPut s x v) = fixedPart s := by simp [hostPut]
@[simp] theorem fixedPart_hostPosted (s a l) : fixedPart (hostPosted s a l) = fixedPart s := by simp [hostPosted]
@[simp] theorem fixedPart_hostWrite (s a l) : fixedPart (hostWrite s a l) = fixedPart s := by simp [hostWrite]
@[simp] theorem fixedPart_hostFlush (s a n) : fixedPart (hostFlush s a n) = fixedPart s := by simp [hostFlush]

/-! ### Pipe -/

@[simp] theorem fixedPart_setEng (s d e f) : fixedPart (setEng s d e f) = fixedPart s := (rfl)
@[simp] theorem fixedPart_setPlane (s d q mode anchor) : fixedPart (setPlane s d q mode anchor) = fixedPart s := by
  simp [setPlane]
@[simp] theorem fixedPart_setCell (s d q ix c) : fixedPart (setCell s d q ix c) = fixedPart s := by simp [setCell]
@[simp] theorem fixedPart_vcEvent (s d c i) : fixedPart (vcEvent s d c i) = fixedPart s := by simp [vcEvent]
@[simp] theorem fixedPart_maEvent (s d i) : fixedPart (maEvent s d i) = fixedPart s := by simp [maEvent]
@[simp] theorem fixedPart_orMaFlags (s d f) : fixedPart (orMaFlags s d f) = fixedPart s := by simp [orMaFlags]
@[simp] theorem fixedPart_orVcFlags (s d c g f) : fixedPart (orVcFlags s d c g f) = fixedPart s := by simp [orVcFlags]

@[simp] theorem fixedPart_applyPut (s d e p) : fixedPart (applyPut s d e p) = fixedPart s := by
  unfold applyPut
  split <;> simp

@[simp] theorem fixedPart_doWrites (s d e t) : fixedPart (doWrites s d e t) = fixedPart s := by simp [doWrites]
@[simp] theorem fixedPart_setDie (s d f) : fixedPart (setDie s d f) = fixedPart s := (rfl)
@[simp] theorem fixedPart_lateCauses (s d causes) : fixedPart (lateCauses s d causes) = fixedPart s := by simp [lateCauses]
@[simp] theorem fixedPart_countHold (s d causes) : fixedPart (countHold s d causes) = fixedPart s := by simp [countHold]
@[simp] theorem fixedPart_countLate (s d k beats causes) : fixedPart (countLate s d k beats causes) = fixedPart s := by
  simp [countLate]
@[simp] theorem fixedPart_setHold (s d e h) : fixedPart (setHold s d e h) = fixedPart s := by simp [setHold]
@[simp] theorem fixedPart_sendSig (s o) : fixedPart (sendSig s o) = fixedPart s := (rfl)
@[simp] theorem fixedPart_sendAdd1 (s d e sig) : fixedPart (sendAdd1 s d e sig) = fixedPart s := by simp [sendAdd1]

/-! ### Links -/

@[simp] theorem fixedPart_setPort (s p f) : fixedPart (setPort s p f) = fixedPart s := by simp [setPort]
@[simp] theorem fixedPart_omEvent (s p i) : fixedPart (omEvent s p i) = fixedPart s := by simp [omEvent]
@[simp] theorem fixedPart_ceEvent (s d i) : fixedPart (ceEvent s d i) = fixedPart s := by simp [ceEvent]
@[simp] theorem fixedPart_setSelf (s gpid pos rank inJob) : fixedPart (setSelf s gpid pos rank inJob) = fixedPart s := by
  simp [setSelf]
@[simp] theorem fixedPart_enqueue (s p f) : fixedPart (enqueue s p f) = fixedPart s := by simp [enqueue]

@[simp] theorem fixedPart_sendBooked (s kind path dst owner pl) :
    fixedPart (sendBooked s kind path dst owner pl) = fixedPart s := by
  unfold sendBooked
  split <;> simp

@[simp] theorem fixedPart_sendUnbooked (s d kind tag dst pl) : fixedPart (sendUnbooked s d kind tag dst pl).1 = fixedPart s := by
  unfold sendUnbooked
  split <;> simp

/-! ### Signals -/

@[simp] theorem fixedPart_setThread (s k f) : fixedPart (setThread s k f) = fixedPart s := (rfl)
@[simp] theorem fixedPart_answerSig (s o old) : fixedPart (answerSig s o old) = fixedPart s := by simp [answerSig]
@[simp] theorem fixedPart_applySig (s o) : fixedPart (applySig s o) = fixedPart s := by simp [applySig]

@[simp] theorem fixedPart_seeWaits (s d) : fixedPart (seeWaits s d) = fixedPart s := by
  unfold seeWaits
  extract_lets s1 s2
  have h1 : fixedPart s1 = fixedPart s := by
    refine fixedPart_foldl (fun s e => ?_) _ _
    split <;> simp
  have h2 : fixedPart s2 = fixedPart s1 := by
    refine fixedPart_foldl (fun s k => ?_) _ _
    split <;> simp
  simp [h2, h1]

@[simp] theorem keeps_execSignalOpArrival (d picks s) : Keeps s (execSignalOpArrival d picks s) := by simp [execSignalOpArrival]
@[simp] theorem fixedPart_sgWrite (s d k v add) : fixedPart (sgWrite s d k v add) = fixedPart s := by simp [sgWrite]
@[simp] theorem keeps_execSgWaitCfgWrite (d w v s) : Keeps s (execSgWaitCfgWrite d w v s) := by simp [execSgWaitCfgWrite]
@[simp] theorem keeps_execWaitSlotFire (d w s) : Keeps s (execWaitSlotFire d w s) := by simp [execWaitSlotFire]

/-! ### Translate -/

@[simp] theorem fixedPart_tuEvent (s d i) : fixedPart (tuEvent s d i) = fixedPart s := by simp [tuEvent]

@[simp] theorem fixedPart_afterTranslate (s d e va write) : fixedPart (afterTranslate s d e va write) = fixedPart s := by
  simp only [afterTranslate, fixedPart_ite]
  repeat' split
  all_goals simp

@[simp] theorem fixedPart_afterPieces (d e write s l) : fixedPart (afterPieces d e write s l) = fixedPart s := by
  induction l generalizing s with
  | nil => rfl
  | cons p t ih =>
    unfold afterPieces
    dsimp only
    split <;> simp [ih]

@[simp] theorem fixedPart_afterVirt (s d e va n write) : fixedPart (afterVirt s d e va n write) = fixedPart s := by
  simp [afterVirt]

@[simp] theorem fixedPart_faultRecord (s d e k window cause write va) :
    fixedPart (faultRecord s d e k window cause write va) = fixedPart s := by
  unfold faultRecord
  repeat' split
  all_goals simp

@[simp] theorem fixedPart_freeRec (s d i) : fixedPart (freeRec s d i) = fixedPart s := by
  simp only [freeRec]
  split <;> simp

@[simp] theorem fixedPart_freeAllRecs (s) : fixedPart (freeAllRecs s) = fixedPart s := by simp [freeAllRecs]
@[simp] theorem fixedPart_winCacheFill (s d v g) : fixedPart (winCacheFill s d v g) = fixedPart s := by simp [winCacheFill]

@[simp] theorem fixedPart_denyRemote (s d refused) : fixedPart (denyRemote s d refused) = fixedPart s := by
  unfold denyRemote
  split <;> simp

@[simp] theorem keeps_execTuSatpWrite (d v s) : Keeps s (execTuSatpWrite d v s) := by simp [execTuSatpWrite]
@[simp] theorem keeps_execTranslationWalk (d e va write s) : Keeps s (execTranslationWalk d e va write s) := by
  simp [execTranslationWalk]

@[simp] theorem fixedPart_walkComplete (s d e) : fixedPart (walkComplete s d e) = fixedPart s := by
  simp only [walkComplete]
  repeat' split
  all_goals simp

@[simp] theorem keeps_execFaultKeyArrival (d sender k window s) : Keeps s (execFaultKeyArrival d sender k window s) := by
  simp only [execFaultKeyArrival, keeps_next, fixedPart_ite]
  repeat' split
  all_goals simp

@[simp] theorem keeps_execOwWindowWrite (d recv w v s) : Keeps s (execOwWindowWrite d recv w v s) := by simp [execOwWindowWrite]
@[simp] theorem keeps_execTuWinfence (d v s) : Keeps s (execTuWinfence d v s) := by simp [execTuWinfence]
@[simp] theorem keeps_execWinfenceDone (s) : Keeps s (execWinfenceDone s) := by simp [execWinfenceDone]

/-! ### StreamCache -/

@[simp] theorem fixedPart_scPut (s cl i e) : fixedPart (scPut s cl i e) = fixedPart s := (rfl)
@[simp] theorem fixedPart_setStream (s cl n f) : fixedPart (setStream s cl n f) = fixedPart s := (rfl)
@[simp] theorem fixedPart_scRefresh (s cl) : fixedPart (scRefresh s cl) = fixedPart s := by simp [scRefresh]
@[simp] theorem fixedPart_scWriteBack (s cl i which) : fixedPart (scWriteBack s cl i which) = fixedPart s := by simp [scWriteBack]
@[simp] theorem fixedPart_scDrop (s cl i which) : fixedPart (scDrop s cl i which) = fixedPart s := by simp [scDrop]
@[simp] theorem fixedPart_scFlush (s cl) : fixedPart (scFlush s cl) = fixedPart s := by simp [scFlush]

@[simp] theorem fixedPart_scAlloc (s cl page ppage) : fixedPart (scAlloc s cl page ppage).1 = fixedPart s := by
  unfold scAlloc
  split <;> simp

@[simp] theorem fixedPart_scFill (s cl i k) : fixedPart (scFill s cl i k) = fixedPart s := by simp [scFill]
@[simp] theorem fixedPart_scTouch (s cl i) : fixedPart (scTouch s cl i) = fixedPart s := by simp [scTouch]
@[simp] theorem fixedPart_strideMiss (s cl n x) : fixedPart (strideMiss s cl n x) = fixedPart s := by simp [strideMiss]
@[simp] theorem fixedPart_prefetch (s cl a) : fixedPart (prefetch s cl a) = fixedPart s := by simp [prefetch]

@[simp] theorem fixedPart_stridePrefetch (s cl n x) : fixedPart (stridePrefetch s cl n x) = fixedPart s := by
  simp only [stridePrefetch]
  split <;> simp

@[simp] theorem fixedPart_scCount (s cl n x as got) : fixedPart (scCount s cl n x as got) = fixedPart s := by simp [scCount]

@[simp] theorem fixedPart_scNeed (s cl a pp) : fixedPart (scNeed s cl a pp) = fixedPart s := by
  simp only [scNeed]
  split <;> simp

@[simp] theorem fixedPart_scLoadFrom (s d c n a len got) : fixedPart (scLoadFrom s d c n a len got).1 = fixedPart s := by
  unfold scLoadFrom
  dsimp only
  simp only [fixedPart_scRefresh, fixedPart_stridePrefetch]
  refine (fixedPart_foldl_of Prod.fst (fun p x => ?_) _ _).trans ?_ <;> simp

@[simp] theorem fixedPart_scLoad (s d c n a len) : fixedPart (scLoad s d c n a len).2 = fixedPart s := by simp [scLoad]

@[simp] theorem fixedPart_scPutSector (s cl x ws) : fixedPart (scPutSector s cl x ws) = fixedPart s := by
  unfold scPutSector
  split <;> simp

@[simp] theorem fixedPart_scStores (d c n s done l) : fixedPart (scStores d c n s done l) = fixedPart s := by
  induction l generalizing s done with
  | nil => simp [scStores]
  | cons w rest ih =>
    unfold scStores
    extract_lets cl s1 st seq as direct s2 s3 s4 s5 new s6
    have h4 : fixedPart s4 = fixedPart s := by
      unfold s4
      split <;> simp [s3, s2, s1]
    have h5 : fixedPart s5 = fixedPart s4 := by
      refine fixedPart_foldl (fun s x => ?_) _ _
      split <;> simp
    have h6 : fixedPart s6 = fixedPart s5 := fixedPart_foldl (fun s x => by simp) _ _
    simp [ih, h6, h5, h4]

@[simp] theorem fixedPart_scStore (s d c n a l) : fixedPart (scStore s d c n a l) = fixedPart s := by simp [scStore]
@[simp] theorem fixedPart_scRangeOp (s cl op base len) : fixedPart (scRangeOp s cl op base len) = fixedPart s := by
  simp [scRangeOp]

@[simp] theorem fixedPart_gatherAll (s d c o cfg got) : fixedPart (gatherAll s d c o cfg got).1 = fixedPart s := by
  refine fixedPart_foldl_of (fun a : State × Fetched × List Nat × Bool => a.1) (fun a i => ?_) _ _
  dsimp only
  split
  · split <;> rfl
  · simp

@[simp] theorem fixedPart_scatterAll (s d c o cfg got) : fixedPart (scatterAll s d c o cfg got).1 = fixedPart s := by
  unfold scatterAll
  dsimp only
  split
  · refine fixedPart_foldl_of Prod.fst (fun a w => ?_) _ _
    split <;> simp
  · simp

/-! ### Engine -/

@[simp] theorem fixedPart_doRead (s d e r) : fixedPart (doRead s d e r) = fixedPart s := by simp [doRead]
@[simp] theorem fixedPart_doReads (s d e t) : fixedPart (doReads s d e t) = fixedPart s := by simp [doReads]

@[simp] theorem fixedPart_runTo (fuel s d e t) : fixedPart (runTo fuel s d e t) = fixedPart s := by
  induction fuel generalizing s with
  | zero => rfl
  | succ fuel ih =>
    unfold runTo
    split
    · rfl
    · split <;> simp [ih]

@[simp] theorem fixedPart_reach (s d e t) : fixedPart (reach s d e t) = fixedPart s := by simp [reach]
@[simp] theorem fixedPart_atIssue (s d e c) : fixedPart (atIssue s d e c) = fixedPart s := by simp [atIssue]
@[simp] theorem fixedPart_holdAt (s d e c h) : fixedPart (holdAt s d e c h) = fixedPart s := by simp [holdAt]
@[simp] theorem fixedPart_letGo (s d e) : fixedPart (letGo s d e) = fixedPart s := by simp [letGo]
@[simp] theorem fixedPart_launch (s d e c p) : fixedPart (launch s d e c p) = fixedPart s := by simp [launch]

@[simp] theorem keeps_execNop (d e issue s) : Keeps s (execNop d e issue s) := by
  unfold execNop
  split <;> simp

@[simp] theorem fixedPart_remoteSignal (s o add) : fixedPart (remoteSignal s o add) = fixedPart s := by simp [remoteSignal]
@[simp] theorem fixedPart_signalOut (s d e o add) : fixedPart (signalOut s d e o add) = fixedPart s := by simp [signalOut]
@[simp] theorem fixedPart_signalWait (s d e o op) : fixedPart (signalWait s d e o op) = fixedPart s := by simp [signalWait]
@[simp] theorem keeps_execSigSet (d e issue ops s) : Keeps s (execSigSet d e issue ops s) := by simp [execSigSet]
@[simp] theorem keeps_execSigAdd (d e issue ops s) : Keeps s (execSigAdd d e issue ops s) := by simp [execSigAdd]
@[simp] theorem keeps_execSigWaitGe (d e issue ops s) : Keeps s (execSigWaitGe d e issue ops s) := by simp [execSigWaitGe]
@[simp] theorem keeps_execSigWaitEq (d e issue ops s) : Keeps s (execSigWaitEq d e issue ops s) := by simp [execSigWaitEq]
@[simp] theorem keeps_execSigWaitMask (d e issue ops s) : Keeps s (execSigWaitMask d e issue ops s) := by simp [execSigWaitMask]

@[simp] theorem keeps_execSignalWaitRelease (d w s) : Keeps s (execSignalWaitRelease d w s) := by
  simp only [execSignalWaitRelease, keeps_next]
  repeat' split
  all_goals simp

/-! ### Trains -/

@[simp] theorem fixedPart_physWrite (s a l) : fixedPart (physWrite s a l) = fixedPart s := by simp [physWrite]

@[simp] theorem fixedPart_hereBytes (s ps) : fixedPart (hereBytes s ps).2 = fixedPart s := by
  refine fixedPart_foldl_of Prod.snd (fun a p => ?_) _ _
  simp only [drawBytes]
  repeat' split
  all_goals simp

@[simp] theorem fixedPart_hereWrite (s ps l) : fixedPart (hereWrite s ps l) = fixedPart s := by
  induction ps generalizing s l with
  | nil => rfl
  | cons p t ih => simp [hereWrite, ih]

@[simp] theorem fixedPart_trEvent (s d j i) : fixedPart (trEvent s d j i) = fixedPart s := by simp [trEvent]
@[simp] theorem fixedPart_updTrain (s t f) : fixedPart (updTrain s t f) = fixedPart s := by simp [updTrain]
@[simp] theorem fixedPart_putTrain (s t) : fixedPart (putTrain s t) = fixedPart s := by simp [putTrain]
@[simp] theorem fixedPart_xlateFirst (s d j) : fixedPart (xlateFirst s d j) = fixedPart s := by simp [xlateFirst]

@[simp] theorem fixedPart_trainFaults (s t f write) : fixedPart (trainFaults s t f write) = fixedPart s := by
  unfold trainFaults
  split <;> simp

@[simp] theorem fixedPart_trainHold (s t f write) : fixedPart (trainHold s t f write) = fixedPart s := by simp [trainHold]

@[simp] theorem fixedPart_trainFree (s t) : fixedPart (trainFree s t) = fixedPart s := by
  unfold trainFree
  split <;> simp

@[simp] theorem fixedPart_walkPages (s d e write l) : fixedPart (walkPages s d e write l).1 = fixedPart s := by
  induction l generalizing s with
  | nil => rfl
  | cons x rest ih =>
    unfold walkPages
    dsimp only
    split <;> simp [ih]

@[simp] theorem fixedPart_trainAhead (s t) : fixedPart (trainAhead s t) = fixedPart s := by
  simp only [trainAhead, fixedPart_ite]
  repeat' split
  all_goals simp

@[simp] theorem fixedPart_preTranslate (s t) : fixedPart (preTranslate s t) = fixedPart s := by simp [preTranslate]

@[simp] theorem fixedPart_trainAsk (s t) : fixedPart (trainAsk s t) = fixedPart s := by
  unfold trainAsk
  dsimp only
  rw [fixedPart_updTrain]
  refine fixedPart_foldl (fun s r => ?_) _ _
  repeat' split
  all_goals simp [drawWord]

@[simp] theorem fixedPart_trainSend (s t stream done) : fixedPart (trainSend s t stream done) = fixedPart s := by simp [trainSend]

@[simp] theorem fixedPart_readOn (fuel s t n) : fixedPart (readOn fuel s t n).1 = fixedPart s := by
  induction fuel generalizing s t n with
  | zero => rfl
  | succ fuel ih =>
    unfold readOn
    dsimp only
    split
    · rfl
    · split <;> simp [ih]

@[simp] theorem fixedPart_writeOn (fuel s t l) : fixedPart (writeOn fuel s t l).1 = fixedPart s := by
  induction fuel generalizing s t with
  | zero => rfl
  | succ fuel ih =>
    unfold writeOn
    dsimp only
    split
    · rfl
    · split <;> simp [ih]

@[simp] theorem fixedPart_trainLost (s t a) : fixedPart (trainLost s t a) = fixedPart s := by simp [trainLost]

@[simp] theorem fixedPart_trainAbroad (s t done) : fixedPart (trainAbroad s t done) = fixedPart s := by
  unfold trainAbroad
  repeat' split
  all_goals simp

@[simp] theorem fixedPart_trainMove (s t n) : fixedPart (trainMove s t n) = fixedPart s := by
  simp only [trainMove, fixedPart_ite]
  repeat' split
  all_goals simp

@[simp] theorem fixedPart_trainIssue (s d j op issue ops) : fixedPart (trainIssue s d j op issue ops) = fixedPart s := by
  simp only [trainIssue]
  split <;> simp

@[simp] theorem fixedPart_trainDone (s t held) : fixedPart (trainDone s t held) = fixedPart s := by simp [trainDone]

@[simp] theorem fixedPart_trainSignal (s t) : fixedPart (trainSignal s t) = fixedPart s := by
  unfold trainSignal
  repeat' split
  all_goals simp

@[simp] theorem keeps_execTrainArrival (d j issue held s) : Keeps s (execTrainArrival d j issue held s) := by
  unfold execTrainArrival
  split <;> simp

@[simp] theorem fixedPart_trainCycle (s d j n) : fixedPart (trainCycle s d j n) = fixedPart s := by simp [trainCycle]

@[simp] theorem fixedPart_engineWrites (s d e n) : fixedPart (engineWrites s d e n) = fixedPart s := by
  unfold engineWrites
  split <;> simp

@[simp] theorem keeps_execOrderWriteCycle (d engines grant s) : Keeps s (execOrderWriteCycle d engines grant s) := by
  simp [execOrderWriteCycle]

@[simp] theorem fixedPart_trainData (s pos l) : fixedPart (trainData s pos l) = fixedPart s := by
  unfold trainData
  split <;> simp

@[simp] theorem fixedPart_trainRefused (s pos write a) : fixedPart (trainRefused s pos write a) = fixedPart s := by
  simp only [trainRefused]
  split <;> simp

@[simp] theorem fixedPart_trainRetry (s t va) : fixedPart (trainRetry s t va) = fixedPart s := by simp [trainRetry]
@[simp] theorem fixedPart_trainFatal (s t va) : fixedPart (trainFatal s t va) = fixedPart s := by simp [trainFatal]
@[simp] theorem fixedPart_trainMissed (s owner) : fixedPart (trainMissed s owner) = fixedPart s := by simp [trainMissed]

/-! ### Bamkan -/

@[simp] theorem fixedPart_bkRefresh (s n) : fixedPart (bkRefresh s n) = fixedPart s := by
  simp only [bkRefresh]
  split <;> simp

@[simp] theorem fixedPart_bkEvent (s n i) : fixedPart (bkEvent s n i) = fixedPart s := by simp [bkEvent]
@[simp] theorem fixedPart_errLog (s n row t j kind) : fixedPart (errLog s n row t j kind) = fixedPart s := by simp [errLog]
@[simp] theorem fixedPart_loseRow (s n t row j) : fixedPart (loseRow s n t row j) = fixedPart s := by simp [loseRow]
@[simp] theorem fixedPart_recordSpare (s n i) : fixedPart (recordSpare s n i) = fixedPart s := (rfl)
@[simp] theorem fixedPart_setSpare (s n i v) : fixedPart (setSpare s n i v) = fixedPart s := by simp [setSpare]

@[simp] theorem fixedPart_assignSpare (s n t j) : fixedPart (assignSpare s n t j) = fixedPart s := by
  unfold assignSpare
  split <;> simp

@[simp] theorem fixedPart_spareFails (s n i) : fixedPart (spareFails s n i) = fixedPart s := by simp [spareFails]
@[simp] theorem fixedPart_slotFails (s n t j phys) : fixedPart (slotFails s n t j phys) = fixedPart s := by simp [slotFails]

@[simp] theorem fixedPart_channelFails (s n phys) : fixedPart (channelFails s n phys) = fixedPart s := by
  unfold channelFails
  split <;> simp

@[simp] theorem fixedPart_countUe (s n phys) : fixedPart (countUe s n phys) = fixedPart s := by simp [countUe]

@[simp] theorem fixedPart_meetUe (s n t row bad) : fixedPart (meetUe s n t row bad) = fixedPart s := by
  unfold meetUe
  split <;> simp

@[simp] theorem fixedPart_repairCause (s n o) : fixedPart (repairCause s n o) = fixedPart s := by simp [repairCause]
@[simp] theorem fixedPart_serve (s n t booked o) : fixedPart (serve s n t booked o) = fixedPart s := by simp [serve]

@[simp] theorem fixedPart_useGrant (s n t granted) : fixedPart (useGrant s n t granted).2 = fixedPart s := by
  simp only [useGrant]
  repeat' split
  all_goals simp

@[simp] theorem fixedPart_bkMissed (s n t repair x1) : fixedPart (bkMissed s n t repair x1) = fixedPart s := by
  unfold bkMissed
  split <;> simp

@[simp] theorem fixedPart_setBusy (s n t b) : fixedPart (setBusy s n t b) = fixedPart s := (rfl)
@[simp] theorem fixedPart_takeGranted (s n t o) : fixedPart (takeGranted s n t o) = fixedPart s := by simp [takeGranted]
@[simp] theorem fixedPart_takeLate (s n t o rest) : fixedPart (takeLate s n t o rest) = fixedPart s := by simp [takeLate]
@[simp] theorem fixedPart_takeUnbooked (s n t o rest) : fixedPart (takeUnbooked s n t o rest) = fixedPart s := by
  simp [takeUnbooked]
@[simp] theorem fixedPart_fillQueue (s n t q) : fixedPart (fillQueue s n t q) = fixedPart s := (rfl)
@[simp] theorem fixedPart_countSlot (s n t) : fixedPart (countSlot s n t) = fixedPart s := by simp [countSlot]
@[simp] theorem fixedPart_throttleGrant (s n t g) : fixedPart (throttleGrant s n t g) = fixedPart s := by simp [throttleGrant]

@[simp] theorem keeps_execBamkanSlot (n t granted arrive s) : Keeps s (execBamkanSlot n t granted arrive s) := by
  simp only [execBamkanSlot, keeps_next, fixedPart_ite]
  repeat' split
  all_goals simp

@[simp] theorem keeps_execBamkanRefresh (n s) : Keeps s (execBamkanRefresh n s) := by simp [execBamkanRefresh]

@[simp] theorem fixedPart_noAnswer (s n phys row) : fixedPart (noAnswer s n phys row) = fixedPart s := by
  unfold noAnswer
  split <;> simp

@[simp] theorem fixedPart_reissue (s n booked o) : fixedPart (reissue s n booked o) = fixedPart s := by simp [reissue]
@[simp] theorem keeps_execChannelNoAnswer (n chans out s) : Keeps s (execChannelNoAnswer n chans out s) := by
  simp [execChannelNoAnswer]

@[simp] theorem fixedPart_rebuildDone (s n t i) : fixedPart (rebuildDone s n t i) = fixedPart s := by simp [rebuildDone]

@[simp] theorem keeps_execRebuildStep (n t ue ce s) : Keeps s (execRebuildStep n t ue ce s) := by
  unfold execRebuildStep
  split <;> simp

@[simp] theorem keeps_execMarginSweepStart (n v s) : Keeps s (execMarginSweepStart n v s) := by simp [execMarginSweepStart]
@[simp] theorem keeps_execMarginSweepDone (n low high s) : Keeps s (execMarginSweepDone n low high s) := by
  simp [execMarginSweepDone]

/-! ### Chawen -/

@[simp] theorem keeps_execTMessageDue (src dst s) : Keeps s (execTMessageDue src dst s) := by simp [execTMessageDue]
@[simp] theorem fixedPart_setCwDelayed (s a b l) : fixedPart (setCwDelayed s a b l) = fixedPart s := (rfl)
@[simp] theorem fixedPart_cwMissed (s a b owner) : fixedPart (cwMissed s a b owner) = fixedPart s := by simp [cwMissed]

@[simp] theorem keeps_execChawenSlot (src dst k phase booked claims s) :
    Keeps s (execChawenSlot src dst k phase booked claims s) := by
  simp only [execChawenSlot, keeps_next, fixedPart_ite]
  repeat' split
  all_goals simp

@[simp] theorem keeps_execTMessage (d s) : Keeps s (execTMessage d s) := by
  unfold execTMessage
  split <;> simp

@[simp] theorem fixedPart_cwEvent (s d i) : fixedPart (cwEvent s d i) = fixedPart s := by simp [cwEvent]
@[simp] theorem fixedPart_setErased (s d e b l) : fixedPart (setErased s d e b l) = fixedPart s := by simp [setErased]
@[simp] theorem fixedPart_useSpare (s d e b n w) : fixedPart (useSpare s d e b n w) = fixedPart s := by simp [useSpare]

@[simp] theorem fixedPart_remapBundle (s d e b) : fixedPart (remapBundle s d e b) = fixedPart s := by
  refine fixedPart_foldl (fun s w => ?_) _ _
  split <;> simp

@[simp] theorem fixedPart_remapBlock (s d entries) : fixedPart (remapBlock s d entries) = fixedPart s := by simp [remapBlock]
@[simp] theorem fixedPart_remapDie (s d) : fixedPart (remapDie s d) = fixedPart s := by simp [remapDie]
@[simp] theorem fixedPart_cwLate (s d) : fixedPart (cwLate s d) = fixedPart s := by simp [cwLate]
@[simp] theorem fixedPart_cwTransient (s d) : fixedPart (cwTransient s d) = fixedPart s := by simp [cwTransient]
@[simp] theorem keeps_execChawenParityMismatch (d e b g s) : Keeps s (execChawenParityMismatch d e b g s) := by
  simp [execChawenParityMismatch]
@[simp] theorem keeps_execReplayArrival (d e b ok s) : Keeps s (execReplayArrival d e b ok s) := by simp [execReplayArrival]
@[simp] theorem fixedPart_wireFault (s d e b w) : fixedPart (wireFault s d e b w) = fixedPart s := by simp [wireFault]
@[simp] theorem keeps_execProbeDone (d e b wires s) : Keeps s (execProbeDone d e b wires s) := by simp [execProbeDone]
@[simp] theorem keeps_execChawenClockFault (d e b p s) : Keeps s (execChawenClockFault d e b p s) := by
  simp [execChawenClockFault]
@[simp] theorem fixedPart_tapLoad (s ir act lands) : fixedPart (tapLoad s ir act lands) = fixedPart s := (rfl)
@[simp] theorem fixedPart_tapGated (s ir act lands) : fixedPart (tapGated s ir act lands) = fixedPart s := by simp [tapGated]
@[simp] theorem keeps_execSamplePreload (levels preload s) : Keeps s (execSamplePreload levels preload s) := by
  simp [execSamplePreload]
@[simp] theorem keeps_execBypass (code s) : Keeps s (execBypass code s) := by simp [execBypass]
@[simp] theorem keeps_execTapReset (s) : Keeps s (execTapReset s) := by simp [execTapReset]

/-! ### Coherence -/

@[simp] theorem fixedPart_dirMakeRoom (s l) : fixedPart (dirMakeRoom s l) = fixedPart s := by
  simp only [dirMakeRoom, fixedPart_ite]
  repeat' split
  all_goals simp

@[simp] theorem fixedPart_evictLine (s d l) : fixedPart (evictLine s d l) = fixedPart s := by simp [evictLine]
@[simp] theorem fixedPart_jMakeRoom (s d l) : fixedPart (jMakeRoom s d l) = fixedPart s := by simp [jMakeRoom]
@[simp] theorem fixedPart_ownLine (s d l f) : fixedPart (ownLine s d l f) = fixedPart s := by simp [ownLine]
@[simp] theorem fixedPart_shareLine (s d l) : fixedPart (shareLine s d l) = fixedPart s := by simp [shareLine]
@[simp] theorem fixedPart_otherAgent (s l mask) : fixedPart (otherAgent s l mask) = fixedPart s := by simp [otherAgent]

@[simp] theorem fixedPart_coherentRequest (s l r) : fixedPart (coherentRequest s l r) = fixedPart s := by
  unfold coherentRequest
  split <;> simp

@[simp] theorem fixedPart_answerSnoop (s d l invalidate) : fixedPart (answerSnoop s d l invalidate) = fixedPart s := by
  simp [answerSnoop]
@[simp] theorem keeps_execSnoop (d line invalidate s) : Keeps s (execSnoop d line invalidate s) := by simp [execSnoop]

@[simp] theorem fixedPart_answerDeferred (s q) : fixedPart (answerDeferred s q) = fixedPart s := by
  unfold answerDeferred
  split <;> simp

@[simp] theorem keeps_execSnoopDeferExpiry (d line s) : Keeps s (execSnoopDeferExpiry d line s) := by simp [execSnoopDeferExpiry]

@[simp] theorem fixedPart_hostSnoop (s l kind) : fixedPart (hostSnoop s l kind) = fixedPart s := by
  unfold hostSnoop
  split <;> simp

@[simp] theorem keeps_execCxlCacheEnable (s) : Keeps s (execCxlCacheEnable s) := keeps_next.2 (rfl)
@[simp] theorem keeps_execCxlCacheDisable (s) : Keeps s (execCxlCacheDisable s) := by simp [execCxlCacheDisable]

@[simp] theorem fixedPart_deliverMsi (s a data) : fixedPart (deliverMsi s a data) = fixedPart s := by
  unfold deliverMsi
  split <;> simp

@[simp] theorem keeps_execMsiDelivery (sender s) : Keeps s (execMsiDelivery sender s) := by
  simp only [execMsiDelivery, keeps_next]
  split <;> simp

/-! ### Collective -/

@[simp] theorem fixedPart_sendColl (s q k pieces) : fixedPart (sendColl s q k pieces) = fixedPart s := by simp [sendColl]
@[simp] theorem fixedPart_sendParts (s q) : fixedPart (sendParts s q) = fixedPart s := by simp [sendParts]

@[simp] theorem fixedPart_collShare (s d) : fixedPart (collShare s d) = fixedPart s := by
  unfold collShare
  repeat' split
  all_goals simp

@[simp] theorem fixedPart_collReceive (s path src pl) : fixedPart (collReceive s path src pl) = fixedPart s := by
  simp [collReceive]
@[simp] theorem keeps_execCeColl (d issue ops s) : Keeps s (execCeColl d issue ops s) := by simp [execCeColl]
@[simp] theorem fixedPart_orCeFlags (s d g f) : fixedPart (orCeFlags s d g f) = fixedPart s := by simp [orCeFlags]

@[simp] theorem fixedPart_collSettle (s d issue) : fixedPart (collSettle s d issue) = fixedPart s := by
  unfold collSettle
  split <;> simp

@[simp] theorem fixedPart_collClean (s q me) : fixedPart (collClean s q me) = fixedPart s := by simp [collClean]

@[simp] theorem keeps_execCollectiveEnd (d issue held s) : Keeps s (execCollectiveEnd d issue held s) := by
  simp only [execCollectiveEnd, keeps_next]
  repeat' split
  all_goals simp

@[simp] theorem keeps_execCollectiveWindowExpiry (d issue s) : Keeps s (execCollectiveWindowExpiry d issue s) := by
  simp only [execCollectiveWindowExpiry, keeps_next]
  split <;> simp

/-! ### HostPort -/

@[simp] theorem keeps_execHpDoorbell (d s) : Keeps s (execHpDoorbell d s) := by simp [execHpDoorbell]
@[simp] theorem keeps_execSlotRead (written s) : Keeps s (execSlotRead written s) := by simp [execSlotRead]
@[simp] theorem fixedPart_commandAccept (s) : fixedPart (commandAccept s) = fixedPart s := by simp [commandAccept]

@[simp] theorem fixedPart_startCmd {k} (h : ∀ b s, fixedPart (k b s) = fixedPart s) (s q op form) :
    fixedPart (startCmd s q op form k) = fixedPart s := by
  unfold startCmd
  split <;> simp [h]

@[simp] theorem fixedPart_postCompletion (s c status written) : fixedPart (postCompletion s c status written) = fixedPart s := by
  simp [postCompletion]
@[simp] theorem fixedPart_dropCmd (s q) : fixedPart (dropCmd s q) = fixedPart s := (rfl)
@[simp] theorem fixedPart_writeResult (s c) : fixedPart (writeResult s c) = fixedPart s := by simp [writeResult]

@[simp] theorem fixedPart_completion (s q) : fixedPart (completion s q) = fixedPart s := by
  unfold completion
  split <;> simp

@[simp] theorem fixedPart_landDeny (s off reason) : fixedPart (landDeny s off reason) = fixedPart s := by simp [landDeny]

@[simp] theorem keeps_execLandingWrite (off data s) : Keeps s (execLandingWrite off data s) := by
  simp only [execLandingWrite, keeps_next, fixedPart_ite]
  repeat' split
  all_goals simp

@[simp] theorem keeps_execLandingDenied (t s) : Keeps s (execLandingDenied t s) := by simp [execLandingDenied]
@[simp] theorem keeps_execBar4Read (_off s) : Keeps s (execBar4Read _off s) := by simp [execBar4Read]
@[simp] theorem keeps_execHpNoticeCtrlWrite (v s) : Keeps s (execHpNoticeCtrlWrite v s) := by simp [execHpNoticeCtrlWrite]
@[simp] theorem keeps_execHpNoticeHeadWrite (v s) : Keeps s (execHpNoticeHeadWrite v s) := by simp [execHpNoticeHeadWrite]

@[simp] theorem keeps_execNoticeWrite (s) : Keeps s (execNoticeWrite s) := by
  unfold execNoticeWrite
  split <;> simp

@[simp] theorem keeps_execMsixMessage (t s) : Keeps s (execMsixMessage t s) := by simp [execMsixMessage]
@[simp] theorem keeps_execHpWake (v s) : Keeps s (execHpWake v s) := by simp [execHpWake]
@[simp] theorem keeps_execHpLandWrite (size v s) : Keeps s (execHpLandWrite size v s) := by simp [execHpLandWrite]
@[simp] theorem keeps_execHpRtPost (v s) : Keeps s (execHpRtPost v s) := by simp [execHpRtPost]
@[simp] theorem fixedPart_renameWaits (s) : fixedPart (renameWaits s) = fixedPart s := by simp [renameWaits]
@[simp] theorem fixedPart_portReset (s kind) : fixedPart (portReset s kind) = fixedPart s := by simp [portReset]
@[simp] theorem keeps_execHostPortReset (kind s) : Keeps s (execHostPortReset kind s) := by simp [execHostPortReset]
@[simp] theorem fixedPart_noteDrain (s k on) : fixedPart (noteDrain s k on) = fixedPart s := by simp [noteDrain]
@[simp] theorem fixedPart_functionNotice (s kind index old new withdrawn) :
    fixedPart (functionNotice s kind index old new withdrawn) = fixedPart s := by simp [functionNotice]
@[simp] theorem fixedPart_setHostFunc (s st withdrawn) : fixedPart (setHostFunc s st withdrawn) = fixedPart s := by
  simp [setHostFunc]
@[simp] theorem keeps_execHostFunctionDisable (s) : Keeps s (execHostFunctionDisable s) := by simp [execHostFunctionDisable]
@[simp] theorem keeps_execHostFunctionEnable (s) : Keeps s (execHostFunctionEnable s) := by simp [execHostFunctionEnable]
@[simp] theorem fixedPart_hostDrainEnd (s) : fixedPart (hostDrainEnd s) = fixedPart s := by simp [hostDrainEnd]
@[simp] theorem keeps_execDoeSession (hostKey s) : Keeps s (execDoeSession hostKey s) := by
  simp only [execDoeSession, keeps_next, fixedPart_ite, fixedPart_drawBytes, fixedPart_mk, fixedPart_eta, ite_self]

@[simp] theorem keeps_execIdeKm (authentic s) : Keeps s (execIdeKm authentic s) := by
  unfold execIdeKm
  split <;> simp

/-! ### SealEngine -/

@[simp] theorem fixedPart_jobRefused (s va n write st) : fixedPart (jobRefused s va n write st) = fixedPart s := by
  simp only [jobRefused, fixedPart_ite]
  repeat' split
  all_goals simp

@[simp] theorem fixedPart_jobRead (s va n) : fixedPart (jobRead s va n).2.2 = fixedPart s := by
  unfold jobRead
  repeat' split
  all_goals simp

theorem fixedPart_eq_of_jobRead {s va n st l u} (h : jobRead s va n = (st, l, u)) : fixedPart u = fixedPart s := by
  simpa [h] using fixedPart_jobRead s va n

@[simp] theorem fixedPart_jobWrite (s va l) : fixedPart (jobWrite s va l).2 = fixedPart s := by
  unfold jobWrite
  split
  · simp
  · refine (fixedPart_foldl_of Prod.fst (fun a p => ?_) _ _).trans ?_ <;> simp

@[simp] theorem fixedPart_ringRefused (s pa n) : fixedPart (ringRefused s pa n) = fixedPart s := by simp [ringRefused]
@[simp] theorem fixedPart_ringWrite (s pa l) : fixedPart (ringWrite s pa l) = fixedPart s := by simp [ringWrite]
@[simp] theorem fixedPart_counterTake (s src c) : fixedPart (counterTake s src c) = fixedPart s := (rfl)
@[simp] theorem fixedPart_npEvent (s i) : fixedPart (npEvent s i) = fixedPart s := by simp [npEvent]
@[simp] theorem keeps_execNpSealRegionWrite (size v s) : Keeps s (execNpSealRegionWrite size v s) := by
  simp [execNpSealRegionWrite]
@[simp] theorem keeps_execNpPeerWrite (r high v s) : Keeps s (execNpPeerWrite r high v s) := by simp [execNpPeerWrite]
@[simp] theorem fixedPart_npDone (s st) : fixedPart (npDone s st) = fixedPart s := by simp [npDone]

@[simp] theorem keeps_execSealFrame (s) : Keeps s (execSealFrame s) := by
  unfold execSealFrame
  rw [keeps_next]
  repeat' split
  all_goals simp
  all_goals exact fixedPart_eq_of_jobRead ‹_›

@[simp] theorem keeps_execOpenFrame (opened s) : Keeps s (execOpenFrame opened s) := by
  simp only [execOpenFrame, keeps_next]
  repeat' split
  all_goals simp

@[simp] theorem keeps_execNportInboundRequest (n pa len write s) : Keeps s (execNportInboundRequest n pa len write s) := by
  unfold execNportInboundRequest
  repeat' split
  all_goals simp

@[simp] theorem keeps_execNportLinkUp (n ide flit s) : Keeps s (execNportLinkUp n ide flit s) := by simp [execNportLinkUp]
@[simp] theorem fixedPart_nportDown (s n) : fixedPart (nportDown s n) = fixedPart s := by simp [nportDown]
@[simp] theorem keeps_execNportLinkDown (n s) : Keeps s (execNportLinkDown n s) := by simp [execNportLinkDown]

/-! ### Depot -/

@[simp] theorem fixedPart_sendReq (s d agent dst owner op form window addr operand name data) :
    fixedPart (sendReq s d agent dst owner op form window addr operand name data).1 = fixedPart s := by
  unfold sendReq
  split <;> simp

@[simp] theorem fixedPart_sendResp (s d f status value data) : fixedPart (sendResp s d f status value data) = fixedPart s := by
  simp [sendResp]
@[simp] theorem fixedPart_dpEvent (s i) : fixedPart (dpEvent s i) = fixedPart s := by simp [dpEvent]
@[simp] theorem fixedPart_setDepot (s st) : fixedPart (setDepot s st) = fixedPart s := by simp [setDepot]
@[simp] theorem fixedPart_depotSizes (s) : fixedPart (depotSizes s) = fixedPart s := by simp [depotSizes]
@[simp] theorem fixedPart_putObj (s o) : fixedPart (putObj s o) = fixedPart s := by simp [putObj]
@[simp] theorem fixedPart_dropObjs (s p) : fixedPart (dropObjs s p) = fixedPart s := by simp [dropObjs]

@[simp] theorem fixedPart_objBytes (s o off n) : fixedPart (objBytes s o off n).2 = fixedPart s := by
  unfold objBytes
  split <;> simp

@[simp] theorem fixedPart_objCommit (s o flags buddy) : fixedPart (objCommit s o flags buddy) = fixedPart s := by simp [objCommit]
@[simp] theorem fixedPart_rqStart (s i b st data ids) : fixedPart (rqStart s i b st data ids) = fixedPart s := (rfl)

@[simp] theorem fixedPart_rqTake {k} (h : ∀ i b s, fixedPart (k i b s) = fixedPart s) (s op) :
    fixedPart (rqTake s op k) = fixedPart s := by
  unfold rqTake
  split <;> simp [h]

@[simp] theorem fixedPart_applyWrite (s b data) : fixedPart (applyWrite s b data) = fixedPart s := by simp [applyWrite]

@[simp] theorem fixedPart_applyCommit (s b) : fixedPart (applyCommit s b) = fixedPart s := by
  unfold applyCommit
  split <;> simp

@[simp] theorem keeps_execObjWrite (s) : Keeps s (execObjWrite s) := by
  refine keeps_next.2 (fixedPart_rqTake (fun i b s => ?_) _ _)
  dsimp only
  repeat' split
  all_goals simp
  all_goals exact fixedPart_eq_of_jobRead ‹_›

@[simp] theorem keeps_execObjCommit (s) : Keeps s (execObjCommit s) := by
  refine keeps_next.2 (fixedPart_rqTake (fun i b s => ?_) _ _)
  dsimp only
  repeat' split
  all_goals simp

@[simp] theorem fixedPart_climb (s x) : fixedPart (climb s x) = fixedPart s := by simp [climb]
@[simp] theorem fixedPart_damage (s o) : fixedPart (damage s o) = fixedPart s := by simp [damage]
@[simp] theorem fixedPart_askReplica (s i b got) : fixedPart (askReplica s i b got).1 = fixedPart s := by simp [askReplica]

@[simp] theorem keeps_execObjRead (x s) : Keeps s (execObjRead x s) := by
  refine keeps_next.2 (fixedPart_rqTake (fun i b s => ?_) _ _)
  dsimp only
  repeat' split
  all_goals simp

@[simp] theorem keeps_execObjStat (s) : Keeps s (execObjStat s) := by
  refine keeps_next.2 (fixedPart_rqTake (fun i b s => ?_) _ _)
  dsimp only
  repeat' split
  all_goals simp

@[simp] theorem keeps_execObjDelete (s) : Keeps s (execObjDelete s) := by simp [execObjDelete]

@[simp] theorem fixedPart_pageCheck (s pa n) : fixedPart (pageCheck s pa n).2 = fixedPart s := by
  unfold pageCheck
  repeat' split
  all_goals simp

theorem fixedPart_eq_of_pageCheck {s pa n st u} (h : pageCheck s pa n = (st, u)) : fixedPart u = fixedPart s := by
  simpa [h] using fixedPart_pageCheck s pa n

@[simp] theorem fixedPart_dropPage (s k) : fixedPart (dropPage s k) = fixedPart s := by simp [dropPage]

@[simp] theorem keeps_execPageOut (s) : Keeps s (execPageOut s) := by
  refine keeps_next.2 (fixedPart_rqTake (fun i b s => ?_) _ _)
  dsimp only
  repeat' split
  all_goals simp
  all_goals exact fixedPart_eq_of_pageCheck ‹_›

@[simp] theorem keeps_execPageIn (x s) : Keeps s (execPageIn x s) := by
  refine keeps_next.2 (fixedPart_rqTake (fun i b s => ?_) _ _)
  dsimp only
  repeat' split
  all_goals simp
  all_goals exact fixedPart_eq_of_pageCheck ‹_›

@[simp] theorem keeps_execPageDrop (s) : Keeps s (execPageDrop s) := by simp [execPageDrop]
@[simp] theorem fixedPart_rqComplete (s i st) : fixedPart (rqComplete s i st) = fixedPart s := by simp [rqComplete]

@[simp] theorem keeps_execDepotRequestComplete (ix s) : Keeps s (execDepotRequestComplete ix s) := by
  unfold execDepotRequestComplete
  repeat' split
  all_goals simp

@[simp] theorem fixedPart_rqSettle (s i st) : fixedPart (rqSettle s i st) = fixedPart s := by simp [rqSettle]
@[simp] theorem fixedPart_dropDepotReqs (s i) : fixedPart (dropDepotReqs s i) = fixedPart s := (rfl)
@[simp] theorem keeps_execBuddyTimeout (ix t s) : Keeps s (execBuddyTimeout ix t s) := by simp [execBuddyTimeout]
@[simp] theorem fixedPart_rqHeard (s r data) : fixedPart (rqHeard s r data) = fixedPart s := by simp [rqHeard]

@[simp] theorem fixedPart_depotReply (s i status data last) : fixedPart (depotReply s i status data last) = fixedPart s := by
  unfold depotReply
  split <;> simp

@[simp] theorem fixedPart_replicaWrite (s f) : fixedPart (replicaWrite s f) = fixedPart s := by simp [replicaWrite]

@[simp] theorem fixedPart_replicaCommit (s f) : fixedPart (replicaCommit s f) = fixedPart s := by
  simp only [replicaCommit]
  split <;> simp

@[simp] theorem fixedPart_replicaRead (s f) : fixedPart (replicaRead s f) = fixedPart s := by
  simp only [replicaRead]
  split <;> simp

@[simp] theorem keeps_execDpRingBaseWrite (v s) : Keeps s (execDpRingBaseWrite v s) := by simp [execDpRingBaseWrite]
@[simp] theorem fixedPart_setNand (s k f) : fixedPart (setNand s k f) = fixedPart s := by simp [setNand]

@[simp] theorem fixedPart_loseData (s x1) : fixedPart (loseData s x1) = fixedPart s := by
  unfold loseData
  repeat' split
  all_goals simp

@[simp] theorem keeps_execPatrolRead (x strong oldest of s) : Keeps s (execPatrolRead x strong oldest of s) := by
  simp [execPatrolRead]
@[simp] theorem fixedPart_lunFail (s ch lun) : fixedPart (lunFail s ch lun) = fixedPart s := by simp [lunFail]

@[simp] theorem fixedPart_takeSpare (s ch) : fixedPart (takeSpare s ch) = fixedPart s := by
  simp only [takeSpare]
  split <;> simp

@[simp] theorem fixedPart_retireBlock (s ch lun block) : fixedPart (retireBlock s ch lun block) = fixedPart s := by
  simp [retireBlock]
@[simp] theorem keeps_execBlockRefresh (ch lun block step4 s) : Keeps s (execBlockRefresh ch lun block step4 s) := by
  simp [execBlockRefresh]
@[simp] theorem keeps_execWearLevelMove (ch lun block dst s) : Keeps s (execWearLevelMove ch lun block dst s) := by
  simp [execWearLevelMove]
@[simp] theorem keeps_execNandOperationFailure (ch lun block s) : Keeps s (execNandOperationFailure ch lun block s) := by
  simp [execNandOperationFailure]
@[simp] theorem keeps_execLunTimeout (ch lun s) : Keeps s (execLunTimeout ch lun s) := by simp [execLunTimeout]
@[simp] theorem keeps_execLunRebuildDone (ch lun s) : Keeps s (execLunRebuildDone ch lun s) := by simp [execLunRebuildDone]
@[simp] theorem keeps_execStripeRewriteDone (ch s) : Keeps s (execStripeRewriteDone ch s) := keeps_next.2 (rfl)

/-! ### VectorCluster -/

@[simp] theorem fixedPart_laneMismatch (s d c l issue) : fixedPart (laneMismatch s d c l issue) = fixedPart s := by
  simp [laneMismatch]
@[simp] theorem fixedPart_vcIssue (s d c op issue ops) : fixedPart (vcIssue s d c op issue ops) = fixedPart s := by simp [vcIssue]
@[simp] theorem fixedPart_vcLaneIssue (s d c op issue ops bad) : fixedPart (vcLaneIssue s d c op issue ops bad) = fixedPart s := by
  simp [vcLaneIssue]
@[simp] theorem fixedPart_winHeld (s d c w f) : fixedPart (winHeld s d c w f) = fixedPart s := by simp [winHeld]

@[simp] theorem fixedPart_winWalk (s d c) : fixedPart (winWalk s d c) = fixedPart s := by
  unfold winWalk
  repeat' split
  all_goals simp

@[simp] theorem fixedPart_rangeStart (s r) : fixedPart (rangeStart s r) = fixedPart s := by simp [rangeStart]
@[simp] theorem fixedPart_winIssue (s d c op issue ops) : fixedPart (winIssue s d c op issue ops) = fixedPart s := by
  simp [winIssue]
@[simp] theorem fixedPart_gsIssue (s d c op issue ops bad) : fixedPart (gsIssue s d c op issue ops bad) = fixedPart s := by
  simp [gsIssue]
@[simp] theorem fixedPart_winWork (s d c w) : fixedPart (winWork s d c w) = fixedPart s := by simp [winWork]
@[simp] theorem fixedPart_winClose (s d c) : fixedPart (winClose s d c) = fixedPart s := by simp [winClose]

@[simp] theorem keeps_execGatherWindowEnd (d c finished s) : Keeps s (execGatherWindowEnd d c finished s) := by
  simp only [execGatherWindowEnd, keeps_next]
  repeat' split
  all_goals simp

@[simp] theorem keeps_execGatherWorkDone (d c s) : Keeps s (execGatherWorkDone d c s) := by
  unfold execGatherWorkDone
  repeat' split
  all_goals simp

@[simp] theorem keeps_execStreamCacheFill (d c va s) : Keeps s (execStreamCacheFill d c va s) := by
  simp only [execStreamCacheFill, keeps_next, fixedPart_ite]
  repeat' split
  all_goals simp

@[simp] theorem keeps_execVcScCfgWrite (d c v s) : Keeps s (execVcScCfgWrite d c v s) := by
  simp only [execVcScCfgWrite, keeps_next, fixedPart_ite, fixedPart_scFlush, fixedPart_wr, fixedPart_scRefresh,
    fixedPart_vcEvent, fixedPart_mk, fixedPart_eta, ite_self]

@[simp] theorem keeps_execVcScRangeCmd (d c v s) : Keeps s (execVcScRangeCmd d c v s) := by simp [execVcScRangeCmd]

@[simp] theorem keeps_execRangeDone (d c s) : Keeps s (execRangeDone d c s) := by
  unfold execRangeDone
  split <;> simp

@[simp] theorem keeps_execPlatformWindowAccess (hart d off len write s) :
    Keeps s (execPlatformWindowAccess hart d off len write s) := by
  unfold execPlatformWindowAccess
  repeat' split
  all_goals simp

/-! ### SetMode -/

@[simp] theorem fixedPart_updCall (s d c f) : fixedPart (updCall s d c f) = fixedPart s := by simp [updCall]
@[simp] theorem fixedPart_smEvent (s d c i) : fixedPart (smEvent s d c i) = fixedPart s := by simp [smEvent]
@[simp] theorem fixedPart_smChoice (s d c) : fixedPart (smChoice s d c) = fixedPart s := by simp [smChoice]
@[simp] theorem fixedPart_smRefresh (s d c) : fixedPart (smRefresh s d c) = fixedPart s := by simp [smRefresh]
@[simp] theorem fixedPart_dropAsks (s ks) : fixedPart (dropAsks s ks) = fixedPart s := by simp [dropAsks]
@[simp] theorem fixedPart_stopThreads (s d c) : fixedPart (stopThreads s d c) = fixedPart s := by simp [stopThreads]
@[simp] theorem fixedPart_smKill (s d c cause who pc addr) : fixedPart (smKill s d c cause who pc addr) = fixedPart s := by
  simp [smKill]
@[simp] theorem fixedPart_smKillAt (s d c k slot key cause addr) :
    fixedPart (smKillAt s d c k slot key cause addr) = fixedPart s := by simp [smKillAt]
@[simp] theorem keeps_execSmCall (d issue ops s) : Keeps s (execSmCall d issue ops s) := by simp [execSmCall]

@[simp] theorem keeps_execCallWindowOpen (d c waited s) : Keeps s (execCallWindowOpen d c waited s) := by
  unfold execCallWindowOpen
  split <;> simp

@[simp] theorem keeps_execFigureStart (d c seat s) : Keeps s (execFigureStart d c seat s) := by
  simp only [execFigureStart, keeps_next]
  repeat' split
  all_goals simp

@[simp] theorem fixedPart_countInstr (s d c) : fixedPart (countInstr s d c) = fixedPart s := by simp [countInstr]
@[simp] theorem fixedPart_retire (s k h) : fixedPart (retire s k h) = fixedPart s := by simp [retire]

@[simp] theorem fixedPart_onRow {act} (h : ∀ i w s, fixedPart (act i w s) = fixedPart s) (s d c slot row) :
    fixedPart (onRow s d c slot row act) = fixedPart s := by
  unfold onRow
  repeat' split
  all_goals simp [h]

@[simp] theorem fixedPart_doStop (s d c slot k x) : fixedPart (doStop s d c slot k x) = fixedPart s := by
  unfold doStop
  split <;> simp

@[simp] theorem fixedPart_setPlain (s d c slot cycles) : fixedPart (setPlain s d c slot cycles) = fixedPart s := by
  unfold setPlain
  split
  · rfl
  · extract_lets k first s1 env
    split
    · simp
    · split
      · extract_lets rs bad
        clear_value bad
        have h1 : fixedPart s1 = fixedPart s := by simp [s1]
        split
        · simp [h1]
        · refine (fixedPart_foldl (fun s r => ?_) _ _).trans h1
          split <;> simp
      · simp
      · rfl

@[simp] theorem keeps_execSetInstruction (d c slot cycles bad s) : Keeps s (execSetInstruction d c slot cycles bad s) := by
  unfold execSetInstruction
  split <;> simp

@[simp] theorem fixedPart_threadLoad (s d c slot a n) : fixedPart (threadLoad s d c slot a n).2 = fixedPart s := by
  refine fixedPart_foldl_of Prod.snd (fun x p => ?_) _ _
  split <;> simp

@[simp] theorem fixedPart_threadStore (s d c slot a n v) : fixedPart (threadStore s d c slot a n v) = fixedPart s := by
  refine fixedPart_foldl (fun s p => ?_) _ _
  dsimp only
  split <;> simp

@[simp] theorem keeps_execSetMemoryAccess (d c slot s) : Keeps s (execSetMemoryAccess d c slot s) := by
  refine keeps_next.2 (fixedPart_onRow (fun i w s => ?_) _ _ _ _ _)
  dsimp only
  repeat' split
  all_goals simp

@[simp] theorem fixedPart_orderedStart (s d c a n write) : fixedPart (orderedStart s d c a n write).1 = fixedPart s := by
  unfold orderedStart
  split <;> simp

@[simp] theorem fixedPart_orderedPut (s pa n v) : fixedPart (orderedPut s pa n v) = fixedPart s := by simp [orderedPut]
@[simp] theorem fixedPart_orderedEnd (s pa n) : fixedPart (orderedEnd s pa n) = fixedPart s := by simp [orderedEnd]

@[simp] theorem fixedPart_orderedNote (s d c slot key kind) : fixedPart (orderedNote s d c slot key kind) = fixedPart s := by
  unfold orderedNote
  split <;> simp

@[simp] theorem fixedPart_giveAll (s w ks vals fl) : fixedPart (giveAll s w ks vals fl) = fixedPart s := by simp [giveAll]
@[simp] theorem fixedPart_combineAt (s d c slot w ks a kind f) : fixedPart (combineAt s d c slot w ks a kind f) = fixedPart s := by
  simp [combineAt]

@[simp] theorem keeps_execSetAmoCombine (d c slot s) : Keeps s (execSetAmoCombine d c slot s) := by
  refine keeps_next.2 (fixedPart_onRow (fun i w s => ?_) _ _ _ _ _)
  repeat' split
  all_goals simp

@[simp] theorem keeps_execSmFadd (d c slot s) : Keeps s (execSmFadd d c slot s) := by
  refine keeps_next.2 (fixedPart_onRow (fun i w s => ?_) _ _ _ _ _)
  repeat' split
  all_goals simp

@[simp] theorem fixedPart_serialOne (s d c slot w k) : fixedPart (serialOne s d c slot w k) = fixedPart s := by simp [serialOne]

@[simp] theorem keeps_execSetSerialAtomic (d c slot s) : Keeps s (execSetSerialAtomic d c slot s) := by
  refine keeps_next.2 (fixedPart_onRow (fun i w s => ?_) _ _ _ _ _)
  dsimp only
  repeat' split
  all_goals simp

@[simp] theorem fixedPart_casOne (s d c slot w k) : fixedPart (casOne s d c slot w k) = fixedPart s := by simp [casOne]

@[simp] theorem keeps_execSmCas (d c slot s) : Keeps s (execSmCas d c slot s) := by
  refine keeps_next.2 (fixedPart_onRow (fun i w s => ?_) _ _ _ _ _)
  repeat' split
  all_goals simp

@[simp] theorem fixedPart_checkBarrier (s d c slot key pc k) : fixedPart (checkBarrier s d c slot key pc k) = fixedPart s := by
  simp [checkBarrier]
@[simp] theorem keeps_execSmBarrier (d c slot s) : Keeps s (execSmBarrier d c slot s) := by simp [execSmBarrier]

@[simp] theorem keeps_execBarrierRelease (d c slot s) : Keeps s (execBarrierRelease d c slot s) := by
  unfold execBarrierRelease
  split <;> simp

@[simp] theorem keeps_execSmExit (d c slot s) : Keeps s (execSmExit d c slot s) := by
  refine keeps_next.2 (fixedPart_onRow (fun i w s => ?_) _ _ _ _ _)
  dsimp only
  repeat' split
  all_goals simp

@[simp] theorem keeps_execSmAccrd (d c slot s) : Keeps s (execSmAccrd d c slot s) := by
  refine keeps_next.2 (fixedPart_onRow (fun i w s => ?_) _ _ _ _ _)
  dsimp only
  repeat' split
  all_goals simp

@[simp] theorem keeps_execSmPrefetch (d c slot s) : Keeps s (execSmPrefetch d c slot s) := by simp [execSmPrefetch]

@[simp] theorem fixedPart_setSignal (s d c slot op) :
    fixedPart (setSignal s d c slot op) = fixedPart s := by
  refine fixedPart_onRow (fun i w s => ?_) _ _ _ _ _
  dsimp only
  repeat' split
  all_goals simp

@[simp] theorem fixedPart_setWait (s d c slot op) :
    fixedPart (setWait s d c slot op) = fixedPart s := by
  refine fixedPart_onRow (fun i w s => ?_) _ _ _ _ _
  dsimp only
  repeat' split
  all_goals simp

@[simp] theorem keeps_execStreamCacheWritebackDone (d c late s) : Keeps s (execStreamCacheWritebackDone d c late s) := by
  unfold execStreamCacheWritebackDone
  split <;> simp

@[simp] theorem fixedPart_callSettle (s d c) : fixedPart (callSettle s d c) = fixedPart s := by
  unfold callSettle
  split <;> simp

@[simp] theorem keeps_execCallEnd (d c held s) : Keeps s (execCallEnd d c held s) := by
  unfold execCallEnd
  split <;> simp

@[simp] theorem keeps_execCallWindowExpiry (d c s) : Keeps s (execCallWindowExpiry d c s) := by
  unfold execCallWindowExpiry
  split <;> simp

@[simp] theorem keeps_execCallGraceExpiry (d c s) : Keeps s (execCallGraceExpiry d c s) := by
  unfold execCallGraceExpiry
  split <;> simp

/-! ### Faults -/

@[simp] theorem fixedPart_gatherRelease (s d c) : fixedPart (gatherRelease s d c) = fixedPart s := by simp [gatherRelease]
@[simp] theorem fixedPart_setsRelease (s d c k) : fixedPart (setsRelease s d c k) = fixedPart s := by simp [setsRelease]
@[simp] theorem fixedPart_resolveIgnored (s d) : fixedPart (resolveIgnored s d) = fixedPart s := by simp [resolveIgnored]
@[simp] theorem fixedPart_resolveRetry (s d i) : fixedPart (resolveRetry s d i) = fixedPart s := by simp [resolveRetry]

@[simp] theorem fixedPart_resolveFatal (s d i) : fixedPart (resolveFatal s d i) = fixedPart s := by
  unfold resolveFatal
  split
  · extract_lets k window va w s1 s2 s3
    have h2 : fixedPart s2 = fixedPart s1 := by
      refine fixedPart_foldl (fun s c => ?_) _ _
      split <;> simp
    have h3 : fixedPart s3 = fixedPart s2 := fixedPart_foldl (fun s t => by simp) _ _
    simp [h3, h2, s1]
  · simp

@[simp] theorem fixedPart_broadcastFence (s hart va asid) : fixedPart (broadcastFence s hart va asid) = fixedPart s := by
  simp [broadcastFence]
@[simp] theorem fixedPart_hartWaits (s hart ids) : fixedPart (hartWaits s hart ids) = fixedPart s := by simp [hartWaits]
@[simp] theorem keeps_execSfenceVma (hart va asid s) : Keeps s (execSfenceVma hart va asid s) := by simp [execSfenceVma]
@[simp] theorem keeps_execSinvalVma (hart va asid s) : Keeps s (execSinvalVma hart va asid s) := by simp [execSinvalVma]
@[simp] theorem keeps_execSfenceInvalIr (hart s) : Keeps s (execSfenceInvalIr hart s) := by simp [execSfenceInvalIr]

@[simp] theorem keeps_execFenceAck (d id s) : Keeps s (execFenceAck d id s) := by
  unfold execFenceAck
  split <;> simp

/-! ### Update -/

@[simp] theorem fixedPart_upEvent (s d i) : fixedPart (upEvent s d i) = fixedPart s := by simp [upEvent]
@[simp] theorem fixedPart_usIssue (s d op issue ops) : fixedPart (usIssue s d op issue ops) = fixedPart s := by simp [usIssue]
@[simp] theorem keeps_execUpRuleWrite (d j w v s) : Keeps s (execUpRuleWrite d j w v s) := by simp [execUpRuleWrite]
@[simp] theorem fixedPart_upRun (s u) : fixedPart (upRun s u).1 = fixedPart s := by simp [upRun]
@[simp] theorem fixedPart_mixLeavings (s u) : fixedPart (mixLeavings s u) = fixedPart s := by simp [mixLeavings]
@[simp] theorem keeps_execUpApply (d issue ops s) : Keeps s (execUpApply d issue ops s) := by simp [execUpApply]

@[simp] theorem keeps_execUpdateWindowOpen (d waited s) : Keeps s (execUpdateWindowOpen d waited s) := by
  unfold execUpdateWindowOpen
  split <;> simp

@[simp] theorem fixedPart_updSettle (s d issue) : fixedPart (updSettle s d issue) = fixedPart s := by
  unfold updSettle
  split <;> simp

@[simp] theorem keeps_execUpdateEnd (d issue held s) : Keeps s (execUpdateEnd d issue held s) := by
  unfold execUpdateEnd
  split <;> simp

@[simp] theorem keeps_execUpdateWindowExpiry (d issue s) : Keeps s (execUpdateWindowExpiry d issue s) := by
  simp [execUpdateWindowExpiry]

/-! ### Timetable -/

@[simp] theorem fixedPart_setTtState (s d st) : fixedPart (setTtState s d st) = fixedPart s := by simp [setTtState]
@[simp] theorem fixedPart_showSeen (s d) : fixedPart (showSeen s d) = fixedPart s := by simp [showSeen]
@[simp] theorem fixedPart_noteSeen (s d k src) : fixedPart (noteSeen s d k src) = fixedPart s := by simp [noteSeen]
@[simp] theorem fixedPart_noteRemote (s d k) : fixedPart (noteRemote s d k) = fixedPart s := by simp [noteRemote]
@[simp] theorem fixedPart_portReport (s unit departure k mtc) : fixedPart (portReport s unit departure k mtc) = fixedPart s :=
    (rfl)
@[simp] theorem fixedPart_showFlush (s) : fixedPart (showFlush s) = fixedPart s := by simp [showFlush]
@[simp] theorem fixedPart_possBegin (s p) : fixedPart (possBegin s p) = fixedPart s := by simp [possBegin]
@[simp] theorem fixedPart_possStart (s k) : fixedPart (possStart s k) = fixedPart s := by simp [possStart]
@[simp] theorem fixedPart_possEnd (s p) : fixedPart (possEnd s p) = fixedPart s := by simp [possEnd]
@[simp] theorem fixedPart_possLeave (s d k) : fixedPart (possLeave s d k) = fixedPart s := by simp [possLeave]
@[simp] theorem fixedPart_flushHome (s d base granules) : fixedPart (flushHome s d base granules) = fixedPart s := by
  simp [flushHome]
@[simp] theorem fixedPart_dieArrive (s d named) : fixedPart (dieArrive s d named) = fixedPart s := by simp [dieArrive]
@[simp] theorem keeps_execEngineArrival (d e named s) : Keeps s (execEngineArrival d e named s) := by simp [execEngineArrival]

@[simp] theorem keeps_execArrivalMessage (d src s) : Keeps s (execArrivalMessage d src s) := by
  unfold execArrivalMessage
  split <;> simp

@[simp] theorem fixedPart_packageArrival (s src k die n) : fixedPart (packageArrival s src k die n) = fixedPart s := by
  simp [packageArrival]
@[simp] theorem fixedPart_lateDeparture (s d k beats) : fixedPart (lateDeparture s d k beats) = fixedPart s := by
  simp [lateDeparture]
@[simp] theorem fixedPart_reportDeparture (s d k beat) : fixedPart (reportDeparture s d k beat) = fixedPart s := by
  simp [reportDeparture]

@[simp] theorem fixedPart_preTranslateAll (s d) : fixedPart (preTranslateAll s d) = fixedPart s := by
  refine fixedPart_foldl (fun s x => ?_) _ _
  split <;> simp

@[simp] theorem fixedPart_slotsAgain (s d) : fixedPart (slotsAgain s d) = fixedPart s := by simp [slotsAgain]
@[simp] theorem fixedPart_departDie (s d k) : fixedPart (departDie s d k) = fixedPart s := by simp [departDie]
@[simp] theorem fixedPart_releaseHeld (s) : fixedPart (releaseHeld s) = fixedPart s := by simp [releaseHeld]
@[simp] theorem keeps_execDeparture (d t s) : Keeps s (execDeparture d t s) := by simp [execDeparture]
@[simp] theorem keeps_execStationTimeout (d t s) : Keeps s (execStationTimeout d t s) := by simp [execStationTimeout]
@[simp] theorem keeps_execDepartureOverdue (d t s) : Keeps s (execDepartureOverdue d t s) := by simp [execDepartureOverdue]

/-! ### Load -/

@[simp] theorem fixedPart_loadResult (s d f) : fixedPart (loadResult s d f) = fixedPart s := by simp [loadResult]
@[simp] theorem fixedPart_unload (s) : fixedPart (unload s) = fixedPart s := by simp [unload]

@[simp] theorem fixedPart_armAbort (s status detail) : fixedPart (armAbort s status detail) = fixedPart s := by
  unfold armAbort
  repeat' split
  all_goals simp

@[simp] theorem fixedPart_clearAtLoad (s d) : fixedPart (clearAtLoad s d) = fixedPart s := by
  simp only [clearAtLoad, fixedPart_foldl, fixedPart_wr, fixedPart_wrF, fixedPart_setEng, fixedPart_mk,
    fixedPart_eta, implies_true]

@[simp] theorem fixedPart_loadPoss (s t) : fixedPart (loadPoss s t) = fixedPart s := by simp [loadPoss]

@[simp] theorem fixedPart_installLoad (s d t) : fixedPart (installLoad s d t) = fixedPart s := by
  simp only [installLoad, fixedPart_foldl, fixedPart_clearAtLoad, fixedPart_setDie, fixedPart_wr, fixedPart_setTtState,
    fixedPart_wrB, fixedPart_loadResult, fixedPart_ttEvent, fixedPart_loadPoss, fixedPart_mk, fixedPart_eta,
    implies_true]

@[simp] theorem keeps_execTtLoad (d v s) : Keeps s (execTtLoad d v s) := by simp [execTtLoad]

/-! ### Power -/

@[simp] theorem fixedPart_pwUpd (s d f) : fixedPart (pwUpd s d f) = fixedPart s := (rfl)
@[simp] theorem fixedPart_pwEvent (s d i) : fixedPart (pwEvent s d i) = fixedPart s := by simp [pwEvent]
@[simp] theorem keeps_execBudgetPeriod (fixed watts energy s) : Keeps s (execBudgetPeriod fixed watts energy s) := by
  simp [execBudgetPeriod]
@[simp] theorem fixedPart_setDuties (s d) : fixedPart (setDuties s d) = fixedPart s := by simp [setDuties]

@[simp] theorem keeps_execGrantApply (d dutyC dutyM dutyL procMult withheld slots s) :
    Keeps s (execGrantApply d dutyC dutyM dutyL procMult withheld slots s) := by
  unfold execGrantApply
  split <;> simp

@[simp] theorem keeps_execDroop (d cycles s) : Keeps s (execDroop d cycles s) := by simp [execDroop]
@[simp] theorem fixedPart_thermMove (s d tl ts) : fixedPart (thermMove s d tl ts) = fixedPart s := by simp [thermMove]
@[simp] theorem keeps_execThermalStep (d logic stack t s) : Keeps s (execThermalStep d logic stack t s) := by
  simp [execThermalStep]
@[simp] theorem keeps_execThermalTrip (d s) : Keeps s (execThermalTrip d s) := by simp [execThermalTrip]
@[simp] theorem fixedPart_storedLeakage (s) : fixedPart (storedLeakage s) = fixedPart s := by simp [storedLeakage]
@[simp] theorem keeps_execLeakageLearned (d leak t s) : Keeps s (execLeakageLearned d leak t s) := by simp [execLeakageLearned]
@[simp] theorem keeps_execBMessageDue (d r s) : Keeps s (execBMessageDue d r s) := by simp [execBMessageDue]
@[simp] theorem keeps_execBMessage (d msg s) : Keeps s (execBMessage d msg s) := by simp [execBMessage]
@[simp] theorem fixedPart_writeBackAll (s) : fixedPart (writeBackAll s) = fixedPart s := by simp [writeBackAll]

/-! ### Jobs -/

@[simp] theorem fixedPart_jobIgnored (s) : fixedPart (jobIgnored s) = fixedPart s := by simp [jobIgnored]
@[simp] theorem keeps_execHpJobManifestWrite (v s) : Keeps s (execHpJobManifestWrite v s) := by simp [execHpJobManifestWrite]

@[simp] theorem fixedPart_landRead (s src n) : fixedPart (landRead s src n).2.2 = fixedPart s := by
  simp only [landRead]
  repeat' split
  all_goals simp

theorem fixedPart_eq_of_landRead {s off n st l u} (h : landRead s off n = (st, l, u)) : fixedPart u = fixedPart s := by
  simpa [h] using fixedPart_landRead s off n

@[simp] theorem fixedPart_authRefused (s) : fixedPart (authRefused s) = fixedPart s := by simp [authRefused]
@[simp] theorem fixedPart_newArmKey (s) : fixedPart (newArmKey s) = fixedPart s := by simp [newArmKey]
@[simp] theorem fixedPart_consumeArmKey (s) : fixedPart (consumeArmKey s) = fixedPart s := by simp [consumeArmKey]
@[simp] theorem fixedPart_zeroJobState (s) : fixedPart (zeroJobState s) = fixedPart s := by simp [zeroJobState]
@[simp] theorem fixedPart_armReset (s) : fixedPart (armReset s) = fixedPart s := by simp [armReset]

@[simp] theorem fixedPart_enterArming (s q m) : fixedPart (enterArming s q m) = fixedPart s := by
  simp only [enterArming, fixedPart_foldl, fixedPart_armReset, fixedPart_applyStep, fixedPart_forgetGranules,
    fixedPart_setSelf, fixedPart_wrF, fixedPart_wr, fixedPart_setJob, fixedPart_mk, fixedPart_eta, implies_true]

@[simp] theorem fixedPart_installKeys (s b) : fixedPart (installKeys s b) = fixedPart s := by simp [installKeys]

@[simp] theorem fixedPart_armCopied (s q m sigOk bundle) : fixedPart (armCopied s q m sigOk bundle) = fixedPart s := by
  unfold armCopied
  repeat' split
  all_goals simp

@[simp] theorem keeps_execArmJob (seq sigOk bundle s) : Keeps s (execArmJob seq sigOk bundle s) := by
  refine keeps_next.2 (fixedPart_startCmd (fun b s => ?_) _ _ _ _)
  dsimp only
  repeat' split
  all_goals simp
  all_goals exact fixedPart_eq_of_landRead ‹_›

@[simp] theorem fixedPart_announceArmed (s) : fixedPart (announceArmed s) = fixedPart s := by simp [announceArmed]

@[simp] theorem fixedPart_tryArmed (s) : fixedPart (tryArmed s) = fixedPart s := by
  unfold tryArmed
  repeat' split
  all_goals simp

@[simp] theorem keeps_execArmDone (s) : Keeps s (execArmDone s) := by simp [execArmDone]

@[simp] theorem keeps_execPossessionFlushDone (d base s) : Keeps s (execPossessionFlushDone d base s) := by
  unfold execPossessionFlushDone
  split <;> simp

@[simp] theorem keeps_execTtLoadComplete (d s) : Keeps s (execTtLoadComplete d s) := by
  unfold execTtLoadComplete
  repeat' split
  all_goals simp

@[simp] theorem keeps_execMainRelock (s) : Keeps s (execMainRelock s) := by simp [execMainRelock]
@[simp] theorem keeps_execFail (s) : Keeps s (execFail s) := by simp [execFail]
@[simp] theorem keeps_execArmLimitExpiry (t s) : Keeps s (execArmLimitExpiry t s) := by simp [execArmLimitExpiry]
@[simp] theorem keeps_execArmedAnnounce (t s) : Keeps s (execArmedAnnounce t s) := by simp [execArmedAnnounce]
@[simp] theorem keeps_execRightAway (seq s) : Keeps s (execRightAway seq s) := by simp [execRightAway]

@[simp] theorem fixedPart_noteNotClear (s) : fixedPart (noteNotClear s) = fixedPart s := by
  unfold noteNotClear
  split <;> simp

@[simp] theorem fixedPart_departAll (s) : fixedPart (departAll s) = fixedPart s := by simp [departAll]
@[simp] theorem fixedPart_lineAgain (s) : fixedPart (lineAgain s) = fixedPart s := by simp [lineAgain]
@[simp] theorem keeps_execRightAwayReached (t s) : Keeps s (execRightAwayReached t s) := by simp [execRightAwayReached]
@[simp] theorem fixedPart_stopEngines (s) : fixedPart (stopEngines s) = fixedPart s := by simp [stopEngines]

@[simp] theorem keeps_execTeardown (seq s) : Keeps s (execTeardown seq s) := by
  refine keeps_next.2 (fixedPart_startCmd (fun b s => ?_) _ _ _ _)
  dsimp only
  repeat' split
  all_goals simp

@[simp] theorem fixedPart_withdrawWork (s) : fixedPart (withdrawWork s) = fixedPart s := by simp [withdrawWork]
@[simp] theorem keeps_execTeardownWithdraw (t s) : Keeps s (execTeardownWithdraw t s) := by simp [execTeardownWithdraw]
@[simp] theorem fixedPart_sendLinkLocal (s ctrl tag) : fixedPart (sendLinkLocal s ctrl tag) = fixedPart s := by
  simp [sendLinkLocal]
@[simp] theorem fixedPart_dropJobLines (s) : fixedPart (dropJobLines s) = fixedPart s := by simp [dropJobLines]
@[simp] theorem fixedPart_teardownSteps (s) : fixedPart (teardownSteps s) = fixedPart s := by simp [teardownSteps]
@[simp] theorem fixedPart_quarantineAdd (s tag) : fixedPart (quarantineAdd s tag) = fixedPart s := by simp [quarantineAdd]
@[simp] theorem fixedPart_quarantineDrop (s tag) : fixedPart (quarantineDrop s tag) = fixedPart s := (rfl)

@[simp] theorem keeps_execTeardownComplete (s) : Keeps s (execTeardownComplete s) := by
  simp only [execTeardownComplete, keeps_next, fixedPart_ite]
  repeat' split
  all_goals simp

@[simp] theorem fixedPart_enterIdle (s) : fixedPart (enterIdle s) = fixedPart s := by simp [enterIdle]
@[simp] theorem keeps_execTagCleared (s) : Keeps s (execTagCleared s) := by simp [execTagCleared]
@[simp] theorem keeps_execClearTimeout (t s) : Keeps s (execClearTimeout t s) := by simp [execClearTimeout]
@[simp] theorem keeps_execQuarantineExpiry (tag t s) : Keeps s (execQuarantineExpiry tag t s) := by simp [execQuarantineExpiry]
@[simp] theorem fixedPart_noteArmed (s src pl) : fixedPart (noteArmed s src pl) = fixedPart s := by simp [noteArmed]

/-! ### Functions -/

@[simp] theorem fixedPart_holdNport (s n low) : fixedPart (holdNport s n low) = fixedPart s := by simp [holdNport]
@[simp] theorem fixedPart_setFunc (s kind i st withdrawn) : fixedPart (setFunc s kind i st withdrawn) = fixedPart s := by
  simp [setFunc]

@[simp] theorem fixedPart_endSetFunction (s kind i) : fixedPart (endSetFunction s kind i) = fixedPart s := by
  unfold endSetFunction
  split <;> simp

@[simp] theorem fixedPart_requestDisable (s kind i) : fixedPart (requestDisable s kind i).1 = fixedPart s := by
  unfold requestDisable
  repeat' split
  all_goals simp

theorem fixedPart_eq_of_requestDisable {s kind i u st} (h : requestDisable s kind i = (u, st)) : fixedPart u = fixedPart s := by
  simpa [h] using fixedPart_requestDisable s kind i

@[simp] theorem fixedPart_stripesBehind (s i) : fixedPart (stripesBehind s i) = fixedPart s := (rfl)

@[simp] theorem fixedPart_requestEnable (s kind i) : fixedPart (requestEnable s kind i).1 = fixedPart s := by
  unfold requestEnable
  repeat' split
  all_goals simp

@[simp] theorem keeps_execSetFunctionDisable (seq s) : Keeps s (execSetFunctionDisable seq s) := by
  refine keeps_next.2 (fixedPart_startCmd (fun b s => ?_) _ _ _ _)
  split
  · simp
  · split
    all_goals
      rename_i h
      simp [fixedPart_eq_of_requestDisable h]

@[simp] theorem keeps_execSetFunctionEnable (seq s) : Keeps s (execSetFunctionEnable seq s) := by simp [execSetFunctionEnable]
@[simp] theorem keeps_execOmCtrlDisable (p s) : Keeps s (execOmCtrlDisable p s) := by simp [execOmCtrlDisable]
@[simp] theorem keeps_execOmCtrlEnable (p s) : Keeps s (execOmCtrlEnable p s) := by simp [execOmCtrlEnable]
@[simp] theorem fixedPart_reqWithdrawn (s r) : fixedPart (reqWithdrawn s r) = fixedPart s := by simp [reqWithdrawn]
@[simp] theorem fixedPart_ommetDown (s p) : fixedPart (ommetDown s p) = fixedPart s := by simp [ommetDown]
@[simp] theorem fixedPart_sendPortDisable (s p) : fixedPart (sendPortDisable s p) = fixedPart s := by simp [sendPortDisable]
@[simp] theorem fixedPart_drainEnd (s kind i nand) : fixedPart (drainEnd s kind i nand) = fixedPart s := by simp [drainEnd]
@[simp] theorem keeps_execFunctionDrained (f s) : Keeps s (execFunctionDrained f s) := by simp [execFunctionDrained]
@[simp] theorem keeps_execFunctionDrainExpiry (f t nand s) : Keeps s (execFunctionDrainExpiry f t nand s) := by
  simp [execFunctionDrainExpiry]
@[simp] theorem fixedPart_portFault (s p) : fixedPart (portFault s p) = fixedPart s := by simp [portFault]

/-! ### Lands -/

@[simp] theorem fixedPart_wipe (s) : fixedPart (wipe s) = fixedPart s := by simp [wipe]
@[simp] theorem fixedPart_beginStart (s) : fixedPart (beginStart s) = fixedPart s := by simp [beginStart]
@[simp] theorem keeps_execVauxValid (serviceHigh s) : Keeps s (execVauxValid serviceHigh s) := by simp [execVauxValid]
@[simp] theorem keeps_execVinValid (s) : Keeps s (execVinValid s) := keeps_next.2 (rfl)
@[simp] theorem keeps_execRailsInRegulation (t s) : Keeps s (execRailsInRegulation t s) := by simp [execRailsInRegulation]
@[simp] theorem keeps_execVinLoss (s) : Keeps s (execVinLoss s) := by simp [execVinLoss]
@[simp] theorem keeps_execVauxLoss (s) : Keeps s (execVauxLoss s) := by simp [execVauxLoss]
@[simp] theorem keeps_execManagementReady (s) : Keeps s (execManagementReady s) := by simp [execManagementReady]
@[simp] theorem keeps_execRestart (s) : Keeps s (execRestart s) := by simp [execRestart]
@[simp] theorem fixedPart_mgmtDo (s f) : fixedPart (mgmtDo s f) = fixedPart s := by simp [mgmtDo]
@[simp] theorem keeps_execEntdaa (addr s) : Keeps s (execEntdaa addr s) := by simp [execEntdaa]
@[simp] theorem keeps_execSetdasa (target addr s) : Keeps s (execSetdasa target addr s) := by simp [execSetdasa]
@[simp] theorem keeps_execGetstatus (s) : Keeps s (execGetstatus s) := by simp [execGetstatus]

@[simp] theorem keeps_execManagementIndexWrite (bytes s) : Keeps s (execManagementIndexWrite bytes s) := by
  unfold execManagementIndexWrite
  split <;> simp

@[simp] theorem keeps_execManagementPrivateRead (s) : Keeps s (execManagementPrivateRead s) := by
  unfold execManagementPrivateRead
  split <;> simp

@[simp] theorem keeps_execCoreFault (p site s) : Keeps s (execCoreFault p site s) := keeps_next.2 (rfl)

/-! ### Images -/

@[simp] theorem fixedPart_applyCfg (s l) : fixedPart (applyCfg s l) = fixedPart s := by simp [applyCfg]

/-! ### Commands -/

@[simp] theorem keeps_execIdentify (seq s) : Keeps s (execIdentify seq s) := by simp [execIdentify]
@[simp] theorem keeps_execGetStatus (seq s) : Keeps s (execGetStatus seq s) := by simp [execGetStatus]
@[simp] theorem keeps_execMapLanding (seq s) : Keeps s (execMapLanding seq s) := by simp [execMapLanding]

@[simp] theorem fixedPart_putFrame (s b) : fixedPart (putFrame s b).2.2 = fixedPart s := by
  unfold putFrame
  split <;> simp

theorem fixedPart_eq_of_putFrame {s b st l u} (h : putFrame s b = (st, l, u)) : fixedPart u = fixedPart s := by
  simpa [h] using fixedPart_putFrame s b

@[simp] theorem keeps_execPut (seq opened s) : Keeps s (execPut seq opened s) := by
  refine keeps_next.2 (fixedPart_startCmd (fun b s => ?_) _ _ _ _)
  dsimp only
  repeat' split
  all_goals simp
  all_goals exact fixedPart_eq_of_putFrame ‹_›

@[simp] theorem keeps_execGet (seq s) : Keeps s (execGet seq s) := by
  refine keeps_next.2 (fixedPart_startCmd (fun b s => ?_) _ _ _ _)
  dsimp only
  repeat' split
  all_goals simp
  all_goals exact fixedPart_eq_of_jobRead ‹_›

@[simp] theorem keeps_execSignalRead (seq s) : Keeps s (execSignalRead seq s) := by simp [execSignalRead]
@[simp] theorem fixedPart_hostSignal (s seq b add) : fixedPart (hostSignal s seq b add) = fixedPart s := by simp [hostSignal]
@[simp] theorem keeps_execSignalSet (seq s) : Keeps s (execSignalSet seq s) := by simp [execSignalSet]
@[simp] theorem keeps_execSignalAdd (seq s) : Keeps s (execSignalAdd seq s) := by simp [execSignalAdd]
@[simp] theorem keeps_execStable (seq s) : Keeps s (execStable seq s) := by simp [execStable]

@[simp] theorem fixedPart_landFile (s src n) : fixedPart (landFile s src n).2.2 = fixedPart s := by
  unfold landFile
  split <;> simp

theorem fixedPart_eq_of_landFile {s src n st l u} (h : landFile s src n = (st, l, u)) : fixedPart u = fixedPart s := by
  simpa [h] using fixedPart_landFile s src n

@[simp] theorem fixedPart_newChallenge (s) : fixedPart (newChallenge s) = fixedPart s := by simp [newChallenge]
@[simp] theorem keeps_execMaintenanceEnter (seq sigOk s) : Keeps s (execMaintenanceEnter seq sigOk s) := by
  simp [execMaintenanceEnter]
@[simp] theorem keeps_execMaintenanceRestart (seq s) : Keeps s (execMaintenanceRestart seq s) := by simp [execMaintenanceRestart]

@[simp] theorem fixedPart_update {store} (h : ∀ g x, identity (store g x) = identity g) (s seq target check readBackOk) :
    fixedPart (update s seq target check readBackOk store) = fixedPart s := by
  refine fixedPart_startCmd (fun b s => ?_) _ _ _ _
  split
  all_goals
    rename_i hl
    have hl := fixedPart_eq_of_landFile hl
  · repeat' split
    all_goals simp [h, hl]
  · simp [hl]

@[simp] theorem keeps_execUpdateFirmware (seq sigOk readBackOk s) : Keeps s (execUpdateFirmware seq sigOk readBackOk s) := by
  simp [execUpdateFirmware]
@[simp] theorem keeps_execUpdateConfiguration (seq sigOk readBackOk s) :
    Keeps s (execUpdateConfiguration seq sigOk readBackOk s) := by simp [execUpdateConfiguration]
@[simp] theorem keeps_execAttest (seq s) : Keeps s (execAttest seq s) := by simp [execAttest]

@[simp] theorem keeps_execHeartbeatMiss (x1 s) : Keeps s (execHeartbeatMiss x1 s) := by
  unfold execHeartbeatMiss
  split <;> simp

/-! ### Lanes -/

@[simp] theorem fixedPart_sendLink (s p link logical phys delay) :
    fixedPart (sendLink s p link logical phys delay) = fixedPart s := by simp [sendLink]
@[simp] theorem fixedPart_askLane (s p n delay) : fixedPart (askLane s p n delay) = fixedPart s := by simp [askLane]
@[simp] theorem keeps_execPartnerDetect (p s) : Keeps s (execPartnerDetect p s) := by simp [execPartnerDetect]

@[simp] theorem keeps_execTrainingDone (p lanes partner s) : Keeps s (execTrainingDone p lanes partner s) := by
  unfold execTrainingDone
  repeat' split
  all_goals simp

@[simp] theorem fixedPart_laneFails (s p lane delay) : fixedPart (laneFails s p lane delay) = fixedPart s := by
  simp only [laneFails, fixedPart_ite]
  repeat' split
  all_goals simp

@[simp] theorem fixedPart_declareLane (s p lane) : fixedPart (declareLane s p lane) = fixedPart s := by simp [declareLane]
@[simp] theorem fixedPart_fecCorrect (s p corr) : fixedPart (fecCorrect s p corr) = fixedPart s := by simp [fecCorrect]
@[simp] theorem fixedPart_nakedOut (s p) : fixedPart (nakedOut s p) = fixedPart s := by simp [nakedOut]

@[simp] theorem keeps_execLaneChangeEffect (p delay s) : Keeps s (execLaneChangeEffect p delay s) := by
  simp only [execLaneChangeEffect, keeps_next]
  repeat' split
  all_goals simp

@[simp] theorem fixedPart_laneChange (s p pl) : fixedPart (laneChange s p pl) = fixedPart s := by simp [laneChange]
@[simp] theorem fixedPart_laneAck (s p pl) : fixedPart (laneAck s p pl) = fixedPart s := by simp [laneAck]
@[simp] theorem keeps_execOrEntryWrite (d g v s) : Keeps s (execOrEntryWrite d g v s) := by simp [execOrEntryWrite]

/-! ### MainArray -/

@[simp] theorem fixedPart_cubeMismatch (s d row col issue) : fixedPart (cubeMismatch s d row col issue) = fixedPart s := by
  simp [cubeMismatch]
@[simp] theorem fixedPart_maIssue (s d op issue ops) : fixedPart (maIssue s d op issue ops) = fixedPart s := by simp [maIssue]
@[simp] theorem keeps_execMaMma (d issue ops bad s) : Keeps s (execMaMma d issue ops bad s) := by simp [execMaMma]

/-! ### TimeTransfer -/

@[simp] theorem fixedPart_partnerPos (s p) : fixedPart (partnerPos s p).2 = fixedPart s := by
  simp only [partnerPos]
  split <;> simp

@[simp] theorem keeps_execTimeTransferRequest (t s) : Keeps s (execTimeTransferRequest t s) := by simp [execTimeTransferRequest]

@[simp] theorem fixedPart_stampTime (s p dst ts pl) : fixedPart (stampTime s p dst ts pl).2 = fixedPart s := by
  simp only [stampTime]
  repeat' split
  all_goals simp

@[simp] theorem fixedPart_timeDiscard (s) : fixedPart (timeDiscard s) = fixedPart s := by simp [timeDiscard]

@[simp] theorem fixedPart_timeResponse (s t1 t4 pl) : fixedPart (timeResponse s t1 t4 pl) = fixedPart s := by
  simp only [timeResponse, fixedPart_ite]
  repeat' split
  all_goals simp

@[simp] theorem fixedPart_timeReceive (s p f) : fixedPart (timeReceive s p f) = fixedPart s := by
  simp only [timeReceive, fixedPart_ite]
  repeat' split
  all_goals simp

/-! ### Slots -/

@[simp] theorem fixedPart_takeCounter (s f) : fixedPart (takeCounter s f).2 = fixedPart s := by
  unfold takeCounter
  repeat' split
  all_goals simp

@[simp] theorem fixedPart_sendPick (s p ts x1) : fixedPart (sendPick s p ts x1) = fixedPart s := by
  simp only [sendPick]
  repeat' split
  all_goals simp

@[simp] theorem fixedPart_slotMissed (s p cause path) : fixedPart (slotMissed s p cause path) = fixedPart s := by
  unfold slotMissed
  split <;> simp

@[simp] theorem keeps_execOmmetPayloadSlot (p can ts corr s) : Keeps s (execOmmetPayloadSlot p can ts corr s) := by
  simp [execOmmetPayloadSlot]

/-! ### Ommet -/

@[simp] theorem fixedPart_awayFill (s d form window a) : fixedPart (awayFill s d form window a) = fixedPart s := by
  simp [awayFill]

@[simp] theorem fixedPart_awayWrite (s d form window a booked tag data) :
    fixedPart (awayWrite s d form window a booked tag data).1 = fixedPart s := by
  refine fixedPart_foldl_of Prod.fst (fun r b => ?_) _ _
  dsimp only
  split <;> simp

@[simp] theorem fixedPart_awayRead (s d form window a n booked tag) :
    fixedPart (awayRead s d form window a n booked tag).2.2.2 = fixedPart s := by
  refine fixedPart_foldl_of (fun r : List Byte × Bool × Option Nat × State => r.2.2.2) (fun r b => ?_) _ _
  simp only [drawBytes]
  repeat' split
  all_goals simp

@[simp] theorem fixedPart_trainResp (s d src op st addr last data) :
    fixedPart (trainResp s d src op st addr last data) = fixedPart s := by simp [trainResp]
@[simp] theorem fixedPart_bookedWrite (s p f) : fixedPart (bookedWrite s p f) = fixedPart s := by simp [bookedWrite]

@[simp] theorem fixedPart_bookedRead (s p f) : fixedPart (bookedRead s p f) = fixedPart s := by
  simp only [bookedRead]
  split <;> simp

@[simp] theorem fixedPart_bookedSignal (s p f add) : fixedPart (bookedSignal s p f add) = fixedPart s := by simp [bookedSignal]

@[simp] theorem fixedPart_bookedReceive (s p f) : fixedPart (bookedReceive s p f) = fixedPart s := by
  unfold bookedReceive
  split <;> simp

@[simp] theorem fixedPart_reqRead (s p f) : fixedPart (reqRead s p f) = fixedPart s := by simp [reqRead]
@[simp] theorem fixedPart_reqWrite (s p f) : fixedPart (reqWrite s p f) = fixedPart s := by simp [reqWrite]
@[simp] theorem fixedPart_reqSignal (s f add) : fixedPart (reqSignal s f add) = fixedPart s := by simp [reqSignal]

@[simp] theorem fixedPart_reqReceive (s p f) : fixedPart (reqReceive s p f) = fixedPart s := by
  unfold reqReceive
  split <;> simp

@[simp] theorem fixedPart_respReceive (s f) : fixedPart (respReceive s f) = fixedPart s := by
  simp only [respReceive, fixedPart_ite]
  repeat' split
  all_goals simp

@[simp] theorem fixedPart_ctrlReceive (s f) : fixedPart (ctrlReceive s f) = fixedPart s := by
  unfold ctrlReceive
  split <;> simp

@[simp] theorem fixedPart_linkReceive (s p f) : fixedPart (linkReceive s p f) = fixedPart s := by
  unfold linkReceive
  split <;> simp

@[simp] theorem fixedPart_flitEffect (s p f) : fixedPart (flitEffect s p f) = fixedPart s := by
  unfold flitEffect
  split <;> simp

@[simp] theorem fixedPart_tagDrop (s p) : fixedPart (tagDrop s p) = fixedPart s := by simp [tagDrop]
@[simp] theorem fixedPart_pairTake (s f) : fixedPart (pairTake s f) = fixedPart s := by simp [pairTake]
@[simp] theorem fixedPart_authDrop (s p f) : fixedPart (authDrop s p f) = fixedPart s := by simp [authDrop]
@[simp] theorem fixedPart_deliverFlit (s p f) : fixedPart (deliverFlit s p f) = fixedPart s := by simp [deliverFlit]

@[simp] theorem fixedPart_drainHeld (fuel s p) : fixedPart (drainHeld fuel s p) = fixedPart s := by
  induction fuel generalizing s with
  | zero => rfl
  | succ fuel ih =>
    unfold drainHeld
    split <;> simp [ih]

@[simp] theorem fixedPart_linkWordIn (s p ack lack) : fixedPart (linkWordIn s p ack lack) = fixedPart s := by simp [linkWordIn]
@[simp] theorem fixedPart_fecBad (s p lseq) : fixedPart (fecBad s p lseq) = fixedPart s := by simp [fecBad]
@[simp] theorem fixedPart_takeFlit (s p f) : fixedPart (takeFlit s p f) = fixedPart s := by simp [takeFlit]
@[simp] theorem fixedPart_flitIn (s p f) : fixedPart (flitIn s p f) = fixedPart s := by simp [flitIn]
@[simp] theorem fixedPart_flitRow (p f k op s) : fixedPart (flitRow p f k op s) = fixedPart s := by simp [flitRow]
@[simp] theorem keeps_execReservedKindFlit (p f s) : Keeps s (execReservedKindFlit p f s) := by simp [execReservedKindFlit]
@[simp] theorem keeps_execFlitFecFailure (p lseq s) : Keeps s (execFlitFecFailure p lseq s) := by simp [execFlitFecFailure]
@[simp] theorem keeps_execLinkAck (p lack s) : Keeps s (execLinkAck p lack s) := by simp [execLinkAck]
@[simp] theorem keeps_execLinkNak (p lack s) : Keeps s (execLinkNak p lack s) := by simp [execLinkNak]

/-! ### Registers -/

@[simp] theorem fixedPart_writeResolve (s d v) : fixedPart (writeResolve s d v) = fixedPart s := by simp [writeResolve]
@[simp] theorem fixedPart_writeA (s d o v same) : fixedPart (writeA s d o v same) = fixedPart s := by simp [writeA]
@[simp] theorem fixedPart_writeP (s d o v same) : fixedPart (writeP s d o v same) = fixedPart s := by simp [writeP]
@[simp] theorem fixedPart_writeX (s o v same) : fixedPart (writeX s o v same) = fixedPart s := by simp [writeX]
@[simp] theorem fixedPart_writeBar (s o v same) : fixedPart (writeBar s o v same) = fixedPart s := by simp [writeBar]
@[simp] theorem fixedPart_writeWhole (s d o v same) : fixedPart (writeWhole s d o v same) = fixedPart s := by simp [writeWhole]
@[simp] theorem keeps_execRegisterWrite (die off len v same s) : Keeps s (execRegisterWrite die off len v same s) := by
  simp [execRegisterWrite]

/-! ### Start -/

@[simp] theorem fixedPart_nextStep (s) : fixedPart (nextStep s) = fixedPart s := by simp [nextStep]
@[simp] theorem fixedPart_logStart (s) : fixedPart (logStart s) = fixedPart s := (rfl)
@[simp] theorem fixedPart_startFail (s result detail) : fixedPart (startFail s result detail) = fixedPart s := by simp [startFail]
@[simp] theorem fixedPart_startRom (s) : fixedPart (startRom s) = fixedPart s := by simp [startRom]

@[simp] theorem fixedPart_repairBundle (s d e b wires) : fixedPart (repairBundle s d e b wires).1 = fixedPart s := by
  unfold repairBundle
  dsimp only
  refine (fixedPart_foldl (fun s w => ?_) _ _).trans (by simp)
  repeat' split
  all_goals simp

@[simp] theorem fixedPart_repairAll (s faulty) : fixedPart (repairAll s faulty).1 = fixedPart s := by
  refine fixedPart_foldl_of Prod.fst (fun a x => ?_) _ _
  simp

theorem fixedPart_eq_of_repairAll {s faulty u r} (h : repairAll s faulty = (u, r)) : fixedPart u = fixedPart s := by
  simpa [h] using fixedPart_repairAll s faulty

@[simp] theorem fixedPart_startWires (s faulty deadClocks) : fixedPart (startWires s faulty deadClocks) = fixedPart s := by
  unfold startWires
  extract_lets s1 r
  have h1 : fixedPart s1 = fixedPart s := fixedPart_foldl (fun s d => by simp) _ _
  have hr : fixedPart r.1 = fixedPart s := by simp [r, h1]
  split <;> simp [hr]

@[simp] theorem fixedPart_dropMarks (s lo hi) : fixedPart (dropMarks s lo hi) = fixedPart s := (rfl)
@[simp] theorem fixedPart_forgetHistory (s records) : fixedPart (forgetHistory s records) = fixedPart s := by simp [forgetHistory]
@[simp] theorem fixedPart_formatDepot (s) : fixedPart (formatDepot s) = fixedPart s := by simp [formatDepot]
@[simp] theorem fixedPart_populateDepot (s luns lunBytes blocks spares) :
    fixedPart (populateDepot s luns lunBytes blocks spares) = fixedPart s := by simp [populateDepot]

@[simp] theorem fixedPart_startDepot (s partsOk super luns lunBytes blocks spares records) :
    fixedPart (startDepot s partsOk super luns lunBytes blocks spares records) = fixedPart s := by
  unfold startDepot
  dsimp only
  split
  · simp
  · split
    all_goals
      rename_i h
      simp [fixedPart_eq_of_repairAll h]

theorem fixedPart_eq_of_sideArray {s d u} (h : sideArray s d = some u) : fixedPart u = fixedPart s := by
  obtain ⟨q, _, rfl⟩ := Option.map_eq_some_iff.mp h
  simp

theorem fixedPart_eq_of_sideLanes {s d c u} (h : sideLanes s d c = some u) : fixedPart u = fixedPart s := by
  unfold sideLanes at h
  extract_lets bad good out s1 at h
  split at h
  · simp at h
  · obtain rfl := Option.some.inj h
    simp [s1]

@[simp] theorem fixedPart_mapOut (s n t j) : fixedPart (mapOut s n t j) = fixedPart s := by simp [mapOut]
@[simp] theorem fixedPart_trainChannel (s n phys eyes centres) : fixedPart (trainChannel s n phys eyes centres) = fixedPart s := by
  simp [trainChannel]

@[simp] theorem fixedPart_showEyes (s n phys eyes) : fixedPart (showEyes s n phys eyes) = fixedPart s := by
  unfold showEyes
  split <;> simp

theorem fixedPart_of_mem_foldl {α : Type} {f : Option State → α → Option State} {s : State}
    (h : ∀ a x, (∀ v ∈ a, fixedPart v = fixedPart s) → ∀ v ∈ f a x, fixedPart v = fixedPart s) (l : List α) {a : Option State}
    (ha : ∀ v ∈ a, fixedPart v = fixedPart s) : ∀ v ∈ l.foldl f a, fixedPart v = fixedPart s := by
  induction l generalizing a with
  | nil => exact ha
  | cons x l ih => exact ih (h a x ha)

theorem fixedPart_eq_of_sideStack {s n u} (h : sideStack s n = some u) : fixedPart u = fixedPart s := by
  unfold sideStack at h
  extract_lets bad s1 r at h
  have hs : fixedPart s1 = fixedPart s := by simp [s1]
  have hr : ∀ v ∈ r, fixedPart v = fixedPart s := by
    refine fixedPart_of_mem_foldl (fun a p ha v hv => ?_) _ (by simp [hs])
    obtain ⟨w, hw, hv'⟩ := Option.bind_eq_some_iff.mp hv
    have ha := ha w hw
    split at hv'
    · obtain rfl := Option.some.inj hv'
      simp [ha]
    · split at hv'
      · simp at hv'
      · obtain rfl := Option.some.inj hv'
        simp [ha]
  obtain ⟨v, hv, rfl⟩ := Option.map_eq_some_iff.mp h
  simp [hr v hv]

theorem fixedPart_eq_of_sideCores {s p u} (h : sideCores s p = some u) : fixedPart u = fixedPart s := by
  unfold sideCores at h
  extract_lets good m at h
  split at h
  · simp at h
  · obtain rfl := Option.some.inj h
    rfl

theorem fixedPart_sideAll {f} (h : ∀ s i u, f s i = some u → fixedPart u = fixedPart s) (s n) :
    fixedPart (sideAll s n f).1 = fixedPart s := by
  refine fixedPart_foldl_of Prod.fst (fun a i => ?_) _ _
  split
  · exact h _ _ _ ‹_›
  all_goals rfl

theorem fixedPart_eq_of_sideAll {f} (h : ∀ s i u, f s i = some u → fixedPart u = fixedPart s) {s n u r}
    (hs : sideAll s n f = (u, r)) : fixedPart u = fixedPart s := by
  simpa [hs] using fixedPart_sideAll h s n

@[simp] theorem fixedPart_startTests (s cubes lanes cores trained) :
    fixedPart (startTests s cubes lanes cores trained) = fixedPart s := by
  unfold startTests
  extract_lets mark m1 m2 sites dev s1 s2
  have h2 : fixedPart s2 = fixedPart s := by simp [s2, s1]
  split
  all_goals
    rename_i ha
    have ha := (fixedPart_eq_of_sideAll (fun _ _ _ => fixedPart_eq_of_sideArray) ha).trans h2
  · simp [ha]
  split
  all_goals
    rename_i hl
    have hl := (fixedPart_eq_of_sideAll (fun _ _ _ => fixedPart_eq_of_sideLanes) hl).trans ha
  · simp [hl]
  split
  all_goals
    rename_i hs
    have hs := (fixedPart_eq_of_sideAll (fun _ _ _ => fixedPart_eq_of_sideStack) hs).trans hl
  · simp [hs]
  extract_lets s3
  have h3 : fixedPart s3 = fixedPart s := by simp [s3, hs]
  split
  all_goals
    rename_i hc
    have hc := (fixedPart_eq_of_sideAll (fun _ _ _ => fixedPart_eq_of_sideCores) hc).trans h3
  · simp [hc]
  · simp [hc]

@[simp] theorem fixedPart_startMemory (s) : fixedPart (startMemory s) = fixedPart s := by simp [startMemory]
@[simp] theorem fixedPart_releaseNports (s) : fixedPart (releaseNports s) = fixedPart s := by simp [releaseNports]
@[simp] theorem fixedPart_startRuntime (s storeOk rebuiltOk) : fixedPart (startRuntime s storeOk rebuiltOk) = fixedPart s := by
  simp [startRuntime]
@[simp] theorem fixedPart_startReady (s) : fixedPart (startReady s) = fixedPart s := by simp [startReady]

@[simp] theorem keeps_execStartStepTimeout (format t s) : Keeps s (execStartStepTimeout format t s) := by
  simp [execStartStepTimeout]
@[simp] theorem keeps_execStableEntryDone (s) : Keeps s (execStableEntryDone s) := by simp [execStableEntryDone]

@[simp] theorem keeps_execWakeStep (ok bad s) : Keeps s (execWakeStep ok bad s) := by
  unfold execWakeStep
  split <;> simp

/-! ### The commands -/

/-- What a command keeps of the state before it: the queue, the seed, the GPID, the ordering code and a fused operator hash. -/
def Kept (s u : State) : Prop :=
  u.pending = s.pending ∧ u.guard.deviceSeed = s.guard.deviceSeed ∧ u.guard.gpid = s.guard.gpid
    ∧ u.guard.ordering = s.guard.ordering ∧ (∀ h, s.Fused h → u.Fused h)

theorem kept_of_fixedPart {s u : State} (h : fixedPart u = fixedPart s) : Kept s u := by
  simp only [fixedPart, identity, Prod.mk.injEq] at h
  obtain ⟨hq, hd, hp, ho, hh⟩ := h
  exact ⟨hq, hd, hp, ho, fun x hx => hh.trans hx⟩

theorem Kept.trans {s t u : State} (h : Kept s t) (k : Kept t u) : Kept s u := by
  obtain ⟨hq, hd, hp, ho, hh⟩ := h
  obtain ⟨kq, kd, kp, ko, kh⟩ := k
  exact ⟨kq.trans hq, kd.trans hd, kp.trans hp, ko.trans ho, fun x hx => kh x (hh x hx)⟩

theorem Keeps.kept {s u : State} {o : Host.Outcome State Fault Refusal} (h : Keeps s o) (hu : o = .next u) : Kept s u :=
  kept_of_fixedPart (h u hu)

/-- R482: the fuses take the hash of the first configuration's key, and a hash that they hold stays. -/
theorem kept_fuseOperatorHash (s : State) (h : List Byte) (fw cfg) :
    Kept s { s with guard :=
      { s.guard with operatorHash := some (s.guard.operatorHash.getD h), fwMeasure := fw, cfgMeasure := cfg } } := by
  refine ⟨rfl, rfl, rfl, rfl, fun x hx => ?_⟩
  unfold State.Fused at hx ⊢
  simp [hx]

theorem kept_startImages (s octal fw cfg cert fwSigOk cfgSigOk caOk groupKey) :
    Kept s (startImages s octal fw cfg cert fwSigOk cfgSigOk caOk groupKey) := by
  unfold startImages
  split
  · exact kept_of_fixedPart (by simp)
  extract_lets r g s1 s2 h g3 s3 s4 s5 l key s6 g7
  have h2 : fixedPart s2 = fixedPart s := by simp [s2, s1, g]
  split
  · exact kept_of_fixedPart (by simp [h2])
  · have hf : Kept s2 s3 := kept_fuseOperatorHash s2 _ _ _
    clear_value s3
    refine (kept_of_fixedPart h2).trans (hf.trans (kept_of_fixedPart ?_))
    simp [g7, s6, s5, s4]

theorem kept_of_execStartStepDone {found t s u} (h : execStartStepDone found t s = .next u) : Kept s u := by
  unfold execStartStepDone at h
  extract_lets s1 at h
  obtain rfl := Host.Outcome.next.inj h
  have h1 : fixedPart s1 = fixedPart s := by simp [s1]
  refine (kept_of_fixedPart h1).trans ?_
  clear_value s1
  split
  · exact kept_of_fixedPart rfl
  split
  · exact kept_of_fixedPart (by simp)
  match startStep s1 with
  | 0 => cases found <;> exact kept_of_fixedPart rfl
  | 1 =>
    cases found with
    | rom => exact kept_of_fixedPart (fixedPart_startRom ..)
    | _ => exact kept_of_fixedPart rfl
  | 2 =>
    cases found with
    | images => exact kept_startImages ..
    | _ => exact kept_of_fixedPart rfl
  | 3 =>
    cases found with
    | wires => exact kept_of_fixedPart (fixedPart_startWires ..)
    | _ => exact kept_of_fixedPart rfl
  | 4 =>
    cases found with
    | depot => exact kept_of_fixedPart (fixedPart_startDepot ..)
    | _ => exact kept_of_fixedPart rfl
  | 5 =>
    cases found with
    | tests => exact kept_of_fixedPart (fixedPart_startTests ..)
    | _ => exact kept_of_fixedPart rfl
  | 6 =>
    cases found with
    | cleared => exact kept_of_fixedPart (fixedPart_startMemory ..)
    | _ => exact kept_of_fixedPart rfl
  | 7 =>
    cases found with
    | runtime => exact kept_of_fixedPart (fixedPart_startRuntime ..)
    | _ => exact kept_of_fixedPart rfl
  | 8 =>
    cases found with
    | ports => exact kept_of_fixedPart (fixedPart_startReady ..)
    | _ => exact kept_of_fixedPart rfl
  | _ + 9 => cases found <;> exact kept_of_fixedPart rfl

theorem keeps_exec (c : Instr) (s : State) (hc : ∀ f t, c ≠ .startStepDone f t) : Keeps s (exec c s) := by
  cases c with
  | startStepDone f t => exact absurd rfl (hc f t)
  | _ => simp [exec, execTtodMessage, execTppsEdge, execTimeFlit, execTrain, execTrainTranspose, execArrivalFlit,
      execSgValueWrite, execSgAddWrite, execMaOutcfg, execMaScalecfg, execMaZero, execMaDrain, execMaLoad, execVcfg,
      execVbase, execVcvt, execVadd, execVsub, execVmul, execVfma, execVmin, execVmax, execVcmp, execVsel, execVlogic,
      execVunary, execVdiv, execVsqrt, execVrecip, execVrsqrt, execVfunc, execVpow, execVred, execVdotl, execVgemv, execVacc,
      execVlsadd, execVperm, execVshuf, execVpack, execVunpack, execVslexp, execVslice, execVrecomb, execVgather,
      execVscatter, execVscop, execSmSigSet, execSmSigAdd, execSmSigWaitGe, execSmSigWaitEq, execSmSigWaitMask, execUpAddr,
      execUpShape, execUpRule, execWalkComplete, execTuResolveRetry, execTuResolveFatal, execCoherentRequest,
      execLineEviction, execSnpdata, execSnpinv, execSnpcur, execIdcode, execExtest, execClamp, execHighz, execDiechain,
      execLaneFailed, execLaneChange, execLaneAck, execPortDisable, execBookedWrite, execReadReq, execReadData,
      execBookedSignalSet, execBookedSignalAdd, execCollFlit, execReqRead, execReqWrite, execReqSignalSet, execReqSignalAdd,
      execMessageFlit, execReplicaWrite, execReplicaCommit, execRespFlit, execArmedFlit, execTeardownFlit, execClearFlit,
      execNpRingTailWrite, execCommandAccept, execCompletion, execDpRingTailWrite, execRstdaa, execGetpid, execGetbcr,
      execGetdcr, execEnec, execDisec, execRailRecovery]

end Sys2Proof.Machine

open Sys2Proof Sys2Proof.Machine

/-- Settles O4: every command but the end of a start step leaves the queue and the identity as they are, and the end of step 2
fuses an operator hash only where none stands. -/
theorem commandsKeepQueueAndFuses : Obligations.CommandsKeepQueueAndFuses := by
  intro c s u h
  cases c with
  | startStepDone => exact kept_of_execStartStepDone h
  | _ => exact (keeps_exec _ s (by simp)).kept h
end

section
/-! Eviction of a line that another cache still holds (R331, R332): the home refreshes its directory entry, and allocates one where
none stands. -/

namespace Sys2Proof.Machine

theorem jGet_jPut (s : State) (d l x y : Nat) (v : JLine) :
    jGet (jPut s d l v) x y = if jKey x y = jKey d l then v else jGet s x y :=
  Store.get_set jNone (jKey d l) (jKey x y) v s.jlines

theorem jKey_line_inj {x d : Nat} (l : Nat) : jKey x l = jKey d l ↔ x = d := by
  unfold jKey
  omega

theorem mem_holders {s : State} {l x : Nat} : x ∈ holders s l ↔ x < 12 ∧ (jGet s x l).moesi ≠ 0 := by
  simp [holders, upTo]

/-- A copy that ends at one die stays at the others. -/
theorem mem_holders_jPut {s : State} {l x d : Nat} (v : JLine) (hx : x ∈ holders s l) (hd : x ≠ d) :
    x ∈ holders (jPut s d l v) l := by
  rw [mem_holders] at hx ⊢
  rwa [jGet_jPut, if_neg (mt (jKey_line_inj l).1 hd)]

/-- A line without a directory entry that some die holds gets one, the latest in allocation order. -/
theorem dirAge_dirRefresh_of_no_entry {s : State} {l : Nat} (hdir : dirGet s l = none) (hheld : holders s l ≠ []) :
    (dirRefresh s l).dirAge = s.dirAge + 1 := by
  simp [dirRefresh, hdir, hheld, upd]

/-- An owner's line that leaves its cache while another die holds it takes a new place in allocation order where its home has no
entry of it. -/
theorem dirAge_evictLine_of_no_entry {s : State} {d l x : Nat} (hown : 3 ≤ (jGet s d l).moesi) (hx : x ∈ holders s l) (hd : x ≠ d)
    (hdir : dirGet s l = none) : (evictLine s d l).dirAge = s.dirAge + 1 := by
  have hstay : x ∈ holders (jPut (putLine s l (jGet s d l).data) d l (jNone 0)) l := mem_holders_jPut (jNone 0) hx hd
  have hne := List.ne_nil_of_mem hstay
  unfold evictLine
  simp only [hown, if_true, List.isEmpty_iff, hne, if_false]
  exact dirAge_dirRefresh_of_no_entry hdir hne

/-- Die 0 owns line 5 and die 1 shares it, and the directory of its home has no entry of it. -/
def unlistedLine : State :=
  { State.reset with
    jlines := [(jKey 0 5, { moesi := 3, data := 77, arrived := 0 }), (jKey 1 5, { moesi := 1, data := 77, arrived := 0 })] }

end Sys2Proof.Machine

open Sys2Proof Sys2Proof.Machine

/-- Refutes O37: the statement speaks of every state, and does not ask that the directory list the lines that caches hold (R332).
In `unlistedLine`, where it does not, the eviction at die 0 makes the home allocate an entry for the copy that die 1 keeps: the
allocation order moves on, which the frame of LINE_EVICTION in the statement leaves no room for. -/
theorem not_coherentLines : ¬ Obligations.CoherentLines := by
  intro h
  obtain ⟨-, -, -, -, -, -, -, -, -, hevict⟩ := h unlistedLine 0 5 0 0 false false
  obtain ⟨u, hexec, -, -, -, -, hsame⟩ := hevict (by decide)
  have hu : u = evictLine unlistedLine 0 5 := (Host.Outcome.next.inj hexec).symm
  have hage : u.dirAge = unlistedLine.dirAge := hsame .dirAge (by decide)
  have hmove : (evictLine unlistedLine 0 5).dirAge = unlistedLine.dirAge + 1 :=
    dirAge_evictLine_of_no_entry (x := 1) (by decide) (mem_holders.2 (by decide)) (by decide) rfl
  rw [hu, hmove] at hage
  exact Nat.succ_ne_self _ hage
end

section
/-! Slots of a Chawen link (R28, R100, R354, R355): what CHAWEN_SLOT does in each row of its table. -/

namespace Sys2Proof.Machine

/-! ### Causes of late running -/

theorem same_noteCause (s : State) (d bit : Nat) : Same [.lateFlags] s (noteCause s d bit) := same_lateFlags s _

theorem bitOf_noteCause_same (s : State) (d : Nat) {bit : Nat} (h : bit < 16) :
    bitOf (Store.get (fun _ => 0) (noteCause s d bit).lateFlags d) bit = true := by
  simp [noteCause, Store.get_set_same, h]

/-! ### Booked data that misses its slot -/

theorem same_trEvent (s : State) (d j i : Nat) : Same [.regs, .port] s (trEvent s d j i) := same_raise s _ _ _ _ _ _ _

theorem same_trainMissed (s : State) (owner : Nat) : Same [.engines, .regs, .port] s (trainMissed s owner) := by
  unfold trainMissed
  split
  · exact Same.refl _ _
  · extract_lets x d j s1
    have h1 : Same [.regs] s s1 := same_wr s _ _
    split
    · exact h1.mono (by simp)
    · exact ((h1.trans (same_engines s1 _)).trans (same_trEvent _ d j 3)).mono (by simp)

theorem trainMissed_none (s : State) : trainMissed s 0 = s := by simp [trainMissed]

theorem cwDelayed_setCwDelayed (s : State) (a b : Nat) (l : List Nat) : cwDelayed (setCwDelayed s a b l) a b = l :=
  Store.get_set_same _ _ _ _

theorem same_setCwDelayed (s : State) (a b : Nat) (l : List Nat) : Same [.cw] s (setCwDelayed s a b l) := same_cw s _

/-- The train whose booked data waits, by the number under which a link keeps it: 0 for data of no train. -/
def bookedOwner : Option (ADie × Fin 4 × BitVec 24) → Nat
  | some x => trainOwner x.1 x.2.1 x.2.2.toNat
  | none => 0

/-- The die that the hold is noted for: the train's own, else the one that the link leads to. -/
def missedDie (b : Nat) : Option (ADie × Fin 4 × BitVec 24) → Nat
  | some x => x.1.val
  | none => b

theorem cwMissed_eq (s : State) (a b : Nat) (o : Option (ADie × Fin 4 × BitVec 24)) :
    cwMissed s a b o = trainMissed (cwLate (setCwDelayed s a b (cwDelayed s a b ++ [bookedOwner o])) (missedDie b o)) (bookedOwner o) := by
  cases o <;> rfl

theorem same_cwLate (s : State) (d : Nat) : Same [.lateFlags] s (cwLate s d) := by
  unfold cwLate
  split
  · exact same_noteCause s d 6
  · exact Same.refl _ _

theorem bitOf_cwLate (s : State) {d : Nat} (hd : d < 8) : bitOf (Store.get (fun _ => 0) (cwLate s d).lateFlags d) 6 = true := by
  simp only [cwLate, hd, if_true]
  exact bitOf_noteCause_same s d (by decide)

theorem cwLate_of_ge (s : State) {d : Nat} (hd : 8 ≤ d) : cwLate s d = s := by simp [cwLate, Nat.not_lt.2 hd]

theorem same_cwMissed (s : State) (a b : Nat) (o : Option (ADie × Fin 4 × BitVec 24)) :
    Same [.cw, .lateFlags, .engines, .regs, .port] s (cwMissed s a b o) := by
  rw [cwMissed_eq]
  exact (((same_setCwDelayed s a b _).trans (same_cwLate _ _)).trans (same_trainMissed _ _)).mono (by simp)

theorem cwDelayed_cwMissed (s : State) (a b : Nat) (o : Option (ADie × Fin 4 × BitVec 24)) :
    cwDelayed (cwMissed s a b o) a b = cwDelayed s a b ++ [bookedOwner o] := by
  rw [cwMissed_eq]
  have hkeep := (same_cwLate (setCwDelayed s a b (cwDelayed s a b ++ [bookedOwner o])) (missedDie b o)).trans
    (same_trainMissed _ (bookedOwner o))
  have hcw : (trainMissed (cwLate (setCwDelayed s a b _) (missedDie b o)) (bookedOwner o)).cw = _ := hkeep .cw (by decide)
  rw [cwDelayed, hcw]
  exact cwDelayed_setCwDelayed s a b _

/-- The hold of data of no train falls where the link leads (R363). -/
theorem bitOf_cwMissed_none (s : State) (a : Nat) {b : Nat} (hb : b < 8) :
    bitOf (Store.get (fun _ => 0) (cwMissed s a b none).lateFlags b) 6 = true := by
  rw [cwMissed_eq]
  exact (congrArg (fun t : State => bitOf (Store.get (fun _ => 0) t.lateFlags b) 6) (trainMissed_none _)).trans (bitOf_cwLate _ hb)

/-! ### The rows of R354 -/

section
variable {s : State} {src dst : Die} {k : Fin 8} {q : Fin 4} {claims : BitVec 9}
  (booked : Option (Option (ADie × Fin 4 × BitVec 24)))

theorem execChawenSlot_noBundle (h : linkWidth src dst ≤ k) : execChawenSlot src dst k q booked claims s = .next s := by
  simp [execChawenSlot, h]

theorem execChawenSlot_repair (hk : k < linkWidth src dst) (hr : cwRepairing s src dst k = true)
    (h : cwGranted s src dst k q = false ∨ booked = none) :
    execChawenSlot src dst k q booked claims s = .next { s with slotWinner := 9 } := by
  rcases h with h | h <;> simp [execChawenSlot, Nat.not_le.2 hk, hr, h]

theorem execChawenSlot_missed (o : Option (ADie × Fin 4 × BitVec 24)) (hk : k < linkWidth src dst)
    (hr : cwRepairing s src dst k = true) (hg : cwGranted s src dst k q = true) :
    execChawenSlot src dst k q (some o) claims s = .next (cwMissed { s with slotWinner := 9 } src dst o) := by
  simp [execChawenSlot, Nat.not_le.2 hk, hr, hg]

theorem execChawenSlot_granted (hk : k < linkWidth src dst) (hr : cwRepairing s src dst k = false)
    (hg : cwGranted s src dst k q = true) :
    execChawenSlot src dst k q booked claims s = .next { s with slotWinner := 3 } := by
  simp [execChawenSlot, Nat.not_le.2 hk, hr, hg]

/-- A slot of a bundle that no repair and no grant holds. -/
def SlotFree (s : State) (src dst : Die) (k : Fin 8) (q : Fin 4) : Prop :=
  k < linkWidth src dst ∧ cwRepairing s src dst k = false ∧ cwGranted s src dst k q = false

theorem execChawenSlot_delayed (hf : SlotFree s src dst k q) {o : Nat} {rest : List Nat} (hd : cwDelayed s src dst = o :: rest) :
    execChawenSlot src dst k q booked claims s = .next (setCwDelayed { s with slotWinner := 4 } src dst rest) := by
  obtain ⟨hk, hr, hg⟩ := hf
  simp [execChawenSlot, Nat.not_le.2 hk, hr, hg, hd]

theorem execChawenSlot_tMessage (hf : SlotFree s src dst k q) (hd : cwDelayed s src dst = []) (ht : k.val + 1 = linkWidth src dst)
    (hdue : (src.val, dst.val) ∈ s.cw.due) :
    execChawenSlot src dst k q booked claims s = .next { s with
      slotWinner := 1
      cw := { s.cw with due := s.cw.due.erase (src.val, dst.val)
                        fly := s.cw.fly ++ [(src.val, dst.val, copyOf s src, 256 * (now s).toNat)] } } := by
  obtain ⟨hk, hr, hg⟩ := hf
  simp [execChawenSlot, Nat.not_le.2 hk, hr, hg, hd, ht, hdue]

theorem execChawenSlot_bMessage (hf : SlotFree s src dst k q) (hd : cwDelayed s src dst = []) (ht : k.val + 1 = linkWidth src dst)
    (hdue : (src.val, dst.val) ∉ s.cw.due) (hb : bitOf claims 2 = true) :
    execChawenSlot src dst k q booked claims s = .next { s with slotWinner := 2 } := by
  obtain ⟨hk, hr, hg⟩ := hf
  simp [execChawenSlot, Nat.not_le.2 hk, hr, hg, hd, ht, hdue, hb]

/-- The first of the channels C, I, unbooked M and D that waits, by its value in R354; 0 for none. -/
def firstClaim (claims : BitVec 9) : Nat :=
  if bitOf claims 5 then 5 else if bitOf claims 6 then 6 else if bitOf claims 7 then 7 else if bitOf claims 8 then 8 else 0

theorem find_claim (claims : BitVec 9) : ([5, 6, 7, 8].find? (fun c => bitOf claims c)).getD 0 = firstClaim claims := by
  simp only [List.find?, firstClaim]
  cases bitOf claims 5 <;> cases bitOf claims 6 <;> cases bitOf claims 7 <;> cases bitOf claims 8 <;> rfl

theorem execChawenSlot_claims (hf : SlotFree s src dst k q) (hd : cwDelayed s src dst = [])
    (h : ¬ k.val + 1 = linkWidth src dst ∨ ((src.val, dst.val) ∉ s.cw.due ∧ bitOf claims 2 = false)) :
    execChawenSlot src dst k q booked claims s = .next { s with slotWinner := firstClaim claims } := by
  obtain ⟨hk, hr, hg⟩ := hf
  rw [← find_claim]
  rcases h with h | ⟨hdue, hb⟩
  · simp [execChawenSlot, Nat.not_le.2 hk, hr, hg, hd, h]
  · simp [execChawenSlot, Nat.not_le.2 hk, hr, hg, hd, hdue, hb]

end

end Sys2Proof.Machine
end

section
/-! Messages of the T and B channels (R357, R358, R530): what an arrival leaves, and the fields of a B message. -/

namespace Sys2Proof.Machine

/-! ### T messages -/

theorem cw_advance (s : State) (t : W64) : (advance s t).cw = s.cw := same_advance s t .cw (by decide)

/-- Chawen after T message `m` has reached die `d`: it is no longer on its way, and the die's copy stands corrected by it. -/
def tMessageTaken (c : CwX) (d : Nat) (m : Nat × Nat × Nat × Nat) : CwX :=
  { c with fly := c.fly.erase m, copies := Store.set (fun _ => (0, 0)) c.copies d (m.2.2.1 + 896, m.2.2.2 + 896) }

theorem execTMessage_some {s : State} {d : Die} {m : Nat × Nat × Nat × Nat}
    (h : s.cw.fly.find? (fun m => decide (m.2.1 = d.val)) = some m) :
    execTMessage d s = .next { advance s (BitVec.ofNat 64 ((m.2.2.2 + 896) / 256)) with cw := tMessageTaken s.cw d m } := by
  simp [execTMessage, h, cw_advance, tMessageTaken]

theorem copyOf_tMessageTaken {s u : State} {d : Nat} {m : Nat × Nat × Nat × Nat} (hd : d ≠ 12) (hu : u.cw = tMessageTaken s.cw d m) :
    copyOf u d = m.2.2.1 + 896 + (256 * (now u).toNat - (m.2.2.2 + 896)) := by
  simp [copyOf, hd, hu, tMessageTaken, Store.get_set_same]

theorem copies_tMessageTaken (c : CwX) (m : Nat × Nat × Nat × Nat) {d e : Nat} (he : e ≠ d) :
    Store.get (fun _ => (0, 0)) (tMessageTaken c d m).copies e = Store.get (fun _ => (0, 0)) c.copies e := by
  simp [tMessageTaken, Store.get_set_ne _ he]

/-! ### B messages -/

@[simp] theorem pwGet_pwUpd_same (s : State) (d : Nat) (f : PowerDie → PowerDie) : pwGet (pwUpd s d f) d = f (pwGet s d) :=
  Store.get_set_same _ _ _ _

theorem same_pwUpd (s : State) (d : Nat) (f : PowerDie → PowerDie) : Same [.power] s (pwUpd s d f) := same_power s _

theorem fld_ofNat {n x lo len : Nat} (h : lo + len ≤ n) : fld (BitVec.ofNat n x) lo len = x / 2 ^ lo % 2 ^ len := by
  apply Nat.eq_of_testBit_eq
  intro i
  rw [testBit_fld, BitVec.getLsbD_ofNat, Nat.testBit_mod_two_pow, Nat.testBit_div_two_pow]
  by_cases hi : i < len
  · have hn : lo + i < n := by omega
    simp [hi, hn, Nat.add_comm]
  · simp [hi]

/-- A bit is a bit of the field that it stands in. -/
theorem bitOf_eq_testBit_fld {n : Nat} (w : BitVec n) {lo len i : Nat} (h : i < len) : bitOf w (lo + i) = (fld w lo len).testBit i := by
  simp [testBit_fld, h, bitOf]

/-- The fields of PW_DEMAND as a die reports them. -/
theorem fld_demands (a b c : BitVec 16) :
    fld (BitVec.ofNat 64 (a.toNat + 2 ^ 16 * b.toNat + 2 ^ 32 * c.toNat)) 0 16 = a.toNat
    ∧ fld (BitVec.ofNat 64 (a.toNat + 2 ^ 16 * b.toNat + 2 ^ 32 * c.toNat)) 16 16 = b.toNat
    ∧ fld (BitVec.ofNat 64 (a.toNat + 2 ^ 16 * b.toNat + 2 ^ 32 * c.toNat)) 32 16 = c.toNat := by
  have ha := a.isLt
  have hb := b.isLt
  have hc := c.isLt
  refine ⟨?_, ?_, ?_⟩ <;> rw [fld_ofNat (by decide)] <;> omega

/-- The fields of a B message (R530). -/
theorem fld_budgetMessage (die kind period c1 c2 c3 measured floor tMax flags : Nat) :
    let m := budgetMessage die kind period c1 c2 c3 measured floor tMax flags
    fld m 0 8 = die % 256 ∧ fld m 8 8 = kind % 256 ∧ fld m 16 16 = period % 65536 ∧ fld m 32 16 = c1 % 65536
      ∧ fld m 48 16 = c2 % 65536 ∧ fld m 64 16 = c3 % 65536 ∧ fld m 80 16 = measured % 65536 ∧ fld m 96 16 = floor % 65536
      ∧ fld m 112 8 = tMax % 256 ∧ fld m 120 8 = flags % 256 := by
  simp only [budgetMessage, packFields]
  refine ⟨?_, ?_, ?_, ?_, ?_, ?_, ?_, ?_, ?_, ?_⟩ <;> rw [fld_ofNat (by decide)] <;> omega

theorem fld_lt {n : Nat} (w : BitVec n) (lo len : Nat) : fld w lo len < 2 ^ len := Nat.mod_lt _ (by positivity)

/-- The two flags of a B message. -/
theorem flags_of_field {m : BitVec 256} {x y : Bool} (h : fld m 120 8 = (b2n x + 2 * b2n y) % 256) :
    bitOf m 120 = x ∧ bitOf m 121 = y := by
  have h0 : bitOf m 120 = (fld m 120 8).testBit 0 := bitOf_eq_testBit_fld (lo := 120) (i := 0) m (by decide)
  have h1 : bitOf m 121 = (fld m 120 8).testBit 1 := bitOf_eq_testBit_fld (lo := 120) (i := 1) m (by decide)
  rw [h0, h1, h]
  cases x <;> cases y <;> decide

/-- What a die's power control holds once it has sent the report `r`: its floors, and the message of R530. -/
def reported (s : State) (d : Nat) (r : PowerReport) : PowerDie :=
  { pwGet s d with
    floor1 := r.floor1.toNat, floor2 := r.floor2.toNat, floor3 := r.floor3.toNat, drooped := (pwGet s d).drooping
    sent := budgetMessage d 1 s.power.period r.dem1.toNat r.dem2.toNat r.dem3.toNat r.measured.toNat
      (r.floor1.toNat + r.floor2.toNat + r.floor3.toNat) (max (rdF s (pw d 0) 16 8) (rdF s (pw d 0) 24 8))
      (b2n ((pwGet s d).drooping || (pwGet s d).drooped) + 2 * b2n (rdB s (pw d 0) 14)) }

/-- The value of PW_DEMAND that a report leaves. -/
def demandReg (r : PowerReport) : W64 := BitVec.ofNat 64 (r.dem1.toNat + 2 ^ 16 * r.dem2.toNat + 2 ^ 32 * r.dem3.toNat)

theorem execBMessageDue_eq (d : Fin 12) (r : PowerReport) (s : State) :
    execBMessageDue d r s = .next (pwUpd (wr s (pw d 0x10) (demandReg r)) d (fun _ => reported s d r)) := rfl

/-- The fields of the message that a report sends. -/
theorem reported_sent (s : State) (a : Fin 12) (r : PowerReport) :
    let m := (reported s a r).sent
    fld m 0 8 = a ∧ fld m 8 8 = 1 ∧ fld m 16 16 = s.power.period % 65536 ∧ fld m 32 16 = r.dem1.toNat ∧ fld m 48 16 = r.dem2.toNat
      ∧ fld m 64 16 = r.dem3.toNat ∧ fld m 80 16 = r.measured.toNat
      ∧ fld m 96 16 = (r.floor1.toNat + r.floor2.toNat + r.floor3.toNat) % 65536
      ∧ fld m 112 8 = max (rdF s (pw a 0) 16 8) (rdF s (pw a 0) 24 8)
      ∧ (bitOf m 120 = true ↔ (pwGet s a).drooping = true ∨ (pwGet s a).drooped = true) ∧ bitOf m 121 = rdB s (pw a 0) 14 := by
  intro m
  obtain ⟨hdie, hkind, hperiod, h1, h2, h3, hmeasured, hfloor, htemp, hflags⟩ :=
    fld_budgetMessage a 1 s.power.period r.dem1.toNat r.dem2.toNat r.dem3.toNat r.measured.toNat
      (r.floor1.toNat + r.floor2.toNat + r.floor3.toNat) (max (rdF s (pw a 0) 16 8) (rdF s (pw a 0) 24 8))
      (b2n ((pwGet s a).drooping || (pwGet s a).drooped) + 2 * b2n (rdB s (pw a 0) 14))
  obtain ⟨hdroop, hthermal⟩ := flags_of_field hflags
  have hmax : max (rdF s (pw a 0) 16 8) (rdF s (pw a 0) 24 8) < 256 := max_lt (fld_lt _ _ _) (fld_lt _ _ _)
  refine ⟨hdie.trans (Nat.mod_eq_of_lt (by omega)), hkind, hperiod, h1.trans (Nat.mod_eq_of_lt r.dem1.isLt),
    h2.trans (Nat.mod_eq_of_lt r.dem2.isLt), h3.trans (Nat.mod_eq_of_lt r.dem3.isLt),
    hmeasured.trans (Nat.mod_eq_of_lt r.measured.isLt), hfloor, htemp.trans (Nat.mod_eq_of_lt hmax), ?_, hthermal⟩
  rw [show bitOf m 120 = _ from hdroop, Bool.or_eq_true]

theorem execBMessage_demand {s : State} {d : Die} {msg : BitVec 256} (hdie : fld msg 0 8 < 12) (hkind : fld msg 8 8 = 1)
    (hd : d.val = 12) :
    execBMessage d msg s = .next (pwUpd s (fld msg 0 8) (fun p =>
      { p with dem1 := fld msg 32 16, dem2 := fld msg 48 16, dem3 := fld msg 64 16 })) := by
  simp [execBMessage, Nat.not_le.2 hdie, hkind, hd]

theorem execBMessage_grant {s : State} {d : Die} {msg : BitVec 256} (hd : d.val < 12) (hdie : fld msg 0 8 = d.val)
    (hkind : fld msg 8 8 = 2) :
    execBMessage d msg s = .next (pwUpd s d (fun p =>
      { p with arrived := some (fld msg 32 16, fld msg 48 16, fld msg 64 16), arrivedIn := s.power.period })) := by
  simp [execBMessage, hdie, Nat.not_le.2 hd, hkind]

end Sys2Proof.Machine
end

section
/-! Spare wires of Chawen (R350, R361 to R363): what parity mismatches, replays, probes and the move to a spare do. -/

namespace Sys2Proof.Machine

/-! ### Registers of a Chawen block -/

/-- The registers that a notice changes stand above every control space. -/
theorem not_mem_noticeKeys_of_lt {k : Nat} (h : k < 14 * 2 ^ 30) : k ∉ noticeKeys := by
  rw [← noticeReg_iff]
  unfold noticeReg bar0 key
  omega

theorem cw_not_mem_noticeKeys {d off : Nat} (hd : d < 12) (ho : off < 2 ^ 20) : cw d off ∉ noticeKeys :=
  not_mem_noticeKeys_of_lt (by unfold cw key; omega)

theorem cw_inj {d a b : Nat} : cw d a = cw d b ↔ a = b := by
  unfold cw key
  omega

theorem cwRx_ne_cw {d e b off : Nat} (h : off < 0x10000) : cwRx d e b ≠ cw d off := by
  rw [cwRx, Ne, cw_inj]
  omega

theorem cwRx_not_mem_noticeKeys {d e b : Nat} (hd : d < 12) (he : e < 16) (hb : b < 8) : cwRx d e b ∉ noticeKeys :=
  cw_not_mem_noticeKeys hd (by omega)

theorem cwRepair_eq (d e b i : Nat) : cwRepair d e b i = cw d (0x10000 + 0x80 * (8 * e + b) + 0x40 + 8 * i) := by
  unfold cwRepair cwRx cw key
  omega

theorem cwRepair_ne_cw {d e b i off : Nat} (h : off < 0x10000) : cwRepair d e b i ≠ cw d off := by
  rw [cwRepair_eq, Ne, cw_inj]
  omega

theorem cwRepair_ne_cwRx (d e b i : Nat) : cwRepair d e b i ≠ cwRx d e b := by
  unfold cwRepair
  omega

theorem cwRepair_not_mem_noticeKeys {d e b i : Nat} (hd : d < 12) (he : e < 16) (hb : b < 8) (hi : i < 8) :
    cwRepair d e b i ∉ noticeKeys := by
  rw [cwRepair_eq]
  exact cw_not_mem_noticeKeys hd (by omega)

/-! ### Events -/

theorem same_cwEvent (s : State) (d i : Nat) : Same [.regs, .port] s (cwEvent s d i) := same_raise s d _ i _ _ _ _

theorem regsBut_cwEvent (s : State) (d i : Nat) : RegsBut (cw d 8 :: noticeKeys) s (cwEvent s d i) := regsBut_raise s d 0xA000008 i _ _ _ _

theorem rdB_cwEvent_same (s : State) {d i : Nat} (hd : d < 12) (hi : i < 64) : rdB (cwEvent s d i) (cw d 8) i = true :=
  rdB_raise_same s d 0xA000008 i _ _ _ _ (not_noticeReg (by omega) (by decide)) hi

theorem raised_cwEvent (s : State) {d i : Nat} (hd : d < 12) (hi : i < 64) : Raised s (cwEvent s d i) d 0xA000008 i :=
  raised_raise s _ _ _ _ (by omega) (by decide) hi (cw_ne_count hd (off := 8) (by decide))

theorem cw_cwEvent (s : State) (d i : Nat) : (cwEvent s d i).cw = s.cw := same_cwEvent s d i .cw (by decide)

/-! ### Transient errors -/

theorem bitOf_transient_cwTransient (s : State) {d : Nat} (hd : d < 12) : bitOf (cwTransient s d).cw.transient d = true := by
  unfold cwTransient
  split
  · assumption
  · rw [cw_cwEvent]
    exact bitOf_putBit_same _ _ _ hd

theorem replays_cwTransient (s : State) (d : Nat) : (cwTransient s d).cw.replays = s.cw.replays := by
  unfold cwTransient
  split
  · rfl
  · rw [cw_cwEvent]

theorem probes_cwTransient (s : State) (d : Nat) : (cwTransient s d).cw.probes = s.cw.probes := by
  unfold cwTransient
  split
  · rfl
  · rw [cw_cwEvent]

theorem rdB_cwTransient_of_first {s : State} {d : Nat} (hd : d < 12) (h : bitOf s.cw.transient d = false) :
    rdB (cwTransient s d) (cw d 8) 2 = true := by
  simp only [cwTransient, h, Bool.false_eq_true, if_false]
  exact rdB_cwEvent_same _ hd (by decide)

theorem regsBut_cwTransient (s : State) (d : Nat) : RegsBut (cw d 8 :: noticeKeys) s (cwTransient s d) := by
  unfold cwTransient
  split
  · exact RegsBut.refl _ _
  · exact regsBut_cwEvent { s with cw := _ } d 2

theorem same_cwTransient (s : State) (d : Nat) : Same [.regs, .cw, .port] s (cwTransient s d) := by
  unfold cwTransient
  split
  · exact Same.refl _ _
  · exact ((same_cw s _).trans (same_cwEvent _ d 2)).mono (by simp)

/-! ### Parity mismatches and replays -/

theorem execChawenParityMismatch_seen {s : State} {d : Fin 12} {e : Fin 16} {b : Fin 8} {g : Fin 32} (hb : bundleExists d e b = true)
    (hg : g.val < (freeSpares s d e b).length) (hera : cwErased s (cwKey d e b) = []) (hr : cwKey d e b ∉ s.cw.replays)
    (hp : cwKey d e b ∉ s.cw.probes) :
    execChawenParityMismatch d e b g s
      = .next (cwLate { s with cw := { s.cw with replays := s.cw.replays ++ [cwKey d e b] } } d) := by
  simp [execChawenParityMismatch, hb, Nat.not_le.2 hg, hera, hr, hp]

/-- A replay of the bundle with key `k`, received by die `d`, has arrived: it is over and counted. -/
def replayOver (s : State) (d k : Nat) : State := inc { s with cw := { s.cw with replays := s.cw.replays.erase k } } (cw d 0x10)

theorem regsBut_replayOver (s : State) (d k : Nat) : RegsBut [cw d 0x10] s (replayOver s d k) :=
  regsBut_upd { s with cw := _ } _ _

theorem rd_replayOver_same (s : State) (d k : Nat) : rd (replayOver s d k) (cw d 0x10) = satInc (rd s (cw d 0x10)) :=
  rd_wr_same _ _ _

theorem same_replayOver (s : State) (d k : Nat) : Same [.regs, .cw] s (replayOver s d k) :=
  ((same_cw s _).trans (same_wr _ _ _)).mono (by simp)

/-- And it failed: a probe starts, counted too. -/
def probeStarted (s : State) (d k : Nat) : State := inc { s with cw := { s.cw with probes := s.cw.probes ++ [k] } } (cw d 0x18)

theorem regsBut_probeStarted (s : State) (d k : Nat) : RegsBut [cw d 0x18] s (probeStarted s d k) :=
  regsBut_upd { s with cw := _ } _ _

theorem rd_probeStarted_same (s : State) (d k : Nat) : rd (probeStarted s d k) (cw d 0x18) = satInc (rd s (cw d 0x18)) :=
  rd_wr_same _ _ _

theorem same_probeStarted (s : State) (d k : Nat) : Same [.regs, .cw] s (probeStarted s d k) :=
  ((same_cw s _).trans (same_wr _ _ _)).mono (by simp)

theorem execReplayArrival_passes {s : State} {d : Fin 12} {e : Fin 16} {b : Fin 8} (h : cwKey d e b ∈ s.cw.replays) :
    execReplayArrival d e b true s = .next (cwTransient (replayOver s d (cwKey d e b)) d) := by
  simp [execReplayArrival, h, replayOver]

theorem execReplayArrival_fails {s : State} {d : Fin 12} {e : Fin 16} {b : Fin 8} (h : cwKey d e b ∈ s.cw.replays) :
    execReplayArrival d e b false s = .next (probeStarted (replayOver s d (cwKey d e b)) d (cwKey d e b)) := by
  simp [execReplayArrival, h, replayOver, probeStarted]

/-! ### Erased positions and spares -/

section
variable (s : State) (d e b : Nat)

theorem cwErased_setErased (l : List Nat) : cwErased (setErased s d e b l) (cwKey d e b) = l := Store.get_set_same _ _ _ _

theorem same_setErased (l : List Nat) : Same [.regs, .cw] s (setErased s d e b l) :=
  ((((same_cw s _).trans (same_wr _ _ _)).trans (same_wr _ _ _)).trans (same_wr _ _ _)).mono (by simp)

theorem regsBut_setErased (l : List Nat) : RegsBut [cwRx d e b, cw d 0] s (setErased s d e b l) :=
  (((regsBut_wrB { s with cw := _ } (cwRx d e b) 6 _).trans (regsBut_wrF _ (cwRx d e b) 7 10 _)).trans
    (regsBut_wrB _ (cw d 0) 6 _)).mono (by simp)

/-- CW_RX shows that a position is erased, and which (R361). -/
theorem rx_setErased_single {w : Nat} (hw : w < 1024) :
    rdB (setErased s d e b [w]) (cwRx d e b) 6 = true ∧ rdF (setErased s d e b [w]) (cwRx d e b) 7 10 = w := by
  have hne : cwRx d e b ≠ cw d 0 := cwRx_ne_cw (by decide)
  have hrx : rd (setErased s d e b [w]) (cwRx d e b) = putFld (putBit (rd s (cwRx d e b)) 6 true) 7 10 w := by
    rw [setErased, wrB_wr, rd_wr_ne _ hne, wrF_wr, rd_wr_same, wrB_wr, rd_wr_same]
    rfl
  rw [rdB, rdF, hrx, bitOf_putFld_out _ _ _ _ _ (by decide), bitOf_putBit_same _ _ _ (by decide), fld_putFld_same _ _ _ _ (by decide)]
  exact ⟨rfl, Nat.mod_eq_of_lt hw⟩

theorem same_useSpare (n w : Nat) : Same [.regs] s (useSpare s d e b n w) :=
  (((same_wr s _ _).trans (same_wr _ _ _)).trans (same_wr _ _ _)).mono (by simp)

theorem regsBut_useSpare (n w : Nat) : RegsBut [cwRepair d e b (n / 4), cwRx d e b, cw d 0] s (useSpare s d e b n w) :=
  ((regsBut_wrF s (cwRepair d e b (n / 4)) _ _ _).trans (regsBut_wrF _ (cwRx d e b) _ _ _)).trans (regsBut_wrF _ (cw d 0) _ _ _)

/-- The repair list names position `w` at the spare that carries it (R362). -/
theorem repair_useSpare (n : Nat) {w : Nat} (hw : w < 1024) :
    rdF (useSpare s d e b n w) (cwRepair d e b (n / 4)) (16 * (n % 4)) 16 = w + 2 ^ 15 := by
  have hrx := cwRepair_ne_cwRx d e b (n / 4)
  have hst : cwRepair d e b (n / 4) ≠ cw d 0 := cwRepair_ne_cw (by decide)
  have hkeep : rd (useSpare s d e b n w) (cwRepair d e b (n / 4))
      = rd (wrF s (cwRepair d e b (n / 4)) (16 * (n % 4)) 16 (w + 2 ^ 15)) (cwRepair d e b (n / 4)) := by
    rw [useSpare, wrF_wr, rd_wr_ne _ hst, wrF_wr, rd_wr_ne _ hrx]
  rw [rdF, hkeep]
  exact (rdF_wrF_same s _ _ _ _ (by omega)).trans (Nat.mod_eq_of_lt (by omega))

end

/-- Which spares are free depends on the repair lists and the faulty spares alone. -/
theorem freeSpares_congr {s u : State} {d e b : Nat} (hreg : ∀ i < 8, rd u (cwRepair d e b i) = rd s (cwRepair d e b i))
    (hbad : u.cw.badSpares = s.cw.badSpares) : freeSpares u d e b = freeSpares s d e b := by
  refine List.filter_congr fun n hn => ?_
  have hn : n < 32 := List.mem_range.1 hn
  simp only [spareFree, rdB, hreg (n / 4) (by omega), hbad]

/-! ### Probes -/

/-- A first failing wire of a bundle: its mark, its erasure, and the event (R361). -/
theorem wireFault_first {s : State} {d e b : Nat} (w : Nat) (h : cwErased s (cwKey d e b) = []) :
    wireFault s d e b w
      = cwEvent (setErased { s with marks := Store.set (fun _ => false) s.marks (wireMark d e b w) true } d e b [w]) d 0 := by
  simp [wireFault, h]

/-- The one erased position `w` of a bundle has moved to spare `n`: the repair list, the erasure's end, the count, the record in
the start-up history and the event (R362). -/
def wireMoved (s : State) (d e b n w : Nat) : State :=
  cwEvent (unitChanged (inc (setErased (useSpare s d e b n w) d e b []) (cw d 0x20))) d 1

theorem remapBundle_single {s : State} {d e b w n m : Nat} {r : List Nat} (hera : cwErased s (cwKey d e b) = [w])
    (hfree : freeSpares s d e b = n :: m :: r) : remapBundle s d e b = wireMoved s d e b n w := by
  have hkeep : cwErased (useSpare s d e b n w) (cwKey d e b) = [w] := hera
  simp [remapBundle, wireMoved, hera, hfree, hkeep]

/-- The wire `w` that a probe finds bears its mark, and the probe is over (R361). -/
def wireMarked (s : State) (d e b w : Nat) : State :=
  let s := { s with cw := { s.cw with probes := s.cw.probes.erase (cwKey d e b) } }
  { s with marks := Store.set (fun _ => false) s.marks (wireMark d e b w) true }

theorem same_wireMarked (s : State) (d e b w : Nat) : Same [.cw, .marks] s (wireMarked s d e b w) :=
  (same_cw s { s.cw with probes := s.cw.probes.erase (cwKey d e b) }).trans (same_marks _ _)

/-- The state after the probe of a bundle without erased positions has found the wire `w`, but for the move to a spare. -/
def wireFound (s : State) (d e b w : Nat) : State := cwEvent (setErased (wireMarked s d e b w) d e b [w]) d 0

section
variable (s : State) (d e b w : Nat)

theorem same_wireFound : Same [.regs, .cw, .port, .marks] s (wireFound s d e b w) :=
  (((same_wireMarked s d e b w).trans (same_setErased _ d e b [w])).trans (same_cwEvent _ d 0)).mono (by simp)

theorem regsBut_wireFound : RegsBut ([cw d 0, cw d 8, cwRx d e b] ++ noticeKeys) s (wireFound s d e b w) := by
  have hmark : RegsBut [] s (wireMarked s d e b w) := regsBut_of_regs rfl
  refine ((hmark.trans (regsBut_setErased _ d e b [w])).trans (regsBut_cwEvent _ d 0)).mono fun k hk => ?_
  simp only [List.mem_append, List.mem_cons, List.not_mem_nil, or_false, false_or] at hk ⊢
  rcases hk with (hk | hk) | hk | hk <;> simp only [hk, true_or, or_true]

theorem cw_wireFound : (wireFound s d e b w).cw
    = { s.cw with probes := s.cw.probes.erase (cwKey d e b)
                  erased := Store.set (fun _ => []) s.cw.erased (cwKey d e b) [w] } :=
  cw_cwEvent _ d 0

theorem cwErased_wireFound : cwErased (wireFound s d e b w) (cwKey d e b) = [w] := by
  rw [cwErased, wireFound, cw_cwEvent]
  exact cwErased_setErased _ d e b [w]

theorem marks_wireFound : Store.get (fun _ => false) (wireFound s d e b w).marks (wireMark d e b w) = true := by
  have hmarks : (wireFound s d e b w).marks = Store.set (fun _ => false) s.marks (wireMark d e b w) true :=
    same_cwEvent (setErased (wireMarked s d e b w) d e b [w]) d 0 .marks (by decide)
  rw [hmarks]
  exact Store.get_set_same _ _ _ _

variable {d e b w}

theorem rdB_wireFound_event (hd : d < 12) : rdB (wireFound s d e b w) (cw d 8) 0 = true :=
  rdB_cwEvent_same _ hd (by decide)

/-- CW_RX shows the wire that the probe has found. -/
theorem rx_wireFound (hd : d < 12) (he : e < 16) (hb : b < 8) (hw : w < 1024) :
    rdB (wireFound s d e b w) (cwRx d e b) 6 = true ∧ rdF (wireFound s d e b w) (cwRx d e b) 7 10 = w := by
  have hk : cwRx d e b ∉ cw d 8 :: noticeKeys := by
    rw [List.mem_cons, not_or]
    exact ⟨cwRx_ne_cw (by decide), cwRx_not_mem_noticeKeys hd he hb⟩
  rw [wireFound, rdB, rdF, regsBut_cwEvent _ d 0 _ hk]
  exact rx_setErased_single _ d e b hw

theorem freeSpares_wireFound (hd : d < 12) (he : e < 16) (hb : b < 8) : freeSpares (wireFound s d e b w) d e b = freeSpares s d e b := by
  refine freeSpares_congr (fun i hi => regsBut_wireFound s d e b w _ ?_) (by rw [cw_wireFound])
  simp only [List.mem_append, List.mem_cons, List.not_mem_nil, or_false, not_or]
  exact ⟨⟨cwRepair_ne_cw (by decide), cwRepair_ne_cw (by decide), cwRepair_ne_cwRx d e b i⟩,
    cwRepair_not_mem_noticeKeys hd he hb hi⟩

variable (d e b w) in
theorem jobRuns_wireFound : jobRuns (wireFound s d e b w) = jobRuns s := by
  have hjob : (wireFound s d e b w).job = s.job := same_wireFound s d e b w .job (by decide)
  rw [jobRuns, hjob, jobRuns]

end

/-! ### The move to a spare -/

theorem rd_unitChanged (s : State) (k : Nat) : rd (unitChanged s) k = rd s k := rfl

theorem cw_unitChanged (s : State) : (unitChanged s).cw = s.cw := rfl

section
variable (s : State) (d e b n w : Nat)

theorem same_wireMoved : Same [.regs, .cw, .hist, .port] s (wireMoved s d e b n w) :=
  (((((same_useSpare s d e b n w).trans (same_setErased _ d e b [])).trans (same_wr _ _ _)).trans (same_hist _ _)).trans
    (same_cwEvent _ d 1)).mono (by simp)

theorem cwErased_wireMoved : cwErased (wireMoved s d e b n w) (cwKey d e b) = [] := by
  rw [cwErased, wireMoved, cw_cwEvent, cw_unitChanged, inc_wr, wr_cw]
  exact cwErased_setErased _ d e b []

theorem unitSeq_wireMoved : (wireMoved s d e b n w).hist.unitSeq = s.hist.unitSeq + 1 :=
  congrArg HistX.unitSeq (same_cwEvent (unitChanged (inc (setErased (useSpare s d e b n w) d e b []) (cw d 0x20))) d 1 .hist (by decide))

variable {d e b n}

theorem rdB_wireMoved_event (hd : d < 12) : rdB (wireMoved s d e b n w) (cw d 8) 1 = true :=
  rdB_cwEvent_same _ hd (by decide)

/-- CW_REMAPS counts the move. -/
theorem rd_wireMoved_remaps (hd : d < 12) : rd (wireMoved s d e b n w) (cw d 0x20) = satInc (rd s (cw d 0x20)) := by
  have hevent : cw d 0x20 ∉ cw d 8 :: noticeKeys := by
    rw [List.mem_cons, not_or, cw_inj]
    exact ⟨by decide, cw_not_mem_noticeKeys hd (by decide)⟩
  have hlists : cw d 0x20 ∉ [cwRepair d e b (n / 4), cwRx d e b, cw d 0] ++ [cwRx d e b, cw d 0] := by
    simp only [List.mem_append, List.mem_cons, List.not_mem_nil, or_false, cw_inj, not_or]
    exact ⟨⟨(cwRepair_ne_cw (by decide)).symm, (cwRx_ne_cw (by decide)).symm, by decide⟩, (cwRx_ne_cw (by decide)).symm, by decide⟩
  rw [wireMoved, regsBut_cwEvent _ d 1 _ hevent, rd_unitChanged, inc_wr, rd_wr_same,
    ((regsBut_useSpare s d e b n w).trans (regsBut_setErased _ d e b [])) _ hlists]

/-- The repair list keeps what `useSpare` wrote. -/
theorem repair_wireMoved (hd : d < 12) (he : e < 16) (hb : b < 8) (hn : n < 32) (hw : w < 1024) :
    rdF (wireMoved s d e b n w) (cwRepair d e b (n / 4)) (16 * (n % 4)) 16 = w + 2 ^ 15 := by
  have hevent : cwRepair d e b (n / 4) ∉ cw d 8 :: noticeKeys := by
    rw [List.mem_cons, not_or]
    exact ⟨cwRepair_ne_cw (by decide), cwRepair_not_mem_noticeKeys hd he hb (by omega)⟩
  have hset : cwRepair d e b (n / 4) ∉ [cwRx d e b, cw d 0] := by
    simp only [List.mem_cons, List.not_mem_nil, or_false, not_or]
    exact ⟨cwRepair_ne_cwRx d e b _, cwRepair_ne_cw (by decide)⟩
  have hcount : cwRepair d e b (n / 4) ≠ cw d 0x20 := cwRepair_ne_cw (by decide)
  rw [rdF, wireMoved, regsBut_cwEvent _ d 1 _ hevent, rd_unitChanged, inc_wr, rd_wr_ne _ hcount, regsBut_setErased _ d e b [] _ hset]
  exact repair_useSpare s d e b n hw

end

/-! ### The end of a probe -/

theorem freeSpares_lt {s : State} {d e b n : Nat} {r : List Nat} (h : freeSpares s d e b = n :: r) : n < 32 := by
  have hmem : n ∈ freeSpares s d e b := by simp [h]
  exact List.mem_range.1 (List.mem_filter.1 hmem).1

theorem execProbeDone_single {s : State} {d : Fin 12} {e : Fin 16} {b : Fin 8} (w : Fin 1024) (h : cwKey d e b ∈ s.cw.probes)
    (hera : cwErased s (cwKey d e b) = []) :
    execProbeDone d e b [w] s
      = .next (cwLate (if jobRuns (wireFound s d e b w) then wireFound s d e b w else remapBundle (wireFound s d e b w) d e b) d) := by
  have hc : s.cw.probes.contains (cwKey d e b) = true := List.contains_iff_mem.2 h
  have hfound : wireFault { s with cw := { s.cw with probes := s.cw.probes.erase (cwKey d e b) } } d e b w = wireFound s d e b w :=
    wireFault_first w hera
  rw [← hfound]
  unfold execProbeDone
  simp only [hc, if_true]
  rfl

end Sys2Proof.Machine
end

section
/-! Chawen's errors as the statement has them (R350, R361 to R363): replays, clocks, and the end of a probe that finds one wire of a
bundle without erased positions, while a job runs and while none does. -/

namespace Sys2Proof.Machine

theorem rd_cwLate (s : State) (d k : Nat) : rd (cwLate s d) k = rd s k := rd_congr (same_cwLate s d .regs (by decide)) k

theorem cw_cwLate (s : State) (d : Nat) : (cwLate s d).cw = s.cw := same_cwLate s d .cw (by decide)

theorem marks_cwLate (s : State) (d : Nat) : (cwLate s d).marks = s.marks := same_cwLate s d .marks (by decide)

theorem marks_wireMoved (s : State) (d e b n w : Nat) : (wireMoved s d e b n w).marks = s.marks :=
  same_wireMoved s d e b n w .marks (by decide)

/-- An event that is raised after a write of other registers is raised in the state before it. -/
theorem Raised.of_regsBut {ks : List Nat} {s t u : State} {d off i : Nat} (h : RegsBut ks s t) (hnow : mtc 0 ∉ ks)
    (hdrop : bar0 0x70 ∉ ks) (hr : Raised t u d off i) : Raised s u d off i := by
  obtain ⟨hbit, hpost⟩ := hr
  refine ⟨hbit, ?_⟩
  unfold Posted at hpost ⊢
  rwa [now_eq_of_regsBut h hnow, h _ hdrop] at hpost

variable {s : State} {d : Fin 12} {e : Fin 16} {b : Fin 8} (w : Fin 1024)

/-! ### Replays and clocks -/

/-- A replay that passes counts, and is a transient error (R361). -/
theorem replayArrival_passes (hk : cwKey d e b ∈ s.cw.replays) :
    Runs (.replayArrival d e b true) s (fun u => rd u (cw d 0x10) = satInc (rd s (cw d 0x10))
      ∧ u.cw.replays = s.cw.replays.erase (cwKey d e b) ∧ u.cw.probes = s.cw.probes ∧ bitOf u.cw.transient d = true
      ∧ (bitOf s.cw.transient d = false → rdB u (cw d 8) 2 = true) ∧ RegsBut ([cw d 0x10, cw d 8] ++ noticeKeys) s u
      ∧ Same [.regs, .cw, .port] s u) := by
  have hover := regsBut_replayOver s d (cwKey d e b)
  have hlate := regsBut_cwTransient (replayOver s d (cwKey d e b)) d
  have hcount : cw d 0x10 ∉ cw d 8 :: noticeKeys := by
    rw [List.mem_cons, not_or, cw_inj]
    exact ⟨by decide, cw_not_mem_noticeKeys d.isLt (by decide)⟩
  exact ⟨_, execReplayArrival_passes hk, (hlate _ hcount).trans (rd_replayOver_same s d _), replays_cwTransient _ d,
    probes_cwTransient _ d, bitOf_transient_cwTransient _ d.isLt, fun h => rdB_cwTransient_of_first d.isLt h,
    (hover.trans hlate).mono (by simp), ((same_replayOver s d _).trans (same_cwTransient _ d)).mono (by simp)⟩

/-- A replay that fails counts, and starts a probe that counts too (R361). -/
theorem replayArrival_fails (hk : cwKey d e b ∈ s.cw.replays) :
    Runs (.replayArrival d e b false) s (fun u => rd u (cw d 0x10) = satInc (rd s (cw d 0x10))
      ∧ rd u (cw d 0x18) = satInc (rd s (cw d 0x18)) ∧ u.cw.replays = s.cw.replays.erase (cwKey d e b) ∧ cwKey d e b ∈ u.cw.probes
      ∧ RegsBut [cw d 0x10, cw d 0x18] s u ∧ Same [.regs, .cw] s u) := by
  have hover := regsBut_replayOver s d (cwKey d e b)
  have hstart := regsBut_probeStarted (replayOver s d (cwKey d e b)) d (cwKey d e b)
  have hne : cw d 0x10 ≠ cw d 0x18 := by
    rw [Ne, cw_inj]
    decide
  exact ⟨_, execReplayArrival_fails hk, (hstart _ (by simpa using hne)).trans (rd_replayOver_same s d _),
    (rd_probeStarted_same _ d _).trans (congrArg satInc (hover _ (by simpa using hne.symm))), rfl,
    List.mem_append_right _ (List.mem_singleton.2 rfl),
    (hover.trans hstart).mono (by simp), ((same_replayOver s d _).trans (same_probeStarted _ d _)).mono (by simp)⟩

/-- A failed clock is shown at its bundle and raises CW_EVENT bit 3 (R350). -/
theorem chawenClockFault_raises (p : Fin 4) (hb : bundleExists d e b = true) :
    Runs (.chawenClockFault d e b p) s (fun u => rdB u (cwRx d e b) (17 + p) = true
      ∧ Raised s u d 0xA000008 3 ∧ RegsBut ([cwRx d e b, cw d 8] ++ noticeKeys) s u ∧ Same [.regs, .port] s u) := by
  have hnotice := cwRx_not_mem_noticeKeys d.isLt e.isLt b.isLt
  have hevent : cwRx d e b ∉ cw d 8 :: noticeKeys := by
    rw [List.mem_cons, not_or]
    exact ⟨cwRx_ne_cw (by decide), hnotice⟩
  have hwr := regsBut_wrB s (cwRx d e b) (17 + p) true
  refine ⟨cwEvent (wrB s (cwRx d e b) (17 + p) true) d 3, ?_, ?_, Raised.of_regsBut hwr ?_ ?_ (raised_cwEvent _ d.isLt (by decide)),
    (hwr.trans (regsBut_cwEvent _ d 3)).mono (by simp), ((same_wr s _ _).trans (same_cwEvent _ d 3)).mono (by simp)⟩
  · simp [exec, execChawenClockFault, hb]
  · rw [rdB, regsBut_cwEvent _ d 3 _ hevent]
    exact rdB_wrB_same s _ _ _ (by omega)
  · rw [List.mem_singleton]
    exact (cwRx_ne_count d.isLt e.isLt b.isLt).symm
  · rw [List.mem_singleton]
    exact fun h => hnotice (h ▸ List.mem_cons_self)

/-! ### The end of a probe -/

theorem execProbeDone_running (hk : cwKey d e b ∈ s.cw.probes) (hera : cwErased s (cwKey d e b) = []) (hrun : jobRuns s = true) :
    execProbeDone d e b [w] s = .next (cwLate (wireFound s d e b w) d) := by
  rw [execProbeDone_single w hk hera, jobRuns_wireFound, hrun, if_pos rfl]

theorem execProbeDone_idle {n m : Nat} {r : List Nat} (hk : cwKey d e b ∈ s.cw.probes) (hera : cwErased s (cwKey d e b) = [])
    (hrun : jobRuns s = false) (hfree : freeSpares s d e b = n :: m :: r) :
    execProbeDone d e b [w] s = .next (cwLate (wireMoved (wireFound s d e b w) d e b n w) d) := by
  have hfree' : freeSpares (wireFound s d e b w) d e b = n :: m :: r := (freeSpares_wireFound s d.isLt e.isLt b.isLt).trans hfree
  rw [execProbeDone_single w hk hera, jobRuns_wireFound, hrun, remapBundle_single (cwErased_wireFound s d e b w) hfree']
  rfl

/-- While a job runs the wire is rebuilt from parity until its die departs. -/
theorem probeDone_running (hk : cwKey d e b ∈ s.cw.probes) (hera : cwErased s (cwKey d e b) = [])
    (hrun : s.job.state = .departed ∨ s.job.state = .held) :
    Runs (.probeDone d e b [w]) s (fun u => cwErased u (cwKey d e b) = [w.val]
      ∧ rdB u (cwRx d e b) 6 = true ∧ rdF u (cwRx d e b) 7 10 = w.val ∧ u.cw.probes = s.cw.probes.erase (cwKey d e b)
      ∧ Store.get (fun _ => false) u.marks (wireMark d e b w) = true ∧ rdB u (cw d 8) 0 = true
      ∧ RegsBut ([cw d 0, cw d 8, cwRx d e b] ++ noticeKeys) s u ∧ Same [.regs, .cw, .port, .marks, .lateFlags] s u) := by
  have hjob : jobRuns s = true := by simpa [jobRuns] using hrun
  obtain ⟨hbit, hpos⟩ := rx_wireFound s d.isLt e.isLt b.isLt w.isLt
  refine ⟨_, execProbeDone_running w hk hera hjob, ?_, ?_, ?_, ?_, ?_, ?_, ?_, ?_⟩
  · rw [cwErased, cw_cwLate]
    exact cwErased_wireFound s d e b w
  · rw [rdB, rd_cwLate]
    exact hbit
  · rw [rdF, rd_cwLate]
    exact hpos
  · rw [cw_cwLate, cw_wireFound]
  · rw [marks_cwLate]
    exact marks_wireFound s d e b w
  · rw [rdB, rd_cwLate]
    exact rdB_wireFound_event s d.isLt
  · intro k hk
    rw [rd_cwLate]
    exact regsBut_wireFound s d e b w k hk
  · exact ((same_wireFound s d e b w).trans (same_cwLate _ d)).mono (by simp)

/-- While no job runs the wire's position moves to the lowest free spare at once, where one more stays free. -/
theorem probeDone_idle {n m : Nat} {r : List Nat} (hk : cwKey d e b ∈ s.cw.probes) (hera : cwErased s (cwKey d e b) = [])
    (hdep : s.job.state ≠ .departed) (hheld : s.job.state ≠ .held) (hfree : freeSpares s d e b = n :: m :: r) :
    Runs (.probeDone d e b [w]) s (fun u => cwErased u (cwKey d e b) = []
      ∧ rdF u (cwRepair d e b (n / 4)) (16 * (n % 4)) 16 = w + 2 ^ 15
      ∧ rd u (cw d 0x20) = satInc (rd s (cw d 0x20)) ∧ rdB u (cw d 8) 1 = true
      ∧ Store.get (fun _ => false) u.marks (wireMark d e b w) = true
      ∧ u.hist.unitSeq = s.hist.unitSeq + 1 ∧ Same [.regs, .cw, .port, .marks, .lateFlags, .hist] s u) := by
  have hjob : jobRuns s = false := by simp [jobRuns, hdep, hheld]
  have hmoved := same_wireMoved (wireFound s d e b w) d e b n w
  have hlate := same_cwLate (wireMoved (wireFound s d e b w) d e b n w) d
  have hcount : rd (wireFound s d e b w) (cw d 0x20) = rd s (cw d 0x20) := by
    refine regsBut_wireFound s d e b w _ ?_
    simp only [List.mem_append, List.mem_cons, List.not_mem_nil, or_false, not_or, cw_inj]
    exact ⟨⟨by decide, by decide, (cwRx_ne_cw (by decide)).symm⟩, cw_not_mem_noticeKeys d.isLt (by decide)⟩
  have hseq : (wireFound s d e b w).hist = s.hist := same_wireFound s d e b w .hist (by decide)
  refine ⟨_, execProbeDone_idle w hk hera hjob hfree, ?_, ?_, ?_, ?_, ?_, ?_, ?_⟩
  · rw [cwErased, cw_cwLate]
    exact cwErased_wireMoved _ d e b n w
  · rw [rdF, rd_cwLate]
    exact repair_wireMoved _ w d.isLt e.isLt b.isLt (freeSpares_lt hfree) w.isLt
  · rw [rd_cwLate, rd_wireMoved_remaps _ _ d.isLt, hcount]
  · rw [rdB, rd_cwLate]
    exact rdB_wireMoved_event _ _ d.isLt
  · rw [marks_cwLate, marks_wireMoved]
    exact marks_wireFound s d e b w
  · rw [show (cwLate _ d.val).hist = _ from hlate .hist (by decide), unitSeq_wireMoved, hseq]
  · exact (((same_wireFound s d e b w).trans hmoved).trans hlate).mono (by simp)

end Sys2Proof.Machine

open Sys2Proof Sys2Proof.Machine

/-- Settles O39: one clause per row of R354 for a slot, one per message, and the path of a wire from its parity mismatch to its
spare. -/
theorem chawenSlotsAndWires : Obligations.ChawenSlotsAndWires := by
  refine ⟨fun s src dst d k q booked claims a r msg => ?messages, fun s d e b g w p => ?wires⟩
  case messages =>
    refine ⟨fun hp hdue => ?due, fun hk => ⟨s, execChawenSlot_noBundle booked hk, rfl⟩,
      fun hk hr => ⟨fun h => ?repair, fun hg o ho => ?missed⟩, fun hk hr => ⟨fun hg => ?granted, fun hg => ?free⟩,
      fun m hm hd => ?tMessage, ?bMessageDue, fun hdie hkind hd => ?demand, fun hd hdie hkind => ?grant⟩
    case due =>
      refine ⟨_, ?_, rfl, same_cw s _⟩
      simp [exec, execTMessageDue, hp, hdue]
    case repair => exact ⟨_, execChawenSlot_repair booked hk hr h, rfl, same_slotWinner s 9⟩
    case missed =>
      subst ho
      have hkeep := same_cwMissed { s with slotWinner := 9 } src dst o
      refine ⟨_, execChawenSlot_missed o hk hr hg, hkeep .slotWinner (by decide), ?_, fun ho hb => ?_,
        ((same_slotWinner s 9).trans hkeep).mono (by simp)⟩
      · cases o <;> exact cwDelayed_cwMissed { s with slotWinner := 9 } src dst _
      · subst ho
        exact bitOf_cwMissed_none _ src hb
    case granted => exact ⟨_, execChawenSlot_granted booked hk hr hg, rfl, same_slotWinner s 3⟩
    case free =>
      have hf : SlotFree s src dst k q := ⟨hk, hr, hg⟩
      refine ⟨fun o rest hd => ⟨_, execChawenSlot_delayed booked hf hd, rfl, cwDelayed_setCwDelayed _ _ _ _, ?_⟩,
        fun hd => ⟨fun ht hdue => ⟨_, execChawenSlot_tMessage booked hf hd ht hdue, rfl, rfl, ?_⟩,
          fun ht hdue hb => ⟨_, execChawenSlot_bMessage booked hf hd ht hdue hb, rfl, same_slotWinner s 2⟩,
          fun h => ⟨_, execChawenSlot_claims booked hf hd h, rfl, same_slotWinner s _⟩⟩⟩
      · exact (same_slotWinner s 4).trans (same_setCwDelayed _ _ _ _)
      · exact (same_slotWinner s 1).trans (same_cw _ _)
    case tMessage =>
      exact ⟨_, execTMessage_some hm, rfl, copyOf_tMessageTaken (s := s) hd rfl, rfl, fun e he => copies_tMessageTaken s.cw m he⟩
    case bMessageDue =>
      obtain ⟨h1, h2, h3⟩ := fld_demands r.dem1 r.dem2 r.dem3
      have hreg : rd (pwUpd (wr s (pw a 0x10) (demandReg r)) a (fun _ => reported s a r)) (pw a 0x10) = demandReg r := rd_wr_same _ _ _
      refine ⟨_, execBMessageDue_eq a r s, ?_, ?_, ?_, ?_⟩
      · rw [rdF, hreg]; exact h1
      · rw [rdF, hreg]; exact h2
      · rw [rdF, hreg]; exact h3
      rw [pwGet_pwUpd_same]
      exact ⟨rfl, rfl, rfl, regsBut_wr s _ _, (same_wr s _ _).trans (same_pwUpd _ _ _), reported_sent s a r⟩
    case demand => exact ⟨_, execBMessage_demand hdie hkind hd, pwGet_pwUpd_same _ _ _, same_pwUpd _ _ _⟩
    case grant => exact ⟨_, execBMessage_grant hd hdie hkind, pwGet_pwUpd_same _ _ _, same_pwUpd _ _ _⟩
  case wires =>
    refine ⟨fun hb hg hera hr hp => ?mismatch, fun hk => ⟨replayArrival_passes hk, replayArrival_fails hk⟩,
      fun hk hera => ⟨fun hrun => probeDone_running w hk hera hrun,
        fun n m r hdep hheld hfree => probeDone_idle w hk hera hdep hheld hfree⟩, fun hb => chawenClockFault_raises p hb⟩
    refine ⟨_, execChawenParityMismatch_seen hb hg hera hr hp, cw_cwLate _ d, bitOf_cwLate _, fun hd => ?_, ?_⟩
    · rw [cwLate_of_ge _ hd]
    · exact (same_cw s _).trans (same_cwLate _ d)
end

section
/-! What failing the device leaves as it was: the registers off the A-dies, and the parts of the state. -/

namespace Sys2Proof.Machine

/-- A fold that establishes a fact about each element it meets, and keeps those it has established. -/
theorem foldl_establishes {α σ : Type} {P : α → σ → Prop} {f : σ → α → σ} (hself : ∀ s a, P a (f s a))
    (hkeep : ∀ s a b, P b s → P b (f s a)) : ∀ (l : List α) (s : σ) (b : α), b ∈ l ∨ P b s → P b (l.foldl f s) := by
  intro l
  induction l with
  | nil => exact fun s b h => h.resolve_left (by simp)
  | cons a l ih =>
    intro s b h
    refine ih _ _ ?_
    rcases h with h | h
    · rcases List.mem_cons.1 h with rfl | h
      · exact .inr (hself s b)
      · exact .inl h
    · exact .inr (hkeep s a b h)

/-! ### Bits and fields of registers that an update does not touch -/

theorem RegsBut.rdB {ks : List Nat} {s u : State} (h : RegsBut ks s u) {k : Nat} (hk : k ∉ ks) (i : Nat) :
    rdB u k i = rdB s k i := by
  unfold Machine.rdB
  rw [h k hk]

theorem RegsBut.rdF {ks : List Nat} {s u : State} (h : RegsBut ks s u) {k : Nat} (hk : k ∉ ks) (lo len : Nat) :
    rdF u k lo len = rdF s k lo len := by
  unfold Machine.rdF
  rw [h k hk]

theorem rdB_wrB_ne (s : State) (k : Nat) {i j : Nat} (b : Bool) (h : i ≠ j) : rdB (wrB s k j b) k i = rdB s k i := by
  rw [rdB, wrB_wr, rd_wr_same, bitOf_putBit_ne _ _ h, ← rdB]

theorem rdB_wrF_out (s : State) (k : Nat) {lo len i : Nat} (v : Nat) (h : i < lo ∨ lo + len ≤ i) :
    rdB (wrF s k lo len v) k i = rdB s k i := by
  rw [rdB, wrF_wr, rd_wr_same, bitOf_putFld_out _ _ _ _ _ h, ← rdB]

theorem rdF_wrF_out (s : State) (k : Nat) {lo len a b : Nat} (v : Nat) (h : a + b ≤ lo ∨ lo + len ≤ a) :
    rdF (wrF s k lo len v) k a b = rdF s k a b := by
  rw [rdF, wrF_wr, rd_wr_same, fld_putFld_out _ _ _ _ _ _ h, ← rdF]

/-! ### Registers off the A-dies -/

/-- Every register off the A-dies but those with the listed keys holds what it held. -/
def OffDies (ks : List Nat) (s u : State) : Prop := ∀ k, 8 * 2 ^ 30 ≤ k → k ∉ ks → rd u k = rd s k

theorem OffDies.refl (ks : List Nat) (s : State) : OffDies ks s s := fun _ _ _ => rfl

theorem OffDies.trans {a b : List Nat} {s t u : State} (h : OffDies a s t) (g : OffDies b t u) : OffDies (a ++ b) s u := by
  intro k hd hk
  rw [List.mem_append, not_or] at hk
  rw [g k hd hk.2, h k hd hk.1]

theorem OffDies.mono {a b : List Nat} {s u : State} (h : OffDies a s u) (g : ∀ k, k ∈ a → k ∈ b) : OffDies b s u :=
  fun k hd hk => h k hd (fun e => hk (g k e))

theorem OffDies.of_regsBut {ks : List Nat} {s u : State} (h : RegsBut ks s u) : OffDies ks s u := fun k _ hk => h k hk

theorem OffDies.of_regs {s u : State} (h : u.regs = s.regs) : OffDies [] s u := fun k _ _ => rd_congr h k

/-- A register of an A-die is written. -/
theorem offDies_wr (s : State) {k : Nat} (v : W64) (hk : k < 8 * 2 ^ 30) : OffDies [] s (wr s k v) :=
  fun _ hd _ => rd_wr_ne s (by omega) v

theorem OffDies.foldl {α : Type} {f : State → α → State} {l : List α} (h : ∀ s, ∀ a ∈ l, OffDies [] s (f s a)) (s : State) :
    OffDies [] s (l.foldl f s) := by
  induction l generalizing s with
  | nil => exact OffDies.refl _ s
  | cons a l ih => exact (h s a (by simp)).trans (ih (fun t b hb => h t b (by simp [hb])) _)

theorem key_lt_of_die {d off : Nat} (hd : d < 8) (ho : off < 2 ^ 30) : key d off < 8 * 2 ^ 30 := by
  unfold key
  omega

/-! ### The parts of `failDevice` -/

theorem same_updCmd (s : State) (q : W32) (f : Cmd → Cmd) : Same [.port] s (updCmd s q f) := same_port s _

theorem same_failCmd (s : State) (q : W32) (st : Nat) : Same [.port] s (failCmd s q st) := same_updCmd s q _

theorem same_refreshAlerts (s : State) : Same [.mgmt] s (refreshAlerts s) := same_mgmt s _

theorem same_setJob (s : State) (st : JobState) (status : Nat) : Same [.regs, .port, .job] s (setJob s st status) := by
  unfold setJob
  split
  · exact Same.refl _ _
  · exact (((same_job s _).trans (same_wr _ _ _)).trans (same_post _ _ _ _ _ _ _ _ _)).mono (by simp)

theorem regsBut_setJob (s : State) (st : JobState) (status : Nat) : RegsBut (hp 0x130 :: noticeKeys) s (setJob s st status) := by
  unfold setJob
  split
  · exact RegsBut.refl _ _
  · extract_lets old x s1 s2
    have h1 : RegsBut [] s s1 := regsBut_of_regs rfl
    exact (h1.trans (regsBut_wrB s1 _ _ _)).trans (regsBut_post s2 _ _ _ _ _ _ _ _)

theorem jobState_setJob (s : State) (st : JobState) (status : Nat) : (setJob s st status).job.state = st := by
  unfold setJob
  split
  · assumption
  · exact congrArg JobX.state (post_job _ _ _ _ _ _ _ _ _)

theorem same_setDevice (s : State) (st : DeviceState) (status : Nat) : Same [.regs, .port, .dev] s (setDevice s st status) := by
  unfold setDevice
  split
  · exact Same.refl _ _
  · exact ((same_dev s _).trans (same_post _ _ _ _ _ _ _ _ _)).mono (by simp)

theorem regsBut_setDevice (s : State) (st : DeviceState) (status : Nat) : RegsBut noticeKeys s (setDevice s st status) := by
  unfold setDevice
  split
  · exact RegsBut.refl _ _
  · exact regsBut_post { s with dev := _ } _ _ _ _ _ _ _ _

/-- The device is in the state that it is set to, and its other records stay. -/
theorem dev_setDevice (s : State) (st : DeviceState) (status : Nat) : (setDevice s st status).dev = { s.dev with state := st } := by
  unfold setDevice
  split
  next h => rw [← h]
  next => exact post_dev _ _ _ _ _ _ _ _ _

theorem same_ttFailed (s : State) : Same [.regs] s (ttFailed s) := by
  refine Same.foldl _ (fun s d => ?_) _ s
  split
  · exact Same.refl _ _
  · exact same_wr s _ _

theorem offDies_ttFailed (s : State) : OffDies [] s (ttFailed s) := by
  refine OffDies.foldl (fun s d hd => ?_) s
  split
  · exact OffDies.refl _ _
  · exact offDies_wr s _ (key_lt_of_die (List.mem_range.1 hd) (by decide))

theorem same_endJobCmds (s : State) (status : Nat) : Same [.port, .job] s (endJobCmds s status) := by
  unfold endJobCmds
  extract_lets a b
  have ha : Same [.port] s a := by
    unfold a
    split
    · exact same_failCmd s _ _
    · exact Same.refl _ _
  have hb : Same [.port] a b := by
    unfold b
    split
    · exact same_failCmd a _ _
    · exact Same.refl _ _
  exact ((ha.trans hb).trans (same_job b _)).mono (by simp)

/-- Completing the job's commands leaves the job in its state. -/
theorem jobState_endJobCmds (s : State) (status : Nat) : (endJobCmds s status).job.state = s.job.state := by
  unfold endJobCmds
  extract_lets a b
  have ha : a.job = s.job := by
    unfold a
    split <;> rfl
  have hb : b.job = a.job := by
    unfold b
    split <;> rfl
  show b.job.state = s.job.state
  rw [hb, ha]

theorem same_forgetGranules (s : State) (base n : Nat) : Same [.mem] s (forgetGranules s base n) := same_mem s _

theorem same_gdEvent (s : State) (i : Nat) : Same [.regs, .port] s (gdEvent s i) := same_raise s _ _ _ _ _ _ _

theorem regsBut_gdEvent (s : State) (i : Nat) : RegsBut (gd 8 :: noticeKeys) s (gdEvent s i) := regsBut_raise s 12 0x3000008 i _ _ _ _

theorem destroyKeys_without_keys {s : State} (h : rdB s (gd 0) 4 = false) : destroyKeys s = s := by simp [destroyKeys, h]

theorem same_destroyKeys (s : State) : Same [.regs, .port, .job, .depot, .mem] s (destroyKeys s) := by
  unfold destroyKeys
  split
  · extract_lets rs hit s1 jx dx s2
    have h1 : Same [.mem] s s1 := Same.foldl _ (fun s r => same_forgetGranules s _ _) _ s
    have h2 : Same [.job, .depot] s1 s2 := (same_job s1 s2.job).trans (same_depot _ s2.depot)
    exact ((((h1.trans h2).trans (same_wr s2 _ _)).trans (same_wr _ _ _)).trans (same_gdEvent _ 2)).mono (by simp)
  · exact Same.refl _ _

theorem regsBut_destroyKeys (s : State) : RegsBut ([gd 0, gd 0x48, gd 8] ++ noticeKeys) s (destroyKeys s) := by
  unfold destroyKeys
  split
  · extract_lets rs hit s1 jx dx s2
    have h1 : Same [.mem] s s1 := Same.foldl _ (fun s r => same_forgetGranules s _ _) _ s
    have h2 : RegsBut [] s s2 := regsBut_of_regs (h1 .regs (by decide))
    exact ((h2.trans (regsBut_wrB s2 _ _ _)).trans (regsBut_wr _ _ _)).trans (regsBut_gdEvent _ 2)
  · exact RegsBut.refl _ _

/-- Destroying the keys leaves the job in its state. -/
theorem jobState_destroyKeys (s : State) : (destroyKeys s).job.state = s.job.state := by
  unfold destroyKeys
  split
  · extract_lets rs hit s1 jx dx s2
    have h1 : Same [.mem] s s1 := Same.foldl _ (fun s r => same_forgetGranules s _ _) _ s
    have h3 : (gdEvent (wr (wrB s2 (gd 0) 4 false) (gd 0x48) (now s2)) 2).job = s2.job := same_gdEvent _ 2 .job (by decide)
    have h2 : s2.job.state = s1.job.state := rfl
    have h4 : s1.job = s.job := h1 .job (by decide)
    rw [h3, h2, h4]
  · rfl

/-- The memories and the key that opening the gates clears (R500). -/
def gatesCleared (s : State) : State :=
  { s with mem := [], scEntries := [], scStreams := [], jlines := [], dir := [], deferred := [], vregs := [], cells := []
           guard := { s.guard with memKey := none }, dev := { s.dev with testOpen := true } }

/-- The plane registers and the register that the gates clear on A-die `d` (R500). -/
def dieCleared (s : State) (d : Nat) : State :=
  let s := (upTo 4).foldl (fun s q => wr s (ma d (0x18 + 8 * q)) 0) (wr (wrF s (ma d 0) 2 8 0) (jn d 8) 0)
  (upTo 8).foldl (fun s c => wrF (wrF s (vc d c 0x38) 1 12 0) (vc d c 0x38) 16 16 0) s

theorem openGates_eq (s : State) :
    openGates s = gdEvent (wrB ((upTo 8).foldl dieCleared (gatesCleared s)) (gd 0) 5 true) 4 := rfl

theorem same_gatesCleared (s : State) :
    Same [.mem, .scEntries, .scStreams, .jlines, .dir, .deferred, .vregs, .cells, .guard, .dev] s (gatesCleared s) := by
  intro p hp
  cases p <;> simp [Agree, gatesCleared] at hp ⊢

theorem same_dieCleared (s : State) (d : Nat) : Same [.regs] s (dieCleared s d) := by
  have h1 : Same [.regs] s (wr (wrF s (ma d 0) 2 8 0) (jn d 8) 0) := ((same_wr s _ _).trans (same_wr _ _ _)).mono (by simp)
  have h2 : Same [.regs] s _ := (h1.trans (Same.foldl _ (fun t q => same_wr t (ma d (0x18 + 8 * q)) 0) (upTo 4) _)).mono (by simp)
  have h3 : ∀ (t : State) (c : Nat), Same [.regs] t (wrF (wrF t (vc d c 0x38) 1 12 0) (vc d c 0x38) 16 16 0) :=
    fun t c => ((same_wr t _ _).trans (same_wr _ _ _)).mono (by simp)
  exact (h2.trans (Same.foldl _ h3 (upTo 8) _)).mono (by simp)

theorem offDies_dieCleared (s : State) {d : Nat} (hd : d < 8) : OffDies [] s (dieCleared s d) := by
  have hk : ∀ {off : Nat}, off < 2 ^ 30 → key d off < 8 * 2 ^ 30 := key_lt_of_die hd
  have h1 : OffDies [] s (wr (wrF s (ma d 0) 2 8 0) (jn d 8) 0) :=
    (offDies_wr s _ (hk (by decide))).trans (offDies_wr _ _ (hk (by decide)))
  refine (h1.trans (OffDies.foldl (fun t q hq => ?_) _)).trans (OffDies.foldl (fun t c hc => ?_) _)
  · have hq := List.mem_range.1 hq
    exact offDies_wr t _ (hk (by omega))
  · have hc := List.mem_range.1 hc
    exact (offDies_wr t _ (hk (by omega))).trans (offDies_wr _ _ (hk (by omega)))

theorem same_openGates (s : State) : Same [.regs, .port, .dev, .guard, .mem, .jlines, .dir, .deferred, .scEntries, .scStreams, .vregs,
    .cells] s (openGates s) := by
  rw [openGates_eq]
  have h := (same_gatesCleared s).trans (Same.foldl _ same_dieCleared (upTo 8) _)
  exact ((h.trans (same_wr _ _ _)).trans (same_gdEvent _ 4)).mono (by simp)

theorem offDies_openGates (s : State) : OffDies ([gd 0, gd 8] ++ noticeKeys) s (openGates s) := by
  rw [openGates_eq]
  have h1 : OffDies [] s (gatesCleared s) := OffDies.of_regs rfl
  have h2 := h1.trans (OffDies.foldl (fun t d hd => offDies_dieCleared t (List.mem_range.1 hd)) (gatesCleared s))
  exact (h2.trans (OffDies.of_regsBut (regsBut_wrB _ _ _ _))).trans (OffDies.of_regsBut (regsBut_gdEvent _ 4))

theorem devState_openGates (s : State) : (openGates s).dev.state = s.dev.state := by
  rw [openGates_eq]
  have h1 : Same [.regs] (gatesCleared s) ((upTo 8).foldl dieCleared (gatesCleared s)) := Same.foldl _ same_dieCleared _ _
  have h2 : Same [.regs, .regs, .regs, .port] (gatesCleared s) (gdEvent (wrB ((upTo 8).foldl dieCleared (gatesCleared s)) (gd 0) 5 true) 4) :=
    (h1.trans (same_wr _ _ _)).trans (same_gdEvent _ 4)
  have h3 : _ = (gatesCleared s).dev := h2 .dev (by decide)
  rw [h3]
  rfl

/-! ### failDevice (R548, R559) -/

/-- The job has failed, its commands are complete, and the device stands in FAILED. -/
def deviceStopped (s : State) : State := setDevice (endJobCmds (ttFailed (setJob s .failed stFault)) stFault) .failed stFault

/-- The Guard opens the test gates where one of its copies is alive (R500). -/
def gatesOpened (s : State) : State := if s.guard.aliveX0 || s.guard.aliveX1 then openGates s else s

theorem failDevice_eq (s : State) : failDevice s = refreshAlerts (gatesOpened (destroyKeys (mtcMove (deviceStopped s) 0))) := rfl

theorem same_deviceStopped (s : State) : Same [.regs, .port, .job, .dev] s (deviceStopped s) :=
  ((((same_setJob s _ _).trans (same_ttFailed _)).trans (same_endJobCmds _ _)).trans (same_setDevice _ _ _)).mono (by simp)

theorem offDies_deviceStopped (s : State) : OffDies (hp 0x130 :: noticeKeys) s (deviceStopped s) := by
  have h1 := (OffDies.of_regsBut (regsBut_setJob s .failed stFault)).trans (offDies_ttFailed _)
  have h2 : OffDies [] _ (endJobCmds (ttFailed (setJob s .failed stFault)) stFault) :=
    OffDies.of_regs (same_endJobCmds _ _ .regs (by decide))
  exact ((h1.trans h2).trans (OffDies.of_regsBut (regsBut_setDevice _ _ _))).mono (by simp)

theorem jobState_deviceStopped (s : State) : (deviceStopped s).job.state = .failed := by
  have h1 : (deviceStopped s).job = _ := same_setDevice _ _ _ .job (by decide)
  have h2 : (ttFailed (setJob s .failed stFault)).job = _ := same_ttFailed _ .job (by decide)
  rw [h1, jobState_endJobCmds, h2, jobState_setJob]

theorem same_gatesOpened (s : State) : Same [.regs, .port, .dev, .guard, .mem, .jlines, .dir, .deferred, .scEntries, .scStreams, .vregs,
    .cells] s (gatesOpened s) := by
  unfold gatesOpened
  split
  · exact same_openGates s
  · exact Same.refl _ _

theorem offDies_gatesOpened (s : State) : OffDies ([gd 0, gd 8] ++ noticeKeys) s (gatesOpened s) := by
  unfold gatesOpened
  split
  · exact offDies_openGates s
  · exact OffDies.refl _ _

theorem devState_gatesOpened (s : State) : (gatesOpened s).dev.state = s.dev.state := by
  unfold gatesOpened
  split
  · exact devState_openGates s
  · rfl

theorem same_failDevice (s : State) : Same [.regs, .port, .mtcx, .job, .dev, .mgmt, .guard, .depot, .mem, .jlines, .dir, .deferred,
    .scEntries, .scStreams, .vregs, .cells] s (failDevice s) := by
  have h1 := ((same_deviceStopped s).trans (same_mtcMove _ 0)).trans (same_destroyKeys _)
  exact ((h1.trans (same_gatesOpened _)).trans (same_refreshAlerts _)).mono (by simp)

theorem devState_failDevice (s : State) : (failDevice s).dev.state = .failed := by
  have h1 : (destroyKeys (mtcMove (deviceStopped s) 0)).dev = (deviceStopped s).dev :=
    ((same_mtcMove _ 0).trans (same_destroyKeys _)) .dev (by decide)
  have h2 : (failDevice s).dev = (gatesOpened (destroyKeys (mtcMove (deviceStopped s) 0))).dev := same_refreshAlerts _ .dev (by decide)
  rw [h2, devState_gatesOpened, h1, deviceStopped, dev_setDevice]

theorem jobState_failDevice (s : State) : (failDevice s).job.state = .failed := by
  have h1 : (failDevice s).job = (destroyKeys (mtcMove (deviceStopped s) 0)).job :=
    ((same_gatesOpened _).trans (same_refreshAlerts _)) .job (by decide)
  have h2 : (mtcMove (deviceStopped s) 0).job = (deviceStopped s).job := same_mtcMove _ 0 .job (by decide)
  rw [h1, jobState_destroyKeys, h2, jobState_deviceStopped]

/-- What follows the move of the MTC leaves the registers off the A-dies but those of the Guard. -/
theorem offDies_gatesOpened_destroyKeys (s : State) :
    OffDies ([gd 0, gd 8, gd 0x48] ++ noticeKeys) s (refreshAlerts (gatesOpened (destroyKeys s))) := by
  have h : OffDies _ s (gatesOpened (destroyKeys s)) := (OffDies.of_regsBut (regsBut_destroyKeys s)).trans (offDies_gatesOpened _)
  exact (h.trans (OffDies.of_regs rfl)).mono (by simp; tauto)

/-- A failed device's MTC is FREE (R48). -/
theorem mtcState_failDevice (s : State) : mtcState (failDevice s) = 0 := by
  have h : rd (failDevice s) (mtc 8) = rd (mtcMove (deviceStopped s) 0) (mtc 8) :=
    offDies_gatesOpened_destroyKeys _ _ (by decide) (by decide)
  unfold mtcState rdF
  rw [h]
  exact mtcState_mtcMove _ 0 (by decide)

/-- Failing the device leaves the registers off the A-dies but those of its job event, the MTC, the Guard and the notices. -/
theorem offDies_failDevice (s : State) :
    OffDies ([hp 0x130, mtc 8, mtc 0x18, mtc 0x58, mtc 0x60, mtc 0x68, gd 0, gd 8, gd 0x48] ++ noticeKeys) s (failDevice s) := by
  have h := (offDies_deviceStopped s).trans (OffDies.of_regsBut (regsBut_mtcMove _ 0))
  exact (h.trans (offDies_gatesOpened_destroyKeys _)).mono (by simp; tauto)

end Sys2Proof.Machine
end

section
/-! Laws of machine time that the statements of its chapter need: what `advance` leaves of the MTC's own records, what a move of the
MTC writes, and what the loss of a source leaves (R40, R43, R48). -/

namespace Sys2Proof.Machine

/-! ### advance -/

section
variable (s : State) (t : W64)

theorem trefLostAt_advance : (advance s t).mtcx.trefLostAt = s.mtcx.trefLostAt := by rw [mtcx_advance]
theorem lastTod_advance : (advance s t).mtcx.lastTod = s.mtcx.lastTod := by rw [mtcx_advance]
theorem lastEdge_advance : (advance s t).mtcx.lastEdge = s.mtcx.lastEdge := by rw [mtcx_advance]
theorem pendingSec_advance : (advance s t).mtcx.pendingSec = s.mtcx.pendingSec := by rw [mtcx_advance]
theorem missing_advance : (advance s t).mtcx.missing = s.mtcx.missing := by rw [mtcx_advance]
theorem holdSince_advance : (advance s t).mtcx.holdSince = s.mtcx.holdSince := by rw [mtcx_advance]
theorem dev_advance : (advance s t).dev = s.dev := same_advance s t .dev (by decide)
theorem job_advance : (advance s t).job = s.job := same_advance s t .job (by decide)

theorem rd_advance {k : Nat} (h : k ∉ [mtc 0, mtc 8, mtc 0x58]) : rd (advance s t) k = rd s k := regsBut_advance s t k h

theorem trefOver_advance : trefOver (advance s t) t = trefOver s t := by simp only [trefOver, trefLostAt_advance]

theorem trefNear_advance : trefNear (advance s t) = trefNear s := by
  unfold trefNear
  rw [rd_advance s t (by decide)]

end

/-! ### The moves of the MTC -/

/-- The seconds of discipline and the rate correction start again (R49, R50). -/
def disciplineCleared (s : State) : State := wr (wr s (mtc 0x58) 0) (mtc 0x18) 0

/-- MTC_STATUS shows no eligibility, no step and no estimate of the error (R48). -/
def estimateCleared (s : State) : State :=
  wr (wrF (wrB (wrB s (mtc 8) 6 false) (mtc 8) 7 false) (mtc 8) 16 16 0xFFFF) (mtc 0x60) 0

/-- What FREE forgets (R48 to R50). -/
def mtcFreed (s : State) : State :=
  let s := estimateCleared (disciplineCleared s)
  { s with mtcx := { s.mtcx with discFrac := 0, rateFrac := 0, stepDue := none, pendingSec := none } }

/-- The MTC in its new state, before the event of the move. -/
def mtcEntered (s : State) (st : Nat) : State :=
  let s := wrF s (mtc 8) 0 2 st
  let s := { s with mtcx := { s.mtcx with good := 0, bad := 0, goodSince := none, badSince := none
                                          missing := 0, holdSince := now s } }
  if st = 0 then mtcFreed s else if st = 1 then wr s (mtc 0x60) 0 else s

theorem mtcMove_same {s : State} {st : Nat} (h : mtcState s = st) : mtcMove s st = s := by simp [mtcMove, h]

theorem mtcMove_other {s : State} {st : Nat} (h : mtcState s ≠ st) : mtcMove s st = mtcEvent (mtcEntered s st) 0 := if_neg h

theorem regsBut_disciplineCleared (s : State) : RegsBut [mtc 0x58, mtc 0x18] s (disciplineCleared s) :=
  (regsBut_wr s _ _).trans (regsBut_wr _ _ _)

theorem regsBut_estimateCleared (s : State) : RegsBut [mtc 8, mtc 8, mtc 8, mtc 0x60] s (estimateCleared s) :=
  (((regsBut_wrB s _ 6 false).trans (regsBut_wrB _ _ 7 false)).trans (regsBut_wrF _ _ 16 16 0xFFFF)).trans (regsBut_wr _ _ 0)

theorem rdB_status_estimateCleared (s : State) {i : Nat} (hi : i < 6) : rdB (estimateCleared s) (mtc 8) i = rdB s (mtc 8) i := by
  rw [estimateCleared, (regsBut_wr _ (mtc 0x60) 0).rdB (by decide), rdB_wrF_out _ _ _ (by omega), rdB_wrB_ne _ _ _ (by omega),
    rdB_wrB_ne _ _ _ (by omega)]

theorem regsBut_mtcFreed (s : State) : RegsBut [] (estimateCleared (disciplineCleared s)) (mtcFreed s) := regsBut_mtcx _ _

theorem rdB_status_mtcFreed (s : State) {i : Nat} (hi : i < 6) : rdB (mtcFreed s) (mtc 8) i = rdB s (mtc 8) i := by
  rw [(regsBut_mtcFreed s).rdB (by simp), rdB_status_estimateCleared _ hi, (regsBut_disciplineCleared s).rdB (by decide)]

/-- A move of the MTC leaves the bits of MTC_STATUS that show its references: TREF_OK, TPPS_OK, TTOD_OK, INBAND_OK. -/
theorem rdB_status_mtcMove (s : State) (st : Nat) {i : Nat} (h2 : 2 ≤ i) (hi : i < 6) :
    rdB (mtcMove s st) (mtc 8) i = rdB s (mtc 8) i := by
  by_cases h : mtcState s = st
  · rw [mtcMove_same h]
  · rw [mtcMove_other h, (regsBut_mtcEvent _ 0).rdB (by decide)]
    unfold mtcEntered
    extract_lets a x b
    have hb : rdB b (mtc 8) i = rdB s (mtc 8) i := rdB_wrF_out s _ _ (by omega)
    split
    · rw [rdB_status_mtcFreed _ hi, hb]
    · split
      · rw [(regsBut_wr b _ _).rdB (by decide), hb]
      · exact hb

theorem lastTod_mtcMove (s : State) (st : Nat) : (mtcMove s st).mtcx.lastTod = s.mtcx.lastTod := by
  by_cases h : mtcState s = st
  · rw [mtcMove_same h]
  · have hm : (mtcEvent (mtcEntered s st) 0).mtcx = (mtcEntered s st).mtcx := same_mtcEvent _ 0 .mtcx (by decide)
    rw [mtcMove_other h, hm]
    unfold mtcEntered
    split
    · rfl
    · split <;> rfl

/-- A move to FREE forgets the seconds of discipline (R49). -/
theorem rd_discipline_mtcMove_free {s : State} (h : mtcState s ≠ 0) : rd (mtcMove s 0) (mtc 0x58) = 0 := by
  rw [mtcMove_other h, regsBut_mtcEvent _ 0 (mtc 0x58) (by decide)]
  unfold mtcEntered
  extract_lets a x b
  rw [if_pos rfl, regsBut_mtcFreed b _ (by simp), regsBut_estimateCleared _ _ (by decide), disciplineCleared,
    rd_wr_ne _ (by decide), rd_wr_same]

/-- An event whose notice is MTC_STATE sets its bit and posts it (R62, R444). -/
theorem mtcEvent_stateNotice (s : State) {i : Nat} (h : i = 0 ∨ i = 3) :
    rdB (mtcEvent s i) (mtc 0x68) i = true ∧ Posted s (mtcEvent s i) 6 0 0 := by
  have he : (i = 0 || i = 3) = true := by simpa using h
  unfold mtcEvent
  rw [if_pos he]
  extract_lets a
  have ha : RegsBut [mtc 0x68] s a := regsBut_wrB s _ _ _
  constructor
  · rw [(regsBut_post a _ _ _ _ _ _ _ _).rdB (by decide)]
    exact rdB_wrB_same s _ _ _ (by omega)
  · have hp := posted_post a 6 0 (sourceOf 12 0x4000068) 0 (rd a (mtc 8)) (rd a (mtc 0x68)) (rd a (mtc 0x20)) (rd a (mtc 0x58))
    have hn : now a = now s := now_eq_of_regsBut ha (by decide)
    unfold Posted at hp ⊢
    rwa [hn, ha (bar0 0x70) (by decide)] at hp

/-- The loss of the source takes the MTC where `lostState` says (R46, R48). -/
theorem mtcState_sourceLost (s : State) : mtcState (sourceLost s) = lostState s := by
  unfold sourceLost lostState
  extract_lets st
  by_cases h1 : mtcState s = 1
  · simp [st, h1, mtcState_mtcMove]
  · by_cases h2 : mtcState s = 2
    · rw [if_neg h1, if_pos h2, if_neg h1, if_pos h2]
      split <;> exact mtcState_mtcMove _ _ (by decide)
    · simp [st, h1, h2]

theorem rdB_status_sourceLost (s : State) {i : Nat} (h2 : 2 ≤ i) (hi : i < 6) :
    rdB (sourceLost s) (mtc 8) i = rdB s (mtc 8) i := by
  unfold sourceLost
  extract_lets st
  split
  · exact rdB_status_mtcMove s _ h2 hi
  · split
    · split <;> exact rdB_status_mtcMove s _ h2 hi
    · rfl

/-- Registers that change within a range, or as a notice's, are as they were outside it. -/
theorem RegsBut.outside {ks : List Nat} {lo hi : Nat} {s u : State} (h : RegsBut ks s u)
    (hk : ∀ k ∈ ks, (lo ≤ k ∧ k < hi) ∨ k ∈ noticeKeys) : RegsOutside lo hi s u := by
  intro k hr h70 h78
  refine h k (fun hm => ?_)
  rcases hk k hm with hin | hn
  · omega
  · simp [noticeKeys, h70, h78] at hn

theorem RegsOutside.trans {lo hi : Nat} {s t u : State} (h : RegsOutside lo hi s t) (g : RegsOutside lo hi t u) : RegsOutside lo hi s u :=
  fun k hr h70 h78 => (g k hr h70 h78).trans (h k hr h70 h78)

theorem regsOutside_advance (s : State) (t : W64) : RegsOutside (mtc 0) (mtc 0x80) s (advance s t) :=
  (regsBut_advance s t).outside (by decide)

theorem regsOutside_mtcMove (s : State) (st : Nat) : RegsOutside (mtc 0) (mtc 0x80) s (mtcMove s st) :=
  (regsBut_mtcMove s st).outside (by decide)

theorem regsOutside_sourceLost (s : State) : RegsOutside (mtc 0) (mtc 0x80) s (sourceLost s) :=
  (regsBut_sourceLost s).outside (by decide)

end Sys2Proof.Machine
end

section
/-! TREF and HOLDOVER (R40, R48, R49): one lemma per command and case, and O9. -/

namespace Sys2Proof.Machine

/-! ### The causes of late running -/

/-- The cause is recorded on every A-die (R92). -/
def notedEverywhere (s : State) (bit : Nat) : State := (upTo 8).foldl (fun s d => noteCause s d bit) s

theorem same_notedEverywhere (s : State) (bit : Nat) : Same [.lateFlags] s (notedEverywhere s bit) :=
  Same.foldl _ (fun t d => same_noteCause t d bit) _ s

theorem lateFlags_noteCause_ne (s : State) {d e : Nat} (bit : Nat) (h : e ≠ d) :
    Store.get (fun _ => 0) (noteCause s d bit).lateFlags e = Store.get (fun _ => 0) s.lateFlags e := Store.get_set_ne _ h _ _

/-- A cause that a die has noted stays noted. -/
theorem bitOf_noteCause_keeps {s : State} (d : Nat) {e bit : Nat} (h : bitOf (Store.get (fun _ => 0) s.lateFlags e) bit = true)
    (hb : bit < 16) : bitOf (Store.get (fun _ => 0) (noteCause s d bit).lateFlags e) bit = true := by
  by_cases he : e = d
  · rw [he]
    exact bitOf_noteCause_same s d hb
  · rw [lateFlags_noteCause_ne s bit he, h]

/-- A-die `d` has noted the cause. -/
def Noted (bit d : Nat) (s : State) : Prop := bitOf (Store.get (fun _ => 0) s.lateFlags d) bit = true

theorem noted_notedEverywhere (s : State) {bit d : Nat} (hb : bit < 16) (hd : d < 8) : Noted bit d (notedEverywhere s bit) :=
  foldl_establishes (P := Noted bit) (fun t d => bitOf_noteCause_same t d hb) (fun _ d _ h => bitOf_noteCause_keeps d h hb) (upTo 8) s d
    (.inl (List.mem_range.2 hd))

/-! ### The commands -/

section
variable {s : State} {t : W64}

theorem execTrefLost_first (hv : s.dev.vaux = true) (h : s.mtcx.trefLostAt = none) :
    exec (.trefLost t) s = .next (mtcEvent
      (wrB { advance s t with mtcx := { (advance s t).mtcx with trefLostAt := some t } } (mtc 8) 2 false) 3) := by
  show execTrefLost t s = _
  simp [execTrefLost, dev_advance, hv, trefLostAt_advance, h]

/-- TREF is back: MTC_STATUS shows whether it is near its frequency (R39, R40). -/
def trefBack (s : State) : State := wrB { s with mtcx := { s.mtcx with trefLostAt := none } } (mtc 8) 2 (trefNear s)

theorem same_trefBack (s : State) : Same [.regs, .mtcx] s (trefBack s) := ((same_mtcx s _).trans (same_wr _ _ _)).mono (by simp)

theorem execTrefReturn_over (hv : s.dev.vaux = true) (h : trefOver s t = true) (hf : s.dev.state ≠ .failed) :
    exec (.trefReturn t) s = .next (trefBack (failDevice (advance s t))) := by
  show execTrefReturn t s = _
  simp [execTrefReturn, dev_advance, hv, trefOver_advance, h, hf, devState_failDevice, trefBack]

/-- A return within the second; where the device has not failed, every die has its cause. -/
theorem execTrefReturn_kept (hv : s.dev.vaux = true) (h : trefOver s t = false ∨ s.dev.state = .failed) :
    exec (.trefReturn t) s = .next (trefBack
      (if s.mtcx.trefLostAt.isSome && s.dev.state ≠ .failed then notedEverywhere (advance s t) 8 else advance s t)) := by
  have hc : (trefOver s t && decide (s.dev.state ≠ .failed)) = false := by
    rcases h with h | h <;> simp [h]
  show execTrefReturn t s = _
  simp only [execTrefReturn, dev_advance, hv, trefOver_advance, hc, trefLostAt_advance, if_true, Bool.false_eq_true, if_false]
  rfl

theorem execTrefHoldExpiry_over (h : trefOver s t = true) : exec (.trefHoldExpiry t) s = .next (failDevice (advance s t)) := by
  show execTrefHoldExpiry t s = _
  simp [execTrefHoldExpiry, trefOver_advance, h]

theorem execTrefHoldExpiry_not_over (h : trefOver s t = false) : exec (.trefHoldExpiry t) s = .next (advance s t) := by
  show execTrefHoldExpiry t s = _
  simp [execTrefHoldExpiry, trefOver_advance, h]

theorem execHoldoverExpiry_over (h3 : mtcState s = 3)
    (h : s.mtcx.holdSince.toNat + rdF s (mtc 0x38) 0 32 * sec ≤ (now (advance s t)).toNat) :
    exec (.holdoverExpiry t) s = .next (mtcMove (advance s t) 0) := by
  have hr : rdF (advance s t) (mtc 0x38) 0 32 = rdF s (mtc 0x38) 0 32 := (regsBut_advance s t).rdF (by decide) _ _
  show execHoldoverExpiry t s = _
  simp [execHoldoverExpiry, mtcState_advance, h3, holdSince_advance, hr, h]

theorem execHoldEligible_met (h : 600 ≤ (rd (advance s t) (mtc 0x58)).toNat) :
    exec (.holdEligible t) s = .next (wrB (advance s t) (mtc 8) 6 true) := by
  show execHoldEligible t s = _
  simp [execHoldEligible, h]

end

theorem trefLost_runs {s : State} {t : W64} (hv : s.dev.vaux = true) (h : s.mtcx.trefLostAt = none) :
    Runs (.trefLost t) s (fun u =>
      u.mtcx.trefLostAt = some t ∧ rdB u (mtc 8) 2 = false ∧ rdB u (mtc 0x68) 3 = true ∧ Posted (advance s t) u 6 0 0
      ∧ RegsBut ([mtc 8, mtc 0x68] ++ noticeKeys) (advance s t) u
      ∧ Same [.regs, .port, .mtcx] (advance s t) u) := by
  refine ⟨_, execTrefLost_first hv h, ?_⟩
  generalize advance s t = a
  have hx := regsBut_mtcx a { a.mtcx with trefLostAt := some t }
  generalize hb : wrB { a with mtcx := { a.mtcx with trefLostAt := some t } } (mtc 8) 2 false = b
  have hlost : b.mtcx.trefLostAt = some t := by rw [← hb]; rfl
  have hbit : rdB b (mtc 8) 2 = false := by rw [← hb]; exact rdB_wrB_same _ _ _ _ (by decide)
  have hreg : RegsBut [mtc 8] a b := by rw [← hb]; exact hx.trans (regsBut_wrB _ _ _ _)
  have hsame : Same [.mtcx, .regs] a b := by rw [← hb]; exact (same_mtcx a _).trans (same_wr _ _ _)
  obtain ⟨hset, hpost⟩ := mtcEvent_stateNotice b (i := 3) (.inr rfl)
  have hmtcx : (mtcEvent b 3).mtcx = b.mtcx := same_mtcEvent b 3 .mtcx (by decide)
  refine ⟨?_, ?_, hset, ?_, (hreg.trans (regsBut_mtcEvent b 3)).mono (by simp), (hsame.trans (same_mtcEvent b 3)).mono (by simp)⟩
  · rw [hmtcx, hlost]
  · rw [(regsBut_mtcEvent b 3).rdB (by decide), hbit]
  · have hn : now b = now a := now_eq_of_regsBut hreg (by decide)
    unfold Posted at hpost ⊢
    rwa [hn, hreg (bar0 0x70) (by decide)] at hpost

theorem trefReturn_kept_runs {s : State} {t : W64} (hv : s.dev.vaux = true) (h : trefOver s t = false ∨ s.dev.state = .failed) :
    Runs (.trefReturn t) s (fun u =>
      u.mtcx.trefLostAt = none ∧ rdB u (mtc 8) 2 = trefNear s
      ∧ (s.mtcx.trefLostAt ≠ none → s.dev.state ≠ .failed → ∀ d, d < 8 → bitOf (Store.get (fun _ => 0) u.lateFlags d) 8 = true)
      ∧ RegsBut [mtc 8] (advance s t) u
      ∧ Same [.regs, .mtcx, .lateFlags] (advance s t) u) := by
  refine ⟨_, execTrefReturn_kept hv h, ?_⟩
  generalize hn : (if s.mtcx.trefLostAt.isSome && s.dev.state ≠ .failed then notedEverywhere (advance s t) 8 else advance s t) = n
  have hsame : Same [.lateFlags] (advance s t) n := by
    rw [← hn]
    split
    · exact same_notedEverywhere _ _
    · exact Same.refl _ _
  have hreg : n.regs = (advance s t).regs := hsame .regs (by decide)
  have hnear : trefNear n = trefNear s := by
    rw [← trefNear_advance s t]
    unfold trefNear
    rw [rd_congr hreg]
  refine ⟨rfl, ?_, fun hl hf d hd => ?_, ?_, (hsame.trans (same_trefBack n)).mono (by simp)⟩
  · rw [trefBack, hnear]
    exact rdB_wrB_same _ _ _ _ (by decide)
  · have hc : (s.mtcx.trefLostAt.isSome && decide (s.dev.state ≠ .failed)) = true := by
      simp [Option.isSome_iff_ne_none, hl, hf]
    rw [if_pos hc] at hn
    show bitOf (Store.get (fun _ => 0) n.lateFlags d) 8 = true
    rw [← hn]
    exact noted_notedEverywhere _ (by decide) hd
  · exact ((regsBut_of_regs hreg).trans (regsBut_mtcx n _)).trans (regsBut_wrB _ _ _ _)

end Sys2Proof.Machine

open Sys2Proof Sys2Proof.Machine

/-- Settles O9: each clause is its command's lemma, with the laws of `failDevice` where TREF was lost for its second. -/
theorem trefAndHoldover : Obligations.TrefAndHoldover := by
  refine ⟨fun s t hv => ⟨trefLost_runs hv, fun ho hf => ?late, trefReturn_kept_runs hv, fun ho => ?held, fun ho => ?expired⟩,
    fun s t => ⟨fun h3 hover => ?holdover, fun h600 => ?eligible⟩⟩
  case late =>
    exact ⟨_, execTrefReturn_over hv ho hf, rfl, devState_failDevice _, jobState_failDevice _⟩
  case held => exact ⟨_, execTrefHoldExpiry_not_over ho, rfl⟩
  case expired =>
    exact ⟨_, execTrefHoldExpiry_over ho, devState_failDevice _, jobState_failDevice _, mtcState_failDevice _,
      ((same_advance s t).trans (same_failDevice _)).mono (by simp)⟩
  case holdover =>
    have hne : mtcState (advance s t) ≠ 0 := by rw [mtcState_advance, h3]; decide
    refine ⟨_, execHoldoverExpiry_over h3 hover, mtcState_mtcMove _ _ (by decide), rd_discipline_mtcMove_free hne, ?_,
      (regsOutside_advance s t).trans (regsOutside_mtcMove _ _), ((same_advance s t).trans (same_mtcMove _ _)).mono (by simp)⟩
    rw [mtcMove_other hne]
    exact (mtcEvent_stateNotice _ (.inl rfl)).1
  case eligible =>
    exact ⟨_, execHoldEligible_met h600, rdB_wrB_same _ _ _ _ (by decide), regsBut_wrB _ _ _ _, same_wr _ _ _⟩
end

section
/-! The wired time reference (R42 to R44, R48, R52): messages, edges, a measured offset, missing edges, and O10. -/

namespace Sys2Proof.Machine

/-! ### TTOD messages -/

/-- The test that `ttodMessage` makes of a message is `TtodValid` (R42). -/
def ttodOk (s : State) (t : W64) (msg : BitVec 160) : Bool :=
  let b := leBytes 20 msg.toNat
  let inWindow := match s.mtcx.lastEdge with
    | some e => decide (e + 256 * 100000000 ≤ 256 * (t.toNat : Int)) && decide (256 * (t.toNat : Int) ≤ e + 256 * 900000000)
    | none => false
  decide (leAt b 0 3 = 0x015AA5) && decide (leAt b 15 1 = 0) && decide (crc32c (b.take 16) = BitVec.ofNat 32 (leAt b 16 4)) && inWindow

theorem ttodOk_iff (s : State) (t : W64) (msg : BitVec 160) : ttodOk s t msg = true ↔ TtodValid s t msg := by
  unfold ttodOk TtodValid
  cases s.mtcx.lastEdge <;> simp [and_assoc]

/-- The second that a message names, in its bytes 4 to 11 (R41). -/
def ttodSecond (msg : BitVec 160) : W64 := BitVec.ofNat 64 (leAt (leBytes 20 msg.toNat) 4 8)

/-- A valid message is recorded, and its second is expected (R42). -/
def ttodRecorded (s : State) (t : W64) (msg : BitVec 160) : State :=
  let b := leBytes 20 msg.toNat
  let s := wr s (mtc 0x40) (ttodSecond msg)
  let s := wr s (mtc 0x48) (BitVec.ofNat 64 (leAt b 3 1 + 2 ^ 8 * leAt b 12 2 + 2 ^ 24 * leAt b 14 1))
  let s := wrB s (mtc 8) 4 true
  { s with mtcx := { s.mtcx with lastTod := some t, pendingSec := some (ttodSecond msg) } }

/-- A recorded message is compared with the count: one that disagrees is counted, and the second of two that disagree alike is an
event and ends DISCIPLINED (R42, entry 105). -/
def ttodCompared (s : State) (t : W64) (sc : W64) : State :=
  let diff : Int := (sc.toNat : Int) - (t.toNat / sec + 1 : Nat)
  if diff = 0 then { s with mtcx := { s.mtcx with mismatch := none } }
  else
    let s := upd s (mtc 0x50) (fun w => satIncFld w 16 16)
    if s.mtcx.mismatch = some diff then
      let s := mtcEvent s 1
      if mtcState s = 2 then mtcMove s 1 else s
    else
      let held := mtcState s = 2 || mtcState s = 3
      { s with mtcx := { s.mtcx with mismatch := some diff, pendingSec := if held then none else some sc } }

theorem ttodMessage_wired {s : State} {t : W64} (msg : BitVec 160) (h : mtcSource s = 1) :
    ttodMessage s t msg = if ttodOk (advance s t) t msg then ttodCompared (ttodRecorded (advance s t) t msg) t (ttodSecond msg)
      else upd (advance s t) (mtc 0x50) (fun w => satIncFld w 0 16) := by
  have hsrc : ¬ mtcSource (advance s t) ≠ 1 := by rw [mtcSource_advance, h]; decide
  have hok : ∀ a b : State, (if ttodOk (advance s t) t msg then a else b) = if (!ttodOk (advance s t) t msg) then b else a := by
    intro a b
    cases ttodOk (advance s t) t msg <;> rfl
  rw [hok]
  unfold ttodMessage
  exact if_neg hsrc

theorem RegsBut.comp {ks : List Nat} {s t u : State} (h : RegsBut ks s t) (g : RegsBut ks t u) : RegsBut ks s u :=
  fun k hk => (g k hk).trans (h k hk)

/-- What a comparison leaves: the second, the message's moment, TTOD_OK, and everything outside the MTC block. -/
structure TodKept (s u : State) : Prop where
  regs : RegsBut ([mtc 8, mtc 0x18, mtc 0x50, mtc 0x58, mtc 0x60, mtc 0x68] ++ noticeKeys) s u
  todOk : rdB u (mtc 8) 4 = rdB s (mtc 8) 4
  lastTod : u.mtcx.lastTod = s.mtcx.lastTod
  same : Same [.regs, .port, .mtcx] s u

theorem TodKept.trans {s t u : State} (h : TodKept s t) (g : TodKept t u) : TodKept s u where
  regs := h.regs.comp g.regs
  todOk := g.todOk.trans h.todOk
  lastTod := g.lastTod.trans h.lastTod
  same := (h.same.trans g.same).mono (by simp)

theorem todKept_mtcx (s : State) (x : MtcX) (h : x.lastTod = s.mtcx.lastTod) : TodKept s { s with mtcx := x } where
  regs := (regsBut_mtcx s x).mono (by simp)
  todOk := (regsBut_mtcx s x).rdB (by simp) _
  lastTod := h
  same := (same_mtcx s x).mono (by simp)

theorem todKept_count (s : State) (f : W64 → W64) : TodKept s (upd s (mtc 0x50) f) where
  regs := (regsBut_upd s _ f).mono (by simp)
  todOk := (regsBut_upd s _ f).rdB (by decide) _
  lastTod := rfl
  same := (same_wr s _ _).mono (by simp)

theorem todKept_mtcEvent (s : State) (i : Nat) : TodKept s (mtcEvent s i) where
  regs := (regsBut_mtcEvent s i).mono (by simp +contextual)
  todOk := (regsBut_mtcEvent s i).rdB (by decide) _
  lastTod := congrArg MtcX.lastTod (same_mtcEvent s i .mtcx (by decide))
  same := (same_mtcEvent s i).mono (by simp)

theorem todKept_mtcMove (s : State) (st : Nat) : TodKept s (mtcMove s st) where
  regs := (regsBut_mtcMove s st).mono (by simp +contextual)
  todOk := rdB_status_mtcMove s st (by decide) (by decide)
  lastTod := lastTod_mtcMove s st
  same := same_mtcMove s st

theorem todKept_ttodCompared (s : State) (t sc : W64) : TodKept s (ttodCompared s t sc) := by
  unfold ttodCompared
  extract_lets diff x a b held y
  split
  · exact todKept_mtcx s _ rfl
  · have ha : TodKept s a := todKept_count s _
    split
    · have hb : TodKept s b := ha.trans (todKept_mtcEvent a 1)
      split
      · exact hb.trans (todKept_mtcMove b 1)
      · exact hb
    · exact ha.trans (todKept_mtcx a _ rfl)

theorem regsBut_ttodRecorded (s : State) (t : W64) (msg : BitVec 160) :
    RegsBut [mtc 0x40, mtc 0x48, mtc 8] s (ttodRecorded s t msg) :=
  (((regsBut_wr s _ _).trans (regsBut_wr _ _ _)).trans (regsBut_wrB _ _ 4 true)).trans (regsBut_mtcx _ _)

theorem rd_second_ttodRecorded (s : State) (t : W64) (msg : BitVec 160) : rd (ttodRecorded s t msg) (mtc 0x40) = ttodSecond msg := by
  unfold ttodRecorded
  extract_lets b x y z
  have hy : RegsBut [mtc 0x48, mtc 8] x z := (regsBut_wr x _ _).trans (regsBut_wrB y _ 4 true)
  exact ((regsBut_mtcx z _ _ (by simp)).trans (hy _ (by decide))).trans (rd_wr_same s _ _)

theorem rdB_todOk_ttodRecorded (s : State) (t : W64) (msg : BitVec 160) : rdB (ttodRecorded s t msg) (mtc 8) 4 = true := by
  unfold ttodRecorded
  extract_lets b x y z
  exact ((regsBut_mtcx z _).rdB (by simp) 4).trans (rdB_wrB_same y _ _ _ (by decide))

theorem same_ttodRecorded (s : State) (t : W64) (msg : BitVec 160) : Same [.regs, .mtcx] s (ttodRecorded s t msg) :=
  ((((same_wr s _ _).trans (same_wr _ _ _)).trans (same_wr _ _ _)).trans (same_mtcx _ _)).mono (by simp)

theorem ttodMessage_runs {s : State} (t : W64) (msg : BitVec 160) (h : mtcSource s = 1) :
    Runs (.ttodMessage t msg) s (fun u =>
      (TtodValid s t msg → rd u (mtc 0x40) = BitVec.ofNat 64 (leAt (leBytes 20 msg.toNat) 4 8) ∧ rdB u (mtc 8) 4 = true
        ∧ u.mtcx.lastTod = some t)
      ∧ (¬ TtodValid s t msg →
        rd u (mtc 0x50) = satIncFld (rd (advance s t) (mtc 0x50)) 0 16 ∧ RegsBut [mtc 0x50] (advance s t) u)
      ∧ RegsOutside (mtc 0) (mtc 0x80) s u ∧ Same [.regs, .port, .mtcx] s u) := by
  have hok : ttodOk (advance s t) t msg = true ↔ TtodValid s t msg := by
    rw [ttodOk_iff]
    unfold TtodValid
    rw [lastEdge_advance]
  refine ⟨ttodMessage s t msg, rfl, ?_⟩
  rw [ttodMessage_wired msg h]
  by_cases hv : TtodValid s t msg
  · rw [if_pos (hok.2 hv)]
    generalize hr : ttodRecorded (advance s t) t msg = r
    have hreg : RegsBut [mtc 0x40, mtc 0x48, mtc 8] (advance s t) r := hr ▸ regsBut_ttodRecorded _ t msg
    have hsame : Same [.regs, .mtcx] (advance s t) r := hr ▸ same_ttodRecorded _ t msg
    have hk := todKept_ttodCompared r t (ttodSecond msg)
    refine ⟨fun _ => ⟨?_, ?_, ?_⟩, fun hn => absurd hv hn, ?_, ?_⟩
    · rw [hk.regs _ (by decide), ← hr, rd_second_ttodRecorded, ttodSecond]
    · rw [hk.todOk, ← hr, rdB_todOk_ttodRecorded]
    · rw [hk.lastTod, ← hr]
      rfl
    · exact (regsOutside_advance s t).trans ((hreg.outside (by decide)).trans (hk.regs.outside (by decide)))
    · exact (((same_advance s t).trans hsame).trans hk.same).mono (by simp)
  · rw [if_neg (fun e => hv (hok.1 e))]
    have hreg : RegsBut [mtc 0x50] (advance s t) (upd (advance s t) (mtc 0x50) (fun w => satIncFld w 0 16)) := regsBut_upd _ _ _
    exact ⟨fun e => absurd e hv, fun _ => ⟨rd_wr_same _ _ _, hreg⟩,
      (regsOutside_advance s t).trans (hreg.outside (by decide)), ((same_advance s t).trans (same_wr _ _ _)).mono (by simp)⟩

/-! ### Using a measured offset -/

/-- The registers that the MTC may change as it uses a measured offset. -/
def edgeKeys : List Nat := [mtc 0, mtc 8, mtc 0x18, mtc 0x58, mtc 0x60, mtc 0x68] ++ noticeKeys

/-- What the MTC does with a measured offset leaves: the offset and the edge that MTC_OFFSET and MTC_TPPS_LAST hold, TPPS_OK, the
registers outside the MTC block, and every part of the state but `ps`. -/
structure EdgeKept (ps : List Part) (s u : State) : Prop where
  regs : RegsBut edgeKeys s u
  ppsOk : rdB u (mtc 8) 3 = rdB s (mtc 8) 3
  same : Same ps s u

theorem EdgeKept.refl (ps : List Part) (s : State) : EdgeKept ps s s := ⟨RegsBut.refl _ _, rfl, Same.refl _ _⟩

theorem EdgeKept.trans {a b : List Part} {s t u : State} (h : EdgeKept a s t) (g : EdgeKept b t u) : EdgeKept (a ++ b) s u where
  regs := h.regs.comp g.regs
  ppsOk := g.ppsOk.trans h.ppsOk
  same := h.same.trans g.same

theorem EdgeKept.mono {a b : List Part} {s u : State} (h : EdgeKept a s u) (g : ∀ p, p ∈ a → p ∈ b) : EdgeKept b s u :=
  ⟨h.regs, h.ppsOk, h.same.mono g⟩

/-- An update that leaves the registers leaves the edge. -/
theorem EdgeKept.of_same {ps : List Part} {s u : State} (h : Same ps s u) (hr : u.regs = s.regs) : EdgeKept ps s u where
  regs := (regsBut_of_regs hr).mono (by simp)
  ppsOk := (regsBut_of_regs hr).rdB (by simp) _
  same := h

theorem edgeKept_mtcx (s : State) (x : MtcX) : EdgeKept [.mtcx] s { s with mtcx := x } := .of_same (same_mtcx s x) rfl

theorem edgeKept_runsReset (s : State) : EdgeKept [.mtcx] s (runsReset s) := edgeKept_mtcx s _

theorem edgeKept_wr (s : State) {k : Nat} (v : W64) (hk : k ∈ edgeKeys) (h8 : mtc 8 ≠ k) : EdgeKept [.regs] s (wr s k v) where
  regs := (regsBut_wr s k v).mono (by simpa using hk)
  ppsOk := (regsBut_wr s k v).rdB (by simpa using h8) _
  same := same_wr s k v

theorem edgeKept_statusBit (s : State) {i : Nat} (b : Bool) (hi : i ≠ 3) : EdgeKept [.regs] s (wrB s (mtc 8) i b) where
  regs := (regsBut_wrB s _ i b).mono (by simp [edgeKeys])
  ppsOk := rdB_wrB_ne s _ b (Ne.symm hi)
  same := same_wr s _ _

theorem edgeKept_statusField (s : State) {lo len : Nat} (v : Nat) (h : 3 < lo) : EdgeKept [.regs] s (wrF s (mtc 8) lo len v) where
  regs := (regsBut_wrF s _ lo len v).mono (by simp [edgeKeys])
  ppsOk := rdB_wrF_out s _ v (.inl h)
  same := same_wr s _ _

theorem edgeKept_mtcEvent (s : State) (i : Nat) : EdgeKept [.regs, .port] s (mtcEvent s i) where
  regs := (regsBut_mtcEvent s i).mono (by simp +contextual [edgeKeys])
  ppsOk := (regsBut_mtcEvent s i).rdB (by decide) _
  same := same_mtcEvent s i

theorem edgeKept_mtcMove (s : State) (st : Nat) : EdgeKept [.regs, .port, .mtcx] s (mtcMove s st) where
  regs := (regsBut_mtcMove s st).mono (by simp +contextual [edgeKeys])
  ppsOk := rdB_status_mtcMove s st (by decide) (by decide)
  same := same_mtcMove s st

/-- The rate and the error estimate that a measurement leaves, drawn from the free values (entry 16). -/
def rateLearnt (s : State) : State :=
  wrF (wr (drawWord (drawWord (drawWord s).2).2).2 (mtc 0x18)
    (BitVec.ofInt 64 (((drawWord s).1.toNat % 219902325 : Nat) - 109951162))) (mtc 8) 16 16 (drawWord (drawWord s).2).1.toNat

/-- MTC_TREF_PPB and TREF_OK follow the rate (R39). -/
def ppbLearnt (s : State) (rate : Int) (free : Nat) : State :=
  let s := wr s (mtc 0x60) (BitVec.ofInt 64 (trefPpb rate free))
  wrB s (mtc 8) 2 (s.mtcx.trefLostAt.isNone && trefNear s)

theorem learn_eq (s : State) : learn s = if mtcState (rateLearnt s) = 2 || mtcState (rateLearnt s) = 3 then
    ppbLearnt (rateLearnt s) (((drawWord s).1.toNat % 219902325 : Nat) - 109951162) (drawWord (drawWord (drawWord s).2).2).1.toNat
  else rateLearnt s := rfl

theorem edgeKept_drawWord (s : State) : EdgeKept [.freeIx] s (drawWord s).2 := .of_same (same_freeIx s _) rfl

theorem edgeKept_rateLearnt (s : State) : EdgeKept [.regs, .freeIx] s (rateLearnt s) := by
  have h0 := ((edgeKept_drawWord s).trans (edgeKept_drawWord _)).trans (edgeKept_drawWord (drawWord (drawWord s).2).2)
  unfold rateLearnt
  generalize (drawWord (drawWord (drawWord s).2).2).2 = d at h0 ⊢
  exact ((h0.trans (edgeKept_wr d (k := mtc 0x18) _ (by simp [edgeKeys]) (by decide))).trans (edgeKept_statusField _ _ (by decide))).mono (by simp)

theorem edgeKept_ppbLearnt (s : State) (rate : Int) (free : Nat) : EdgeKept [.regs] s (ppbLearnt s rate free) :=
  ((edgeKept_wr s (k := mtc 0x60) _ (by simp [edgeKeys]) (by decide)).trans (edgeKept_statusBit _ _ (by decide))).mono (by simp)

theorem edgeKept_learn (s : State) : EdgeKept [.regs, .freeIx] s (learn s) := by
  rw [learn_eq]
  split
  · exact ((edgeKept_rateLearnt s).trans (edgeKept_ppbLearnt _ _ _)).mono (by simp)
  · exact edgeKept_rateLearnt s

theorem same_shiftParts (s : State) (f : W64 → W64) : Same [.port, .job, .dev, .power, .depot, .ueTimes] s (shiftParts s f) :=
  (((((same_port s (shiftParts s f).port).trans (same_job _ (shiftParts s f).job)).trans (same_dev _ (shiftParts s f).dev)).trans
    (same_power _ (shiftParts s f).power)).trans (same_depot _ (shiftParts s f).depot)).trans (same_ueTimes _ (shiftParts s f).ueTimes)

theorem same_shiftTimers (s : State) (d : Int) :
    Same [.port, .job, .dev, .power, .depot, .ueTimes, .mtcx, .cw] s (shiftTimers s d) := by
  have h := same_shiftParts s (fun w => BitVec.ofInt 64 (w.toNat + d))
  exact (h.trans (same_mtcx _ (shiftTimers s d).mtcx)).trans (same_cw _ (shiftTimers s d).cw)

/-- The parts of the state that hold moments, which a step moves (R52). -/
def timedParts : List Part := [.regs, .port, .mtcx, .job, .dev, .cw, .power, .depot, .ueTimes]

theorem edgeKept_mtcStep (s : State) (off : Int) : EdgeKept timedParts s (mtcStep s off) := by
  unfold mtcStep
  extract_lets d a b
  have h1 : EdgeKept _ s a := .of_same (same_shiftTimers s d) (same_shiftTimers s d .regs (by decide))
  have h2 := (h1.trans (edgeKept_wr a (k := mtc 0) _ (by simp [edgeKeys]) (by decide))).trans (edgeKept_mtcx b { b.mtcx with stepDue := none })
  exact ((h2.trans (edgeKept_statusBit _ false (by decide))).trans (edgeKept_mtcEvent _ 2)).mono (by simp [timedParts])

/-- A measured offset is shown and learnt from; FREE and HOLDOVER go to ACQUIRING (R48). -/
def offsetTaken (s : State) (off : Int) : State :=
  learn (wr (if mtcState s = 0 || mtcState s = 3 then mtcMove s 1 else s) (mtc 0x20) (BitVec.ofInt 64 off))

/-- What a measurement does: it steps the count by an offset that is too large to slew, where no job runs in it, or it leaves the
count's moments (R48, R52, R53). -/
theorem measure_cases (s : State) (off : Int) (g b : State → Bool) :
    (jobLive (offsetTaken s off) = false ∧ 256 * 1000000 < off.natAbs
      ∧ measure s off g b = mtcStep (runsReset (offsetTaken s off)) off)
    ∨ EdgeKept [.regs, .port, .mtcx] (offsetTaken s off) (measure s off g b) := by
  generalize hu : measure s off g b = u
  unfold measure at hu
  extract_lets s0 s1 s2 x2 x1 s3 x3 s4 s5 at hu
  change (jobLive s2 = false ∧ _ ∧ u = mtcStep s2 off) ∨ EdgeKept _ s1 u
  split at hu
  · split at hu
    · split at hu <;> subst hu
      · right
        exact (((edgeKept_runsReset s1).trans (edgeKept_mtcx s2 _)).trans (edgeKept_statusBit _ true (by decide))).mono (by simp)
      · rename_i hoff hlive
        exact .inl ⟨by simpa using hlive, hoff, rfl⟩
    · right
      have h3 : EdgeKept [.mtcx, .regs] s1 s3 := (edgeKept_mtcx s1 _).trans (edgeKept_statusBit _ false (by decide))
      split at hu
      · have h4 : EdgeKept _ s1 s4 := h3.trans (edgeKept_mtcx s3 _)
        split at hu <;> subst hu
        · exact (h4.trans (edgeKept_mtcMove s4 2)).mono (by simp)
        · exact h4.mono (by simp)
      · subst hu
        exact (h3.trans (edgeKept_runsReset s3)).mono (by simp)
  · right
    split at hu
    · have h5 : EdgeKept _ s1 s5 := edgeKept_mtcx s1 _
      split at hu <;> subst hu
      · exact (h5.trans (edgeKept_mtcMove s5 1)).mono (by simp)
      · exact h5.mono (by simp)
    · subst hu
      exact (edgeKept_runsReset s1).mono (by simp)

/-- The offset is the value of MTC_OFFSET, and the edge stands as it was. -/
theorem offsetTaken_shows (s : State) (off : Int) :
    rd (offsetTaken s off) (mtc 0x20) = BitVec.ofInt 64 off ∧ rd (offsetTaken s off) (mtc 0x78) = rd s (mtc 0x78)
      ∧ rdB (offsetTaken s off) (mtc 8) 3 = rdB s (mtc 8) 3
      ∧ RegsOutside (mtc 0) (mtc 0x80) s (offsetTaken s off) ∧ Same [.regs, .port, .mtcx, .freeIx] s (offsetTaken s off) := by
  unfold offsetTaken
  generalize hm : (if mtcState s = 0 || mtcState s = 3 then mtcMove s 1 else s) = m
  have h1 : EdgeKept [.regs, .port, .mtcx] s m := by
    rw [← hm]
    split
    · exact edgeKept_mtcMove s 1
    · exact EdgeKept.refl _ _
  have hw : RegsBut [mtc 0x20] m (wr m (mtc 0x20) (BitVec.ofInt 64 off)) := regsBut_wr _ _ _
  have h2 := edgeKept_learn (wr m (mtc 0x20) (BitVec.ofInt 64 off))
  refine ⟨?_, ?_, ?_, ?_, ((h1.same.trans (same_wr m _ _)).trans h2.same).mono (by simp)⟩
  · rw [h2.regs _ (by decide), rd_wr_same]
  · rw [h2.regs _ (by decide), hw _ (by decide), h1.regs _ (by decide)]
  · rw [h2.ppsOk, hw.rdB (by decide), h1.ppsOk]
  · exact (h1.regs.outside (by decide)).trans ((hw.outside (by decide)).trans (h2.regs.outside (by decide)))

/-- A measurement shows its offset, leaves the edge, and moves what the model times only where it steps. -/
theorem measure_shows (s : State) (off : Int) (g b : State → Bool) :
    rd (measure s off g b) (mtc 0x20) = BitVec.ofInt 64 off ∧ rd (measure s off g b) (mtc 0x78) = rd s (mtc 0x78)
      ∧ rdB (measure s off g b) (mtc 8) 3 = rdB s (mtc 8) 3
      ∧ RegsOutside (mtc 0) (mtc 0x80) s (measure s off g b)
      ∧ (jobLive s = true ∨ off.natAbs ≤ 256 * 1000000 → Same [.regs, .port, .mtcx, .freeIx] s (measure s off g b))
      ∧ Same (.freeIx :: timedParts) s (measure s off g b) := by
  obtain ⟨hoff, hedge, hok, hout, hsame⟩ := offsetTaken_shows s off
  have hjob : (offsetTaken s off).job = s.job := hsame .job (by decide)
  have finish : ∀ {ps : List Part} {u : State}, EdgeKept ps (offsetTaken s off) u → ps ⊆ timedParts →
      rd u (mtc 0x20) = BitVec.ofInt 64 off ∧ rd u (mtc 0x78) = rd s (mtc 0x78) ∧ rdB u (mtc 8) 3 = rdB s (mtc 8) 3
        ∧ RegsOutside (mtc 0) (mtc 0x80) s u ∧ Same (.freeIx :: timedParts) s u := by
    intro ps u hk hps
    refine ⟨?_, ?_, ?_, hout.trans (hk.regs.outside (by decide)), ?_⟩
    · rw [hk.regs _ (by decide), hoff]
    · rw [hk.regs _ (by decide), hedge]
    · rw [hk.ppsOk, hok]
    · refine (hsame.trans (hk.same.mono (b := timedParts) hps)).mono ?_
      simp [timedParts]
  rcases measure_cases s off g b with ⟨hlive, hbig, hu⟩ | hk
  · have hstep := (edgeKept_runsReset (offsetTaken s off)).trans (edgeKept_mtcStep _ off)
    rw [← hu] at hstep
    obtain ⟨h1, h2, h3, h4, h6⟩ := finish hstep (by simp [timedParts])
    refine ⟨h1, h2, h3, h4, fun h => ?_, h6⟩
    rcases h with h | h
    · unfold jobLive at hlive h
      rw [hjob, h] at hlive
      exact absurd hlive (by decide)
    · omega
  · obtain ⟨h1, h2, h3, h4, h6⟩ := finish hk (by simp [timedParts])
    exact ⟨h1, h2, h3, h4, fun _ => (hsame.trans hk.same).mono (by simp), h6⟩

/-! ### Edges -/

/-- An edge that is used: MTC_TPPS_LAST and TPPS_OK show it, and it is the last one (R43). -/
def edgeTaken (s : State) (t : W64) : State :=
  let ts := ppsTime s t
  let s := wrB (wr s (mtc 0x78) t) (mtc 8) 3 true
  let base := if mtcState s = 2 || mtcState s = 3 then nearestSecond ts else ts
  { s with mtcx := { s.mtcx with missing := 0, pendingSec := none, lastEdge := some ts, edgeBase := some base } }

/-- The offset of an edge from the second expected of it (R44). -/
def edgeOffset (s : State) (t n : W64) : Int := 256 * (sec * n.toNat : Nat) - ppsTime s t

theorem tppsEdge_used {s : State} {t : W64} (hsrc : mtcSource s = 1)
    (h : mtcState s ≤ 1 ∨ secondOffset (ppsTime (advance s t) t) ≤ 256 * 100000) :
    tppsEdge s t = match s.mtcx.pendingSec with
      | some n => measure (edgeTaken (advance s t) t) (edgeOffset (advance s t) t n) (fun s => decide (4 ≤ s.mtcx.good))
          (fun s => decide (2 ≤ s.mtcx.bad))
      | none => runsReset (edgeTaken (advance s t) t) := by
  have hsrc : ¬ mtcSource (advance s t) ≠ 1 := by rw [mtcSource_advance, hsrc]; decide
  have hnear : ¬ (((mtcState (advance s t) = 2 || mtcState (advance s t) = 3)
      && decide (256 * 100000 < secondOffset (ppsTime (advance s t) t))) = true) := by
    rw [mtcState_advance]
    simp only [Bool.and_eq_true, Bool.or_eq_true, decide_eq_true_eq]
    omega
  rw [← pendingSec_advance s t]
  unfold tppsEdge
  exact (if_neg hsrc).trans (if_neg hnear)

theorem regsBut_edgeTaken (s : State) (t : W64) : RegsBut [mtc 0x78, mtc 8] s (edgeTaken s t) :=
  ((regsBut_wr s _ _).trans (regsBut_wrB _ _ 3 true)).trans (regsBut_mtcx _ _)

theorem same_edgeTaken (s : State) (t : W64) : Same [.regs, .mtcx] s (edgeTaken s t) :=
  (((same_wr s _ _).trans (same_wr _ _ _)).trans (same_mtcx _ _)).mono (by simp)

theorem edgeTaken_shows (s : State) (t : W64) : rd (edgeTaken s t) (mtc 0x78) = t ∧ rdB (edgeTaken s t) (mtc 8) 3 = true := by
  unfold edgeTaken
  extract_lets ts a base
  have ha : rd a (mtc 0x78) = t := by
    unfold a
    rw [regsBut_wrB _ (mtc 8) 3 true _ (by decide), rd_wr_same]
  exact ⟨(regsBut_mtcx a _ _ (by simp)).trans ha, ((regsBut_mtcx a _).rdB (by simp) 3).trans (rdB_wrB_same _ _ _ _ (by decide))⟩

theorem tppsEdge_runs {s : State} {t : W64} (hsrc : mtcSource s = 1)
    (h : mtcState s ≤ 1 ∨ secondOffset (256 * (t.toNat : Int) - (rdF s (mtc 0x28) 0 24 : Int)) ≤ 256 * 100000) :
    Runs (.tppsEdge t) s (fun u =>
        rd u (mtc 0x78) = t ∧ rdB u (mtc 8) 3 = true
        ∧ (∀ n, s.mtcx.pendingSec = some n → rd u (mtc 0x20) =
            BitVec.ofInt 64 (256 * (sec * n.toNat : Nat) - (256 * (t.toNat : Int) - (rdF s (mtc 0x28) 0 24 : Int))))
        ∧ RegsOutside (mtc 0) (mtc 0x80) s u
        ∧ ((jobLive s = true ∨ ∀ n, s.mtcx.pendingSec = some n →
            (256 * (sec * n.toNat : Nat) - (256 * (t.toNat : Int) - (rdF s (mtc 0x28) 0 24 : Int))).natAbs ≤ 256 * 1000000) →
          Same [.regs, .port, .mtcx, .freeIx] s u)
        ∧ Same [.regs, .port, .mtcx, .job, .dev, .cw, .power, .depot, .ueTimes, .freeIx] s u) := by
  have hts : ppsTime (advance s t) t = 256 * (t.toNat : Int) - (rdF s (mtc 0x28) 0 24 : Int) := by
    unfold ppsTime
    rw [(regsBut_advance s t).rdF (by decide)]
  rw [← hts] at h ⊢
  generalize he : edgeTaken (advance s t) t = e
  obtain ⟨hedge, hok⟩ := edgeTaken_shows (advance s t) t
  have hout : RegsOutside (mtc 0) (mtc 0x80) s e :=
    he ▸ (regsOutside_advance s t).trans ((regsBut_edgeTaken _ t).outside (by decide))
  have hsame : Same [.regs, .mtcx] s e := he ▸ ((same_advance s t).trans (same_edgeTaken _ t)).mono (by simp)
  have hlive : jobLive e = jobLive s := by
    unfold jobLive
    rw [show e.job = s.job from hsame .job (by decide)]
  refine ⟨tppsEdge s t, rfl, ?_⟩
  rw [tppsEdge_used hsrc h, he]
  rw [he] at hedge hok
  cases hp : s.mtcx.pendingSec with
  | none =>
    have hr := edgeKept_runsReset e
    dsimp only
    refine ⟨?_, ?_, fun n hn => absurd hn (by simp), hout.trans (hr.regs.outside (by decide)), fun _ => ?_, ?_⟩
    · rw [hr.regs _ (by decide), hedge]
    · rw [hr.ppsOk, hok]
    · exact (hsame.trans hr.same).mono (by simp)
    · exact (hsame.trans hr.same).mono (by simp)
  | some n =>
    dsimp only
    obtain ⟨hoff, hedge', hok', hout', hquiet, hall⟩ := measure_shows e (edgeOffset (advance s t) t n)
      (fun s => decide (4 ≤ s.mtcx.good)) (fun s => decide (2 ≤ s.mtcx.bad))
    refine ⟨hedge'.trans hedge, hok'.trans hok, fun m hm => ?_, hout.trans hout', fun hj => ?_, ?_⟩
    · obtain rfl : n = m := by simpa using hm
      exact hoff
    · have hj' : jobLive e = true ∨ (edgeOffset (advance s t) t n).natAbs ≤ 256 * 1000000 := by
        rw [hlive]
        exact hj.imp_right (fun hn => hn n rfl)
      exact (hsame.trans (hquiet hj')).mono (by simp)
    · exact (hsame.trans hall).mono (by simp [timedParts])

/-! ### Missing edges and the silence of TTOD -/

theorem execTppsMissing_none {s : State} {t : W64} (h : edgeMissing (advance s t) t = none) :
    exec (.tppsMissing t) s = .next (advance s t) := by
  show execTppsMissing t s = _
  simp [execTppsMissing, h]

theorem execTppsMissing_some {s : State} {t : W64} {base : Int} (hsrc : mtcSource s = 1)
    (h : edgeMissing (advance s t) t = some base) : exec (.tppsMissing t) s = .next (missEdge (advance s t) base) := by
  show execTppsMissing t s = _
  simp [execTppsMissing, h, mtcSource_advance, hsrc]

theorem lt_nearestSecond_add (b : Int) : b < nearestSecond b + 256 * sec := by
  unfold nearestSecond sec
  omega

/-- A second that is missing is not the one that was last accepted or counted. -/
theorem edgeMissing_ne_base {s : State} {t : W64} {base : Int} (h : edgeMissing s t = some base) : s.mtcx.edgeBase ≠ some base := by
  intro hb
  have hlt := lt_nearestSecond_add base
  unfold edgeMissing at h
  rw [hb] at h
  by_cases h23 : mtcState s = 2 ∨ mtcState s = 3
  · simp only [h23, if_true] at h
    split at h
    · have hn : nearestSecond base + 256 * (sec : Int) = base := by simpa using h
      omega
    · exact absurd h (by simp)
  · by_cases h1 : mtcState s = 1
    · simp only [h1, Nat.reduceEqDiff, or_self, if_false, if_true, Option.map_some] at h
      split at h
      · have hn : base + 256 * (sec : Int) = base := by simpa using h
        unfold sec at hn
        omega
      · exact absurd h (by simp)
    · simp [h23, h1] at h

/-- The missing edge is counted, and no run goes on over it (R43, R48). -/
def missCounted (s : State) (n : Nat) (base : Int) : State :=
  let s := wrB (upd s (mtc 0x50) (fun w => satIncFld w 32 16)) (mtc 8) 3 false
  runsReset { s with mtcx := { s.mtcx with missing := n, edgeBase := some base } }

theorem missEdge_eq (s : State) (base : Int) : missEdge s base =
    let first := decide (s.mtcx.edgeBase ≠ some base)
    let n := if first then s.mtcx.missing + 1 else s.mtcx.missing
    if first && decide (2 ≤ n) then sourceLost (missCounted s n base) else missCounted s n base := rfl

/-- The second missing edge in a row, and each after it, loses the source (R43). -/
theorem missEdge_first {s : State} {base : Int} (h : s.mtcx.edgeBase ≠ some base) :
    missEdge s base = if s.mtcx.missing = 0 then missCounted s (s.mtcx.missing + 1) base
      else sourceLost (missCounted s (s.mtcx.missing + 1) base) := by
  have h2 : 2 ≤ s.mtcx.missing + 1 ↔ ¬ s.mtcx.missing = 0 := by omega
  rw [missEdge_eq]
  simp only [decide_eq_true h, if_true, Bool.true_and, decide_eq_true_eq, h2, ite_not]

theorem regsBut_missCounted (s : State) (n : Nat) (base : Int) : RegsBut [mtc 0x50, mtc 8] s (missCounted s n base) :=
  (((regsBut_upd s _ _).trans (regsBut_wrB _ _ 3 false)).trans (regsBut_mtcx _ _)).trans (regsBut_mtcx _ _)

theorem same_missCounted (s : State) (n : Nat) (base : Int) : Same [.regs, .mtcx] s (missCounted s n base) :=
  ((((same_wr s _ _).trans (same_wr _ _ _)).trans (same_mtcx _ _)).trans (same_mtcx _ _)).mono (by simp)

/-- The count of missing edges goes up, TPPS_OK falls, and every other bit of MTC_STATUS stays. -/
theorem missCounted_shows (s : State) (n : Nat) (base : Int) :
    rd (missCounted s n base) (mtc 0x50) = satIncFld (rd s (mtc 0x50)) 32 16
      ∧ ∀ i, i < 64 → rdB (missCounted s n base) (mtc 8) i = if i = 3 then false else rdB s (mtc 8) i := by
  unfold missCounted
  extract_lets a
  have hx : RegsBut [] a (runsReset { a with mtcx := { a.mtcx with missing := n, edgeBase := some base } }) :=
    (regsBut_mtcx a _).trans (regsBut_mtcx _ _)
  constructor
  · rw [hx _ (by simp)]
    unfold a
    rw [regsBut_wrB _ (mtc 8) 3 false _ (by decide)]
    exact rd_wr_same _ _ _
  · intro i hi
    rw [hx.rdB (by simp)]
    unfold a
    split
    next h => rw [h, rdB_wrB_same _ _ _ _ (by decide)]
    next h => rw [rdB_wrB_ne _ _ _ h, (regsBut_upd s _ _).rdB (by decide)]

theorem lostState_missCounted (s : State) (n : Nat) (base : Int) :
    mtcState (missCounted s n base) = mtcState s ∧ lostState (missCounted s n base) = lostState s := by
  obtain ⟨-, hbits⟩ := missCounted_shows s n base
  have hst : mtcState (missCounted s n base) = mtcState s :=
    rdF_eq_of_bits (fun i hi => by rw [hbits _ (by omega), if_neg (by omega)])
  refine ⟨hst, ?_⟩
  unfold lostState
  rw [hst, (regsBut_missCounted s n base).rdB (k := mtc 0x10) (by decide), hbits 6 (by decide), if_neg (show ¬ (6 = 3) by decide)]

theorem tppsMissing_runs {s : State} {t : W64} (hsrc : mtcSource s = 1) (h : edgeMissing (advance s t) t ≠ none) :
    Runs (.tppsMissing t) s (fun u =>
        rd u (mtc 0x50) = satIncFld (rd s (mtc 0x50)) 32 16 ∧ rdB u (mtc 8) 3 = false
        ∧ (mtcState u = if s.mtcx.missing = 0 then mtcState s else lostState (advance s t))
        ∧ RegsOutside (mtc 0) (mtc 0x80) s u ∧ Same [.regs, .port, .mtcx] s u) := by
  obtain ⟨base, hb⟩ := Option.ne_none_iff_exists'.1 h
  refine ⟨_, execTppsMissing_some hsrc hb, ?_⟩
  rw [missEdge_first (edgeMissing_ne_base hb), missing_advance]
  generalize hc : missCounted (advance s t) (s.mtcx.missing + 1) base = c
  obtain ⟨hcount, hbits⟩ := missCounted_shows (advance s t) (s.mtcx.missing + 1) base
  obtain ⟨hst, hlost⟩ := lostState_missCounted (advance s t) (s.mtcx.missing + 1) base
  have hreg := regsBut_missCounted (advance s t) (s.mtcx.missing + 1) base
  have hsame := (same_advance s t).trans (same_missCounted (advance s t) (s.mtcx.missing + 1) base)
  rw [hc] at hcount hbits hst hlost hreg hsame
  rw [rd_advance s t (by decide)] at hcount
  have hpps : rdB c (mtc 8) 3 = false := hbits 3 (by decide)
  have hout : RegsOutside (mtc 0) (mtc 0x80) s c := (regsOutside_advance s t).trans (hreg.outside (by decide))
  split
  · exact ⟨hcount, hpps, hst.trans (mtcState_advance s t), hout, hsame.mono (by simp)⟩
  · refine ⟨?_, ?_, ?_, hout.trans (regsOutside_sourceLost c), (hsame.trans (same_sourceLost c)).mono (by simp)⟩
    · rw [regsBut_sourceLost c _ (by decide), hcount]
    · rw [rdB_status_sourceLost c (by decide) (by decide), hpps]
    · rw [mtcState_sourceLost, hlost]

theorem execTtodTimeout_silent {s : State} {t : W64} (hsrc : mtcSource s = 1)
    (h : ∀ a, s.mtcx.lastTod = some a → a.toNat + 16 * sec ≤ (now (advance s t)).toNat) :
    exec (.ttodTimeout t) s = .next (sourceLost (advance s t)) := by
  show execTtodTimeout t s = _
  cases hl : s.mtcx.lastTod with
  | none => simp [execTtodTimeout, lastTod_advance, hl, mtcSource_advance, hsrc]
  | some a => simp [execTtodTimeout, lastTod_advance, hl, mtcSource_advance, hsrc, h a hl]

end Sys2Proof.Machine

open Sys2Proof Sys2Proof.Machine

/-- Settles O10: messages, used edges, missing edges and a silent TTOD, each by the lemma of its command. -/
theorem wiredTimeReference : Obligations.WiredTimeReference :=
  ⟨fun _ t msg hsrc => ttodMessage_runs t msg hsrc, fun s t hsrc =>
    ⟨tppsEdge_runs hsrc, fun h => ⟨_, execTppsMissing_none h, rfl⟩, tppsMissing_runs hsrc, fun h =>
      ⟨_, execTtodTimeout_silent hsrc h, mtcState_sourceLost _, (regsOutside_advance s t).trans (regsOutside_sourceLost _),
        ((same_advance s t).trans (same_sourceLost _)).mono (by simp)⟩⟩⟩
end

section
/-! In-band time transfer (R45): a request within 2^23 beats of the one before it does not leave, which the statement of O45 leaves
out; a state that has asked a moment ago refutes it. -/

namespace Sys2Proof.Machine

/-- Before the interval of 2^23 beats is over, TIME_TRANSFER_REQUEST only lets the count advance (R45). -/
theorem execTimeTransferRequest_early {s : State} {t a : W64} (hl : s.mtcx.ibLast = some a)
    (h : (now (advance s t)).toNat < a.toNat + 2 ^ 23) : exec (.timeTransferRequest t) s = .next (advance s t) := by
  have hlast : (advance s t).mtcx.ibLast = some a := by rw [mtcx_advance]; exact hl
  show execTimeTransferRequest t s = _
  simp only [execTimeTransferRequest, hlast, decide_eq_false (Nat.not_le.2 h), Bool.and_false, Bool.false_eq_true, if_false]

theorem advance_past {s : State} {t : W64} (h : t.toNat ≤ (now s).toNat) : advance s t = s := if_pos (.inl h)

/-- A flit that joins a queue makes it longer. -/
theorem not_queued_self (s : State) (p kind dst : Nat) (tag : BitVec 16) (pl : BitVec 1792) : ¬ Queued s s p kind dst tag pl := by
  rintro ⟨x, hq, -⟩
  exact absurd hq (by simp)

/-- Port 0 is UP as the in-band source, the group key is there, and the request before has left at count 0, which it still is. -/
def askedNow : State :=
  { State.reset with regs := [(omP 0 0, 2), (gd 0, 8), (mtc 0x10, 2)], mtcx := { State.reset.mtcx with ibLast := some 0 } }

theorem askedNow_meets : mtcSource askedNow = 2 ∧ linkUp askedNow (ibPort askedNow) = true ∧ rdB askedNow (gd 0) 3 = true := by
  decide +kernel

end Sys2Proof.Machine

open Sys2Proof Sys2Proof.Machine

/-- Refutes O45: its first clause has a request leave whenever the in-band source's port is up and the group key is there, but one
that comes before 2^23 beats have passed since the last (R45) does not leave: `askedNow` at count 0. -/
theorem not_inBandTimeTransfer : ¬ Obligations.InBandTimeTransfer := by
  intro h
  have hstay : advance askedNow 0 = askedNow := advance_past (by simp)
  have hrun := (h askedNow 0 0 ⟨0, 0, 0, 0, 0, 0, 0, 0, 0, 0, false, false, 0⟩).1
  rw [hstay] at hrun
  obtain ⟨hsrc, hup, hkey⟩ := askedNow_meets
  obtain ⟨u, hu, ⟨g, hq⟩, -⟩ := hrun hsrc hup hkey
  have hearly : (now (advance askedNow 0)).toNat < (0 : W64).toNat + 2 ^ 23 := by
    rw [hstay]
    decide +kernel
  rw [execTimeTransferRequest_early rfl hearly, hstay] at hu
  obtain rfl : askedNow = u := by simpa using hu
  exact not_queued_self _ _ _ _ _ _ hq
end

section
/-! Supplies and the states of the device (R36, R539 to R542, R545, R546, R559, R561, R567, R568). -/

namespace Sys2Proof.Machine

/-! ### What a restart and a loss of a supply keep -/

/-- A store whose pairs are taken or left by their keys reads as it did, or at the default. -/
theorem Store.get_filter_key {α : Type} (d : Nat → α) (p : Nat → Bool) (k : Nat) (st : Store α) :
    Store.get d (st.filter (fun x => p x.1)) k = if p k then Store.get d st k else d k := by
  induction st with
  | nil => simp [Store.get]
  | cons x st ih =>
    obtain ⟨i, v⟩ := x
    by_cases hk : k = i
    · subst hk
      cases hp : p k <;> simp [hp, Store.get, ih]
    · cases hp : p i <;> simp [hp, Store.get, hk, ih]

/-- The keys of the registers that a restart and a loss of VIN leave (R36, R477, R483, R538). -/
def keptKey (k : Nat) : Bool :=
  (decide (mtc 0 ≤ k) && decide (k < mtc 0x80)) || decide (k = gd 0x18) || decide (k = pw 0 0x1008)
    || (decide (dp 0x40 ≤ k) && decide (k < dp 0x68))

/-- The keys of the registers that a loss of VAUX leaves (R477, R483). -/
def fusedKey (k : Nat) : Bool := decide (k = gd 0x18) || (decide (dp 0x40 ≤ k) && decide (k < dp 0x68))

/-- What every loss of a supply and every restart keeps, and what it empties (R561, R568). -/
def Survives (s u : State) : Prop := u.mem = [] ∧ u.hostMem = s.hostMem ∧ u.pending = s.pending ∧ u.guard.deviceSeed = s.guard.deviceSeed
  ∧ u.guard.gpid = s.guard.gpid ∧ u.guard.operatorHash = s.guard.operatorHash ∧ u.guard.norFw = s.guard.norFw ∧ u.guard.norCfg = s.guard.norCfg
  ∧ u.depot.objects = s.depot.objects ∧ u.hist = s.hist ∧ u.marks = s.marks ∧ rd u (gd 0x18) = rd s (gd 0x18)
  ∧ u.job.state = .idle ∧ u.job.linkKey = 0 ∧ u.signals = [] ∧ u.engines = [] ∧ u.dies = []

/-- A register that a restart leaves reads the same after it. -/
theorem rd_wipe_kept (s : State) {k : Nat} (h : keptKey k = true) (h70 : k ≠ mtc 0x70) : rd (wipe s) k = rd s k :=
  (rd_wr_ne _ h70 _).trans ((Store.get_filter_key regReset keptKey k s.regs).trans (if_pos h))

theorem survives_wipe (s : State) : Survives s (wipe s) :=
  ⟨rfl, rfl, rfl, rfl, rfl, rfl, rfl, rfl, rfl, rfl, rfl, rd_wipe_kept s (by decide) (by decide), rfl, rfl, rfl, rfl, rfl⟩

theorem Survives.of_same {s t u : State} (h : Survives s t) (hs : Same [.regs, .dev, .mgmt, .mtcx] t u)
    (hg : rd u (gd 0x18) = rd t (gd 0x18)) : Survives s u := by
  unfold Survives at h ⊢
  rwa [show u.mem = t.mem from hs .mem (by decide), show u.hostMem = t.hostMem from hs .hostMem (by decide),
    show u.pending = t.pending from hs .pending (by decide), show u.guard = t.guard from hs .guard (by decide),
    show u.depot = t.depot from hs .depot (by decide), show u.hist = t.hist from hs .hist (by decide),
    show u.marks = t.marks from hs .marks (by decide), hg, show u.job = t.job from hs .job (by decide),
    show u.signals = t.signals from hs .signals (by decide), show u.engines = t.engines from hs .engines (by decide),
    show u.dies = t.dies from hs .dies (by decide)]

theorem now_wipe (s : State) : now (wipe s) = now s := rd_wipe_kept s (by decide) (by decide)

theorem mtcState_wipe (s : State) : mtcState (wipe s) = mtcState s := by
  unfold mtcState rdF
  rw [rd_wipe_kept s (by decide) (by decide)]

/-! ### A start begins -/

/-- A start stands at step 1, begun at count `c` (R545, R562). -/
def Begun (c : W64) (u : State) : Prop := u.dev.state = .starting ∧ u.dev.rails = true ∧ rdF u (hp 0x200) 0 4 = 1 ∧ rd u (hp 0x208) = c
  ∧ u.dev.steps = [c]

/-- The device as its start begins. -/
def startDev (s : State) : DevX :=
  { s.dev with state := .starting, rails := true, restarting := false, steps := [now s] }

theorem beginStart_eq (s : State) :
    beginStart s = refreshAlerts (wr (wr { s with dev := startDev s } (hp 0x200) 1) (hp 0x208) (now s)) := rfl

theorem regsBut_beginStart (s : State) : RegsBut [hp 0x200, hp 0x208] s (beginStart s) := by
  have h : RegsBut [hp 0x200, hp 0x208] s (wr (wr { s with dev := startDev s } (hp 0x200) 1) (hp 0x208) (now s)) :=
    (regsBut_wr { s with dev := startDev s } _ _).trans (regsBut_wr _ _ _)
  exact h

theorem dev_beginStart (s : State) : (beginStart s).dev = startDev s := rfl

theorem same_beginStart (s : State) : Same [.regs, .dev, .mgmt] s (beginStart s) :=
  ((((same_dev s (startDev s)).trans (same_wr _ _ _)).trans (same_wr _ _ _)).trans (same_refreshAlerts _)).mono (by simp)

theorem begun_beginStart (s : State) : Begun (now s) (beginStart s) := by
  have h208 : rd (beginStart s) (hp 0x208) = now s := rd_wr_same _ _ _
  have h200 : rd (beginStart s) (hp 0x200) = 1 := (rd_wr_ne _ (by decide) _).trans (rd_wr_same _ _ _)
  refine ⟨rfl, rfl, ?_, h208, rfl⟩
  rw [rdF, h200]
  rfl

/-! ### Supplies -/

section
variable {s : State}

/-- The registers of the MTC as VAUX finds them (R36). -/
def mtcRestarted (s : State) : State :=
  wr (wr (wr (wr (wr s (mtc 0) 0) (mtc 8) (regReset (mtc 8))) (mtc 0x18) 0) (mtc 0x58) 0) (mtc 0x60) 0

theorem regsBut_mtcRestarted (s : State) : RegsBut [mtc 0, mtc 8, mtc 0x18, mtc 0x58, mtc 0x60] s (mtcRestarted s) :=
  ((((regsBut_wr s _ _).trans (regsBut_wr _ _ _)).trans (regsBut_wr _ _ _)).trans (regsBut_wr _ _ _)).trans (regsBut_wr _ _ _)

/-- The count is 0 and the MTC FREE. -/
theorem mtcRestarted_shows (s : State) : now (mtcRestarted s) = 0 ∧ mtcState (mtcRestarted s) = 0 := by
  have h0 : now (mtcRestarted s) = 0 := by
    simp only [now, mtcRestarted]
    rw [rd_wr_ne _ (by decide), rd_wr_ne _ (by decide), rd_wr_ne _ (by decide), rd_wr_ne _ (by decide), rd_wr_same]
  have h8 : rd (mtcRestarted s) (mtc 8) = regReset (mtc 8) := by
    simp only [mtcRestarted]
    rw [rd_wr_ne _ (by decide), rd_wr_ne _ (by decide), rd_wr_ne _ (by decide), rd_wr_same]
  refine ⟨h0, ?_⟩
  rw [mtcState, rdF, h8]
  decide

/-- The package as VAUX comes back (R567). -/
def vauxRestored (serviceHigh : Bool) (s : State) : State :=
  { mtcRestarted s with
    mtcx := State.reset.mtcx
    dev := { s.dev with vaux := true, state := .cold, rails := false, service := !serviceHigh } }

theorem execVauxValid_off (serviceHigh : Bool) (hv : s.dev.vaux = false) :
    exec (.vauxValid serviceHigh) s = .next (vauxRestored serviceHigh s) :=
  congrArg Host.Outcome.next (if_neg (by rw [hv]; decide))

theorem same_mtcRestarted (s : State) : Same [.regs] s (mtcRestarted s) := by
  have h := (((same_wr s (mtc 0) 0).trans (same_wr _ (mtc 8) (regReset (mtc 8)))).trans (same_wr _ (mtc 0x18) 0)).trans
    (same_wr _ (mtc 0x58) 0)
  exact (h.trans (same_wr _ (mtc 0x60) 0)).mono (by simp)

theorem same_mtcx_dev (s : State) (x : MtcX) (d : DevX) : Same [.mtcx, .dev] s { s with mtcx := x, dev := d } :=
  (same_mtcx s x).trans (same_dev _ d)

theorem vauxValid_runs (serviceHigh : Bool) (hv : s.dev.vaux = false) : Runs (.vauxValid serviceHigh) s (fun u =>
    u.dev = { s.dev with vaux := true, state := .cold, rails := false, service := !serviceHigh }
    ∧ now u = 0 ∧ mtcState u = 0 ∧ u.mtcx = State.reset.mtcx ∧ RegsBut [mtc 0, mtc 8, mtc 0x18, mtc 0x58, mtc 0x60] s u
    ∧ Same [.dev, .regs, .mtcx] s u) := by
  obtain ⟨h0, hst⟩ := mtcRestarted_shows s
  have hsame : Same [.mtcx, .dev] (mtcRestarted s) (vauxRestored serviceHigh s) := same_mtcx_dev _ _ _
  have hreg : RegsBut [] (mtcRestarted s) (vauxRestored serviceHigh s) := regsBut_of_regs (hsame .regs (by decide))
  refine ⟨_, execVauxValid_off serviceHigh hv, rfl, ?_, ?_, rfl, ((regsBut_mtcRestarted s).trans hreg).mono (by simp),
    ((same_mtcRestarted s).trans hsame).mono (by simp)⟩
  · rw [now_eq_of_regsBut hreg (by simp), h0]
  · exact (hreg.rdF (by simp) 0 2).trans hst

theorem execRailsInRegulation_begins {t : W64} (hv : s.dev.vaux = true) (hin : s.dev.vin = true) (hsv : s.dev.service = false)
    (hc : s.dev.state = .cold) (h : 1000000 ≤ (now (advance s t)).toNat) :
    exec (.railsInRegulation t) s = .next (beginStart (advance s t)) := by
  show execRailsInRegulation t s = _
  simp [execRailsInRegulation, dev_advance, hv, hin, hsv, hc, h]

theorem execRailsInRegulation_waits {t : W64} (h : s.dev.service = true ∨ (now (advance s t)).toNat < 1000000) :
    exec (.railsInRegulation t) s = .next (advance s t) := by
  show execRailsInRegulation t s = _
  rcases h with h | h
  · simp [execRailsInRegulation, dev_advance, h]
  · simp [execRailsInRegulation, Nat.not_le.2 h]

theorem railsInRegulation_runs {t : W64} (hv : s.dev.vaux = true) (hin : s.dev.vin = true) (hsv : s.dev.service = false)
    (hc : s.dev.state = .cold) (h : 1000000 ≤ (now (advance s t)).toNat) : Runs (.railsInRegulation t) s (fun u =>
      Begun (now (advance s t)) u ∧ RegsBut ([hp 0x200, hp 0x208] ++ [mtc 0, mtc 8, mtc 0x58]) s u
      ∧ Same [.regs, .dev, .mgmt, .mtcx] s u) :=
  ⟨_, execRailsInRegulation_begins hv hin hsv hc h, begun_beginStart _,
    ((regsBut_advance s t).trans (regsBut_beginStart _)).mono (by simp),
    ((same_advance s t).trans (same_beginStart _)).mono (by simp)⟩

/-- The device after a loss of VIN (R568). -/
def vinLost (s : State) : State :=
  refreshAlerts { wipe s with dev := { (wipe s).dev with state := .cold, vin := false, rails := false } }

theorem execVinLoss_running (hv : s.dev.vaux = true) (hc : s.dev.state ≠ .cold) (hk : rdB s (gd 0) 4 = false) :
    exec (.vinLoss) s = .next (vinLost s) := by
  show execVinLoss s = _
  simp [execVinLoss, hv, hc, destroyKeys_without_keys hk, vinLost]

theorem same_vinLost (s : State) : Same [.dev, .mgmt] (wipe s) (vinLost s) := (same_dev (wipe s) _).trans (same_refreshAlerts _)

theorem vinLoss_runs (hv : s.dev.vaux = true) (hc : s.dev.state ≠ .cold) (hk : rdB s (gd 0) 4 = false) : Runs (.vinLoss) s (fun u =>
    Survives s u ∧ u.dev.state = .cold ∧ u.dev.rails = false ∧ u.dev.vin = false ∧ u.dev.vaux = true ∧ now u = now s
    ∧ mtcState u = mtcState s ∧ u.mtcx = s.mtcx) := by
  have hregs : (vinLost s).regs = (wipe s).regs := same_vinLost s .regs (by decide)
  refine ⟨_, execVinLoss_running hv hc hk, (survives_wipe s).of_same ((same_vinLost s).mono (by simp)) (rd_congr hregs _), rfl, rfl, rfl,
    hv, (rd_congr hregs _).trans (now_wipe s), ?_, rfl⟩
  exact ((regsBut_of_regs hregs).rdF (by simp) 0 2).trans (mtcState_wipe s)

/-- The package after a loss of VAUX (R568). -/
def vauxLost (s : State) : State :=
  { wipe s with
    regs := (wipe s).regs.filter (fun p => fusedKey p.1)
    mtcx := State.reset.mtcx, mgmt := State.reset.mgmt
    dev := { (wipe s).dev with state := .cold, vaux := false, rails := false, thermTrip := false } }

theorem execVauxLoss_on (hv : s.dev.vaux = true) : exec (.vauxLoss) s = .next (vauxLost s) := by
  show execVauxLoss s = _
  simp [execVauxLoss, hv, vauxLost, fusedKey]

theorem same_vauxLost (s : State) : Same [.regs, .dev, .mgmt, .mtcx] (wipe s) (vauxLost s) :=
  (((same_regs (wipe s) (vauxLost s).regs).trans (same_mtcx _ State.reset.mtcx)).trans (same_mgmt _ State.reset.mgmt)).trans
    (same_dev _ (vauxLost s).dev) |>.mono (by simp)

theorem rd_vauxLost (s : State) (k : Nat) : rd (vauxLost s) k = if fusedKey k then rd (wipe s) k else regReset k :=
  Store.get_filter_key regReset fusedKey k (wipe s).regs

theorem vauxLoss_runs (hv : s.dev.vaux = true) : Runs (.vauxLoss) s (fun u =>
    Survives s u ∧ u.dev.state = .cold ∧ u.dev.vaux = false ∧ now u = 0 ∧ mtcState u = 0
    ∧ u.mgmt.dynAddr = none ∧ u.mgmt.ready = false) := by
  have hsvn : rd (vauxLost s) (gd 0x18) = rd (wipe s) (gd 0x18) := (rd_vauxLost s _).trans (if_pos (by decide))
  have h0 : now (vauxLost s) = 0 := ((rd_vauxLost s _).trans (if_neg (by decide))).trans (by decide)
  have h8 : mtcState (vauxLost s) = 0 := by
    rw [mtcState, rdF, rd_vauxLost, if_neg (by decide)]
    decide
  exact ⟨_, execVauxLoss_on hv, (survives_wipe s).of_same (same_vauxLost s) hsvn, rfl, rfl, h0, h8, rfl, rfl⟩

theorem managementReady_runs (hv : s.dev.vaux = true) : Runs (.managementReady) s (fun u =>
    u.mgmt = { s.mgmt with ready := true } ∧ 20000000 ≤ (now u).toNat ∧ Same [.mgmt] (advance s 20000000) u) := by
  have hm : (advance s 20000000).mgmt = s.mgmt := same_advance s _ .mgmt (by decide)
  have hu : exec (.managementReady) s = .next { advance s 20000000 with mgmt := { s.mgmt with ready := true } } := by
    show execManagementReady s = _
    simp only [execManagementReady, dev_advance, hv, hm, if_true]
  refine ⟨_, hu, rfl, ?_, same_mgmt _ _⟩
  show 20000000 ≤ (now (advance s 20000000)).toNat
  rw [now_advance, hv]
  split
  next h => simpa using h
  next => decide

theorem restart_runs (hr : s.dev.restarting = true) : Runs (.restart) s (fun u =>
    Survives s u ∧ Begun (now s) u ∧ u.dev.restarting = false ∧ now u = now s ∧ u.mtcx = s.mtcx) := by
  have hu : exec (.restart) s = .next (beginStart (wipe s)) := by
    show execRestart s = _
    simp [execRestart, hr]
  have hreg := regsBut_beginStart (wipe s)
  have hb := begun_beginStart (wipe s)
  rw [now_wipe] at hb
  refine ⟨_, hu, (survives_wipe s).of_same ((same_beginStart _).mono (by simp)) (hreg _ (by decide)), hb, rfl, ?_, rfl⟩
  rw [now_eq_of_regsBut hreg (by decide), now_wipe]

end

/-! ### The way into STABLED -/

theorem same_setPort (s : State) (p : Nat) (f : OmPort → OmPort) : Same [.regs, .om] s (setPort s p f) :=
  ((same_om s _).trans (same_wr _ _ _)).mono (by simp)

theorem regsBut_setPort (s : State) (p : Nat) (f : OmPort → OmPort) : RegsBut [omP p 0] s (setPort s p f) :=
  regsBut_wrF { s with om := _ } _ _ _ _

theorem linkState_setPort (s : State) (p q : Nat) (f : OmPort → OmPort) : linkState (setPort s q f) p = linkState s p := by
  by_cases h : omP p 0 = omP q 0
  · unfold linkState
    rw [h]
    exact rdF_wrF_out { s with om := _ } _ _ (.inl (by decide))
  · exact (regsBut_setPort s q f).rdF (by simpa using h) _ _

theorem omP_inj {p q : Nat} : omP p 0 = omP q 0 ↔ p = q := by
  unfold omP om key
  omega

/-- OM_STATUS of a port is no register of the MTC, of the N ports or of a notice, and no other register of a port. -/
theorem omStatus_apart {p : Nat} (hp : p < 16) :
    omP p 0 ∉ [mtc 8, mtc 0x18, mtc 0x58, mtc 0x60, mtc 0x68] ++ noticeKeys ∧ omP p 0 ≠ np 0 ∧ ∀ q, omP p 0 ≠ omP q 0x10 := by
  have hn : omP p 0 ∉ noticeKeys := not_mem_noticeKeys (by omega) (by omega)
  refine ⟨?_, ?_, fun q => ?_⟩
  · simp only [List.mem_append, hn, or_false, List.mem_cons, List.not_mem_nil]
    unfold omP om mtc key
    omega
  · unfold omP om np key
    omega
  · unfold omP om key
    omega

/-- The port's registers as its link goes DOWN (R413). -/
def linkDropped (s : State) (p : Nat) : State := wrB (wrF (wrF s (omP p 0) 0 2 0) (omP p 0) 4 9 0) (omP p 0x10) 63 false

/-- In-band time on a port that goes DOWN loses its source (R413, R48). -/
def inBandDropped (s : State) (p : Nat) : State :=
  if rdB s (omP p 0) 13 then sourceLost (wrB (wrB s (omP p 0) 13 false) (mtc 8) 5 false) else s

theorem ommetDown_eq (s : State) (p : Nat) :
    ommetDown s p = setPort (inBandDropped (linkDropped s p) p) p (fun x => { x with change := none, agreed := false }) := rfl

theorem same_linkDropped (s : State) (p : Nat) : Same [.regs] s (linkDropped s p) :=
  (((same_wr s _ _).trans (same_wr _ _ _)).trans (same_wr _ _ _)).mono (by simp)

theorem same_inBandDropped (s : State) (p : Nat) : Same [.regs, .port, .mtcx] s (inBandDropped s p) := by
  unfold inBandDropped
  split
  · exact (((same_wr s _ _).trans (same_wr _ _ _)).trans (same_sourceLost _)).mono (by simp)
  · exact Same.refl _ _

theorem regsBut_linkDropped (s : State) (p : Nat) : RegsBut [omP p 0, omP p 0, omP p 0x10] s (linkDropped s p) :=
  ((regsBut_wrF s _ 0 2 0).trans (regsBut_wrF _ _ 4 9 0)).trans (regsBut_wrB _ _ 63 false)

theorem regsBut_inBandDropped (s : State) (p : Nat) :
    RegsBut ([omP p 0, mtc 8, mtc 8, mtc 0x18, mtc 0x58, mtc 0x60, mtc 0x68] ++ noticeKeys) s (inBandDropped s p) := by
  unfold inBandDropped
  split
  · exact (((regsBut_wrB s _ 13 false).trans (regsBut_wrB _ (mtc 8) 5 false)).trans (regsBut_sourceLost _)).mono (by simp)
  · exact RegsBut.refl _ _

theorem linkState_linkDropped_same (s : State) (p : Nat) : linkState (linkDropped s p) p = 0 := by
  have h10 : omP p 0 ∉ [omP p 0x10] := by
    unfold omP om key
    simp
  unfold linkState linkDropped
  rw [(regsBut_wrB _ _ 63 false).rdF h10, rdF_wrF_out _ _ _ (.inl (by decide)), rdF_wrF_same _ _ _ _ _ (by decide), Nat.zero_mod]

theorem linkState_inBandDropped (s : State) {p : Nat} (q : Nat) (hp : p < 16) : linkState (inBandDropped s q) p = linkState s p := by
  obtain ⟨hmtc, -, -⟩ := omStatus_apart hp
  have h8 : omP p 0 ∉ [mtc 8] := fun h => hmtc (by simp only [List.mem_singleton] at h; simp [h])
  unfold inBandDropped
  split
  · unfold linkState
    rw [(regsBut_sourceLost _).rdF hmtc, (regsBut_wrB _ _ 5 false).rdF h8]
    by_cases h : p = q
    · rw [h, rdF, wrB_wr, rd_wr_same]
      exact fld_putFld_out _ _ _ _ _ _ (.inl (by decide))
    · exact (regsBut_wrB s _ 13 false).rdF (by simpa [omP_inj] using h) _ _
  · rfl

/-- A port that goes DOWN is DOWN, and every other link is as it was. -/
theorem linkState_ommetDown (s : State) {p : Nat} (q : Nat) (hp : p < 16) :
    linkState (ommetDown s q) p = if p = q then 0 else linkState s p := by
  rw [ommetDown_eq, linkState_setPort, linkState_inBandDropped _ q hp]
  split
  next h => rw [h, linkState_linkDropped_same]
  next h =>
    obtain ⟨-, -, h10⟩ := omStatus_apart hp
    exact (regsBut_linkDropped s q).rdF (by simp [omP_inj, h, h10]) _ _

theorem same_ommetDown (s : State) (p : Nat) : Same [.regs, .port, .mtcx, .om] s (ommetDown s p) := by
  rw [ommetDown_eq]
  exact (((same_linkDropped s p).trans (same_inBandDropped _ p)).trans (same_setPort _ p _)).mono (by simp)

theorem now_ommetDown (s : State) (p : Nat) : now (ommetDown s p) = now s := by
  have h0 : mtc 0 ≠ omP p 0 := by
    unfold omP om mtc key
    omega
  have h10 : mtc 0 ≠ omP p 0x10 := by
    unfold omP om mtc key
    omega
  rw [ommetDown_eq, now_eq_of_regsBut (regsBut_setPort _ p _) (by simpa using h0),
    now_eq_of_regsBut (regsBut_inBandDropped _ p) (List.not_mem_cons_of_ne_of_not_mem h0 (by decide)),
    now_eq_of_regsBut (regsBut_linkDropped s p) (by simp [h0, h10])]

theorem same_foldl_failCmd (l : List Cmd) (s : State) (st : Nat) :
    Same [.port] s (l.foldl (fun s c => failCmd s c.seq st) s) := Same.foldl _ (fun t c => same_failCmd t c.seq st) l s

theorem same_nportDown (s : State) (n : Nat) : Same [.regs, .port] s (nportDown s n) :=
  (same_wr s _ _).trans (same_foldl_failCmd _ _ _)

theorem regs_nportDown (s : State) (n : Nat) : (nportDown s n).regs = (wrF s (np 0) (4 * n) 3 0).regs :=
  same_foldl_failCmd _ _ _ .regs (by decide)

theorem regsBut_nportDown (s : State) (n : Nat) : RegsBut [np 0] s (nportDown s n) :=
  (regsBut_wrF s (np 0) (4 * n) 3 0).trans (regsBut_of_regs (regs_nportDown s n))

theorem rdB_nportDown_same (s : State) (n : Nat) : rdB (nportDown s n) (np 0) (4 * n) = false := by
  rw [rdB, rd_congr (regs_nportDown s n), wrF_wr, rd_wr_same, bitOf, getLsbD_putFld, if_pos (by omega)]
  simp

/-- A port that goes down shows no link, and a link that is down stays down. -/
theorem rdB_nportDown_ne (s : State) {n m : Nat} (h : m ≠ n) : rdB (nportDown s n) (np 0) (4 * m) = rdB s (np 0) (4 * m) := by
  rw [rdB, rd_congr (regs_nportDown s n)]
  exact rdB_wrF_out s _ _ (by omega)

/-- The caches are written back and every port is down (R540). -/
def portsDown (s : State) : State := (upTo 4).foldl nportDown ((upTo 16).foldl ommetDown (writeBackAll s))

/-- Every dirty line of a junction cache is back in memory. -/
def linesWritten (s : State) : State :=
  (s.jlines.filter (fun p => decide (3 ≤ p.2.moesi))).foldl (fun s p => putLine s (p.1 % 2 ^ 35) p.2.data) s

/-- The caches and the directories hold nothing. -/
def cachesEmptied (s : State) : State := { s with jlines := [], dir := [], deferred := [] }

theorem writeBackAll_eq (s : State) : writeBackAll s = (upTo 8).foldl (fun s d => wr s (jn d 8) 0) (cachesEmptied (linesWritten s)) := rfl

theorem same_linesWritten (s : State) : Same [.mem] s (linesWritten s) := Same.foldl _ (fun t _ => same_mem t _) _ s

theorem same_cachesEmptied (s : State) : Same [.jlines, .dir, .deferred] s (cachesEmptied s) :=
  ((same_jlines s []).trans (same_dir _ [])).trans (same_deferred _ [])

theorem same_directoryCounts (s : State) : Same [.regs] s ((upTo 8).foldl (fun s d => wr s (jn d 8) 0) s) :=
  Same.foldl _ (fun t d => same_wr t (jn d 8) 0) _ s

theorem same_writeBackAll (s : State) : Same [.regs, .mem, .jlines, .dir, .deferred] s (writeBackAll s) := by
  rw [writeBackAll_eq]
  exact (((same_linesWritten s).trans (same_cachesEmptied _)).trans (same_directoryCounts _)).mono (by simp)

theorem jlines_writeBackAll (s : State) : (writeBackAll s).jlines = [] := by
  rw [writeBackAll_eq]
  exact same_directoryCounts (cachesEmptied (linesWritten s)) .jlines (by decide)

theorem dir_writeBackAll (s : State) : (writeBackAll s).dir = [] := by
  rw [writeBackAll_eq]
  exact same_directoryCounts (cachesEmptied (linesWritten s)) .dir (by decide)

theorem now_writeBackAll (s : State) : now (writeBackAll s) = now s := by
  have hstep : ∀ (t : State) (d : Nat), now (wr t (jn d 8) 0) = now t := fun t d => rd_wr_ne t (by unfold mtc jn key; omega) 0
  have hregs : (cachesEmptied (linesWritten s)).regs = s.regs :=
    ((same_linesWritten s).trans (same_cachesEmptied _)) .regs (by decide)
  rw [writeBackAll_eq]
  exact List.foldlRecOn (motive := fun t => now t = now s) _ _ (rd_congr hregs _) (fun t ht d _ => (hstep t d).trans ht)

theorem same_portsDown_writeBackAll (s : State) : Same [.regs, .port, .mtcx, .om] (writeBackAll s) (portsDown s) :=
  ((Same.foldl _ same_ommetDown (upTo 16) _).trans (Same.foldl _ same_nportDown (upTo 4) _)).mono (by simp)

theorem now_portsDown (s : State) : now (portsDown s) = now s := by
  have h1 : now ((upTo 16).foldl ommetDown (writeBackAll s)) = now s :=
    List.foldlRecOn (motive := fun t => now t = now s) _ _ (now_writeBackAll s) (fun t ht p _ => (now_ommetDown t p).trans ht)
  exact List.foldlRecOn (motive := fun t => now t = now s) _ _ h1
    (fun t ht n _ => (now_eq_of_regsBut (regsBut_nportDown t n) (by decide)).trans ht)

theorem linkState_portsDown (s : State) {p : Nat} (hp : p < 16) : linkState (portsDown s) p = 0 := by
  obtain ⟨-, hnp, -⟩ := omStatus_apart hp
  have h1 : linkState ((upTo 16).foldl ommetDown (writeBackAll s)) p = 0 :=
    foldl_establishes (P := fun p t => p < 16 → linkState t p = 0)
      (fun t p hp => by rw [linkState_ommetDown t p hp, if_pos rfl])
      (fun t q p h hp => by
        rw [linkState_ommetDown t q hp]
        split
        · rfl
        · exact h hp) _ _ _ (.inl (List.mem_range.2 hp)) hp
  exact List.foldlRecOn (motive := fun t => linkState t p = 0) _ _ h1
    (fun t ht n _ => ((regsBut_nportDown t n).rdF (by simpa using hnp) _ _).trans ht)

theorem nport_portsDown (s : State) {n : Nat} (hn : n < 4) : rdB (portsDown s) (np 0) (4 * n) = false :=
  foldl_establishes (P := fun n t => rdB t (np 0) (4 * n) = false) rdB_nportDown_same
    (fun t n m h => by
      by_cases hm : m = n
      · rw [hm, rdB_nportDown_same]
      · rw [rdB_nportDown_ne t hm, h]) _ _ _ (.inl (List.mem_range.2 hn))

/-- The device stands in STABLED, and the command that asked for it is forgotten. -/
def stabledReached (s : State) : State := setDevice { s with dev := { s.dev with entering := false, stableSeq := none } } .stabled 0

/-- The device that enters STABLED; a WAKE that came meanwhile takes effect (R540). -/
def stabledEntered (s : State) : State :=
  let s := stabledReached s
  if s.dev.wakePending then { s with dev := { s.dev with wakePending := false, wakeAt := some (now s), wakeStep := 0 } } else s

theorem execStableEntryDone_enters {s : State} (he : s.dev.entering = true) (hc : ∀ c ∈ s.port.cmds, some c.seq ≠ s.dev.stableSeq) :
    exec (.stableEntryDone) s = .next (stabledEntered (portsDown s)) := by
  have hany : s.port.cmds.any (fun c => decide (some c.seq = s.dev.stableSeq)) = false := by
    simpa using fun c hm => hc c hm
  have hgo : ¬ (!s.dev.entering || s.port.cmds.any (fun c => decide (some c.seq = s.dev.stableSeq))) = true := by
    rw [he, hany]
    decide
  show execStableEntryDone s = _
  rw [execStableEntryDone, if_neg hgo, stabledEntered, stabledReached, portsDown]

theorem dev_stabledReached (s : State) : (stabledReached s).dev = { s.dev with entering := false, stableSeq := none, state := .stabled } :=
  dev_setDevice _ _ _

theorem regsBut_stabledReached (s : State) : RegsBut noticeKeys s (stabledReached s) :=
  regsBut_setDevice { s with dev := { s.dev with entering := false, stableSeq := none } } .stabled 0

theorem same_stabledReached (s : State) : Same [.regs, .port, .dev] s (stabledReached s) :=
  ((same_dev s { s.dev with entering := false, stableSeq := none }).trans (same_setDevice _ .stabled 0)).mono (by simp)

theorem stabledEntered_shows (s : State) : (stabledEntered s).dev.state = .stabled ∧ (stabledEntered s).dev.entering = false
    ∧ (stabledEntered s).dev.wakeAt = (if s.dev.wakePending then some (now s) else s.dev.wakeAt)
    ∧ RegsBut noticeKeys s (stabledEntered s) ∧ Same [.regs, .port, .dev] s (stabledEntered s) := by
  have hdev := dev_stabledReached s
  have hreg := regsBut_stabledReached s
  have hsame := same_stabledReached s
  have hnow : now (stabledReached s) = now s := now_eq_of_regsBut hreg (by decide)
  unfold stabledEntered
  generalize stabledReached s = t at hdev hreg hsame hnow ⊢
  dsimp only
  rw [show t.dev.wakePending = s.dev.wakePending by rw [hdev]]
  by_cases hw : s.dev.wakePending = true
  · rw [if_pos hw, if_pos hw, ← hnow]
    exact ⟨by rw [hdev], by rw [hdev], rfl, hreg, (hsame.trans (same_dev t _)).mono (by simp)⟩
  · rw [if_neg hw, if_neg hw, hdev]
    exact ⟨rfl, rfl, rfl, hreg, hsame⟩

theorem stableEntryDone_runs {s : State} (he : s.dev.entering = true) (hc : ∀ c ∈ s.port.cmds, some c.seq ≠ s.dev.stableSeq) :
    Runs (.stableEntryDone) s (fun u => u.dev.state = .stabled ∧ u.dev.entering = false ∧ (∀ p < 16, linkState u p = 0)
        ∧ (∀ n < 4, rdB u (np 0) (4 * n) = false) ∧ u.jlines = [] ∧ u.dir = []
        ∧ u.dev.wakeAt = (if s.dev.wakePending then some (now s) else s.dev.wakeAt)) := by
  obtain ⟨hst, hent, hwake, hreg, hsame⟩ := stabledEntered_shows (portsDown s)
  have hdown := same_portsDown_writeBackAll s
  have hdev : (portsDown s).dev = s.dev := ((same_writeBackAll s).trans hdown) .dev (by decide)
  refine ⟨_, execStableEntryDone_enters he hc, hst, hent, fun p hp => ?_, fun n hn => ?_, ?_, ?_, ?_⟩
  · have hk : omP p 0 ∉ noticeKeys := not_mem_noticeKeys (by omega) (by omega)
    exact (hreg.rdF hk _ _).trans (linkState_portsDown s hp)
  · rw [hreg.rdB (by decide), nport_portsDown s hn]
  · exact (show _ = (writeBackAll s).jlines from (hdown.trans hsame) .jlines (by decide)).trans (jlines_writeBackAll s)
  · exact (show _ = (writeBackAll s).dir from (hdown.trans hsame) .dir (by decide)).trans (dir_writeBackAll s)
  · rw [hwake, hdev, now_portsDown]

/-! ### The wake (R541, R542) -/

section
variable {s : State} {w : W64}

/-- The count at the next event of the wake's timeline. -/
def wakeMoment (s : State) (w : W64) : State := advance s (w + BitVec.ofNat 64 (wakeBeats.getD s.dev.wakeStep 0))

/-- The step of the wake is done. -/
def wakeStepped (s : State) (w : W64) : State :=
  { wakeMoment s w with dev := { s.dev with wakeStep := s.dev.wakeStep + 1 } }

/-- The device is READY, and its wake is over. -/
def wakeEnded (s : State) (w : W64) : State :=
  { wakeMoment s w with dev := { s.dev with state := .ready, wakeAt := none, wakeStep := 0 } }

/-- The notice that the device is READY after its wake (R541). -/
def wakeNoticed (s : State) : State := post s 2 0 (sourceOf 15 0) 0 (BitVec.ofNat 64 (1 + 2 ^ 32 * 25)) 0 0 0

/-- The device is READY after its wake, with its notice. -/
def wokenUp (s : State) (w : W64) : State := refreshAlerts (wakeNoticed (wakeEnded s w))

theorem dev_wakeMoment (s : State) (w : W64) : (wakeMoment s w).dev = s.dev := dev_advance s _

variable (hw : s.dev.wakeAt = some w) (hst : s.dev.state = .stabled)
include hw hst

theorem execWakeStep_early (h : s.dev.wakeStep < 4) : exec (.wakeStep true []) s = .next (wakeStepped s w) := by
  show execWakeStep true [] s = _
  simp [execWakeStep, hw, hst, dev_advance, wakeStepped, wakeMoment, show s.dev.wakeStep < 5 by omega, show s.dev.wakeStep ≠ 4 by omega]

/-- At its fourth step the wake reads the leakage of the history; where that holds none, nothing else changes (R533, R541). -/
theorem execWakeStep_leakage (h : s.dev.wakeStep = 4) (hl : s.hist.leak = []) :
    exec (.wakeStep true []) s = .next (wakeStepped s w) := by
  have hleak : (wakeMoment s w).hist.leak = [] := by
    rw [show (wakeMoment s w).hist = s.hist from same_advance s _ .hist (by decide), hl]
  have hu : exec (.wakeStep true []) s = .next (storedLeakage (wakeStepped s w)) := by
    show execWakeStep true [] s = _
    simp [execWakeStep, hw, hst, dev_advance, wakeStepped, wakeMoment, h]
  rw [hu, storedLeakage, show (wakeStepped s w).hist.leak = [] from hleak]
  rfl

theorem execWakeStep_last (h : 5 ≤ s.dev.wakeStep) (bad : List (StackIx × Fin 296)) (hb : bad.length ≤ 1) :
    exec (.wakeStep true bad) s = .next (bad.foldl (fun s x => channelFails s x.1.val x.2.val) (wokenUp s w)) := by
  show execWakeStep true bad s = _
  simp only [execWakeStep, hw, hst, dev_advance, ne_eq, not_true, if_false, Bool.not_true, Bool.false_eq_true, Nat.not_lt.2 h]
  match bad, hb with
  | [], _ => rw [List.mergeSort_nil]; rfl
  | [x], _ => rw [List.mergeSort_singleton]; rfl

theorem execWakeStep_fails : exec (.wakeStep false []) s = .next (failDevice { wakeMoment s w with dev := { s.dev with wakeAt := none } }) := by
  show execWakeStep false [] s = _
  simp [execWakeStep, hw, hst, dev_advance, wakeMoment]

end

theorem wokenUp_shows (s : State) (w : W64) : (wokenUp s w).dev = { s.dev with state := .ready, wakeAt := none, wakeStep := 0 }
    ∧ Posted (wakeMoment s w) (wokenUp s w) 2 0 0 ∧ RegsBut noticeKeys (wakeMoment s w) (wokenUp s w)
    ∧ Same [.regs, .port, .dev, .mgmt] (wakeMoment s w) (wokenUp s w) := by
  have hregs : (wakeEnded s w).regs = (wakeMoment s w).regs := rfl
  have hdev : (wakeEnded s w).dev = { s.dev with state := .ready, wakeAt := none, wakeStep := 0 } := rfl
  have hended : Same [.dev] (wakeMoment s w) (wakeEnded s w) := same_dev _ _
  unfold wokenUp
  generalize wakeEnded s w = x at hregs hdev hended ⊢
  have hpost : Posted x (wakeNoticed x) 2 0 0 := posted_post x _ _ _ _ _ _ _ _
  have hreg : RegsBut noticeKeys x (wakeNoticed x) := regsBut_post x _ _ _ _ _ _ _ _
  have hsame : Same [.regs, .port] x (wakeNoticed x) := same_post x _ _ _ _ _ _ _ _
  have hdev' : (wakeNoticed x).dev = x.dev := post_dev x _ _ _ _ _ _ _ _
  generalize wakeNoticed x = y at hpost hreg hsame hdev' ⊢
  refine ⟨hdev'.trans hdev, ?_, (regsBut_of_regs hregs).trans hreg, ((hended.trans hsame).trans (same_refreshAlerts y)).mono (by simp)⟩
  unfold Posted now at hpost ⊢
  rw [rd_congr hregs, rd_congr hregs] at hpost
  exact hpost

/-! ### A start that runs past its bound (R546, R548) -/

/-- HP_START_STATUS of a start that fails: the result, its detail and the time since step 1 (R562). -/
def startResult (s : State) (result detail : Nat) : State :=
  wrF (wrF (wrF s (hp 0x200) 4 4 result) (hp 0x200) 8 8 detail) (hp 0x200) 32 32
    (startMs s)

theorem startFail_eq (s : State) (result detail : Nat) : startFail s result detail = failDevice (logStart (startResult s result detail)) := rfl

/-- A failed start shows its result and its detail, and still the step that failed. -/
theorem startFail_shows (s : State) {result detail : Nat} (hr : result < 16) (hd : detail < 256) :
    (startFail s result detail).dev.state = .failed ∧ rdF (startFail s result detail) (hp 0x200) 4 4 = result
      ∧ rdF (startFail s result detail) (hp 0x200) 8 8 = detail ∧ rdF (startFail s result detail) (hp 0x200) 0 4 = startStep s := by
  have hrd : ∀ lo len, rdF (startFail s result detail) (hp 0x200) lo len = rdF (startResult s result detail) (hp 0x200) lo len := by
    intro lo len
    have h := offDies_failDevice (logStart (startResult s result detail)) (hp 0x200) (by decide) (by decide)
    rw [startFail_eq, rdF, h]
    rfl
  refine ⟨by rw [startFail_eq, devState_failDevice], ?_, ?_, ?_⟩
  · rw [hrd, startResult, rdF_wrF_out _ _ _ (.inl (by decide)), rdF_wrF_out _ _ _ (.inl (by decide)), rdF_wrF_same _ _ _ _ _ (by decide)]
    exact Nat.mod_eq_of_lt hr
  · rw [hrd, startResult, rdF_wrF_out _ _ _ (.inl (by decide)), rdF_wrF_same _ _ _ _ _ (by decide)]
    exact Nat.mod_eq_of_lt hd
  · rw [hrd, startResult, rdF_wrF_out _ _ _ (.inl (by decide)), rdF_wrF_out _ _ _ (.inl (by decide)), rdF_wrF_out _ _ _ (.inl (by decide))]
    rfl

theorem startStep_advance (s : State) (t : W64) : startStep (advance s t) = startStep s := (regsBut_advance s t).rdF (by decide) _ _

theorem startStep_lt (s : State) : startStep s < 16 := fld_lt _ _ _

section
variable {s : State} {format : Bool} {t : W64}

theorem execStartStepTimeout_late (hst : s.dev.state = .starting) (hr : s.dev.restarting = false) (h : stepLate (advance s t) format = true) :
    exec (.startStepTimeout format t) s = .next (startFail (advance s t) 9 (startStep s)) := by
  show execStartStepTimeout format t s = _
  simp [execStartStepTimeout, dev_advance, hst, hr, h, startStep_advance]

theorem execStartStepTimeout_early (h : stepLate (advance s t) format = false) :
    exec (.startStepTimeout format t) s = .next (advance s t) := by
  show execStartStepTimeout format t s = _
  simp [execStartStepTimeout, h]

end

end Sys2Proof.Machine
end

section
/-! The management target (R575, R576): one lemma per command once it answers, and O59. -/

namespace Sys2Proof.Machine

/-! ### Byte strings -/

theorem length_leBytes (n x : Nat) : (leBytes n x).length = n := by
  induction n generalizing x with
  | zero => rfl
  | succ n ih => simp [leBytes, ih]

/-- The number that `n` bytes spell (R12). -/
theorem leNat_leBytes (n x : Nat) : leNat (leBytes n x) = x % 256 ^ n := by
  induction n generalizing x with
  | zero => simp [leBytes, leNat, Nat.mod_one]
  | succ n ih =>
    rw [leBytes, leNat, ih, Nat.pow_succ', Nat.mod_mul, BitVec.toNat_ofNat]

theorem leNat_leBytes_word (w : W64) : leNat (leBytes 8 w.toNat) = w.toNat := by
  rw [leNat_leBytes]
  exact Nat.mod_eq_of_lt w.isLt

/-! ### The commands of the management target -/

/-- The management target answers: VAUX is there, and the target is ready. -/
def Answers (s : State) : Prop := s.dev.vaux = true ∧ s.mgmt.ready = true

theorem mgmtDo_answers {s : State} (h : Answers s) (f : Mgmt → Mgmt) : mgmtDo s f = { s with mgmt := f s.mgmt } := by
  simp [mgmtDo, h.1, h.2]

theorem mgmtDo_same {s : State} {f : Mgmt → Mgmt} (h : f s.mgmt = s.mgmt) : mgmtDo s f = s := by
  unfold mgmtDo
  rw [h]
  exact ite_self s

section
variable {s : State} (h : Answers s) (target addr : BitVec 7)
include h

theorem entdaa_runs (hd : s.mgmt.dynAddr = none) : Runs (.entdaa addr) s (fun u => u.mgmt.dynAddr = some addr
    ∧ u.mgmt.answer = i3cPid s ++ [Config.i3cBcr, Config.i3cDcr] ∧ (i3cPid s).length = 6 ∧ Same [.mgmt] s u) := by
  let m : Mgmt := { s.mgmt with dynAddr := some addr, answer := i3cPid s ++ [Config.i3cBcr, Config.i3cDcr] }
  have hu : exec (.entdaa addr) s = .next { s with mgmt := m } := by
    show execEntdaa addr s = _
    simp [execEntdaa, mgmtDo_answers h, hd, m]
  exact ⟨_, hu, rfl, rfl, by simp [i3cPid, length_leBytes], same_mgmt s m⟩

theorem setdasa_runs (hd : s.mgmt.dynAddr = none) : Runs (.setdasa s.img.i3cAddr addr) s (fun u =>
    u.mgmt = { s.mgmt with dynAddr := some addr } ∧ Same [.mgmt] s u) := by
  have hu : exec (.setdasa s.img.i3cAddr addr) s = .next { s with mgmt := { s.mgmt with dynAddr := some addr } } := by
    show execSetdasa _ addr s = _
    simp [execSetdasa, mgmtDo_answers h, hd]
  exact ⟨_, hu, rfl, same_mgmt s _⟩

/-- A command that changes the target's record by `f`. -/
theorem mgmtDo_runs {c : Instr} (f : Mgmt → Mgmt) (hc : exec c s = .next (mgmtDo s f)) :
    Runs c s (fun u => u.mgmt = f s.mgmt ∧ Same [.mgmt] s u) := by
  rw [mgmtDo_answers h] at hc
  exact ⟨_, hc, rfl, same_mgmt s _⟩

/-- A command that answers free bytes. -/
theorem mgmtDo_drawn_runs {c : Instr} (n : Nat)
    (hc : exec c s = .next (mgmtDo (drawBytes s n).2 (fun m => { m with answer := (drawBytes s n).1 }))) :
    Runs c s (fun u => u.mgmt.answer.length = n ∧ u.mgmt = { s.mgmt with answer := u.mgmt.answer } ∧ Same [.mgmt, .freeIx] s u) := by
  have hd : Answers (drawBytes s n).2 := h
  rw [mgmtDo_answers hd] at hc
  have hsame : Same [.freeIx] s (drawBytes s n).2 := same_freeIx s _
  exact ⟨_, hc, by simp [drawBytes, upTo], rfl, (hsame.trans (same_mgmt _ _)).mono (by simp)⟩

omit h in
/-- SETDASA to another target changes nothing. -/
theorem execSetdasa_other (ht : target ≠ s.img.i3cAddr) : exec (.setdasa target addr) s = .next s :=
  congrArg Host.Outcome.next (mgmtDo_same (by simp [ht]))

omit h in
/-- A target that has an address takes no other. -/
theorem address_kept (hd : s.mgmt.dynAddr ≠ none) : exec (.entdaa addr) s = .next s ∧ exec (.setdasa target addr) s = .next s :=
  ⟨congrArg Host.Outcome.next (mgmtDo_same (by simp [hd])), congrArg Host.Outcome.next (mgmtDo_same (by simp [hd]))⟩

omit h in
/-- The low 32 bits of the provisioned identifier are those of the GPID (R575). -/
theorem i3cPid_gpid (s : State) : leNat (i3cPid s).reverse % 2 ^ 32 = s.guard.gpid.toNat := by
  have hlt : s.guard.gpid.toNat < 2 ^ 32 := s.guard.gpid.isLt
  rw [i3cPid, List.reverse_reverse, leNat_leBytes, Nat.mod_mod_of_dvd _ (by decide), Nat.add_mul_mod_self_left, Nat.mod_eq_of_lt hlt]

omit h in
/-- A write of another index or of another number of bytes is ignored (R576). -/
theorem execManagementIndexWrite_ignored {i : Byte} {l : List Byte} (hl : 8 < i.toNat ∨ l.length ≠ 1) :
    exec (.managementIndexWrite (if l.length = 1 then [i] else l)) s = .next s := by
  show execManagementIndexWrite _ s = _
  by_cases h1 : l.length = 1
  · have hi : ¬ i.toNat ≤ 8 := by omega
    rw [if_pos h1]
    simp [execManagementIndexWrite, hi]
  · rw [if_neg h1]
    match l, h1 with
    | [], _ => rfl
    | _ :: _ :: _, _ => rfl

end

/-! ### The management registers (R576) -/

theorem hottest_lt (s : State) (lo : Nat) : hottest s lo < 256 := by
  unfold hottest
  refine List.foldlRecOn (motive := fun x => x < 256) _ _ (by decide) (fun x hx y hy => ?_)
  obtain ⟨d, -, rfl⟩ := List.mem_map.1 hy
  exact Nat.max_lt.2 ⟨hx, fld_lt _ _ _⟩

/-- The management register of each index, as the number that its bytes spell. -/
theorem leNat_mgmtReg (s : State) (j : Byte) :
    (j = 0 → leNat (leBytes 8 (mgmtReg s j.toNat).toNat)
      = (if s.dev.service then 6 else deviceCode s.dev.state) + 8 * jobCode s.job.state)
    ∧ (j = 1 → leNat (leBytes 8 (mgmtReg s j.toNat).toNat) = s.guard.gpid.toNat)
    ∧ (j = 2 → leNat (leBytes 8 (mgmtReg s j.toNat).toNat) = (readReg s (hp 0x200)).toNat)
    ∧ (j = 3 → leNat (leBytes 8 (mgmtReg s j.toNat).toNat) = (rd s (hp 0x208)).toNat)
    ∧ (j = 4 → leNat (leBytes 8 (mgmtReg s j.toNat).toNat) = (rd s (pw 0 0x1000)).toNat)
    ∧ (j = 5 → leNat (leBytes 8 (mgmtReg s j.toNat).toNat) = (rd s (pw 0 0x1008)).toNat)
    ∧ (j = 6 → leNat (leBytes 8 (mgmtReg s j.toNat).toNat) = hottest s 16 + 2 ^ 8 * hottest s 24)
    ∧ (j = 7 → leNat (leBytes 8 (mgmtReg s j.toNat).toNat) = (now s).toNat)
    ∧ (j = 8 → leNat (leBytes 8 (mgmtReg s j.toNat).toNat) = s.mgmt.lastReason % 2 ^ 64) := by
  have hstate : (if s.dev.service then 6 else deviceCode s.dev.state) + 8 * jobCode s.job.state < 2 ^ 64 := by
    have hd : deviceCode s.dev.state ≤ 5 := by cases s.dev.state <;> decide
    have hj : jobCode s.job.state ≤ 7 := by cases s.job.state <;> decide
    split <;> omega
  have hhot : hottest s 16 + 2 ^ 8 * hottest s 24 < 2 ^ 64 := by
    have h16 := hottest_lt s 16
    have h24 := hottest_lt s 24
    omega
  rw [leNat_leBytes_word]
  refine ⟨?_, ?_, ?_, ?_, ?_, ?_, ?_, ?_, ?_⟩ <;> rintro rfl
  · exact (BitVec.toNat_ofNat _ _).trans (Nat.mod_eq_of_lt hstate)
  · exact (BitVec.toNat_setWidth _ _).trans (Nat.mod_eq_of_lt (by have := s.guard.gpid.isLt; omega))
  · rfl
  · rfl
  · rfl
  · rfl
  · exact (BitVec.toNat_ofNat _ _).trans (Nat.mod_eq_of_lt hhot)
  · rfl
  · exact BitVec.toNat_ofNat _ _

theorem execManagementPrivateRead_index {s : State} {j : Byte} (hj : s.mgmt.index = some j) :
    exec (.managementPrivateRead) s = .next (mgmtDo s (fun m => { m with answer := leBytes 8 (mgmtReg s j.toNat).toNat })) := by
  show execManagementPrivateRead s = _
  simp only [execManagementPrivateRead, hj]

theorem execManagementPrivateRead_free {s : State} (hj : s.mgmt.index = none) :
    exec (.managementPrivateRead) s
      = .next (mgmtDo (drawBytes s 8).2 (fun m => { m with answer := (drawBytes s 8).1 })) := by
  show execManagementPrivateRead s = _
  simp only [execManagementPrivateRead, hj]

end Sys2Proof.Machine

open Sys2Proof Sys2Proof.Machine

/-- Settles O59: each supply, state and command of the management target by its own lemma. -/
theorem suppliesAndManagement : Obligations.SuppliesAndManagement := by
  refine ⟨fun s serviceHigh format t ch => ?supplies, fun s target addr i l hv hready => ?management⟩
  case supplies =>
    refine ⟨vauxValid_runs serviceHigh, ⟨_, rfl, rfl, same_dev s _⟩, railsInRegulation_runs,
      fun h => ⟨_, execRailsInRegulation_waits h, rfl⟩, vinLoss_runs, vauxLoss_runs, managementReady_runs, restart_runs,
      fun he hc _ => stableEntryDone_runs he hc, fun w hw hst => ?wake, fun hst hr => ?timeout⟩
    case wake =>
      obtain ⟨hdev, hposted, hreg, hsame⟩ := wokenUp_shows s w
      refine ⟨fun h => ⟨_, execWakeStep_early hw hst h, rfl, RegsBut.refl _ _, same_dev _ _⟩, fun h4 hl => ?leakage, fun h5 => ?last,
        ⟨_, execWakeStep_fails hw hst, devState_failDevice _, jobState_failDevice _⟩⟩
      case leakage =>
        refine ⟨_, execWakeStep_leakage hw hst h4 hl, ?_, RegsBut.refl _ _, same_dev _ _⟩
        rw [wakeStepped, h4]
      case last =>
        refine ⟨wokenUp s w, execWakeStep_last hw hst h5 [] (by simp), ?_, ?_, hposted, execWakeStep_last hw hst h5 [ch] (by simp), hreg,
          hsame⟩ <;> rw [hdev]
    case timeout =>
      refine ⟨fun h => ⟨_, execStartStepTimeout_late hst hr h, ?_⟩, fun h => ⟨_, execStartStepTimeout_early h, rfl⟩⟩
      have hstep := startStep_lt s
      obtain ⟨hfail, hres, hdet, hat⟩ := startFail_shows (advance s t) (result := 9) (detail := startStep s) (by decide) (by omega)
      exact ⟨hfail, hres, hdet, hat.trans (startStep_advance s t)⟩
  case management =>
    have h : Answers s := ⟨hv, hready⟩
    have hpid := i3cPid_gpid s
    refine ⟨fun hd => ⟨entdaa_runs h addr hd, setdasa_runs h addr hd⟩, fun ht => ⟨_, execSetdasa_other target addr ht, rfl⟩,
      fun hd => ?address, mgmtDo_runs h (c := .rstdaa) _ rfl, ?pid, mgmtDo_runs h (c := .getbcr) _ rfl,
      mgmtDo_runs h (c := .getdcr) _ rfl, mgmtDo_drawn_runs h 2 rfl, mgmtDo_runs h (c := .enec) _ rfl, mgmtDo_runs h (c := .disec) _ rfl,
      fun hi => mgmtDo_runs h (fun m => { m with index := some i }) ?index, fun hi => ⟨_, execManagementIndexWrite_ignored hi, rfl⟩,
      fun j hj => ?read, fun hj => ?free⟩
    case address =>
      obtain ⟨hent, hset⟩ := address_kept target addr hd
      intro a ha
      simp only [List.mem_cons, List.not_mem_nil, or_false] at ha
      rcases ha with rfl | rfl
      · exact ⟨_, hent, rfl⟩
      · exact ⟨_, hset, rfl⟩
    case pid =>
      obtain ⟨u, hu, hm, hs⟩ := mgmtDo_runs h (c := .getpid) _ rfl
      exact ⟨u, hu, hm, hpid, hs⟩
    case index =>
      show execManagementIndexWrite [i] s = _
      simp only [execManagementIndexWrite, hi, if_true]
    case read =>
      obtain ⟨u, hu, hm, hs⟩ := mgmtDo_runs h _ (execManagementPrivateRead_index hj)
      have ha : u.mgmt.answer = leBytes 8 (mgmtReg s j.toNat).toNat := by rw [hm]
      refine ⟨u, hu, hs, by rw [hm], ?_, ?_⟩
      · rw [ha, length_leBytes]
      · rw [ha]
        exact leNat_mgmtReg s j
    case free =>
      obtain ⟨u, hu, hlen, -, hs⟩ := mgmtDo_drawn_runs h 8 (execManagementPrivateRead_free hj)
      exact ⟨u, hu, hlen, hs⟩
end

section
/-! A claim that fails on one state is refuted by the outcome that the model evaluates there. -/

namespace Sys2Proof.Machine

/-- The outcome is a next state, and it meets a test. -/
def Ends (o : Host.Outcome State Fault Refusal) (test : State → Bool) : Bool :=
  match o with
  | .next u => test u
  | _ => false

/-- What is claimed of the state after a command holds of a state that meets the test its outcome meets. -/
theorem Runs.of_ends {c : Instr} {s : State} {P : State → Prop} (h : Runs c s P) {test : State → Bool}
    (ht : Ends (exec c s) test = true) : ∃ u, P u ∧ test u = true := by
  obtain ⟨u, hu, hp⟩ := h
  rw [hu] at ht
  exact ⟨u, hp, ht⟩

end Sys2Proof.Machine
end

section
/-! Flags of the main array in flight with another engine (R69, R145): a write names the die whose flags it sets, and the statement
of O17 leaves out that an engine only has writes of its own die. -/

namespace Sys2Proof.Machine

/-- Flags of the main array of die 3. -/
def strayWrite : WriteOp := { time := 0, issue := 0, put := .maFlags 3 1 }

/-- The main array engine of die 2 has a write in flight that sets a flag of die 3. -/
def strayFlags : State := { State.reset with engines := [(engKey 2 0, { Engine.idle 0 with writes := [strayWrite] })] }

theorem strayFlags_ready : (eng strayFlags 2 0).writes = [strayWrite] ∧ (eng strayFlags 2 0).reads = []
    ∧ (eng strayFlags 2 0).cycle ≤ strayWrite.time ∧ mayReach strayFlags 2 0 strayWrite.time = true := by
  decide +kernel

theorem strayFlags_flags_other_die :
    Ends (exec (.orderWriteCycle 2 1 0) strayFlags) (fun u => (eng u 3 0).flagged) = true := by
  decide +kernel

end Sys2Proof.Machine

open Sys2Proof Sys2Proof.Machine

/-- Refutes O17: its second clause leaves every other engine as it was, whatever the write in flight is. In `strayFlags` an engine of
die 2 writes flags of die 3, and the main array engine of die 3 keeps that a flag was set (R145). -/
theorem not_ordersWriteAtTheirWriteCycle : ¬ Obligations.OrdersWriteAtTheirWriteCycle := by
  intro h
  obtain ⟨-, hrun⟩ := h strayFlags 2 0 0 strayWrite strayWrite 0 strayFlags_ready
  obtain ⟨u, ⟨-, -, hother, -⟩, hflag⟩ := hrun.of_ends strayFlags_flags_other_die
  rw [hother 3 0 (by decide) (by decide)] at hflag
  exact absurd hflag (by decide)
end

section
/-! ARRIVE_SIG of a train (R591) goes out from the die that the last byte's own translation names. Where two entries of a TLB overlap,
that is another byte than the one the row's translation wrote, and the statement of O15 leaves such entries in. -/

namespace Sys2Proof.Machine

/-- A train of two bytes from local 0x1000 to virtual 0x3000. -/
def shortTrain : Train :=
  { die := 2, engine := 0, issue := 7, index := 0, transpose := false, arriveSig := 5, arrive := true, book := 0
    desc := BitVec.ofNat 512 (0x1000 + 0x3000 * 2 ^ 64 + 1 * 2 ^ 128 + 2 * 2 ^ 160 + 1 * 2 ^ 320)
    wait := none, heldAt := none, faulted := false, data := [], landed := 0, asked := false, sent := false, dead := false }

/-- An entry of die 2's TLB for the page at `base`. -/
def pageEntry (base pa : Nat) : TlbEntry :=
  { die := 2, holder := none, base := base, size := 4096, pa := pa, readable := true, writable := true, global := false }

/-- The page 0x3000 lies at 0x2000 of die 0, and an entry that overlaps it puts its second byte on die 1. -/
def overlapping : State :=
  { State.reset with
    trains := [shortTrain]
    trans := { State.reset.trans with tlb := [pageEntry 0x3001 (2 ^ 38), pageEntry 0x3000 0x2000] } }

/-- The train has nothing left that holds it, and stands whole at its destination. -/
theorem shortTrain_arrives :
    let m := trainMove overlapping shortTrain (tdBytes shortTrain.desc)
    let x := trainNow m shortTrain
    findTrain overlapping 2 0 7 = some shortTrain ∧ dstAway m x = false
      ∧ ¬ (x.heldAt ≠ none ∨ x.dead = true ∨ delayWaits m (trainOwner 2 0 7) = true) ∧ trainLanded x = true := by
  decide +kernel

theorem shortTrain_row : tdRows shortTrain.desc = 1 ∧ 0 < tdBytes shortTrain.desc ∧ tdSrcSpace shortTrain.desc = 1
    ∧ dstStretch shortTrain 0 (tdBytes shortTrain.desc) = tdBytes shortTrain.desc
    ∧ dstAt overlapping shortTrain 0 (tdBytes shortTrain.desc) = .ok (.here [(0x2000, tdBytes shortTrain.desc, false)])
    ∧ ∀ i < tdBytes shortTrain.desc, physByte overlapping (0x2000 + i) = true := by
  decide +kernel

theorem shortTrain_signals_from_die1 :
    Ends (exec (.trainArrival 2 0 7 0) overlapping) (fun u => decide (u.sigOps = [addOne 1 9 5])) = true := by
  decide +kernel

end Sys2Proof.Machine

open Sys2Proof Sys2Proof.Machine

/-- Refutes O15: it has ARRIVE_SIG leave from the die of the last byte of the row as one translation places the row. In `overlapping`
the byte itself is translated by another entry, to die 1. -/
theorem not_trainArrivalLandsItsBytes : ¬ Obligations.TrainArrivalLandsItsBytes := by
  intro h
  obtain ⟨hfind, haway, hfree, hlanded⟩ := shortTrain_arrives
  obtain ⟨hrows, hbytes, hsrc, hstretch, hat, hphys⟩ := shortTrain_row
  have hrun := (h overlapping 2 0 7 0 shortTrain hfind haway).2 hfree hlanded
  obtain ⟨u, ⟨-, -, -, -, -, hone, -⟩, hsig⟩ := hrun.of_ends shortTrain_signals_from_die1
  obtain ⟨-, -, hops⟩ := (hone hrows rfl rfl rfl hbytes rfl rfl hsrc).1 0x2000 (.inr ⟨hstretch, hat⟩) hphys
  rw [hops rfl] at hsig
  exact absurd hsig (by decide +kernel)
end

section
/-! A channel of a track that gives no answer while a spare already names the track (R296, R299): a read that was outstanding on it can
count as restored, and the statement of O34 has it issued again. -/

namespace Sys2Proof.Machine

/-- A read of the first sector of row 0, on track 0 of stack 0. -/
def lostRead : BkOp := { kind := .sectorRead, pa := 0, len := 0, owner := none, ce := 0, ue := 0 }

/-- Every slot is in service, and spare 0 of stack 0 names a rebuild of track 0 that has done row 0. -/
def spareAhead : State := { State.reset with regs := [(bkSpare 0 0, 1 + 2 ^ 11)] }

theorem spareAhead_meets : fills spareAhead 0 0 = some (0, 0) ∧ trackState spareAhead 0 0 = .isProtected
    ∧ freeSpare spareAhead 0 = some 1 ∧ bitOf (bkData lostRead) 0 = true ∧ sweptChannel spareAhead 0 = none
    ∧ onTrack spareAhead 0 0 lostRead = true := by
  decide +kernel

theorem lostRead_not_reissued : Ends (exec (.channelNoAnswer 0 [(0, 0)] [(false, lostRead)]) spareAhead)
    (fun u => decide (Store.get (fun _ => []) u.bkQueue (trackKey 0 0) = [])) = true := by
  simp only [exec, execChannelNoAnswer, List.mergeSort_singleton]
  decide +kernel

end Sys2Proof.Machine

open Sys2Proof Sys2Proof.Machine

/-- Refutes O34: its clause of CHANNEL_NO_ANSWER has an unbooked read of the failed slot issued again. In `spareAhead` another spare
counts the row as restored already, so the read is not a reconstruction and the model leaves it. -/
theorem not_bamkanTracks : ¬ Obligations.BamkanTracks := by
  intro h
  obtain ⟨hfills, hstate, hfree, hdata, hsweep, htrack⟩ := spareAhead_meets
  obtain ⟨-, hfails, -⟩ := h.2 spareAhead 0 0 0 0 0 0 0
  have hrun := hfails 0 1 hfills (by decide) hstate hfree [(false, lostRead)]
  obtain ⟨u, ⟨-, -, -, -, -, -, -, -, -, hqueue, -⟩, hleft⟩ := hrun.of_ends lostRead_not_reissued
  have hq : Store.get (fun _ => []) u.bkQueue (trackKey 0 0) = (lostRead :: unbooked spareAhead 0 0).take 64 :=
    hqueue lostRead rfl (by decide) hdata (by decide) hsweep htrack
  rw [decide_eq_true_eq, hq] at hleft
  exact List.cons_ne_nil _ _ hleft
end

section
/-! READ_DATA of a train whose destination is in this package (R385, R582): the bytes at hand move on to the destination at once, and
the statement of O43 leaves only room for them to join the train. -/

namespace Sys2Proof.Machine

/-- A train of one row of 400 bytes from position 3 to local memory, which has asked for its bytes. -/
def askingTrain : Train :=
  { die := 2, engine := 0, issue := 7, index := 0, transpose := false, arriveSig := 5, arrive := true, book := 0
    desc := BitVec.ofNat 512 (3 * 2 ^ 41 + 0x1000 + 0x2000 * 2 ^ 64 + 1 * 2 ^ 128 + 400 * 2 ^ 160 + 7 * 2 ^ 320)
    wait := none, heldAt := none, faulted := false, data := [], landed := 0, asked := true, sent := false, dead := false }

/-- Port 5 is UP in the job of tag 7, with that train in flight. -/
def awaitingData : State :=
  { State.reset with regs := [(omP 5 0, 2)], job := { State.reset.job with tag := 7 }, trains := [askingTrain] }

/-- The first 192 bytes of the train's row, from position 3. -/
def firstBytes : Flit :=
  { lseq := 0, lack := 0, ackKind := 0, kind := 1, path := 65, tag := 7, dst := 0, src := 3, pseq := 0
    payload := bookedPayload 3 0 0 192 0 0 0 0 (List.replicate 192 5), fecOk := true, macOk := true, ts := 5 }

theorem firstBytes_passes : FlitPasses awaitingData 5 firstBytes ∧ firstBytes.kind = 1 ∧ payNat firstBytes.payload 0 1 = 3
    ∧ payNat firstBytes.payload 4 2 = 192 := by
  unfold FlitPasses
  and_intros <;> decide +kernel

theorem askingTrain_awaits : askingTrain.data.length + 192 < tdBytes askingTrain.desc
    ∧ srcPlace awaitingData askingTrain 0 = .ok (.away 3 1 0 0x1000) := by
  decide +kernel

theorem firstBytes_land : Ends (exec (.readData 5 firstBytes) awaitingData)
    (fun u => u.trains.any (fun t => decide (t.landed = 192))) = true := by
  decide +kernel

end Sys2Proof.Machine

open Sys2Proof Sys2Proof.Machine

/-- Refutes O43: its third clause says that READ_DATA only joins its train. `awaitingData` has a train with a local destination, so the
192 bytes that come also land there at once. -/
theorem not_bookedFlitsHaveTheirEffect : ¬ Obligations.BookedFlitsHaveTheirEffect := by
  intro h
  obtain ⟨hpass, hkind, hop, hlen⟩ := firstBytes_passes
  obtain ⟨hshort, hplace⟩ := askingTrain_awaits
  obtain ⟨-, -, hread, -⟩ := h awaitingData 5 firstBytes hpass
  have hrun := hread hkind hop (by rw [hlen]) askingTrain rfl rfl (by rwa [hlen]) 1 0 0x1000 hplace
  obtain ⟨u, ⟨-, htrains, -⟩, hland⟩ := hrun.of_ends firstBytes_land
  rw [htrains] at hland
  exact absurd hland (by decide)
end

section
/-! Engines and their cycles (R64, R68, R69): what a change of one engine leaves, an engine with nothing due, and one that issues. -/

namespace Sys2Proof.Machine

/-! ### One engine among the others -/

theorem engKey_inj {a b d e : Nat} (hb : b < 15) (he : e < 15) : engKey a b = engKey d e ↔ (a, b) = (d, e) := by
  unfold engKey
  rw [Prod.mk.injEq]
  omega

@[simp] theorem eng_setEng_same (s : State) (d e : Nat) (f : Engine → Engine) : eng (setEng s d e f) d e = f (eng s d e) :=
  Store.get_set_same _ _ _ _

theorem eng_setEng_ne (s : State) {a b d e : Nat} (f : Engine → Engine) (h : engKey a b ≠ engKey d e) :
    eng (setEng s d e f) a b = eng s a b := Store.get_set_ne _ h _ _

theorem same_setEng (s : State) (d e : Nat) (f : Engine → Engine) : Same [.engines] s (setEng s d e f) := same_engines s _

theorem OtherEngines.refl (s : State) (d e : Nat) : OtherEngines s s d e := fun _ _ _ _ => rfl

theorem OtherEngines.trans {s t u : State} {d e : Nat} (h : OtherEngines s t d e) (g : OtherEngines t u d e) : OtherEngines s u d e :=
  fun a b hb hab => (g a b hb hab).trans (h a b hb hab)

theorem otherEngines_setEng (s : State) (d : Nat) {e : Nat} (f : Engine → Engine) (he : e < 15) : OtherEngines s (setEng s d e f) d e :=
  fun _ _ hb hab => eng_setEng_ne s f (mt (engKey_inj hb he).1 hab)

theorem eng_congr {s t : State} (h : t.engines = s.engines) (d e : Nat) : eng t d e = eng s d e := by unfold eng; rw [h]

theorem Same.eng {ps : List Part} {s u : State} (h : Same ps s u) (hp : Part.engines ∉ ps) (d e : Nat) : eng u d e = eng s d e :=
  eng_congr (h .engines hp) d e

theorem OtherEngines.of_same {ps : List Part} {s u : State} (h : Same ps s u) (hp : Part.engines ∉ ps) (d e : Nat) : OtherEngines s u d e :=
  fun a b _ _ => h.eng hp a b

/-! ### Reaching a cycle (R69) -/

theorem minOf_mem {l : List Nat} {x : Nat} (h : minOf l = some x) : x ∈ l := by
  induction l generalizing x with
  | nil => exact absurd h (by simp [minOf])
  | cons a l ih =>
    rw [minOf] at h
    cases hm : minOf l with
    | none => simp_all
    | some y =>
      have hy := ih hm
      simp only [hm, Option.some.injEq] at h
      rcases Nat.le_total a y with ha | ha
      · rw [Nat.min_eq_left ha] at h
        simp [h]
      · rw [Nat.min_eq_right ha] at h
        simp [← h, hy]

/-- What is in flight of a quiet engine happens after the cycle. -/
theorem Quiet.lt_nextEvent {s : State} {d e c x : Nat} (h : Quiet s d e c) (hx : nextEvent s d e = some x) : c < x := by
  rcases List.mem_append.1 (minOf_mem hx) with hr | hw
  · obtain ⟨r, hmem, rfl⟩ := List.mem_map.1 hr
    exact h.1 r hmem
  · obtain ⟨w, hmem, rfl⟩ := List.mem_map.1 hw
    exact h.2 w hmem

theorem runTo_of_quiet {s : State} {d e c : Nat} (h : Quiet s d e c) (fuel : Nat) : runTo fuel s d e c = s := by
  cases fuel with
  | zero => rfl
  | succ n =>
    rw [runTo]
    cases hx : nextEvent s d e with
    | none => rfl
    | some x => exact if_neg (Nat.not_le.2 (h.lt_nextEvent hx))

/-- An engine that stands at cycle `c` or later, without the spans that end before. -/
def reachedAt (c : Nat) (x : Engine) : Engine := { x with cycle := max x.cycle c, spans := x.spans.filter (fun p => decide (c ≤ p.hi)) }

/-- An engine that has issued at cycle `c`. -/
def issuedAt (c : Nat) (x : Engine) : Engine := { reachedAt c x with next := c + 1 }

theorem reach_eq (s : State) (d e c : Nat) : reach s d e c = setEng (runTo (c + 1) s d e c) d e (reachedAt c) := rfl

theorem reach_of_quiet {s : State} {d e c : Nat} (h : Quiet s d e c) : reach s d e c = setEng s d e (reachedAt c) := by
  rw [reach_eq, runTo_of_quiet h]

/-! ### Issuing (R68) -/

theorem slotOpen_iff {s : State} {d e c : Nat} : slotOpen s d e c = true ↔ ttState s d = 4 ∧ c < segLen s d ∧ (eng s d e).hold = none
    ∧ (eng s d e).next ≤ c ∧ (eng s d e).cycle ≤ c ∧ (eng s d e).arrived = false ∧ windowBlocks s d e c = false := by
  simp [slotOpen, Option.isNone_iff_eq_none, and_assoc]

theorem canIssue_iff {s : State} {d e : Nat} {o : Order} :
    canIssue s d e o = true ↔ slotOpen s d e (fld o 0 24) = true ∧ nextOrder s d e = some o := by
  simp [canIssue]

section
variable {s : State} {d e c : Nat} (hq : Quiet s d e c)
include hq

theorem eng_atIssue : eng (atIssue s d e c) d e = issuedAt c (eng s d e) := by
  rw [atIssue, reach_of_quiet hq, eng_setEng_same, eng_setEng_same]
  rfl

theorem same_atIssue : Same [.engines] s (atIssue s d e c) := by
  rw [atIssue, reach_of_quiet hq]
  exact ((same_setEng _ _ _ _).trans (same_setEng _ _ _ _)).mono (by simp)

theorem otherEngines_atIssue (he : e < 15) : OtherEngines s (atIssue s d e c) d e := by
  rw [atIssue, reach_of_quiet hq]
  exact (otherEngines_setEng _ _ _ he).trans (otherEngines_setEng _ _ _ he)

theorem issuedAt_atIssue (hc : (eng s d e).cycle ≤ c) : IssuedAt (atIssue s d e c) d e c := by
  unfold IssuedAt
  rw [eng_atIssue hq]
  exact ⟨Nat.max_eq_right hc, rfl⟩

end

theorem IssuedAt.of_eng {s u : State} {d e c : Nat} (h : IssuedAt s d e c) (he : eng u d e = eng s d e) : IssuedAt u d e c := by
  unfold IssuedAt
  rwa [he]

/-! ### The fields of an order (R66) -/

theorem fld_mkOrder_issue {op : Nat} (issue : BitVec 24) (ops : BitVec 96) : fld (mkOrder op issue ops) 0 24 = issue.toNat := by
  have hi := issue.isLt
  rw [mkOrder, fld_ofNat (by decide)]
  omega

theorem fld_mkOrder_op {op : Nat} (hop : op < 256) (issue : BitVec 24) (ops : BitVec 96) : fld (mkOrder op issue ops) 24 8 = op := by
  have hi := issue.isLt
  rw [mkOrder, fld_ofNat (by decide)]
  omega

/-- A field of an order past its first word is a field of its operands. -/
theorem fld_mkOrder_ops {op lo len : Nat} (hop : op < 256) (issue : BitVec 24) (ops : BitVec 96) (h : lo + len ≤ 96) :
    fld (mkOrder op issue ops) (32 + lo) len = fld ops lo len := by
  have hi := issue.isLt
  have hword : (issue.toNat + 2 ^ 24 * op + 2 ^ 32 * ops.toNat) / 2 ^ 32 = ops.toNat := by omega
  rw [mkOrder, fld_ofNat (by omega), Nat.pow_add, ← Nat.div_div_eq_div_mul, hword, fld, natField, Nat.shiftRight_eq_div_pow]

theorem bitOf_mkOrder_ops {op i : Nat} (hop : op < 256) (issue : BitVec 24) (ops : BitVec 96) (h : i < 96) :
    bitOf (mkOrder op issue ops) (32 + i) = bitOf ops i := by
  have hf := fld_mkOrder_ops (len := 1) hop issue ops (show i + 1 ≤ 96 by omega)
  have ho := bitOf_eq_testBit_fld (mkOrder op issue ops) (lo := 32 + i) (len := 1) (i := 0) (by decide)
  have hs := bitOf_eq_testBit_fld ops (lo := i) (len := 1) (i := 0) (by decide)
  rw [hf] at ho
  exact ho.trans hs.symm

/-- What an order that may issue says of its engine. -/
theorem cycle_le_of_canIssue {s : State} {d e op : Nat} {issue : BitVec 24} {ops : BitVec 96}
    (h : canIssue s d e (mkOrder op issue ops) = true) : (eng s d e).cycle ≤ issue.toNat := by
  obtain ⟨hslot, -⟩ := canIssue_iff.1 h
  rw [fld_mkOrder_issue] at hslot
  obtain ⟨-, -, -, -, hcycle, -⟩ := slotOpen_iff.1 hslot
  exact hcycle

end Sys2Proof.Machine
end

section
/-! Booked flits on their way to a port, and late running (R78, R91, R92, R385): what they change, and nothing else. -/

namespace Sys2Proof.Machine

/-! ### Booked payloads (R385) -/

theorem leNat_append (a b : List Byte) : leNat (a ++ b) = leNat a + 256 ^ a.length * leNat b := by
  induction a with
  | nil => simp [leNat]
  | cons x a ih =>
    rw [List.cons_append, leNat, ih, leNat, List.length_cons]
    ring

/-- A field of a payload reads the bytes that stand at its offset. -/
theorem payNat_payloadOf {l a c : List Byte} {off n x : Nat} (hl : l = a ++ (leBytes n x ++ c)) (ho : a.length = off) (h : off + n ≤ 224) :
    payNat (payloadOf l) off n = x % 256 ^ n := by
  have hpow : ∀ k, 2 ^ (8 * k) = 256 ^ k := fun k => by rw [Nat.pow_mul]
  have hlt : leNat a < 256 ^ off := ho ▸ leNat_lt a
  have hpos : 0 < 256 ^ off := by positivity
  rw [payNat, payloadOf, fld_ofNat (by omega), hl, leNat_append, leNat_append, leNat_leBytes, length_leBytes, ho, hpow, hpow,
    Nat.add_mul_div_left _ _ hpos, Nat.div_eq_of_lt hlt, Nat.zero_add, Nat.add_mul_mod_self_left, Nat.mod_mod]

section
variable (op flags window len sig addr ret value : Nat) (data : List Byte)

theorem payNat_bookedPayload_op : payNat (bookedPayload op flags window len sig addr ret value data) 0 1 = op % 256 :=
  payNat_payloadOf (a := []) (by simp only [List.append_assoc, List.nil_append]; rfl) rfl (by decide)

theorem payNat_bookedPayload_sig : payNat (bookedPayload op flags window len sig addr ret value data) 6 2 = sig % 2 ^ 16 :=
  payNat_payloadOf (a := leBytes 1 op ++ leBytes 1 flags ++ leBytes 2 window ++ leBytes 2 len)
    (by simp only [List.append_assoc]; rfl) (by simp [length_leBytes]) (by decide)

theorem payNat_bookedPayload_value : payNat (bookedPayload op flags window len sig addr ret value data) 24 8 = value % 2 ^ 64 :=
  payNat_payloadOf (a := leBytes 1 op ++ leBytes 1 flags ++ leBytes 2 window ++ leBytes 2 len ++ leBytes 2 sig ++ leBytes 8 addr
    ++ leBytes 1 ret ++ leBytes 7 0) (by simp only [List.append_assoc]; rfl) (by simp [length_leBytes]) (by decide)

end

/-! ### Queues of ports -/

theorem same_sendBooked (s : State) (kind path dst owner : Nat) (pl : BitVec 1792) : Same [.regs, .om] s (sendBooked s kind path dst owner pl) := by
  unfold sendBooked
  split
  · exact same_setPort s _ _
  · exact Same.refl _ _

theorem omPort_setPort_same (s : State) (p : Nat) (f : OmPort → OmPort) : omPort (setPort s p f) p = f (omPort s p) :=
  Store.get_set_same _ _ _ _

/-- A booked flit stands last in the queue of its path's port. -/
theorem sendBooked_queues {s : State} {path dst p : Nat} (h : pathPort s path dst = some p) (kind owner : Nat) (pl : BitVec 1792) :
    (omPort (sendBooked s kind path dst owner pl) p).queue.getLast? = some (txFlit s kind path s.job.tag dst owner pl) := by
  unfold sendBooked
  simp only [h, enqueue, omPort_setPort_same]
  exact List.getLast?_concat

/-! ### Late running (R91, R92) -/

theorem same_setDie (s : State) (d : Nat) (f : DieTT → DieTT) : Same [.dies] s (setDie s d f) := same_dies s _

theorem same_lateCauses (s : State) (d : Nat) (causes : BitVec 16) : Same [.regs, .lateFlags, .dies, .port] s (lateCauses s d causes) := by
  unfold lateCauses
  extract_lets noted s1 s2 s3 s4
  have h2 : Same [.lateFlags, .regs] s s2 := (same_lateFlags s _).trans (same_wr s1 _ _)
  split
  · exact h2.mono (by simp)
  · exact (((h2.trans (same_setDie s2 d _)).trans (same_wr s3 _ _)).trans (same_post s4 _ _ _ _ _ _ _ _)).mono (by simp)

theorem regsBut_lateCauses (s : State) (d : Nat) (causes : BitVec 16) :
    RegsBut ([tt d 0, tt d 0x48] ++ noticeKeys) s (lateCauses s d causes) := by
  unfold lateCauses
  extract_lets noted s1 s2 s3 s4
  have h2 : RegsBut [tt d 0] s s2 := (regsBut_of_regs rfl).trans (regsBut_upd s1 _ _)
  split
  · exact h2.mono (by simp)
  · have h4 : RegsBut [tt d 0x48] s2 s4 := (regsBut_of_regs rfl).trans (regsBut_wrB s3 _ _ _)
    exact ((h2.trans h4).trans (regsBut_post s4 _ _ _ _ _ _ _ _)).mono (by simp)

theorem tt_inj {d a b : Nat} : tt d a = tt d b ↔ a = b := by
  unfold tt key
  omega

theorem tt_not_mem_noticeKeys {d off : Nat} (hd : d < 8) (ho : off < 2 ^ 30) : tt d off ∉ noticeKeys :=
  not_mem_noticeKeys (by omega) ho

/-- The causes of late running stand from bit 48 of TT_STATUS on. -/
theorem rdB_status_lateCauses (s : State) {d i : Nat} (causes : BitVec 16) (hd : d < 8) (hi : i < 48) :
    rdB (lateCauses s d causes) (tt d 0) i = rdB s (tt d 0) i := by
  unfold lateCauses
  extract_lets noted s1 s2 s3 s4
  have h2 : rdB s2 (tt d 0) i = rdB s (tt d 0) i := by
    show bitOf (rd (wr s1 _ _) _) i = _
    rw [rd_wr_same]
    simp [bitOf, rdB, hi, BitVec.getLsbD_shiftLeft]
    rfl
  split
  · exact h2
  · have h4 : RegsBut [tt d 0x48] s2 s4 := (regsBut_of_regs rfl).trans (regsBut_wrB s3 _ _ _)
    have hn := tt_not_mem_noticeKeys (off := 0) hd (by decide)
    rw [(regsBut_post s4 _ _ _ _ _ _ _ _).rdB hn, h4.rdB (by simp [tt_inj]), h2]

theorem same_countHold (s : State) (d : Nat) (causes : BitVec 16) : Same [.regs, .lateFlags, .dies, .port] s (countHold s d causes) :=
  ((same_wr s _ _).trans (same_lateCauses _ _ _)).mono (by simp)

theorem rd_holds_countHold (s : State) {d : Nat} (causes : BitVec 16) (hd : d < 8) :
    rd (countHold s d causes) (tt d 0x38) = satIncFld (rd s (tt d 0x38)) 0 32 := by
  have hk : tt d 0x38 ∉ [tt d 0, tt d 0x48] ++ noticeKeys := by
    simp [tt_inj, tt_not_mem_noticeKeys (off := 0x38) hd (by decide)]
  rw [countHold, regsBut_lateCauses _ _ _ _ hk, upd_wr, rd_wr_same]

theorem rdB_status_countHold (s : State) {d i : Nat} (causes : BitVec 16) (hd : d < 8) (hi : i < 48) :
    rdB (countHold s d causes) (tt d 0) i = rdB s (tt d 0) i := by
  rw [countHold, rdB_status_lateCauses _ _ hd hi]
  exact (regsBut_upd s _ _).rdB (by simp [tt_inj]) _

end Sys2Proof.Machine
end

section
/-! NOP, signal orders and signal waits of the engines (R67, R68, R76 to R78). -/

namespace Sys2Proof.Machine

/-! ### NOP -/

/-- The first that meets a weaker test meets a stronger one first if it meets it at all. -/
theorem find?_of_imp {α : Type} {p q : α → Bool} (h : ∀ x, p x = true → q x = true) {l : List α} {o : α} (hq : l.find? q = some o)
    (hp : p o = true) : l.find? p = some o := by
  obtain ⟨-, as, bs, hl, has⟩ := List.find?_eq_some_iff_append.1 hq
  refine List.find?_eq_some_iff_append.2 ⟨hp, as, bs, hl, fun x hx => ?_⟩
  have hx := has x hx
  cases hpx : p x with
  | false => rfl
  | true => simp [h x hpx] at hx

/-- The low word of an order that is a NOP is its ISSUE. -/
theorem fld_issue_of_nop {o : Order} {c : BitVec 24} (h : fld o 0 32 = c.toNat) : fld o 0 24 = c.toNat := by
  have hc := c.isLt
  have hlow : fld o 0 24 = fld o 0 32 % 2 ^ 24 := by
    unfold fld natField
    omega
  omega

theorem execNop_issues {s : State} {d : ADie} {e : EngineIx} {issue : BitVec 24} {o : Order} (h : canIssue s d e o = true)
    (ho : fld o 0 32 = issue.toNat) : exec (.nop d e issue) s = .next (atIssue s d e issue.toNat) := by
  obtain ⟨hslot, hnext⟩ := canIssue_iff.1 h
  rw [fld_issue_of_nop ho] at hslot
  obtain ⟨-, -, -, hle, -⟩ := slotOpen_iff.1 hslot
  have hfind : (curOrders s d e).find? (fun o => decide (fld o 0 32 = issue.toNat)) = some o := by
    refine find?_of_imp (fun x hx => ?_) hnext (by simpa using ho)
    rw [decide_eq_true_eq] at hx ⊢
    rwa [fld_issue_of_nop hx]
  show execNop d e issue s = _
  simp only [execNop, hfind, h, if_true]

/-! ### Signal orders -/

theorem same_sendSig (s : State) (o : SigOp) : Same [.sigOps] s (sendSig s o) := same_sigOps s _

theorem sigOps_sendSig (s : State) (o : SigOp) : (sendSig s o).sigOps = s.sigOps ++ [o] := rfl

/-- The operation that a signal order of an engine sends (R76). -/
def orderOp (d e : Nat) (ops : BitVec 96) (add : Bool) : SigOp :=
  { sig := fld ops 0 14, add := add, value := BitVec.ofNat 64 (fld ops 32 64), order := some (e, d), asker := 0, askId := 0
    setMode := false }

section
variable {s : State} {d : ADie} {e : EngineIx} {issue : BitVec 24} {ops : BitVec 96} {op : Nat} (add : Bool) (hop : op < 256)
include hop

theorem signalOut_local (hl : ops.getLsbD 14 = false) :
    signalOut s d e (mkOrder op issue ops) add = sendSig (atIssue s d e issue.toNat) (orderOp d e ops add) := by
  have hremote : bitOf (mkOrder op issue ops) 46 = false := (bitOf_mkOrder_ops (i := 14) hop issue ops (by decide)).trans hl
  have hsig : fld (mkOrder op issue ops) 32 14 = fld ops 0 14 := fld_mkOrder_ops (lo := 0) hop issue ops (by decide)
  have hval : fld (mkOrder op issue ops) 64 64 = fld ops 32 64 := fld_mkOrder_ops (lo := 32) hop issue ops (by decide)
  simp only [signalOut, fld_mkOrder_issue, hremote, hsig, hval, Bool.false_eq_true, if_false, orderOp]

theorem signalOut_remote (hr : ops.getLsbD 14 = true) :
    signalOut s d e (mkOrder op issue ops) add = sendBooked (atIssue s d e issue.toNat) 1 (fld ops 24 8) (fld ops 16 8) 0
      (bookedPayload (if add then 5 else 4) 0 0 0 (fld ops 0 14) 0 0 (fld ops 32 64) []) := by
  have hremote : bitOf (mkOrder op issue ops) 46 = true := (bitOf_mkOrder_ops (i := 14) hop issue ops (by decide)).trans hr
  have hpath : fld (mkOrder op issue ops) 56 8 = fld ops 24 8 := fld_mkOrder_ops (lo := 24) hop issue ops (by decide)
  have hdst : fld (mkOrder op issue ops) 48 8 = fld ops 16 8 := fld_mkOrder_ops (lo := 16) hop issue ops (by decide)
  have hsig : fld (mkOrder op issue ops) 32 14 = fld ops 0 14 := fld_mkOrder_ops (lo := 0) hop issue ops (by decide)
  have hval : fld (mkOrder op issue ops) 64 64 = fld ops 32 64 := fld_mkOrder_ops (lo := 32) hop issue ops (by decide)
  simp only [signalOut, remoteSignal, fld_mkOrder_issue, hremote, hpath, hdst, hsig, hval, if_true]

variable (hq : Quiet s d e issue.toNat) (hc : canIssue s d e (mkOrder op issue ops) = true)
include hq hc

/-- A signal order of this package leaves its engine toward its host. -/
theorem signalOut_local_shows (hl : ops.getLsbD 14 = false) :
    let u := signalOut s d e (mkOrder op issue ops) add
    IssuedAt u d e issue.toNat ∧ u.sigOps = s.sigOps ++ [orderOp d e ops add] ∧ OtherEngines s u d e ∧ Same [.engines, .sigOps] s u := by
  have hsame := same_atIssue hq
  have hsend := same_sendSig (atIssue s d e issue.toNat) (orderOp d e ops add)
  rw [signalOut_local add hop hl]
  refine ⟨(issuedAt_atIssue hq (cycle_le_of_canIssue hc)).of_eng (hsend.eng (by decide) _ _), ?_,
    (otherEngines_atIssue hq e.isLt).trans (.of_same hsend (by decide) _ _), hsame.trans hsend⟩
  rw [sigOps_sendSig, show (atIssue s d e issue.toNat).sigOps = s.sigOps from hsame .sigOps (by decide)]

/-- A remote one leaves as a booked flit on its path. -/
theorem signalOut_remote_shows (hr : ops.getLsbD 14 = true) :
    let u := signalOut s d e (mkOrder op issue ops) add
    IssuedAt u d e issue.toNat ∧ OtherEngines s u d e ∧ Same [.engines, .om, .regs] s u
      ∧ ∀ p, pathPort s (fld ops 24 8) (fld ops 16 8) = some p → ∃ f, (omPort u p).queue.getLast? = some f
        ∧ f.kind = 1 ∧ f.path = fld ops 24 8 ∧ f.dst = fld ops 16 8 ∧ payNat f.payload 0 1 = (if add then 5 else 4)
        ∧ payNat f.payload 6 2 = fld ops 0 14 ∧ payNat f.payload 24 8 = fld ops 32 64 := by
  have hsame := same_atIssue hq
  have hsig := fld_lt ops 0 14
  have hval := fld_lt ops 32 64
  rw [signalOut_remote add hop hr]
  generalize hpl : bookedPayload (if add then 5 else 4) 0 0 0 (fld ops 0 14) 0 0 (fld ops 32 64) [] = pl
  have hsend := same_sendBooked (atIssue s d e issue.toNat) 1 (fld ops 24 8) (fld ops 16 8) 0 pl
  refine ⟨(issuedAt_atIssue hq (cycle_le_of_canIssue hc)).of_eng (hsend.eng (by decide) _ _),
    (otherEngines_atIssue hq e.isLt).trans (.of_same hsend (by decide) _ _), (hsame.trans hsend).mono (by simp), fun p hp => ?_⟩
  have hport : pathPort (atIssue s d e issue.toNat) (fld ops 24 8) (fld ops 16 8) = some p := by
    rw [← hp]
    simp only [pathPort, orEntry, rd_congr (hsame .regs (by decide))]
  refine ⟨_, sendBooked_queues hport _ _ _, rfl, rfl, rfl, ?_, ?_, ?_⟩ <;> simp only [txFlit, ← hpl]
  · rw [payNat_bookedPayload_op]
    cases add <;> rfl
  · rw [payNat_bookedPayload_sig]
    omega
  · rw [payNat_bookedPayload_value, Nat.mod_eq_of_lt hval]

end

section
variable {s : State} {d : ADie} {e : EngineIx} {issue : BitVec 24} {ops : BitVec 96}

theorem execSigSet_issues (h : canIssue s d e (mkOrder 0x10 issue ops) = true) :
    exec (.sigSet d e issue ops) s = .next (signalOut s d e (mkOrder 0x10 issue ops) false) := by
  show execSigSet d e issue ops s = _
  rw [execSigSet, if_pos h]

theorem execSigAdd_issues (h : canIssue s d e (mkOrder 0x11 issue ops) = true) :
    exec (.sigAdd d e issue ops) s = .next (signalOut s d e (mkOrder 0x11 issue ops) true) := by
  show execSigAdd d e issue ops s = _
  rw [execSigAdd, if_pos h]

end

/-! ### Signal waits (R77) -/

theorem Quiet.mono {s : State} {d e b c : Nat} (h : Quiet s d e c) (hb : b ≤ c) : Quiet s d e b :=
  ⟨fun r hr => Nat.lt_of_le_of_lt hb (h.1 r hr), fun w hw => Nat.lt_of_le_of_lt hb (h.2 w hw)⟩

theorem signalWait_eq {s : State} {d e op : Nat} {issue : BitVec 24} {ops : BitVec 96} (w : Nat) (hop : op < 256) :
    signalWait s d e (mkOrder op issue ops) w
      = if waitHolds w (sigVal s (fld ops 0 14)) (BitVec.ofNat 64 (fld ops 32 64)) then atIssue s d e issue.toNat
        else holdAt s d e issue.toNat (.wait w (fld ops 0 14) (BitVec.ofNat 64 (fld ops 32 64)) false) := by
  have hsig : fld (mkOrder op issue ops) 32 14 = fld ops 0 14 := fld_mkOrder_ops (lo := 0) hop issue ops (by decide)
  have hval : fld (mkOrder op issue ops) 64 64 = fld ops 32 64 := fld_mkOrder_ops (lo := 32) hop issue ops (by decide)
  simp only [signalWait, fld_mkOrder_issue, hsig, hval]

/-- A wait in engine `e` of a die: its order, and the operation that it tests. -/
def waitOrders (d : ADie) (e : EngineIx) (issue : BitVec 24) (ops : BitVec 96) : List (Instr × Nat) :=
  [(.sigWaitGe d e issue ops, 0), (.sigWaitEq d e issue ops, 1), (.sigWaitMask d e issue ops, 2)]

theorem exec_wait {s : State} {d : ADie} {e : EngineIx} {issue : BitVec 24} {ops : BitVec 96} {a : Instr × Nat}
    (ha : a ∈ waitOrders d e issue ops) (hc : canIssue s d e (mkOrder (0x12 + a.2) issue ops) = true) :
    exec a.1 s = .next (signalWait s d e (mkOrder (0x12 + a.2) issue ops) a.2) := by
  simp only [waitOrders, List.mem_cons, List.not_mem_nil, or_false] at ha
  rcases ha with rfl | rfl | rfl
  · show execSigWaitGe d e issue ops s = _
    exact congrArg _ (if_pos hc)
  · show execSigWaitEq d e issue ops s = _
    exact congrArg _ (if_pos hc)
  · show execSigWaitMask d e issue ops s = _
    exact congrArg _ (if_pos hc)

theorem waitOrders_lt {d : ADie} {e : EngineIx} {issue : BitVec 24} {ops : BitVec 96} {a : Instr × Nat}
    (ha : a ∈ waitOrders d e issue ops) : 0x12 + a.2 < 256 := by
  simp only [waitOrders, List.mem_cons, List.not_mem_nil, or_false] at ha
  rcases ha with rfl | rfl | rfl <;> simp

theorem setHold_wait (s : State) (d e op n : Nat) (x : W64) (met : Bool) :
    setHold s d e (some (.wait op n x met)) = wrB (setEng s d e (fun y => { y with hold := some (.wait op n x met) })) (tt d 0) (5 + e) true :=
  rfl

theorem setHold_none (s : State) (d e : Nat) :
    setHold s d e none = wrB (setEng s d e (fun y => { y with hold := none })) (tt d 0) (5 + e) false := rfl

theorem same_setHold (s : State) (d e : Nat) (h : Option Hold) : Same [.engines, .regs] s (setHold s d e h) :=
  (same_setEng s d e _).trans (same_wr _ _ _)

theorem regsBut_setHold (s : State) (d e : Nat) (h : Option Hold) : RegsBut [tt d 0] s (setHold s d e h) := regsBut_wrB (setEng s d e _) _ _ _

@[simp] theorem eng_setHold_same (s : State) (d e : Nat) (h : Option Hold) : eng (setHold s d e h) d e = { eng s d e with hold := h } :=
  eng_setEng_same s d e (fun x => { x with hold := h })

theorem otherEngines_setHold (s : State) (d : Nat) {e : Nat} (h : Option Hold) (he : e < 15) : OtherEngines s (setHold s d e h) d e :=
  otherEngines_setEng s d (fun x => { x with hold := h }) he

/-- The state from which a wait is held at cycle `c`: its engine has reached the cycle before. -/
def beforeHold (s : State) (d e c : Nat) : State := if c = 0 then s else setEng s d e (reachedAt (c - 1))

theorem same_beforeHold (s : State) (d e c : Nat) : Same [.engines] s (beforeHold s d e c) := by
  unfold beforeHold
  split
  · exact Same.refl _ _
  · exact same_setEng _ _ _ _

theorem otherEngines_beforeHold (s : State) (d c : Nat) {e : Nat} (he : e < 15) : OtherEngines s (beforeHold s d e c) d e := by
  unfold beforeHold
  split
  · exact .refl _ _ _
  · exact otherEngines_setEng _ _ _ he

theorem inFlight_beforeHold (s : State) (d e c : Nat) : (eng (beforeHold s d e c) d e).reads = (eng s d e).reads
    ∧ (eng (beforeHold s d e c) d e).writes = (eng s d e).writes := by
  unfold beforeHold
  split
  · exact ⟨rfl, rfl⟩
  · rw [eng_setEng_same]
    exact ⟨rfl, rfl⟩

theorem holdAt_eq {s : State} {d e c : Nat} (hq : c = 0 ∨ Quiet s d e (c - 1)) (h : Hold) :
    holdAt s d e c h = setHold (setEng (beforeHold s d e c) d e (fun x => { x with next := c + 1 })) d e (some h) := by
  unfold holdAt beforeHold
  split
  next => rfl
  next hc => rw [reach_of_quiet (hq.resolve_left hc)]

section
variable {s : State} {d : ADie} {e : EngineIx} {c : Nat} (hq : c = 0 ∨ Quiet s d e (c - 1))
include hq

/-- An engine that a wait holds at its issue cycle. -/
theorem holdAt_shows (op n : Nat) (x : W64) (met : Bool) :
    let u := holdAt s d e c (.wait op n x met)
    (eng u d e).hold = some (.wait op n x met) ∧ (eng u d e).next = c + 1 ∧ (eng u d e).reads = (eng s d e).reads
      ∧ (eng u d e).writes = (eng s d e).writes ∧ rdB u (tt d 0) (5 + e) = true ∧ OtherEngines s u d e ∧ RegsBut [tt d 0] s u
      ∧ Same [.engines, .regs] s u := by
  obtain ⟨hreads, hwrites⟩ := inFlight_beforeHold s d e c
  have hsame := (same_beforeHold s d e c).trans (same_setEng (beforeHold s d e c) d e (fun x => { x with next := c + 1 }))
  have hregs := regsBut_of_regs (hsame .regs (by decide))
  rw [holdAt_eq hq]
  refine ⟨by simp, by simp, by simp [hreads], by simp [hwrites], ?_, ?_, hregs.trans (regsBut_setHold _ _ _ _),
    (hsame.trans (same_setHold _ _ _ _)).mono (by simp)⟩
  · rw [setHold_wait]
    exact rdB_wrB_same _ _ _ _ (by omega)
  · exact ((otherEngines_beforeHold s d c e.isLt).trans (otherEngines_setEng _ _ _ e.isLt)).trans (otherEngines_setHold _ _ _ e.isLt)

end

section
variable {s : State} {d : ADie} {e : EngineIx} {issue : BitVec 24} {ops : BitVec 96} {a : Instr × Nat}
  (ha : a ∈ waitOrders d e issue ops) (hc : canIssue s d e (mkOrder (0x12 + a.2) issue ops) = true)
include ha hc

theorem wait_passes (h : waitHolds a.2 (sigVal s (fld ops 0 14)) (BitVec.ofNat 64 (fld ops 32 64)) = true) :
    exec a.1 s = .next (atIssue s d e issue.toNat) := by
  rw [exec_wait ha hc, signalWait_eq _ (waitOrders_lt ha), if_pos h]

theorem wait_holds (h : waitHolds a.2 (sigVal s (fld ops 0 14)) (BitVec.ofNat 64 (fld ops 32 64)) = false) :
    exec a.1 s = .next (holdAt s d e issue.toNat (.wait a.2 (fld ops 0 14) (BitVec.ofNat 64 (fld ops 32 64)) false)) := by
  rw [exec_wait ha hc, signalWait_eq _ (waitOrders_lt ha), h]
  rfl

end

/-- A wait that passes issues, and its engine goes on. -/
theorem atIssue_of_wait_shows {s : State} {d : ADie} {e : EngineIx} {issue : BitVec 24} {ops : BitVec 96} {op : Nat}
    (hq : Quiet s d e issue.toNat) (hc : canIssue s d e (mkOrder op issue ops) = true) :
    let u := atIssue s d e issue.toNat
    IssuedAt u d e issue.toNat ∧ (eng u d e).hold = none ∧ OtherEngines s u d e ∧ RegsBut [] s u ∧ Same [.engines] s u := by
  obtain ⟨hslot, -⟩ := canIssue_iff.1 hc
  obtain ⟨-, -, hhold, -⟩ := slotOpen_iff.1 hslot
  have hsame := same_atIssue hq
  exact ⟨issuedAt_atIssue hq (cycle_le_of_canIssue hc), by rw [eng_atIssue hq]; exact hhold, otherEngines_atIssue hq e.isLt,
    regsBut_of_regs (hsame .regs (by decide)), hsame⟩

/-! ### The end of a wait (R77, R91) -/

theorem execSignalWaitRelease_met {s : State} {d : ADie} {e : EngineIx} {op n : Nat} {x : W64} {met : Bool}
    (hh : (eng s d e).hold = some (.wait op n x met)) (h : met = true ∨ waitHolds op (sigVal s n) x = true) :
    exec (.signalWaitRelease d (.engine e)) s = .next (countHold (letGo s d e) d 0) := by
  show execSignalWaitRelease d (.engine e) s = _
  simp only [execSignalWaitRelease, hh, Bool.or_eq_true, h, if_true]

section
variable {s : State} {d : ADie} {e : EngineIx} (hq : Quiet s d e ((eng s d e).next - 1))
include hq

theorem letGo_eq : letGo s d e = setEng (setHold s d e none) d e (reachedAt ((eng s d e).next - 1)) := by
  refine reach_of_quiet ?_
  unfold Quiet
  rwa [eng_setHold_same]

theorem letGo_shows : let u := letGo s d e
    (eng u d e).hold = none ∧ rdB u (tt d 0) (5 + e) = false ∧ RegsBut [tt d 0] s u ∧ OtherEngines s u d e
      ∧ Same [.engines, .regs] s u := by
  have hlast := same_setEng (setHold s d e none) d e (reachedAt ((eng s d e).next - 1))
  have hregs := regsBut_of_regs (hlast .regs (by decide))
  rw [letGo_eq hq]
  refine ⟨by rw [eng_setEng_same, eng_setHold_same]; rfl, ?_, (regsBut_setHold s d e none).trans hregs,
    (otherEngines_setHold s d none e.isLt).trans (otherEngines_setEng _ _ _ e.isLt),
    ((same_setHold s d e none).trans hlast).mono (by simp)⟩
  rw [hregs.rdB (by simp), setHold_none]
  exact rdB_wrB_same _ _ _ _ (by omega)

theorem countHold_letGo_shows : let u := countHold (letGo s d e) d 0
    (eng u d e).hold = none ∧ rdB u (tt d 0) (5 + e) = false ∧ rd u (tt d 0x38) = satIncFld (rd s (tt d 0x38)) 0 32
      ∧ OtherEngines s u d e ∧ Same [.regs, .engines, .lateFlags, .dies, .port] s u := by
  obtain ⟨hhold, hheld, hreg, hother, hsame⟩ := letGo_shows hq
  have hcount := same_countHold (letGo s d e) d 0
  refine ⟨by rw [hcount.eng (by decide), hhold], ?_, ?_, hother.trans (.of_same hcount (by decide) _ _),
    (hsame.trans hcount).mono (by simp)⟩
  · rw [rdB_status_countHold _ _ d.isLt (by omega), hheld]
  · rw [rd_holds_countHold _ _ d.isLt, hreg _ (by simp [tt_inj])]

end

end Sys2Proof.Machine

open Sys2Proof Sys2Proof.Machine

/-- Settles O12: NOP, the two signal orders here and to other packages, the three waits, and the end of a wait. -/
theorem signalOrdersAndWaits : Obligations.SignalOrdersAndWaits := by
  refine ⟨fun s d e issue ops hq => ⟨?nop, ?here, ?remote⟩, fun s d e issue ops => ⟨?wait, ?held, ?release⟩⟩
  case nop =>
    intro o hc ho
    obtain ⟨hslot, -⟩ := canIssue_iff.1 hc
    rw [fld_issue_of_nop ho] at hslot
    obtain ⟨-, -, -, -, hcycle, -⟩ := slotOpen_iff.1 hslot
    exact ⟨_, execNop_issues hc ho, issuedAt_atIssue hq hcycle, otherEngines_atIssue hq e.isLt, same_atIssue hq⟩
  case here =>
    exact fun hl => ⟨fun hc => ⟨_, execSigSet_issues hc, signalOut_local_shows false (by decide) hq hc hl⟩,
      fun hc => ⟨_, execSigAdd_issues hc, signalOut_local_shows true (by decide) hq hc hl⟩⟩
  case remote =>
    exact fun hr => ⟨fun hc => ⟨_, execSigSet_issues hc, signalOut_remote_shows false (by decide) hq hc hr⟩,
      fun hc => ⟨_, execSigAdd_issues hc, signalOut_remote_shows true (by decide) hq hc hr⟩⟩
  case wait =>
    intro hq a ha hc
    cases hw : waitHolds a.2 (sigVal s (fld ops 0 14)) (BitVec.ofNat 64 (fld ops 32 64)) with
    | true =>
      obtain ⟨hissued, hhold, hother, hreg, hsame⟩ := atIssue_of_wait_shows hq hc
      exact ⟨_, wait_passes ha hc hw, hissued.2, hother, hsame.mono (by simp), fun _ => ⟨hissued, hhold, hreg⟩, nofun⟩
    | false =>
      obtain ⟨hhold, hnext, -, -, hheld, hother, hreg, hsame⟩ := holdAt_shows (.inr (hq.mono (Nat.sub_le _ 1))) a.2 (fld ops 0 14)
        (BitVec.ofNat 64 (fld ops 32 64)) false
      exact ⟨_, wait_holds ha hc hw, hnext, hother, hsame, nofun, fun _ => ⟨hhold, hheld, hreg⟩⟩
  case held =>
    intro hq a ha hc hw
    obtain ⟨hhold, -, hreads, hwrites, -, -, hreg, hsame⟩ := holdAt_shows hq a.2 (fld ops 0 14) (BitVec.ofNat 64 (fld ops 32 64)) false
    exact ⟨_, wait_holds ha hc hw, hhold, hreads, hwrites, hreg, hsame⟩
  case release =>
    exact fun op n x met hh hmet hq => ⟨_, execSignalWaitRelease_met hh hmet, countHold_letGo_shows hq⟩
end

section
/-! Signals at their host (R79, R80, R108, R109, R585): operations in one cycle of the host, the signal block, and wait slots. -/

namespace Sys2Proof.Machine

theorem same_otherOp (s : State) (mine : Call → Bool) (k kind : Nat) : Same [.calls] s (otherOp s mine k kind) := same_calls s _

theorem same_setThread (s : State) (k : Nat) (f : Thread → Thread) : Same [.threads] s (setThread s k f) := same_threads s _

/-! ### One operation -/

/-- The value of a signal after an operation on it (R76). -/
def SigOp.result (o : SigOp) (old : W64) : W64 := if o.add then old + o.value else o.value

/-- An operation that nobody waits for. -/
theorem applySig_eq {s : State} {o : SigOp} (ha : o.asker = 0) : applySig s o =
    { (if o.setMode then s else otherOp s (fun _ => false) (2 ^ 62 + o.sig) 0) with
      signals := Store.set (fun _ => 0) s.signals o.sig (o.result (sigVal s o.sig)) } := by
  unfold applySig answerSig SigOp.result
  simp only [ha]
  cases o.setMode <;> rfl

theorem sigVal_applySig {s : State} {o : SigOp} (ha : o.asker = 0) (n : Nat) :
    sigVal (applySig s o) n = if n = o.sig then o.result (sigVal s o.sig) else sigVal s n := by
  rw [applySig_eq ha]
  exact Store.get_set _ _ _ _ _

theorem same_applySig {s : State} {o : SigOp} (ha : o.asker = 0) : Same [.signals, .calls] s (applySig s o) := by
  rw [applySig_eq ha]
  split
  · exact (same_signals s _).mono (by simp)
  · exact ((same_otherOp s _ _ _).trans (same_signals _ _)).mono (by simp)

/-! ### Waits see the signals (R79, R585) -/

theorem same_seeWaits (s : State) (d : Nat) : Same [.engines, .regs, .threads, .slotsDue] s (seeWaits s d) := by
  unfold seeWaits
  extract_lets s1 s2
  have h1 : Same [.engines, .regs] s s1 := Same.foldl _ (fun s e => by
    split
    · split
      · exact same_setHold s d e _
      · exact Same.refl _ _
    · exact Same.refl _ _) _ s
  have h2 : Same [.threads] s1 s2 := Same.foldl _ (fun s k => by
    split
    · extract_lets v
      split
      · exact same_setThread s k _
      · exact Same.refl _ _
    · exact Same.refl _ _) _ s1
  refine ((h1.trans h2).trans (Same.foldl (ps := [.slotsDue]) _ (fun s w => ?_) (upTo 64) s2)).mono (by simp)
  split
  · exact same_slotsDue s _
  · exact Same.refl _ _

/-! ### The operations of one cycle -/

/-- The operations on their way that the picks leave there. -/
def leftOps (l : List SigOp) (picks : List Nat) (d : Nat) : List SigOp :=
  ((upTo l.length).filter (fun i => match l[i]? with
    | some o => !(picks.contains i && decide (sigHost o.sig = d))
    | none => false)).filterMap (fun i => l[i]?)

/-- The operations that the picks bring to the die, in order of arrival. -/
def pickedOps (l : List SigOp) (picks : List Nat) (d : Nat) : List SigOp :=
  (picks.filterMap (fun i => l[i]?)).filter (fun o => decide (sigHost o.sig = d))

/-- The operations in the order in which they take effect (R79). -/
def rankedOps (l : List SigOp) : List SigOp := l.foldl (fun l o => insertSig o l) []

theorem exec_signalOpArrival (d : ADie) (picks : List Nat) (s : State) : exec (.signalOpArrival d picks) s =
    .next (seeWaits (incBy ((rankedOps (pickedOps s.sigOps picks d)).foldl applySig { s with sigOps := leftOps s.sigOps picks d }) (hp 0x120)
      (racedSignals (pickedOps s.sigOps picks d))) d) := rfl

theorem filterMap_getElem?_upTo {α : Type} (l : List α) : (upTo l.length).filterMap (fun i => l[i]?) = l := by
  induction l with
  | nil => rfl
  | cons x l ih =>
    rw [upTo, List.length_cons, List.range_succ_eq_map, List.filterMap_cons, List.filterMap_map]
    exact congrArg (x :: ·) ih

/-- Where the first operation is for the die and alone picked, the others are left. -/
theorem leftOps_first {l : List SigOp} {o : SigOp} {d : Nat} (ho : l[0]? = some o) (hd : sigHost o.sig = d) :
    leftOps l [0] d = l.drop 1 := by
  cases l with
  | nil => simp at ho
  | cons x l =>
    obtain rfl : x = o := by simpa using ho
    unfold leftOps
    rw [upTo, List.length_cons, List.range_succ_eq_map, List.filter_cons_of_neg (by simp [hd]), List.filter_eq_self.2,
      List.filterMap_map]
    · exact filterMap_getElem?_upTo l
    · intro i hi
      obtain ⟨j, hj, rfl⟩ := List.mem_map.1 hi
      simp [List.getElem?_eq_getElem (List.mem_range.1 hj)]

theorem pickedOps_first {l : List SigOp} {o : SigOp} {d : Nat} (ho : l[0]? = some o) (hd : sigHost o.sig = d) : pickedOps l [0] d = [o] := by
  simp [pickedOps, ho, hd]

/-- A SET of an order comes before an ADD of an order, however they arrive. -/
theorem rankedOps_set_add {l : List SigOp} {a b : SigOp} {d : Nat} (ha : l[0]? = some a) (hb : l[1]? = some b) (had : sigHost a.sig = d)
    (hbd : sigHost b.sig = d) (h : sigRank b < sigRank a) {picks : List Nat} (hp : picks ∈ [[0, 1], [1, 0]]) :
    rankedOps (pickedOps l picks d) = [b, a] := by
  simp only [List.mem_cons, List.not_mem_nil, or_false] at hp
  rcases hp with rfl | rfl
  · simp [pickedOps, rankedOps, insertSig, ha, hb, had, hbd, h]
  · simp [pickedOps, rankedOps, insertSig, ha, hb, had, hbd, Nat.not_lt.2 (Nat.le_of_lt h)]

theorem sigRank_set_lt_add {a b : SigOp} (ha : a.order ≠ none) (hb : b.order ≠ none) (hadd : a.add = true) (hset : b.add = false)
    (hrange : ∀ e x, b.order = some (e, x) → e < 15 ∧ x < 8) : sigRank b < sigRank a := by
  obtain ⟨⟨e, x⟩, hbo⟩ := Option.ne_none_iff_exists'.1 hb
  obtain ⟨⟨f, y⟩, hao⟩ := Option.ne_none_iff_exists'.1 ha
  obtain ⟨he, hx⟩ := hrange e x hbo
  simp only [sigRank, hbo, hao, hadd, hset, if_true, Bool.false_eq_true, if_false]
  omega

theorem sigVal_congr {s u : State} (h : u.signals = s.signals) (n : Nat) : sigVal u n = sigVal s n := by
  unfold sigVal
  rw [h]

/-- What the die does after the operations of its cycle leaves the signals. -/
theorem same_seen (s : State) (d n : Nat) : Same [.engines, .regs, .threads, .slotsDue] s (seeWaits (incBy s (hp 0x120) n) d) :=
  ((same_wr s _ _).trans (same_seeWaits _ d)).mono (by simp)

theorem signalOpArrival_first {s : State} {d : ADie} {o : SigOp} (ho : s.sigOps[0]? = some o) (ha : o.asker = 0) (hd : sigHost o.sig = d) :
    Runs (.signalOpArrival d [0]) s (fun u =>
      sigVal u o.sig = (if o.add then sigVal s o.sig + o.value else o.value) ∧ (∀ n, n ≠ o.sig → sigVal u n = sigVal s n)
      ∧ u.sigOps = s.sigOps.drop 1 ∧ Same [.signals, .sigOps, .regs, .engines, .threads, .slotsDue, .calls] s u) := by
  refine ⟨_, exec_signalOpArrival d [0] s, ?_⟩
  rw [leftOps_first ho hd, pickedOps_first ho hd]
  generalize hs1 : ({ s with sigOps := s.sigOps.drop 1 } : State) = s1
  have h1 : Same [.sigOps] s s1 := hs1 ▸ same_sigOps s _
  have happly := same_applySig (s := s1) ha
  have hseen := same_seen (applySig s1 o) d (racedSignals [o])
  have hval : ∀ n, sigVal (seeWaits (incBy (applySig s1 o) (hp 0x120) (racedSignals [o])) d) n
      = if n = o.sig then o.result (sigVal s o.sig) else sigVal s n := fun n => by
    rw [sigVal_congr (hseen .signals (by decide)), sigVal_applySig ha, sigVal_congr (h1 .signals (by decide)),
      sigVal_congr (h1 .signals (by decide))]
  refine ⟨(hval o.sig).trans (if_pos rfl), fun n hn => (hval n).trans (if_neg hn), ?_, ((h1.trans happly).trans hseen).mono (by simp)⟩
  have hleft : s1.sigOps = s.sigOps.drop 1 := by rw [← hs1]
  exact Eq.trans (hseen .sigOps (by decide)) (Eq.trans (happly .sigOps (by decide)) hleft)

theorem signalOpArrival_set_add {s : State} {d : ADie} {a b : SigOp} {picks : List Nat} (ha : s.sigOps[0]? = some a)
    (hb : s.sigOps[1]? = some b) (haa : a.asker = 0) (hba : b.asker = 0) (hsig : a.sig = b.sig) (hd : sigHost a.sig = d)
    (hadd : a.add = true) (hset : b.add = false) (hrank : sigRank b < sigRank a) (hp : picks ∈ [[0, 1], [1, 0]]) :
    Runs (.signalOpArrival d picks) s (fun u => sigVal u a.sig = b.value + a.value) := by
  refine ⟨_, exec_signalOpArrival d picks s, ?_⟩
  show sigVal _ _ = _
  rw [sigVal_congr (same_seen _ d _ .signals (by decide)), rankedOps_set_add ha hb hd (hsig ▸ hd) hrank hp]
  simp [sigVal_applySig haa, sigVal_applySig hba, SigOp.result, hadd, hset, hsig]

/-! ### The signal block (R80, R108) -/

theorem sgWrite_open {s : State} (h : sigOpen s = true) (d k : Nat) (v : W64) (add : Bool) : sgWrite s d k v add
    = sendSig s { sig := d * 2048 + k, add := add, value := v, order := none, asker := 0, askId := 0, setMode := false } := if_pos h

theorem sgWrite_closed {s : State} (h : sigOpen s = false) (d k : Nat) (v : W64) (add : Bool) : sgWrite s d k v add = inc s (sg d 0x8808) := by
  rw [sgWrite, h]
  rfl

theorem inc_shows (s : State) (k : Nat) : rd (inc s k) k = satInc (rd s k) ∧ RegsBut [k] s (inc s k) ∧ Same [.regs] s (inc s k) :=
  ⟨by rw [inc_wr, rd_wr_same], regsBut_wr _ _ _, same_wr _ _ _⟩

theorem exec_sgWaitCfgWrite_bad {s : State} {d : ADie} {w : BitVec 6} {v : W64} (h : fld v 11 2 = 3) :
    exec (.sgWaitCfgWrite d w v) s = .next (inc s (sg d 0x8808)) := congrArg _ (if_pos h)

/-- The state with a wait slot configured, before its condition is looked at. -/
def slotConfigured (s : State) (d w : Nat) (v : W64) : State := wr s (sg d (0x8000 + 32 * w)) (v &&& 0x3FFF)

theorem exec_sgWaitCfgWrite_good {s : State} {d : ADie} {w : BitVec 6} {v : W64} (h : fld v 11 2 ≠ 3) :
    exec (.sgWaitCfgWrite d w v) s = .next { slotConfigured s d w.toNat v with
      slotsDue := Store.set (fun _ => false) s.slotsDue (d * 64 + w.toNat) (slotHolds (slotConfigured s d w.toNat v) d w.toNat) } :=
  congrArg _ (if_neg h)

/-! ### Wait slots (R109) -/

theorem sg_inj {d a b : Nat} : sg d a = sg d b ↔ a = b := by
  unfold sg key
  omega

/-- The state of a wait slot that fires: disarmed, and shown as fired. -/
def slotFired (s : State) (d w : Nat) : State := wrB (wrB s (sg d (0x8000 + 32 * w)) 13 false) (sg d 0x8800) w true

theorem exec_waitSlotFire_holds {s : State} {d : ADie} {w : BitVec 6} (harm : rdB s (sg d (0x8000 + 32 * w.toNat)) 13 = true)
    (h : slotHolds s d w.toNat = true) : exec (.waitSlotFire d w) s = .next { slotFired s d w.toNat with
      slotsDue := Store.erase (d * 64 + w.toNat) s.slotsDue
      msis := s.msis ++ [(d.val, rd (slotFired s d w.toNat) (sg d (0x8010 + 32 * w.toNat)),
        BitVec.setWidth 32 (rd (slotFired s d w.toNat) (sg d (0x8018 + 32 * w.toNat))))] } := by
  show execWaitSlotFire d w s = _
  simp only [execWaitSlotFire, harm, h, Bool.or_true, Bool.and_true, if_true]
  rfl

theorem regsBut_slotFired (s : State) (d w : Nat) : RegsBut [sg d (0x8000 + 32 * w), sg d 0x8800] s (slotFired s d w) :=
  (regsBut_wrB s _ _ _).trans (regsBut_wrB _ _ _ _)

theorem same_slotFired (s : State) (d w : Nat) : Same [.regs] s (slotFired s d w) :=
  ((same_wr s _ _).trans (same_wr _ _ _)).mono (by simp)

theorem same_slotsDue_msis (s : State) (x : Store Bool) (y : List (Nat × W64 × W32)) :
    Same [.slotsDue, .msis] s { s with slotsDue := x, msis := y } := (same_slotsDue s x).trans (same_msis _ y)

theorem slotFired_shows (s : State) (d : Nat) {w : Nat} (hw : w < 64) : rdB (slotFired s d w) (sg d (0x8000 + 32 * w)) 13 = false
    ∧ rdB (slotFired s d w) (sg d 0x8800) w = true := by
  refine ⟨?_, rdB_wrB_same _ _ _ _ hw⟩
  rw [slotFired, (regsBut_wrB _ _ _ _).rdB (by simp [sg_inj]; omega), rdB_wrB_same _ _ _ _ (by decide)]

theorem waitSlotFire_runs {s : State} {d : ADie} {w : BitVec 6} (harm : rdB s (sg d (0x8000 + 32 * w.toNat)) 13 = true)
    (h : slotHolds s d w.toNat = true) : Runs (.waitSlotFire d w) s (fun u =>
      rdB u (sg d (0x8000 + 32 * w.toNat)) 13 = false ∧ rdB u (sg d 0x8800) w.toNat = true
      ∧ u.msis = s.msis ++ [(d.val, rd s (sg d (0x8010 + 32 * w.toNat)), BitVec.setWidth 32 (rd s (sg d (0x8018 + 32 * w.toNat))))]
      ∧ RegsBut [sg d (0x8000 + 32 * w.toNat), sg d 0x8800] s u ∧ Same [.regs, .slotsDue, .msis] s u) := by
  have hw := w.isLt
  have hreg := regsBut_slotFired s d w.toNat
  obtain ⟨hoff, hon⟩ := slotFired_shows s d hw
  refine ⟨_, exec_waitSlotFire_holds harm h, hoff, hon, ?_, hreg, ?_⟩
  · rw [hreg _ (by simp [sg_inj]; omega), hreg _ (by simp [sg_inj]; omega)]
  · exact (same_slotFired s d w.toNat).trans (same_slotsDue_msis _ _ _)

end Sys2Proof.Machine

open Sys2Proof Sys2Proof.Machine

/-- Settles O13: one operation and a SET with an ADD in a cycle of their host, the signal block, and the wait slots. -/
theorem signalsAtTheirHost : Obligations.SignalsAtTheirHost := by
  refine fun s d k w v => ⟨fun _ => signalOpArrival_first, fun a b ha hb haa hba hsig hd hao hbo hadd hset hrange picks =>
    signalOpArrival_set_add ha hb haa hba hsig hd hadd hset (sigRank_set_lt_add hao hbo hadd hset hrange), fun ho => ?admitted, fun ho => ?counted,
    fun h => ⟨_, exec_sgWaitCfgWrite_good h, rd_wr_same _ _ _, regsBut_wr _ _ _, (same_wr _ _ _).trans (same_slotsDue _ _)⟩,
    fun h => ⟨_, exec_sgWaitCfgWrite_bad h, inc_shows _ _⟩, waitSlotFire_runs⟩
  case admitted =>
    intro a ha
    simp only [List.mem_cons, List.not_mem_nil, or_false] at ha
    rcases ha with rfl | rfl
    · exact ⟨_, congrArg Host.Outcome.next (sgWrite_open ho d k.toNat v false), rfl, same_sendSig _ _⟩
    · exact ⟨_, congrArg Host.Outcome.next (sgWrite_open ho d k.toNat v true), rfl, same_sendSig _ _⟩
  case counted =>
    intro a ha
    simp only [List.mem_cons, List.not_mem_nil, or_false] at ha
    rcases ha with rfl | rfl
    · exact ⟨_, congrArg Host.Outcome.next (sgWrite_closed ho d k.toNat v false), inc_shows _ _⟩
    · exact ⟨_, congrArg Host.Outcome.next (sgWrite_closed ho d k.toNat v true), inc_shows _ _⟩
end

section
/-! The main array at its cycles (R69, R72, R131, R134, R135, R155): what an order reads goes in flight, and terms in flight are added. -/

namespace Sys2Proof.Machine

/-! ### One event of an engine -/

/-- An engine that reaches the cycle of its next event, after which nothing is due. -/
theorem reach_of_event {s : State} {d e t : Nat} (hx : nextEvent s d e = some t) (hq : Quiet (doReads (doWrites s d e t) d e t) d e t) :
    reach s d e t = setEng (doReads (doWrites s d e t) d e t) d e (reachedAt t) := by
  rw [reach_eq, runTo, hx]
  exact congrArg (setEng · d e (reachedAt t)) ((if_pos (Nat.le_refl t)).trans (runTo_of_quiet hq t))

/-- The writes that are not due at cycle `t` stay in flight. -/
def writesLeft (t : Nat) (x : Engine) : Engine := { x with writes := x.writes.filter (fun w => !decide (w.time ≤ t)) }

/-- The reads that are not due at cycle `t` stay in flight. -/
def readsLeft (t : Nat) (x : Engine) : Engine := { x with reads := x.reads.filter (fun r => !decide (r.time ≤ t)) }

theorem doWrites_of_no_write {s : State} {d e : Nat} (h : (eng s d e).writes = []) (t : Nat) :
    doWrites s d e t = setEng s d e (writesLeft t) := by
  simp only [doWrites, dueWrites, h, List.filter_nil, List.foldr_nil, List.foldl_nil]
  rfl

theorem doWrites_of_one_write {s : State} {d e : Nat} {w : WriteOp} (h : (eng s d e).writes = [w]) :
    doWrites s d e w.time = applyPut (setEng s d e (writesLeft w.time)) d e w.put := by
  simp [doWrites, dueWrites, h, insertWrite]
  rfl

theorem doReads_of_no_read {s : State} {d e : Nat} (h : (eng s d e).reads = []) (t : Nat) : doReads s d e t = setEng s d e (readsLeft t) := by
  simp only [doReads, h, List.filter_nil, List.foldl_nil]
  rfl

theorem doReads_of_one_read {s : State} {d e : Nat} {r : ReadOp} (h : (eng s d e).reads = [r]) :
    doReads s d e r.time = doRead (setEng s d e (readsLeft r.time)) d e r := by
  simp [doReads, h]
  rfl

/-- The main array's engine alone reaches its next write cycle. -/
theorem exec_orderWriteCycle_main (s : State) (d : ADie) (grant : Fin 4097) :
    exec (.orderWriteCycle d 1 grant) s = .next (engineWrites s d 0 grant.val) := rfl

theorem engineWrites_of_event {s : State} {d t n : Nat} (hx : nextEvent s d 0 = some t)
    (hw : ∀ x, minOf ((eng s d 0).writes.map WriteOp.time) = some x → x = t) (hm : mayReach s d 0 t = true) :
    engineWrites s d 0 n = reach s d 0 t := by
  unfold engineWrites
  rw [hx]
  cases hmin : minOf ((eng s d 0).writes.map WriteOp.time) with
  | none => exact if_pos hm
  | some x =>
    obtain rfl := hw x hmin
    exact if_pos hm

/-! ### A part of an order is read -/

/-- What a read of an order at its cycle puts in flight. -/
def flights (r : ReadOp) (ws : List (Nat × Put)) : List WriteOp := ws.map (fun w => { time := w.1, issue := r.issue, put := w.2 })

/-- The parts of main array orders read memory, planes and entries, and no engine. -/
theorem maPart_setEng (s : State) (d a b : Nat) (f : Engine → Engine) (r : ReadOp) : maPart (setEng s a b f) d r = maPart s d r := rfl

theorem doRead_main (s : State) (d : Nat) (r : ReadOp) : doRead s d 0 r = setEng s d 0 (fun x =>
    { x with writes := x.writes ++ flights r (maPart s d r).1, reads := x.reads ++ (maPart s d r).2.toList }) := rfl

/-- The engine after its only read in flight is read at its cycle. -/
theorem eng_read {s : State} {d : Nat} {r : ReadOp} (hw : (eng s d 0).writes = []) (hr : (eng s d 0).reads = [r]) :
    eng (doReads (doWrites s d 0 r.time) d 0 r.time) d 0
      = { eng s d 0 with writes := flights r (maPart s d r).1, reads := (maPart s d r).2.toList } := by
  have h1 : eng (setEng s d 0 (writesLeft r.time)) d 0 = eng s d 0 := by
    rw [eng_setEng_same, writesLeft, hw, List.filter_nil, ← hw]
  rw [doWrites_of_no_write hw, doReads_of_one_read (by rw [h1, hr]), doRead_main, eng_setEng_same, eng_setEng_same, h1, maPart_setEng,
    maPart_setEng]
  simp [readsLeft, hw, hr]

theorem same_read {s : State} {d : Nat} {r : ReadOp} (hw : (eng s d 0).writes = []) (hr : (eng s d 0).reads = [r]) :
    Same [.engines] s (doReads (doWrites s d 0 r.time) d 0 r.time)
      ∧ OtherEngines s (doReads (doWrites s d 0 r.time) d 0 r.time) d 0 := by
  have h1 : eng (setEng s d 0 (writesLeft r.time)) d 0 = eng s d 0 := by
    rw [eng_setEng_same, writesLeft, hw, List.filter_nil, ← hw]
  rw [doWrites_of_no_write hw, doReads_of_one_read (by rw [h1, hr]), doRead_main]
  exact ⟨(((same_setEng _ _ _ _).trans (same_setEng _ _ _ _)).trans (same_setEng _ _ _ _)).mono (by simp),
    ((otherEngines_setEng _ _ _ (by decide)).trans (otherEngines_setEng _ _ _ (by decide))).trans (otherEngines_setEng _ _ _ (by decide))⟩

/-- The main array's engine reaches the cycle of the only part in flight: what that part does comes later. -/
theorem orderWriteCycle_reads {s : State} {d : ADie} {grant : Fin 4097} {r : ReadOp} (hw : (eng s d 0).writes = [])
    (hr : (eng s d 0).reads = [r]) (hc : (eng s d 0).cycle ≤ r.time) (hm : mayReach s d 0 r.time = true)
    (hwrites : ∀ w ∈ (maPart s d r).1, r.time < w.1) (hnext : ∀ n ∈ (maPart s d r).2, r.time < n.time) :
    Runs (.orderWriteCycle d 1 grant) s (fun u => (eng u d 0).cycle = r.time ∧ (eng u d 0).writes = flights r (maPart s d r).1
      ∧ (eng u d 0).reads = (maPart s d r).2.toList ∧ OtherEngines s u d 0 ∧ Same [.engines] s u) := by
  have hx : nextEvent s d 0 = some r.time := by simp [nextEvent, hw, hr, minOf]
  have heng := eng_read hw hr
  obtain ⟨hsame, hother⟩ := same_read hw hr
  have hq : Quiet (doReads (doWrites s d 0 r.time) d 0 r.time) d 0 r.time := by
    unfold Quiet
    rw [heng]
    refine ⟨fun n hn => hnext n (by simpa using hn), fun w hw => ?_⟩
    obtain ⟨x, hx, rfl⟩ := List.mem_map.1 hw
    exact hwrites x hx
  refine ⟨reach s d 0 r.time, ?_, ?_⟩
  · rw [exec_orderWriteCycle_main, engineWrites_of_event hx (by simp [hw, minOf]) hm]
  · rw [reach_of_event hx hq]
    refine ⟨?_, ?_, ?_, hother.trans (otherEngines_setEng _ _ _ (by decide)), (hsame.trans (same_setEng _ _ _ _)).mono (by simp)⟩ <;>
      rw [eng_setEng_same, heng]
    · exact Nat.max_eq_right hc
    · rfl
    · rfl

/-! ### The parts of a drain and of a matrix product (R134, R135) -/

theorem maPart_drain {s : State} {d : Nat} {r : ReadOp} (h : fld r.order 24 8 = 0x44) : maPart s d r =
    ((drainPuts s d (fld r.order 32 2) r.cfg (fld r.order 34 7 + 1) (fld r.order 41 7 + 1) 0 0 (fld r.order 34 7 + 1) (fld r.order 41 7 + 1)).map
      (fun x => (r.time - 1 + ceilDiv ((fld r.order 34 7 + 1) * (fld r.order 41 7 + 1) * (cFmt (cfgOf r.cfg 2)).bits) 4096 + 4, x)), none) := by
  simp [maPart, h]

/-- The step of a matrix product that follows the step in flight. -/
def nextStepOf (r : ReadOp) : ReadOp :=
  let q := mmaOf r.order
  let j := r.part % q.steps
  { r with part := r.part + 1
           time := if j + 1 = q.steps then r.time - j * q.cps + q.period (cfgOf r.cfg 2) else r.time + q.cps }

theorem maPart_step {s : State} {d : Nat} {r : ReadOp} (h : fld r.order 24 8 = 0x40) (hp : r.part < 2 ^ 32) : maPart s d r =
    (mmaStep s d r.order r.cfg r.time (r.part / (mmaOf r.order).steps) (r.part % (mmaOf r.order).steps),
      if r.part + 1 < (mmaOf r.order).passes * (mmaOf r.order).steps then some (nextStepOf r) else none) := by
  unfold maPart nextStepOf
  simp only [h, if_true, Nat.not_le.2 hp, if_false]

theorem cps_pos (q : Mma) : 0 < q.cps := by
  unfold Mma.cps stepCycles
  split <;> split <;> simp <;> split <;> simp

theorem lt_time_nextStepOf {r : ReadOp} (h : r.part % (mmaOf r.order).steps * (mmaOf r.order).cps ≤ r.time) :
    r.time < (nextStepOf r).time := by
  have hcps := cps_pos (mmaOf r.order)
  generalize hq : mmaOf r.order = q at h hcps
  simp only [nextStepOf, hq]
  split
  next hlast =>
    have hperiod : q.time ≤ q.period (cfgOf r.cfg 2) := Nat.le_max_left _ _
    have htime : q.time = r.part % q.steps * q.cps + q.cps := by rw [Mma.time, ← Nat.succ_mul, Nat.succ_eq_add_one, hlast]
    omega
  next => omega

/-- Every write of a step comes after the cycle at which the step is read. -/
theorem lt_of_mem_mmaStep {s : State} {d t p j : Nat} {o : Order} {cfg : List Nat} (hj : j * (mmaOf o).cps ≤ t) :
    ∀ w ∈ mmaStep s d o cfg t p j, t < w.1 := by
  intro w hw
  have hcps := cps_pos (mmaOf o)
  simp only [mmaStep, List.mem_append, List.mem_cons, List.mem_map, List.mem_flatMap] at hw
  generalize hq : mmaOf o = q at hj hw hcps
  have hlast : ∀ h : j + 1 = q.steps, q.time = j * q.cps + q.cps := fun h => by rw [Mma.time, ← h, Nat.succ_mul]
  rcases hw with ((((rfl | ⟨i, -, rfl⟩) | hw) | hw) | ⟨i, -, l, -, rfl⟩)
  · simp
  · show t < t + 6 + i
    omega
  · split at hw
    next h =>
      obtain rfl := List.mem_singleton.1 hw
      have := hlast h
      show t < _
      omega
    next => simp at hw
  · split at hw
    next h =>
      obtain rfl := List.mem_singleton.1 hw
      show t < _
      simp only [h.1] 
      omega
    next => simp at hw
  · show t < _
    split
    next h =>
      have := hlast h
      omega
    next => omega

/-! ### Terms reach their entry (R155) -/

theorem cellAt_setCell (s : State) (d q ix : Nat) (c : Cell) (p i : Nat) :
    cellAt (setCell s d q ix c) d p i = if cellKey d p i = cellKey d q ix then c else cellAt s d p i := by
  unfold setCell cellAt
  simp only []
  split <;> exact Store.get_set _ _ _ _ _

theorem cellAt_congr {s t : State} (h : t.cells = s.cells) (d p i : Nat) : cellAt t d p i = cellAt s d p i := by
  unfold cellAt
  rw [h]

theorem cellKey_inj {d p i q ix : Nat} (hp : p < 4) (hi : i < 16384) (hq : q < 4) (hx : ix < 16384) :
    cellKey d p i = cellKey d q ix ↔ (p, i) = (q, ix) := by
  unfold cellKey
  rw [Prod.mk.injEq]
  omega

theorem same_setCell (s : State) (d q ix : Nat) (c : Cell) : Same [.cells, .regs] s (setCell s d q ix c) := by
  unfold setCell
  extract_lets s1
  have h1 : Same [.cells] s s1 := same_cells s _
  split
  · exact h1.trans (same_wr s1 _ _)
  · exact h1.mono (by simp)

theorem regsBut_setCell (s : State) (d q ix : Nat) (c : Cell) : RegsBut [planeInfo d q] s (setCell s d q ix c) := by
  unfold setCell
  extract_lets s1
  split
  · exact regsBut_wrB s1 _ _ _
  · exact (regsBut_of_regs rfl).mono (by simp)

theorem rdB_setCell_sat (s : State) (d q ix : Nat) {c : Cell} (h : c.sat = true) : rdB (setCell s d q ix c) (planeInfo d q) 32 = true := by
  unfold setCell
  simp only [h, if_true]
  exact rdB_wrB_same _ _ _ _ (by decide)

theorem same_maEvent (s : State) (d i : Nat) : Same [.regs, .port] s (maEvent s d i) := same_raise s _ _ _ _ _ _ _

theorem regsBut_maEvent (s : State) (d i : Nat) : RegsBut (ma d 0x60 :: noticeKeys) s (maEvent s d i) := regsBut_raise s d 0x1000060 i _ _ _ _

theorem ma_inj {d a b : Nat} : ma d a = ma d b ↔ a = b := by
  unfold ma key
  omega

theorem ma_not_mem_noticeKeys {d off : Nat} (hd : d < 8) (ho : off < 2 ^ 20) : ma d off ∉ noticeKeys :=
  not_mem_noticeKeys (by omega) (by omega)

/-- MA_FLAGS with a flag set for the first time since the load (R145). -/
def flagsRaised (s : State) (d : Nat) : State := maEvent (setEng s d 0 (fun e => { e with flagged := true })) d 1

theorem orMaFlags_eq (s : State) (d : Nat) (f : Flags) : orMaFlags s d f =
    if f = 0 then s
    else if (eng s d 0).flagged then upd s (ma d 8) (fun w => w ||| BitVec.setWidth 64 f)
    else flagsRaised (upd s (ma d 8) (fun w => w ||| BitVec.setWidth 64 f)) d := rfl

theorem same_flagsRaised (s : State) (d : Nat) : Same [.engines, .regs, .port] s (flagsRaised s d) :=
  (same_setEng s d 0 _).trans (same_maEvent _ _ _)

theorem regsBut_flagsRaised (s : State) (d : Nat) : RegsBut (ma d 0x60 :: noticeKeys) s (flagsRaised s d) :=
  regsBut_maEvent (setEng s d 0 _) d 1

theorem same_orMaFlags (s : State) (d : Nat) (f : Flags) : Same [.engines, .regs, .port] s (orMaFlags s d f) := by
  rw [orMaFlags_eq]
  split
  · exact Same.refl _ _
  · split
    · exact (same_wr s _ _).mono (by simp)
    · exact ((same_wr s _ _).trans (same_flagsRaised _ d)).mono (by simp)

theorem regsBut_orMaFlags (s : State) (d : Nat) (f : Flags) : RegsBut ([ma d 8, ma d 0x60] ++ noticeKeys) s (orMaFlags s d f) := by
  rw [orMaFlags_eq]
  split
  · exact RegsBut.refl _ _
  · split
    · exact (regsBut_upd s _ _).mono (by simp)
    · exact ((regsBut_upd s _ _).trans (regsBut_flagsRaised _ d)).mono (by simp)

theorem rd_orMaFlags (s : State) {d : Nat} (f : Flags) (hd : d < 8) :
    rd (orMaFlags s d f) (ma d 8) = rd s (ma d 8) ||| BitVec.setWidth 64 f := by
  have hk : ma d 8 ∉ ma d 0x60 :: noticeKeys := by simp [ma_inj, ma_not_mem_noticeKeys (off := 8) hd (by decide)]
  rw [orMaFlags_eq]
  split
  next h => simp [h]
  next =>
    split
    · rw [upd_wr, rd_wr_same]
    · rw [regsBut_flagsRaised _ d _ hk, upd_wr, rd_wr_same]

/-- Flags change nothing that is in flight. -/
theorem inFlight_orMaFlags (s : State) (d : Nat) (f : Flags) : (eng (orMaFlags s d f) d 0).reads = (eng s d 0).reads
    ∧ (eng (orMaFlags s d f) d 0).writes = (eng s d 0).writes := by
  rw [orMaFlags_eq]
  split
  · exact ⟨rfl, rfl⟩
  · split
    · exact ⟨rfl, rfl⟩
    · rw [flagsRaised, (same_maEvent _ d 1).eng (by decide), eng_setEng_same]
      exact ⟨rfl, rfl⟩

section
variable {s : State} {d : ADie} {q ix : Nat} (sum : Cell × Flags) (hq : q < 4) (hx : ix < 16384)

/-- An entry has taken its terms, and MA_FLAGS their flags. -/
def termsAdded (s : State) (d q ix : Nat) (sum : Cell × Flags) : State := orMaFlags (setCell s d q ix sum.1) d sum.2

theorem same_termsAdded : Same [.engines, .cells, .regs, .port] s (termsAdded s d q ix sum) :=
  ((same_setCell s d q ix _).trans (same_orMaFlags _ _ _)).mono (by simp)

theorem regsBut_termsAdded : RegsBut ([planeInfo d q, ma d 8, ma d 0x60] ++ noticeKeys) s (termsAdded s d q ix sum) :=
  ((regsBut_setCell s d q ix _).trans (regsBut_orMaFlags _ _ _)).mono (by simp)

theorem inFlight_termsAdded : (eng (termsAdded s d q ix sum) d 0).reads = (eng s d 0).reads
    ∧ (eng (termsAdded s d q ix sum) d 0).writes = (eng s d 0).writes := by
  obtain ⟨hr, hw⟩ := inFlight_orMaFlags (setCell s d q ix sum.1) d sum.2
  have he := (same_setCell s d q ix sum.1).eng (by decide) d 0
  rw [he] at hr hw
  exact ⟨hr, hw⟩

theorem planeInfo_apart : planeInfo d q ∉ [ma d 8, ma d 0x60] ++ noticeKeys := by
  have hn : planeInfo d q ∉ noticeKeys := ma_not_mem_noticeKeys d.isLt (by omega)
  have hm : ∀ off ∈ [8, 0x60], planeInfo d q ≠ ma d off := fun off ho => by
    simp only [planeInfo, ne_eq, ma_inj]
    simp only [List.mem_cons, List.not_mem_nil, or_false] at ho
    omega
  simp [hn, hm 8, hm 0x60]

include hq hx

theorem cellAt_termsAdded {p i : Nat} (hp : p < 4) (hi : i < 16384) :
    cellAt (termsAdded s d q ix sum) d p i = if (p, i) = (q, ix) then sum.1 else cellAt s d p i := by
  have hcells := same_orMaFlags (setCell s d q ix sum.1) d sum.2 .cells (by decide)
  have hcell : cellAt (termsAdded s d q ix sum) d p i = cellAt (setCell s d q ix sum.1) d p i :=
    cellAt_congr hcells d p i
  rw [hcell, cellAt_setCell]
  simp only [cellKey_inj hp hi hq hx]

theorem termsAdded_shows : let u := termsAdded s d q ix sum
    cellAt u d q ix = sum.1 ∧ (∀ p i, p < 4 → i < 16384 → (p, i) ≠ (q, ix) → cellAt u d p i = cellAt s d p i)
      ∧ (sum.1.sat = true → rdB u (planeInfo d q) 32 = true) ∧ rd u (ma d 8) = rd s (ma d 8) ||| BitVec.setWidth 64 sum.2
      ∧ RegsBut ([planeInfo d q, ma d 8, ma d 0x60] ++ noticeKeys) s u ∧ Same [.engines, .cells, .regs, .port] s u := by
  refine ⟨?_, fun p i hp hi hpi => ?_, fun hsat => ?_, ?_, regsBut_termsAdded sum, same_termsAdded sum⟩
  · rw [cellAt_termsAdded sum hq hx hq hx, if_pos rfl]
  · rw [cellAt_termsAdded sum hq hx hp hi, if_neg hpi]
  · rw [termsAdded, (regsBut_orMaFlags _ _ _).rdB planeInfo_apart, rdB_setCell_sat _ _ _ _ hsat]
  · have hk : ma d 8 ∉ [planeInfo d q] := by
      simp only [planeInfo, List.mem_singleton, ma_inj]
      omega
    rw [termsAdded, rd_orMaFlags _ _ d.isLt, regsBut_setCell _ _ _ _ _ _ hk]

end

theorem applyPut_terms (s : State) (d q ix mode : Nat) (ts : List (FVal × Bool)) : applyPut s d 0 (.terms d q ix mode ts)
    = termsAdded s d q ix (addTerms mode (planeAnchor s d q) (cellAt s d q ix) ts) := rfl

/-- The main array's engine reaches the cycle of the only write in flight, which adds terms to an entry. -/
theorem orderWriteCycle_adds {s : State} {d : ADie} {grant : Fin 4097} {w : WriteOp} {q ix mode : Nat} {ts : List (FVal × Bool)}
    (hr : (eng s d 0).reads = []) (hw : (eng s d 0).writes = [w]) (hm : mayReach s d 0 w.time = true) (hput : w.put = .terms d q ix mode ts)
    (hq : q < 4) (hx : ix < 16384) : Runs (.orderWriteCycle d 1 grant) s (fun u =>
      let sum := addTerms mode (planeAnchor s d q) (cellAt s d q ix) ts
      cellAt u d q ix = sum.1 ∧ (∀ p i, p < 4 → i < 16384 → (p, i) ≠ (q, ix) → cellAt u d p i = cellAt s d p i)
        ∧ (sum.1.sat = true → rdB u (planeInfo d q) 32 = true) ∧ rd u (ma d 8) = rd s (ma d 8) ||| BitVec.setWidth 64 sum.2
        ∧ RegsBut ([planeInfo d q, ma d 8, ma d 0x60] ++ noticeKeys) s u ∧ Same [.engines, .cells, .regs, .port] s u) := by
  have hevent : nextEvent s d 0 = some w.time := by simp [nextEvent, hw, hr, minOf]
  generalize hsum : addTerms mode (planeAnchor s d q) (cellAt s d q ix) ts = sum
  generalize hs1 : setEng s d 0 (writesLeft w.time) = s1
  have h1 : Same [.engines] s s1 := hs1 ▸ same_setEng s d 0 _
  have hwrite : doWrites s d 0 w.time = termsAdded s1 d q ix sum := by
    rw [doWrites_of_one_write hw, hput, applyPut_terms, hs1, ← hsum, ← hs1]
    rfl
  have he1 : (eng s1 d 0).reads = [] ∧ (eng s1 d 0).writes = [] := by
    rw [← hs1, eng_setEng_same]
    exact ⟨hr, by simp [writesLeft, hw]⟩
  obtain ⟨hreads, hwrites⟩ := inFlight_termsAdded (s := s1) (d := d) (q := q) (ix := ix) sum
  have hevent2 : doReads (doWrites s d 0 w.time) d 0 w.time = setEng (termsAdded s1 d q ix sum) d 0 (readsLeft w.time) := by
    rw [hwrite, doReads_of_no_read (hreads.trans he1.1)]
  have hquiet : Quiet (doReads (doWrites s d 0 w.time) d 0 w.time) d 0 w.time := by
    unfold Quiet
    rw [hevent2, eng_setEng_same]
    simp [readsLeft, hreads, hwrites, he1]
  refine ⟨reach s d 0 w.time, ?_, ?_⟩
  · rw [exec_orderWriteCycle_main, engineWrites_of_event hevent (by simp [hw, minOf]) hm]
  · rw [reach_of_event hevent hquiet, hevent2]
    obtain ⟨hcell, hcells, hsat, hflags, hreg, hsame⟩ := termsAdded_shows (s := s1) (d := d) sum hq hx
    generalize hu : setEng (setEng (termsAdded s1 d q ix sum) d 0 (readsLeft w.time)) d 0 (reachedAt w.time) = u
    have hlast : Same [.engines] (termsAdded s1 d q ix sum) u := hu ▸ ((same_setEng _ d 0 _).trans (same_setEng _ d 0 _)).mono (by simp)
    have hregs : ∀ k, rd u k = rd (termsAdded s1 d q ix sum) k := rd_congr (hlast .regs (by decide))
    have hregs1 : ∀ k, rd s1 k = rd s k := rd_congr (h1 .regs (by decide))
    have hcellu := fun p i => cellAt_congr (hlast .cells (by decide)) d p i
    refine ⟨(hcellu q ix).trans hcell, fun p i hp hi hpi => ?_, fun h => ?_, ?_, fun k hk => ?_, ((h1.trans hsame).trans hlast).mono (by simp)⟩
    · rw [hcellu, hcells p i hp hi hpi, cellAt_congr (h1 .cells (by decide))]
    · rw [rdB, hregs]
      exact hsat h
    · rw [hregs, hflags, hregs1]
    · rw [hregs, hreg k hk, hregs1]

end Sys2Proof.Machine

open Sys2Proof Sys2Proof.Machine

/-- Settles O21: a drain and a step of a matrix product read at their cycle, and terms added at theirs. -/
theorem mainArrayPartsAndSums : Obligations.MainArrayPartsAndSums := by
  refine fun s d grant => ⟨fun r hw hr hc hm => ⟨fun hop ht => ?drain, fun hop hp ht => ?step⟩, fun w hr hw _ hm q ix mode ts hput hq hx =>
    orderWriteCycle_adds hr hw hm hput hq hx⟩
  case drain =>
    have hpart := maPart_drain (s := s) (d := d) hop
    obtain ⟨u, hu, hcycle, hwrites, hreads, hother, hsame⟩ := orderWriteCycle_reads (grant := grant) hw hr hc hm
      (by rw [hpart]; intro w hw; obtain ⟨x, -, rfl⟩ := List.mem_map.1 hw; show _ < _ - 1 + _ + 4; omega) (by simp [hpart])
    refine ⟨u, hu, hcycle, by rw [hreads, hpart]; rfl, hother, hsame, ?_⟩
    rw [hwrites, hpart, flights, List.map_map]
    refine List.map_congr_left fun x _ => ?_
    simp only [Function.comp_apply, WriteOp.mk.injEq, and_true]
    omega
  case step =>
    have hpart := maPart_step (s := s) (d := d) hop hp
    obtain ⟨u, hu, hcycle, hwrites, hreads, hother, hsame⟩ := orderWriteCycle_reads (grant := grant) hw hr hc hm
      (by rw [hpart]; exact lt_of_mem_mmaStep ht)
      (by rw [hpart]; intro n hn; obtain ⟨-, hn⟩ := Option.ite_none_right_eq_some.1 hn; obtain rfl := Option.some.inj hn; exact lt_time_nextStepOf ht)
    refine ⟨u, hu, hcycle, hother, hsame, by rw [hwrites, hpart]; rfl, fun hlt => ⟨nextStepOf r, ?_, rfl, rfl, rfl⟩⟩
    rw [hreads, hpart]
    simp only [hlt, if_true, Option.toList_some, List.mem_singleton]
end

section
/-! Loads of timetables and flushes of possessions (R95, R104 to R107). -/

namespace Sys2Proof.Machine

/-! ### Registers of a kind -/

/-- Only registers whose keys are of a kind change. -/
def RegsIn (K : Nat → Prop) (s u : State) : Prop := ∀ k, ¬ K k → rd u k = rd s k

theorem RegsIn.refl (K : Nat → Prop) (s : State) : RegsIn K s s := fun _ _ => rfl

theorem RegsIn.trans {K : Nat → Prop} {s t u : State} (h : RegsIn K s t) (g : RegsIn K t u) : RegsIn K s u :=
  fun k hk => (g k hk).trans (h k hk)

theorem RegsIn.of_regsBut {K : Nat → Prop} {ks : List Nat} {s u : State} (h : RegsBut ks s u) (hK : ∀ k ∈ ks, K k) : RegsIn K s u :=
  fun k hk => h k (fun hm => hk (hK k hm))

theorem RegsIn.of_regs {K : Nat → Prop} {s u : State} (h : u.regs = s.regs) : RegsIn K s u := fun k _ => rd_congr h k

theorem regsIn_wr {K : Nat → Prop} (s : State) {k : Nat} (v : W64) (h : K k) : RegsIn K s (wr s k v) :=
  .of_regsBut (regsBut_wr s k v) (by simpa using h)

theorem RegsIn.foldl {α : Type} {K : Nat → Prop} {f : State → α → State} {l : List α} (h : ∀ s, ∀ a ∈ l, RegsIn K s (f s a)) (s : State) :
    RegsIn K s (l.foldl f s) := by
  induction l generalizing s with
  | nil => exact .refl _ s
  | cons a l ih => exact (h s a (by simp)).trans (ih (fun t b hb => h t b (by simp [hb])) _)

theorem RegsIn.rdB {K : Nat → Prop} {s u : State} (h : RegsIn K s u) {k : Nat} (hk : ¬ K k) (i : Nat) : rdB u k i = rdB s k i := by
  unfold Machine.rdB
  rw [h k hk]

theorem RegsIn.rdF {K : Nat → Prop} {s u : State} (h : RegsIn K s u) {k : Nat} (hk : ¬ K k) (lo len : Nat) :
    rdF u k lo len = rdF s k lo len := by
  unfold Machine.rdF
  rw [h k hk]

theorem same_wrF (s : State) (k lo len v : Nat) : Same [.regs] s (wrF s k lo len v) := same_wr s _ _

theorem same_wrB (s : State) (k i : Nat) (b : Bool) : Same [.regs] s (wrB s k i b) := same_wr s _ _

theorem rdB_congr {s u : State} (h : u.regs = s.regs) (k i : Nat) : rdB u k i = rdB s k i := by
  unfold rdB
  rw [rd_congr h]

/-! ### TT_STATUS and events of the timetable port (R106) -/

theorem ttState_setTtState (s : State) (d : Nat) {st : Nat} (h : st < 16) : ttState (setTtState s d st) d = st := by
  rw [ttState, setTtState, rdF_wrF_same _ _ _ _ _ (by decide)]
  exact Nat.mod_eq_of_lt h

theorem same_setTtState (s : State) (d st : Nat) : Same [.regs] s (setTtState s d st) := same_wr s _ _

theorem regsBut_setTtState (s : State) (d st : Nat) : RegsBut [tt d 0] s (setTtState s d st) := regsBut_wrF s _ _ _ _

theorem same_ttEvent (s : State) (d i : Nat) : Same [.regs, .port] s (ttEvent s d i) := same_raise s _ _ _ _ _ _ _

theorem regsBut_ttEvent (s : State) (d i : Nat) : RegsBut (tt d 0x48 :: noticeKeys) s (ttEvent s d i) := regsBut_raise s d 0x48 i _ _ _ _

theorem tt_apart_event {d off : Nat} (hd : d < 8) (ho : off < 2 ^ 30) (h : off ≠ 0x48) : tt d off ∉ tt d 0x48 :: noticeKeys := by
  simp [tt_inj, h, tt_not_mem_noticeKeys hd ho]

theorem ttState_congr {ks : List Nat} {s u : State} (h : RegsBut ks s u) {d : Nat} (hk : tt d 0 ∉ ks) : ttState u d = ttState s d :=
  h.rdF hk _ _

/-! ### A load starts (R104) -/

theorem execTtLoad_starts {s : State} {d : ADie} {v : W64} (hv : bitOf v 0 = true) (hl : rdB s (tt d 8) 0 = false)
    (hj : s.job.state = .arming) : exec (.ttLoad d v) s = .next (setTtState (wrB s (tt d 8) 0 true) d 1) := by
  show execTtLoad d v s = _
  simp [execTtLoad, hv, hl, hj]

theorem execTtLoad_refused {s : State} {d : ADie} {v : W64} (hv : bitOf v 0 = true) (hl : rdB s (tt d 8) 0 = false)
    (hj : s.job.state ≠ .arming) : exec (.ttLoad d v) s = .next (ttEvent (loadResult s d (stState, 0, 0)) d 1) := by
  show execTtLoad d v s = _
  simp [execTtLoad, hv, hl, hj]

theorem regsBut_loadResult (s : State) (d : Nat) (f : LoadFail) : RegsBut [tt d 0x18] s (loadResult s d f) := regsBut_wr s _ _

theorem rd_loadResult (s : State) (d : Nat) (f : LoadFail) :
    rd (loadResult s d f) (tt d 0x18) = BitVec.ofNat 64 (f.1 + 2 ^ 16 * f.2.1 + 2 ^ 32 * f.2.2) := rd_wr_same _ _ _

theorem ttLoad_starts_shows (s : State) (d : Nat) : let u := setTtState (wrB s (tt d 8) 0 true) d 1
    ttState u d = 1 ∧ rdB u (tt d 8) 0 = true ∧ RegsBut [tt d 0, tt d 8] s u ∧ Same [.regs] s u := by
  refine ⟨ttState_setTtState _ _ (by decide), ?_, ((regsBut_wrB s _ _ _).trans (regsBut_setTtState _ _ _)).mono (by simp [or_comm]),
    ((same_wr s _ _).trans (same_setTtState _ _ _)).mono (by simp)⟩
  rw [(regsBut_setTtState _ d 1).rdB (by simp [tt_inj]), rdB_wrB_same _ _ _ _ (by decide)]

theorem ttLoad_refused_shows (s : State) (d : ADie) : let u := ttEvent (loadResult s d (stState, 0, 0)) d 1
    rd u (tt d 0x18) = BitVec.ofNat 64 stState ∧ Raised s u d 0x48 1 ∧ RegsBut ([tt d 0x18, tt d 0x48] ++ noticeKeys) s u
      ∧ Same [.regs, .port] s u := by
  have hd := d.isLt
  have hload := regsBut_loadResult s d (stState, 0, 0)
  have hraised : Raised (loadResult s d (stState, 0, 0)) (ttEvent (loadResult s d (stState, 0, 0)) d 1) d 0x48 1 :=
    raised_raise _ _ _ _ _ (by omega) (by decide) (by decide) (by unfold mtc key; omega)
  have hnow : mtc 0 ∉ [tt d 0x18] := by
    simp only [List.mem_singleton, tt, mtc, key]
    omega
  have hdrop : bar0 0x70 ∉ [tt d 0x18] := by
    simp only [List.mem_singleton, tt, bar0, key]
    omega
  refine ⟨?_, hraised.of_regsBut hload hnow hdrop, (hload.trans (regsBut_ttEvent _ d 1)).mono (by simp),
    ((same_wr s _ _).trans (same_ttEvent _ _ _)).mono (by simp)⟩
  rw [regsBut_ttEvent _ d 1 _ (tt_apart_event hd (by decide) (by decide)), rd_loadResult]
  rfl

/-! ### ARM_JOB ends while the job is ARMING (R104, R506) -/

/-- The registers that the end of ARM_JOB changes: off the A-dies, and of each A-die TT_STATUS, TT_CTRL and OR_SELF. -/
def abortKey (k : Nat) : Prop := 8 * 2 ^ 30 ≤ k ∨ k % 2 ^ 30 = 0 ∨ k % 2 ^ 30 = 8 ∨ k % 2 ^ 30 = 0x7210000

theorem abortKey_of_off_dies {d off : Nat} (hd : 8 ≤ d) : abortKey (key d off) := .inl (by unfold key; omega)

theorem abortKey_notice : ∀ k ∈ noticeKeys, abortKey k := by
  intro k hk
  simp only [noticeKeys, List.mem_cons, List.not_mem_nil, or_false] at hk
  rcases hk with rfl | rfl <;> exact abortKey_of_off_dies (by decide)

theorem not_abortKey_loadResult {d : Nat} (hd : d < 8) : ¬ abortKey (tt d 0x18) := by
  unfold abortKey tt key
  omega

/-- ARM_JOB's command, if there is one, has its outcome. -/
def armReported (s : State) (status detail : Nat) : State :=
  match s.job.armSeq with
  | some q => doneCmd s q status detail 0 []
  | none => s

/-- The runtime's ARM_DONE and the tempo of MAIN go back, and no ARM_JOB is in progress. -/
def armWithdrawn (s : State) : State := wrF (wrF (wr s (hp 0x108) 0) (mtc 0x70) 0 8 20) (mtc 0x70) 8 8 0

/-- ARM_JOB has no command in progress. -/
def armUnasked (s : State) : State := { s with job := { s.job with armSeq := none } }

/-- The job has no tag, no rank and no ranges. -/
def jobForgotten (s : State) : State := { s with job := { s.job with tag := 0, rank := 0, ranges := [] } }

theorem same_armReported (s : State) (status detail : Nat) : Same [.port] s (armReported s status detail) := by
  unfold armReported
  split
  · exact same_updCmd s _ _
  · exact Same.refl _ _

theorem same_armWithdrawn (s : State) : Same [.regs] s (armWithdrawn s) :=
  (((same_wr s _ _).trans (same_wrF _ _ _ _ _)).trans (same_wrF _ _ _ _ _)).mono (by simp)

theorem same_armUnasked (s : State) : Same [.job] s (armUnasked s) := same_job s _

theorem regsIn_armWithdrawn (s : State) : RegsIn abortKey s (armWithdrawn s) :=
  .of_regsBut (((regsBut_wr s _ _).trans (regsBut_wrF _ _ _ _ _)).trans (regsBut_wrF _ _ _ _ _)) (by
    intro k hk
    simp only [List.mem_append, List.mem_singleton, or_self, or_assoc] at hk
    rcases hk with rfl | rfl <;> exact abortKey_of_off_dies (by decide))

/-- One die without an image: TT_STATUS shows IDLE, and no load is in progress. -/
def dieUnloaded (s : State) (d : Nat) : State := wrB (setTtState s d 0) (tt d 8) 0 false

/-- No die has an image, and no possession and no arrival is known. -/
def nothingLoaded (s : State) : State :=
  { s with dies := [], possMap := [], ttx := { msgs := [], pkgDies := [], pkgSeen := [], poss := [], pkgBooks := [], lineMask := 0 } }

theorem unload_eq (s : State) : unload s = nothingLoaded ((upTo 8).foldl dieUnloaded s) := rfl

theorem same_nothingLoaded (s : State) : Same [.dies, .possMap, .ttx] s (nothingLoaded s) :=
  (same_dies s []).trans ((same_possMap _ []).trans (same_ttx _ _))

theorem same_dieUnloaded (s : State) (d : Nat) : Same [.regs] s (dieUnloaded s d) :=
  ((same_setTtState s d 0).trans (same_wrB _ _ _ _)).mono (by simp)

theorem regsBut_dieUnloaded (s : State) (d : Nat) : RegsBut [tt d 0, tt d 8] s (dieUnloaded s d) :=
  (regsBut_setTtState s d 0).trans (regsBut_wrB _ _ _ _)

theorem same_unload (s : State) : Same [.regs, .dies, .possMap, .ttx] s (unload s) := by
  rw [unload_eq]
  generalize ht : (upTo 8).foldl dieUnloaded s = t
  have h : Same [.regs] s t := ht ▸ Same.foldl _ same_dieUnloaded _ s
  exact h.trans (same_nothingLoaded t)

theorem regsIn_unload (s : State) : RegsIn abortKey s (unload s) := by
  have h : RegsIn abortKey s ((upTo 8).foldl dieUnloaded s) := RegsIn.foldl (fun t d _ => .of_regsBut (regsBut_dieUnloaded t d) (by
    intro k hk
    simp only [List.mem_cons, List.not_mem_nil, or_false] at hk
    unfold abortKey
    rcases hk with rfl | rfl <;> unfold tt key <;> omega)) s
  rw [unload_eq]
  generalize (upTo 8).foldl dieUnloaded s = t at h ⊢
  exact h.trans (.of_regs (same_nothingLoaded t .regs (by decide)))

theorem rdB_load_unload (s : State) {d : Nat} (hd : d < 8) : rdB (unload s) (tt d 8) 0 = false := by
  have hself : ∀ (t : State) (a : Nat), rdB (dieUnloaded t a) (tt a 8) 0 = false := fun t a => rdB_wrB_same _ _ _ _ (by decide)
  have hkeep : ∀ (t : State) (a b : Nat), rdB t (tt b 8) 0 = false → rdB (dieUnloaded t a) (tt b 8) 0 = false := by
    intro t a b hb
    by_cases hab : tt b 8 = tt a 8
    · rw [hab]
      exact hself t a
    · have h0 : tt b 8 ≠ tt a 0 := by
        unfold tt key
        omega
      rw [(regsBut_dieUnloaded t a).rdB (by simp [hab, h0]), hb]
  have h := foldl_establishes hself hkeep (upTo 8) s d (.inl (List.mem_range.2 hd))
  rw [unload_eq]
  generalize (upTo 8).foldl dieUnloaded s = t at h ⊢
  exact (rdB_congr (same_nothingLoaded t .regs (by decide)) _ 0).trans h

theorem same_setSelf (s : State) (g : W32) (pos rank : Nat) (b : Bool) : Same [.regs] s (setSelf s g pos rank b) :=
  Same.foldl _ (fun t _ => same_wr t _ _) _ s

theorem regsIn_setSelf (s : State) (g : W32) (pos rank : Nat) (b : Bool) : RegsIn abortKey s (setSelf s g pos rank b) :=
  RegsIn.foldl (fun t d _ => regsIn_wr t _ (by unfold abortKey key; omega)) s

theorem rdB_load_setSelf (s : State) (g : W32) (pos rank : Nat) (b : Bool) (d : Nat) :
    rdB (setSelf s g pos rank b) (tt d 8) 0 = rdB s (tt d 8) 0 := by
  have h : RegsIn (fun k => k % 2 ^ 30 = 0x7210000) s (setSelf s g pos rank b) :=
    RegsIn.foldl (fun t d _ => regsIn_wr t _ (by unfold key; omega)) s
  exact h.rdB (by unfold tt key; omega) _

theorem same_jobForgotten (s : State) : Same [.job] s (jobForgotten s) := same_job s _

theorem jobState_jobForgotten (s : State) : (jobForgotten s).job.state = s.job.state := rfl

/-- OR_SELF of the dies says that the device is in no job any more. -/
def selfForgotten (s : State) : State := setSelf (jobForgotten s) s.guard.gpid s.img.groupPos 0 false

theorem same_selfForgotten (s : State) : Same [.regs, .job] s (selfForgotten s) :=
  ((same_jobForgotten s).trans (same_setSelf _ _ _ _ _)).mono (by simp)

theorem regsIn_selfForgotten (s : State) : RegsIn abortKey s (selfForgotten s) :=
  (RegsIn.of_regs (same_jobForgotten s .regs (by decide))).trans (regsIn_setSelf _ _ _ _ _)

theorem jobState_selfForgotten (s : State) : (selfForgotten s).job.state = s.job.state := by
  have h : (selfForgotten s).job = (jobForgotten s).job := same_setSelf (jobForgotten s) s.guard.gpid s.img.groupPos 0 false .job (by decide)
  rw [h, jobState_jobForgotten]

theorem rdB_load_selfForgotten (s : State) (d : Nat) : rdB (selfForgotten s) (tt d 8) 0 = rdB s (tt d 8) 0 :=
  (rdB_load_setSelf _ _ _ _ _ d).trans
    (rdB_congr (same_jobForgotten s .regs (by decide)) _ 0)

section
variable {s : State} (h : s.job.state = .arming) (status detail : Nat)
include h

theorem armAbort_eq : armAbort s status detail =
    selfForgotten (setJob (unload (destroyKeys (armUnasked (armWithdrawn (armReported s status detail))))) .idle status) := by
  unfold armAbort
  rw [if_pos h]
  rfl

theorem same_armAbort : Same [.regs, .port, .job, .depot, .mem, .dies, .possMap, .ttx] s (armAbort s status detail) := by
  rw [armAbort_eq h]
  exact ((((((same_armReported s status detail).trans (same_armWithdrawn _)).trans (same_armUnasked _)).trans (same_destroyKeys _)).trans
    (same_unload _)).trans ((same_setJob _ .idle status).trans (same_selfForgotten _))).mono (by simp)

theorem regsIn_armAbort : RegsIn abortKey s (armAbort s status detail) := by
  have hreport : RegsIn abortKey s (armReported s status detail) := .of_regs (same_armReported s status detail .regs (by decide))
  have hask : ∀ t, RegsIn abortKey t (armUnasked t) := fun t => .of_regs (same_armUnasked t .regs (by decide))
  have hkeys : ∀ t, RegsIn abortKey t (destroyKeys t) := fun t => .of_regsBut (regsBut_destroyKeys t) fun k hk => by
    simp only [List.mem_append, List.mem_cons, List.not_mem_nil, or_false] at hk
    rcases hk with (rfl | rfl | rfl) | hk
    · exact abortKey_of_off_dies (by decide)
    · exact abortKey_of_off_dies (by decide)
    · exact abortKey_of_off_dies (by decide)
    · exact abortKey_notice k hk
  have hjob : ∀ t, RegsIn abortKey t (setJob t .idle status) := fun t => .of_regsBut (regsBut_setJob t .idle status) fun k hk => by
    rcases List.mem_cons.1 hk with rfl | hk
    · exact abortKey_of_off_dies (by decide)
    · exact abortKey_notice k hk
  rw [armAbort_eq h]
  exact (((((hreport.trans (regsIn_armWithdrawn _)).trans (hask _)).trans (hkeys _)).trans (regsIn_unload _)).trans (hjob _)).trans
    (regsIn_selfForgotten _)

theorem jobState_armAbort : (armAbort s status detail).job.state = .idle := by
  rw [armAbort_eq h, jobState_selfForgotten, jobState_setJob]

theorem rdB_load_armAbort {d : Nat} (hd : d < 8) : rdB (armAbort s status detail) (tt d 8) 0 = false := by
  have hk : tt d 8 ∉ hp 0x130 :: noticeKeys := by
    have h8 : tt d 8 ≠ hp 0x130 := by
      unfold tt hp key
      omega
    simp [h8, tt_not_mem_noticeKeys (off := 8) hd (by decide)]
  rw [armAbort_eq h, rdB_load_selfForgotten, (regsBut_setJob _ .idle status).rdB hk, rdB_load_unload _ hd]

end

/-! ### A load that fails (R104, R105) -/

/-- A load of the die has failed, and is over. -/
def loadFailed (s : State) (d : Nat) (f : LoadFail) : State :=
  let t := loadResult (wrB s (tt d 8) 0 false) d f
  ttEvent (setTtState t d (if (dieTT t d).stations.isEmpty then 0 else 2)) d 1

theorem execTtLoadComplete_fails {s : State} {d : ADie} {f : LoadFail} (hl : rdB s (tt d 8) 0 = true) (hj : s.job.state = .arming)
    (hf : readTree s d = .error f ∨ ∃ t, readTree s d = .ok t ∧ loadFail s t = some f) :
    exec (.ttLoadComplete d) s = .next (armAbort (loadFailed s d f) f.1 f.2.1) := by
  show execTtLoadComplete d s = _
  rcases hf with hf | ⟨t, ht, hf⟩
  · simp [execTtLoadComplete, hl, hj, hf, loadFailed]
  · simp [execTtLoadComplete, hl, hj, ht, hf, loadFailed]

theorem same_loadFailed (s : State) (d : Nat) (f : LoadFail) : Same [.regs, .port] s (loadFailed s d f) :=
  ((((same_wr s _ _).trans (same_wr _ _ _)).trans (same_setTtState _ _ _)).trans (same_ttEvent _ d 1)).mono (by simp)

theorem rd_result_loadFailed (s : State) {d : Nat} (f : LoadFail) (hd : d < 8) :
    rd (loadFailed s d f) (tt d 0x18) = BitVec.ofNat 64 (f.1 + 2 ^ 16 * f.2.1 + 2 ^ 32 * f.2.2) := by
  unfold loadFailed
  extract_lets t
  rw [regsBut_ttEvent _ d 1 _ (tt_apart_event hd (by decide) (by decide)), regsBut_setTtState _ d _ _ (by simp [tt_inj])]
  exact rd_loadResult _ _ _

theorem ttLoadComplete_fails {s : State} {d : ADie} {f : LoadFail} (hl : rdB s (tt d 8) 0 = true) (hj : s.job.state = .arming)
    (hf : readTree s d = .error f ∨ ∃ t, readTree s d = .ok t ∧ loadFail s t = some f) : Runs (.ttLoadComplete d) s (fun u =>
      rd u (tt d 0x18) = BitVec.ofNat 64 (f.1 + 2 ^ 16 * f.2.1 + 2 ^ 32 * f.2.2) ∧ rdB u (tt d 8) 0 = false
      ∧ u.job.state = .idle ∧ u.signals = s.signals) := by
  have hsame := same_loadFailed s d f
  have harming : (loadFailed s d f).job.state = .arming := by
    rw [show (loadFailed s d f).job = s.job from hsame .job (by decide), hj]
  have habort := same_armAbort harming f.1 f.2.1
  refine ⟨_, execTtLoadComplete_fails hl hj hf, ?_, rdB_load_armAbort harming _ _ d.isLt, jobState_armAbort harming _ _,
    Eq.trans (habort .signals (by decide)) (hsame .signals (by decide))⟩
  rw [regsIn_armAbort harming _ _ _ (not_abortKey_loadResult d.isLt), rd_result_loadFailed s f d.isLt]

end Sys2Proof.Machine
end

section
/-! A load that succeeds, and the flush of a possession (R95, R105 to R107). -/

namespace Sys2Proof.Machine

/-! ### Counters and flags at a load (R107) -/

/-- Registers are cleared one after the other. -/
def zeroRegs (s : State) (l : List Nat) : State := l.foldl (fun s k => wr s k 0) s

theorem same_zeroRegs (s : State) (l : List Nat) : Same [.regs] s (zeroRegs s l) := Same.foldl _ (fun t k => same_wr t k 0) l s

theorem offDies_zeroRegs (s : State) {l : List Nat} (h : ∀ k ∈ l, k < 8 * 2 ^ 30) : OffDies [] s (zeroRegs s l) :=
  OffDies.foldl (fun t k hk => offDies_wr t 0 (h k hk)) s

/-- The registers that a load clears, in their order, of each group of blocks. -/
def countersOfTt (d : Nat) : List Nat := [tt d 0x30, tt d 0x38, tt d 0x40]

def countersOfMa (d : Nat) : List Nat := [ma d 8, ma d 0x38, ma d 0x40, ma d 0x48, ma d 0x58]

def countersOfVc (d c : Nat) : List Nat :=
  [vc d c 8, vc d c 0x40, vc d c 0x48, vc d c 0x50, vc d c 0x58, sm d c 0x28, sm d c 0x30, sm d c 0x38, sm d c 0x40, sm d c 0x48]
    ++ (upTo 16).map (fun g => vc d c (0x80 + 8 * g))

def countersOfTr (d j : Nat) : List Nat := [tr d j 8, tr d j 0x10, tr d j 0x18, tr d j 0x20]

def countersOfCe (d : Nat) : List Nat := [ce d 8] ++ (upTo 16).map (fun g => ce d (0x80 + 8 * g))

def countersOfUp (d : Nat) : List Nat := [up d 0x18, up d 0x20, up d 0x28, up d 0x30]

/-- The counters of the die's blocks are 0. -/
def countersCleared (s : State) (d : Nat) : State :=
  let s := zeroRegs (wrF (zeroRegs s (countersOfTt d)) (tt d 0) 48 10 0) (countersOfMa d)
  let s := (upTo 8).foldl (fun s c => zeroRegs s (countersOfVc d c)) s
  let s := (upTo 4).foldl (fun s j => zeroRegs s (countersOfTr d j)) s
  zeroRegs (zeroRegs s (countersOfCe d)) (countersOfUp d)

/-- No engine of the die has a late order that is remembered. -/
def lateForgotten (s : State) (d : Nat) : State := { s with lateFlags := Store.erase d s.lateFlags }

/-- No engine of the die has a flag set from an earlier load. -/
def flagsForgotten (s : State) (d : Nat) : State :=
  (upTo 15).foldl (fun s e => setEng s d e (fun x =>
    { x with flagged := false, mismatched := if 9 ≤ e ∧ e ≤ 12 then false else x.mismatched })) s

theorem clearAtLoad_eq (s : State) (d : Nat) : clearAtLoad s d = flagsForgotten (lateForgotten (countersCleared s d) d) d := rfl

theorem same_countersCleared (s : State) (d : Nat) : Same [.regs] s (countersCleared s d) :=
  ((((((same_zeroRegs s _).trans (same_wrF _ _ _ _ _)).trans (same_zeroRegs _ _)).trans
    (Same.foldl _ (fun t c => same_zeroRegs t (countersOfVc d c)) (upTo 8) _)).trans
    (Same.foldl _ (fun t j => same_zeroRegs t (countersOfTr d j)) (upTo 4) _)).trans
    ((same_zeroRegs _ _).trans (same_zeroRegs _ _))).mono (by simp)

theorem offDies_countersCleared (s : State) {d : Nat} (hd : d < 8) : OffDies [] s (countersCleared s d) := by
  have hk : ∀ {off : Nat}, off < 2 ^ 30 → key d off < 8 * 2 ^ 30 := key_lt_of_die hd
  have hmap : ∀ {l : List Nat}, (∀ off ∈ l, off < 2 ^ 30) → ∀ k ∈ l.map (key d), k < 8 * 2 ^ 30 := by
    intro l hl k hm
    obtain ⟨off, ho, rfl⟩ := List.mem_map.1 hm
    exact hk (hl off ho)
  have htt : ∀ k ∈ countersOfTt d, k < 8 * 2 ^ 30 := hmap (l := [0x30, 0x38, 0x40]) (by decide)
  have hma : ∀ k ∈ countersOfMa d, k < 8 * 2 ^ 30 :=
    hmap (l := [0x1000008, 0x1000038, 0x1000040, 0x1000048, 0x1000058]) (by decide)
  have hup : ∀ k ∈ countersOfUp d, k < 8 * 2 ^ 30 := hmap (l := [0xB000018, 0xB000020, 0xB000028, 0xB000030]) (by decide)
  have hce : ∀ k ∈ countersOfCe d, k < 8 * 2 ^ 30 := by
    intro k hm
    simp only [countersOfCe, List.mem_append, List.mem_singleton, List.mem_map] at hm
    rcases hm with rfl | ⟨g, hg, rfl⟩
    · exact hk (by decide)
    · exact hk (by have := List.mem_range.1 hg; omega)
  have hvc : ∀ c ∈ upTo 8, ∀ k ∈ countersOfVc d c, k < 8 * 2 ^ 30 := by
    intro c hc k hm
    have hc := List.mem_range.1 hc
    simp only [countersOfVc, List.mem_append, List.mem_cons, List.not_mem_nil, or_false, List.mem_map] at hm
    rcases hm with (rfl | rfl | rfl | rfl | rfl | rfl | rfl | rfl | rfl | rfl) | ⟨g, hg, rfl⟩
    case inr => exact hk (by have := List.mem_range.1 hg; omega)
    all_goals exact hk (by omega)
  have htr : ∀ j ∈ upTo 4, ∀ k ∈ countersOfTr d j, k < 8 * 2 ^ 30 := by
    intro j hj k hm
    have hj := List.mem_range.1 hj
    simp only [countersOfTr, List.mem_cons, List.not_mem_nil, or_false] at hm
    rcases hm with rfl | rfl | rfl | rfl <;> exact hk (by omega)
  exact ((((((offDies_zeroRegs s htt).trans (offDies_wr _ _ (hk (by decide)))).trans (offDies_zeroRegs _ hma)).trans
    (OffDies.foldl (fun t c hc => offDies_zeroRegs t (hvc c hc)) _)).trans
    (OffDies.foldl (fun t j hj => offDies_zeroRegs t (htr j hj)) _)).trans (offDies_zeroRegs _ hce)).trans (offDies_zeroRegs _ hup)

theorem same_lateForgotten (s : State) (d : Nat) : Same [.lateFlags] s (lateForgotten s d) := same_lateFlags s _

theorem same_flagsForgotten (s : State) (d : Nat) : Same [.engines] s (flagsForgotten s d) :=
  Same.foldl _ (fun t e => same_setEng t d e _) _ s

theorem same_clearAtLoad (s : State) (d : Nat) : Same [.regs, .lateFlags, .engines] s (clearAtLoad s d) := by
  rw [clearAtLoad_eq]
  exact ((same_countersCleared s d).trans (same_lateForgotten _ d)).trans (same_flagsForgotten _ d)

theorem offDies_clearAtLoad (s : State) {d : Nat} (hd : d < 8) : OffDies [] s (clearAtLoad s d) := by
  have h : Same [.lateFlags, .engines] (countersCleared s d) (clearAtLoad s d) := by
    rw [clearAtLoad_eq]
    exact (same_lateForgotten _ d).trans (same_flagsForgotten _ d)
  exact (offDies_countersCleared s hd).trans (.of_regs (h .regs (by decide)))

/-! ### Possessions: what their beginning changes (R94, R95) -/

/-- The bit of each die says whether a possession's flush is in progress there: of the registers only TT_STATUS, and not its
STATE. -/
structure FlushShown (s u : State) : Prop where
  same : Same [.regs, .possMap, .ttx] s u
  regs : RegsIn (fun k => k < 8 * 2 ^ 30 ∧ k % 2 ^ 30 = 0) s u
  bits : ∀ d i, i ≠ 4 → rdB u (tt d 0) i = rdB s (tt d 0) i

theorem FlushShown.state {s u : State} (h : FlushShown s u) (d : Nat) : ttState u d = ttState s d :=
  rdF_eq_of_bits fun i hi => h.bits d _ (by omega)

theorem FlushShown.refl (s : State) : FlushShown s s := ⟨(Same.refl [] s).mono (by simp), .refl _ s, fun _ _ _ => rfl⟩

theorem FlushShown.trans {s t u : State} (h : FlushShown s t) (g : FlushShown t u) : FlushShown s u :=
  ⟨(h.same.trans g.same).mono (by simp), h.regs.trans g.regs, fun d i hi => (g.bits d i hi).trans (h.bits d i hi)⟩

theorem FlushShown.foldl {α : Type} {f : State → α → State} {l : List α} (h : ∀ s, ∀ a ∈ l, FlushShown s (f s a)) (s : State) :
    FlushShown s (l.foldl f s) := by
  induction l generalizing s with
  | nil => exact .refl s
  | cons a l ih => exact (h s a (by simp)).trans (ih (fun t b hb => h t b (by simp [hb])) _)

theorem FlushShown.of_same {s u : State} (h : Same [.possMap, .ttx] s u) : FlushShown s u := by
  have hregs : u.regs = s.regs := h .regs (by decide)
  refine ⟨h.mono (by simp), .of_regs hregs, fun d i _ => ?_⟩
  exact rdB_congr hregs _ _

theorem flushShown_bit (s : State) {a : Nat} (ha : a < 8) (b : Bool) : FlushShown s (wrB s (tt a 0) 4 b) := by
  have hk : tt a 0 < 8 * 2 ^ 30 ∧ tt a 0 % 2 ^ 30 = 0 := by
    unfold tt key
    omega
  refine ⟨(same_wrB s _ _ _).mono (by simp), regsIn_wr s _ hk, fun d i hi => ?_⟩
  by_cases h : tt d 0 = tt a 0
  · rw [h, rdB_wrB_ne _ _ _ hi]
  · exact (regsBut_wrB s (tt a 0) 4 b).rdB (by simpa using h) _

theorem flushShown_showFlush (s : State) : FlushShown s (showFlush s) := by
  unfold showFlush
  exact FlushShown.foldl (fun t a ha => flushShown_bit t (List.mem_range.1 ha) _) s

theorem same_possMap_ttx (s : State) (x : Store Bool) (y : TTX) : Same [.possMap, .ttx] s { s with possMap := x, ttx := y } :=
  (same_possMap s x).trans (same_ttx _ y)

theorem flushShown_possBegin (s : State) (p : Poss) : FlushShown s (possBegin s p) := by
  unfold possBegin
  extract_lets hs m q
  exact (FlushShown.of_same (same_possMap_ttx s m _)).trans (flushShown_showFlush _)

theorem flushShown_possStart (s : State) (k : Nat) : FlushShown s (possStart s k) := by
  unfold possStart
  exact FlushShown.foldl (fun t p _ => flushShown_possBegin t p) s

theorem flushShown_loadPoss (s : State) (t : Tree) : FlushShown s (loadPoss s t) := by
  unfold loadPoss
  extract_lets ps eq x s1
  have h1 : FlushShown s s1 := .of_same ((same_ttx s _).mono (by simp))
  split
  · exact h1
  · exact h1.trans ((FlushShown.of_same (same_possMap_ttx s1 [] _)).trans (flushShown_possStart _ 0))

/-! ### A load that succeeds -/

theorem dieTT_setDie_same (s : State) (d : Nat) (f : DieTT → DieTT) : dieTT (setDie s d f) d = f (dieTT s d) :=
  Store.get_set_same _ _ _ _

theorem dieTT_congr {s u : State} (h : u.dies = s.dies) (d : Nat) : dieTT u d = dieTT s d := congrArg (Store.get DieTT.none · d) h

theorem tryArmed_of_no_done {s : State} (h : rdB s (hp 0x108) 0 = false) : tryArmed s = s := by
  unfold tryArmed
  rw [h, Bool.and_false, Bool.false_and, Bool.false_and, if_neg Bool.false_ne_true]

theorem tryArmed_of_not_arming {s : State} (h : s.job.state ≠ .arming) : tryArmed s = s := by
  unfold tryArmed
  rw [decide_eq_false h, Bool.false_and, Bool.false_and, Bool.false_and, if_neg Bool.false_ne_true]

/-- The die's image is in place with its signals, its measurement and its number of stations. -/
def imagePlaced (s : State) (d : Nat) (t : Tree) : State :=
  let x := dieOf t d
  let sigs := match t.dies.find? (fun i => decide (i.pos = d)) with
    | some i => sigInitOf t.bytes i
    | none => []
  let h := sha256 (slice t.bytes t.pkg.off t.pkg.len)
  let s := setDie (clearAtLoad s d) d (fun _ => x)
  let s := { s with signals := sigs.foldl (fun m y => Store.set (fun _ => 0) m y.2.1 y.2.2) s.signals }
  let s := (upTo 4).foldl (fun s i => wr s (tt d (0x50 + 8 * i)) (BitVec.ofNat 64 (leAt h (8 * i) 8))) s
  wr s (tt d 0x20) (BitVec.ofNat 64 (2 ^ 16 * x.stations.length))

/-- The load is over: its result is 0, and the die is LOADED. -/
def loadOver (s : State) (d : Nat) : State := setTtState (wrB (loadResult s d (0, 0, 0)) (tt d 8) 0 false) d 2

theorem installLoad_eq (s : State) (d : Nat) (t : Tree) : installLoad s d t = ttEvent (loadPoss (loadOver (imagePlaced s d t) d) t) d 0 := rfl

theorem imagePlaced_shows (s : State) {d : Nat} (hd : d < 8) (t : Tree) : dieTT (imagePlaced s d t) d = dieOf t d
    ∧ OffDies [] s (imagePlaced s d t) ∧ Same [.regs, .dies, .signals, .engines, .lateFlags] s (imagePlaced s d t) := by
  unfold imagePlaced
  extract_lets x sigs h s1 s2 s3
  have h1 : Same [.regs, .lateFlags, .engines, .dies] s s1 := (same_clearAtLoad s d).trans (same_setDie _ _ _)
  have h2 : Same [.signals] s1 s2 := same_signals s1 _
  have h3 : Same [.regs] s2 s3 := Same.foldl _ (fun _ _ => same_wr _ _ _) _ _
  have h4 : Same [.regs] s3 (wr s3 (tt d 0x20) (BitVec.ofNat 64 (2 ^ 16 * x.stations.length))) := same_wr _ _ _
  have hoff1 : OffDies [] s s1 := (offDies_clearAtLoad s hd).trans (.of_regs (same_setDie _ d (fun _ => x) .regs (by decide)))
  have hoff3 : OffDies [] s2 s3 := OffDies.foldl (fun t i hi => offDies_wr t _
    (key_lt_of_die hd (by have := List.mem_range.1 hi; omega))) _
  refine ⟨?_, ((hoff1.trans (.of_regs (h2 .regs (by decide)))).trans hoff3).trans (offDies_wr s3 _ (key_lt_of_die hd (by decide))),
    (((h1.trans h2).trans h3).trans h4).mono (by simp)⟩
  rw [dieTT_congr (((h2.trans h3).trans h4) .dies (by decide)), dieTT_setDie_same]

theorem loadOver_shows (s : State) {d : Nat} (hd : d < 8) : ttState (loadOver s d) d = 2 ∧ rdB (loadOver s d) (tt d 8) 0 = false
    ∧ rd (loadOver s d) (tt d 0x18) = 0 ∧ OffDies [] s (loadOver s d) ∧ Same [.regs] s (loadOver s d) := by
  have hstate := regsBut_setTtState (wrB (loadResult s d (0, 0, 0)) (tt d 8) 0 false) d 2
  have hbit := regsBut_wrB (loadResult s d (0, 0, 0)) (tt d 8) 0 false
  refine ⟨ttState_setTtState _ _ (by decide), ?_, ?_, ?_, ((same_wr s _ _).trans ((same_wrB _ _ _ _).trans (same_setTtState _ _ _))).mono (by simp)⟩
  · rw [loadOver, hstate.rdB (by simp [tt_inj]), rdB_wrB_same _ _ _ _ (by decide)]
  · rw [loadOver, hstate _ (by simp [tt_inj]), hbit _ (by simp [tt_inj]), rd_loadResult]
    rfl
  · exact ((offDies_wr s _ (key_lt_of_die hd (by decide))).trans (offDies_wr _ _ (key_lt_of_die hd (by decide)))).trans
      (offDies_wr _ _ (key_lt_of_die hd (by decide)))

theorem FlushShown.tt {s u : State} (h : FlushShown s u) {d off : Nat} (ho : off < 2 ^ 30) (h0 : off ≠ 0) :
    rd u (tt d off) = rd s (tt d off) := h.regs _ (by unfold Machine.tt key; omega)

theorem installLoad_shows (s : State) (d : ADie) (t : Tree) : let u := installLoad s d t
    dieTT u d = dieOf t d ∧ ttState u d = 2 ∧ rdB u (tt d 8) 0 = false ∧ rd u (tt d 0x18) = 0 ∧ rdB u (tt d 0x48) 0 = true
    ∧ OffDies noticeKeys s u ∧ Same [.regs, .port, .dies, .signals, .engines, .lateFlags, .possMap, .ttx] s u := by
  have hd : (d : Nat) < 8 := d.isLt
  intro u
  obtain ⟨hdie, hoff1, hsame1⟩ := imagePlaced_shows s hd t
  have hu : u = ttEvent (loadPoss (loadOver (imagePlaced s d t) d) t) d 0 := installLoad_eq s d t
  clear_value u
  generalize imagePlaced s d t = s1 at hdie hoff1 hsame1 hu
  obtain ⟨hstate, hload, hresult, hoff2, hsame2⟩ := loadOver_shows s1 hd
  generalize loadOver s1 d = s2 at hstate hload hresult hoff2 hsame2 hu
  have hposs := flushShown_loadPoss s2 t
  generalize loadPoss s2 t = s3 at hposs hu
  have hevent : RegsBut (tt d 0x48 :: noticeKeys) s3 u := hu ▸ regsBut_ttEvent s3 d 0
  have hsame4 : Same [.regs, .port] s3 u := hu ▸ same_ttEvent s3 d 0
  have happart : ∀ {off : Nat}, off < 2 ^ 30 → off ≠ 0x48 → tt d off ∉ tt d 0x48 :: noticeKeys := fun ho h => tt_apart_event hd ho h
  have hoff4 : OffDies noticeKeys s3 u := by
    intro k hk hn
    refine hevent k (List.not_mem_cons_of_ne_of_not_mem (fun h => ?_) hn)
    have := key_lt_of_die hd (off := 0x48) (by decide)
    unfold tt at h
    omega
  have hoff3 : OffDies [] s2 s3 := fun k hk _ => hposs.regs k (by omega)
  refine ⟨?_, ?_, ?_, ?_, ?_, (((hoff1.trans hoff2).trans hoff3).trans hoff4).mono (by simp),
    (((hsame1.trans hsame2).trans hposs.same).trans hsame4).mono (by simp)⟩
  · rw [dieTT_congr (((hsame2.trans hposs.same).trans hsame4) .dies (by decide)), hdie]
  · rw [ttState_congr hevent (happart (by decide) (by decide)), hposs.state, hstate]
  · rw [hevent.rdB (happart (by decide) (by decide)), rdB, hposs.tt (by decide) (by decide), ← rdB, hload]
  · rw [hevent _ (happart (by decide) (by decide)), hposs.tt (by decide) (by decide), hresult]
  · rw [hu]
    exact rdB_raise_same s3 d 0x48 0 _ _ _ _ (not_noticeReg (by omega) (by decide)) (by decide)

theorem execTtLoadComplete_succeeds {s : State} {d : ADie} {t : Tree} (hl : rdB s (tt d 8) 0 = true) (hj : s.job.state = .arming)
    (ht : readTree s d = .ok t) (hf : loadFail s t = none) : exec (.ttLoadComplete d) s = .next (tryArmed (installLoad s d t)) := by
  show execTtLoadComplete d s = _
  simp [execTtLoadComplete, hl, hj, ht, hf]

theorem ttLoadComplete_succeeds {s : State} {d : ADie} {t : Tree} (hl : rdB s (tt d 8) 0 = true) (hj : s.job.state = .arming)
    (ht : readTree s d = .ok t) (hf : loadFail s t = none) (hdone : rdB s (hp 0x108) 0 = false) : Runs (.ttLoadComplete d) s (fun u =>
      dieTT u d = dieOf t d ∧ ttState u d = 2 ∧ rdB u (tt d 8) 0 = false ∧ rd u (tt d 0x18) = 0 ∧ rdB u (tt d 0x48) 0 = true
      ∧ Same [.regs, .port, .dies, .signals, .engines, .lateFlags, .possMap, .ttx] s u) := by
  obtain ⟨hdie, hstate, hload, hresult, hevent, hoff, hsame⟩ := installLoad_shows s d t
  have hdone' : rdB (installLoad s d t) (hp 0x108) 0 = false := by
    rw [rdB, hoff _ (by unfold hp key; omega) (by decide), ← rdB, hdone]
  refine ⟨_, execTtLoadComplete_succeeds hl hj ht hf, ?_⟩
  rw [tryArmed_of_no_done hdone']
  exact ⟨hdie, hstate, hload, hresult, hevent, hsame⟩

/-! ### The flush of a possession ends on one home (R95) -/

theorem same_dirDrop (s : State) (l : Nat) : Same [.dir, .regs] s (dirDrop s l) := by
  unfold dirDrop
  split
  · exact (same_dir s _).trans (same_wr _ _ _)
  · exact (Same.refl [] s).mono (by simp)

theorem same_jPut (s : State) (d l : Nat) (v : JLine) : Same [.jlines] s (jPut s d l v) := same_jlines s _

theorem same_putLine (s : State) (l : Nat) (v : BitVec 512) : Same [.mem] s (putLine s l v) := same_mem s _

theorem same_invalidateLine (s : State) (l : Nat) (keep : Bool) : Same [.mem, .jlines, .dir, .regs] s (invalidateLine s l keep) := by
  unfold invalidateLine
  extract_lets s1 s2
  have h1 : Same [.mem] s s1 := by
    show Same _ _ (match ownerOf s l with | some d => if keep then putLine s l (jGet s d l).data else s | none => s)
    split
    · split
      · exact same_putLine s _ _
      · exact Same.refl _ s
    · exact Same.refl _ s
  have h2 : Same [.jlines] s1 s2 := Same.foldl _ (fun t d => same_jPut t d l _) _ s1
  exact (h1.trans h2).trans (same_dirDrop s2 l)

theorem same_flushHome (s : State) (d base granules : Nat) : Same [.mem, .jlines, .dir, .regs] s (flushHome s d base granules) := by
  unfold flushHome
  extract_lets hit ls
  exact Same.foldl _ (fun t l => same_invalidateLine t l true) ls s

theorem same_noteRemote (s : State) (d k : Nat) : Same [.dies] s (noteRemote s d k) := same_setDie s _ _

/-- The possessions as they stand when one of them has changed. -/
def possChanged (s : State) (p q : Poss) : State :=
  { s with ttx := { s.ttx with poss := s.ttx.poss.map (fun x => if x = p then q else x) } }

theorem same_possChanged (s : State) (p q : Poss) : Same [.ttx] s (possChanged s p q) := same_ttx s _

theorem mem_possChanged {s : State} {p : Poss} (h : p ∈ s.ttx.poss) (q : Poss) : q ∈ (possChanged s p q).ttx.poss :=
  List.mem_map.2 ⟨p, h, if_pos rfl⟩

/-- The flush of the possession has ended on the die: its lines are gone, and the dies know it where the flush was the last. -/
def flushNoted (s : State) (d : Nat) (p q : Poss) : State :=
  let s := flushHome s d p.base p.granules
  if q.flushing = 0 ∧ 0 < p.start then (upTo 8).foldl (fun s x => noteRemote s x p.start) s else s

theorem same_flushNoted (s : State) (d : Nat) (p q : Poss) : Same [.mem, .jlines, .dir, .regs, .dies] s (flushNoted s d p q) := by
  unfold flushNoted
  extract_lets t
  have h : Same [.mem, .jlines, .dir, .regs] s t := same_flushHome s d p.base p.granules
  split
  · exact h.trans (Same.foldl _ (fun t x => same_noteRemote t x p.start) _ t)
  · exact h.mono (by simp)

theorem execPossessionFlushDone_of {s : State} {d : ADie} {base : W64} {p : Poss}
    (h : s.ttx.poss.find? (fun p => decide (p.base = base.toNat) && bitOf p.flushing d) = some p) :
    exec (.possessionFlushDone d base) s = .next (
      let q := { p with flushing := putBit p.flushing d false }
      tryArmed (showFlush (possChanged (flushNoted s d p q) p q))) := by
  show execPossessionFlushDone d base s = _
  unfold execPossessionFlushDone
  rw [h]
  rfl

theorem possessionFlushDone_shows {s : State} {d : ADie} {base : W64} {p : Poss}
    (h : s.ttx.poss.find? (fun p => decide (p.base = base.toNat) && bitOf p.flushing d) = some p) (hj : s.job.state ≠ .arming) :
    Runs (.possessionFlushDone d base) s (fun u => { p with flushing := putBit p.flushing d false } ∈ u.ttx.poss
      ∧ Same [.regs, .ttx, .mem, .jlines, .dir, .dies] s u) := by
  refine ⟨_, execPossessionFlushDone_of h, ?_⟩
  extract_lets q
  have h1 := same_flushNoted s d p q
  generalize flushNoted s d p q = s1 at h1 ⊢
  have hp : p ∈ s1.ttx.poss := by
    rw [h1 .ttx (by decide)]
    exact List.mem_of_find?_eq_some h
  have hq := mem_possChanged hp q
  have h2 := same_possChanged s1 p q
  generalize possChanged s1 p q = s2 at hq h2 ⊢
  have h3 : Same [.regs] s2 (showFlush s2) := Same.foldl _ (fun t a => same_wrB t _ _ _) _ s2
  generalize showFlush s2 = s3 at h3 ⊢
  have hsame := (h1.trans h2).trans h3
  have hjob : s3.job.state ≠ .arming := by
    rw [hsame .job (by decide)]
    exact hj
  rw [tryArmed_of_not_arming hjob]
  refine ⟨?_, hsame.mono (by simp)⟩
  rw [h3 .ttx (by decide)]
  exact hq

end Sys2Proof.Machine

open Sys2Proof Sys2Proof.Machine

/-- Settles O18: a load starts, ends with the die's image in place or fails with its first failure, and a possession's flush ends. -/
theorem loadsAndFlushes : Obligations.LoadsAndFlushes := by
  intro s d v base
  refine ⟨fun hv hl hj => ⟨_, execTtLoad_starts hv hl hj, ttLoad_starts_shows s d⟩,
    fun hv hl hj => ⟨_, execTtLoad_refused hv hl hj, ttLoad_refused_shows s d⟩, fun t ht hl hj => ⟨fun hf hdone => ?_, fun f hf => ?_⟩,
    fun f hf hl hj => ?_, fun p hp hj => possessionFlushDone_shows hp hj⟩
  case refine_1 => exact ttLoadComplete_succeeds hl hj ht hf hdone
  case refine_2 => exact ttLoadComplete_fails hl hj (.inr ⟨t, ht, hf⟩)
  case refine_3 =>
    obtain ⟨u, hu, hresult, -, hstate, hsignals⟩ := ttLoadComplete_fails hl hj (.inl hf)
    exact ⟨u, hu, hresult, hstate, hsignals⟩
end

section
/-! What a train's own work changes at its engine: translation, holds, and the flits that it sends (R81, R86, R316, R385). -/

namespace Sys2Proof.Machine

/-! ### Parts of the state that one operation changes -/

theorem same_inc (s : State) (k : Nat) : Same [.regs] s (inc s k) := same_wr s _ _

theorem same_dir_dirAge (s : State) (x : Store DirEntry) (n : Nat) : Same [.dir, .dirAge] s { s with dir := x, dirAge := n } :=
  (same_dir s x).trans (same_dirAge _ n)

theorem same_dirRefresh (s : State) (l : Nat) : Same [.dir, .dirAge, .regs] s (dirRefresh s l) := by
  unfold dirRefresh
  extract_lets hs
  split
  · exact (same_dir s _).mono (by simp)
  · split
    · exact (Same.refl [] s).mono (by simp)
    · exact (same_dir_dirAge s _ _).trans (same_wr _ _ _)

theorem same_snoopReadLine (s : State) (l : Nat) : Same [.jlines, .dir, .dirAge, .regs] s (snoopReadLine s l) := by
  unfold snoopReadLine
  extract_lets hs
  split
  · exact (Same.refl [] s).mono (by simp)
  · exact (Same.foldl _ (fun t d => same_jPut t d l _) hs s).trans (same_dirRefresh _ l)

theorem same_cohTouch (s : State) (a n : Nat) : Same [.jlines, .dir, .dirAge, .regs] s (cohTouch s a n) :=
  Same.foldl _ same_snoopReadLine _ s

theorem same_tuEvent (s : State) (d i : Nat) : Same [.regs, .port] s (tuEvent s d i) := same_raise s _ _ _ _ _ _ _

theorem same_denyAt (s : State) (h pa die kind : Nat) : Same [.regs, .port] s (denyAt s h pa die kind) :=
  (((same_inc s _).trans (same_wr _ _ _)).trans (same_ttEvent _ h 4)).mono (by simp)

theorem same_denyRemote (s : State) (d : Nat) (refused : Option Nat) : Same [.regs, .port] s (denyRemote s d refused) := by
  unfold denyRemote
  extract_lets t
  have h : Same [.regs, .port] s t := ((same_inc s _).trans (same_tuEvent _ d 4)).mono (by simp)
  split
  · exact (h.trans (same_denyAt t d _ d 2)).mono (by simp)
  · exact h

theorem same_afterTranslate (s : State) (d e : Nat) (va : W64) (write : Bool) :
    Same [.jlines, .dir, .dirAge, .regs, .trans, .port] s (afterTranslate s d e va write) := by
  unfold afterTranslate
  split
  · exact (Same.refl [] s).mono (by simp)
  · extract_lets r t
    have ht : Same [.jlines, .dir, .dirAge, .regs] s t :=
      ((Same.foldl _ (fun t a => same_cohTouch t a 8) r.reads s).trans (same_inc _ _)).mono (by simp)
    split
    · exact (ht.trans (same_trans t _)).mono (by simp)
    · split
      · exact (ht.trans (same_denyAt t _ _ d 3)).mono (by simp)
      · exact ht.mono (by simp)

theorem same_walkPages (d e : Nat) (write : Bool) (l : List (Nat × Nat × Nat)) (s : State) :
    Same [.jlines, .dir, .dirAge, .regs, .trans, .port] s (walkPages s d e write l).1 := by
  induction l generalizing s with
  | nil => exact Same.refl _ s
  | cons x rest ih =>
    have h := same_afterTranslate s d e (BitVec.ofNat 64 x.2.1) write
    unfold walkPages
    dsimp only
    split
    · exact (h.trans (ih _)).mono (by simp)
    · exact h

theorem same_msis_trans (s : State) (x : List (Nat × W64 × W32)) (y : TransX) : Same [.msis, .trans] s { s with msis := x, trans := y } :=
  (same_msis s x).trans (same_trans _ y)

theorem same_faultRecord (s : State) (d e : Nat) (k : W64) (window : Bool) (cause : Nat) (write : Bool) (va : W64) :
    Same [.regs, .port, .trans, .msis] s (faultRecord s d e k window cause write va) := by
  unfold faultRecord
  split
  · exact ((same_wr s _ _).trans (same_inc _ _)).mono (by simp)
  · split
    · exact (((same_trans s _).trans (same_inc _ _)).trans (same_tuEvent _ d 1)).mono (by simp)
    · extract_lets sib info s1 s2 sends x s3
      have h1 : Same [.regs] s s1 :=
        ((((same_wr s _ _).trans (same_wr _ _ _)).trans (same_wr _ _ _)).trans (same_wr _ _ _)).mono (by simp)
      have h2 : Same [.regs] s1 s2 := (((same_wrF s1 _ _ _ _).trans (same_wrB _ _ _ _)).trans (same_inc _ _)).mono (by simp)
      have h3 : Same [.msis, .trans] s2 s3 := same_msis_trans s2 _ _
      have h : Same [.regs, .msis, .trans] s s3 := ((h1.trans h2).trans h3).mono (by simp)
      split
      · exact h.mono (by simp)
      · exact ((h.trans (same_trans s3 _)).trans (same_tuEvent _ d 0)).mono (by simp)

/-! ### The work of a train -/

/-- A train is the one that an order put in flight, whatever has become of it since. -/
structure SameOrder (t x : Train) : Prop where
  die : x.die = t.die
  engine : x.engine = t.engine
  issue : x.issue = t.issue
  desc : x.desc = t.desc
  transpose : x.transpose = t.transpose
  arriveSig : x.arriveSig = t.arriveSig
  arrive : x.arrive = t.arrive
  book : x.book = t.book

theorem SameOrder.refl (t : Train) : SameOrder t t := ⟨rfl, rfl, rfl, rfl, rfl, rfl, rfl, rfl⟩

theorem SameOrder.trans {t x y : Train} (h : SameOrder t x) (g : SameOrder x y) : SameOrder t y :=
  ⟨g.die.trans h.die, g.engine.trans h.engine, g.issue.trans h.issue, g.desc.trans h.desc, g.transpose.trans h.transpose,
    g.arriveSig.trans h.arriveSig, g.arrive.trans h.arrive, g.book.trans h.book⟩

/-- What a train's work may change. -/
def trainParts : List Part := [.engines, .trains, .regs, .port, .trans, .jlines, .dir, .dirAge, .msis, .om, .freeIx]

/-- A train of engine `e` of die `d` has worked: the trains in flight are those of the same orders, and the engines stand where
they stood. -/
structure TrainWork (d e : Nat) (s u : State) : Prop where
  same : Same trainParts s u
  trains : ∀ t ∈ s.trains, ∃ x ∈ u.trains, SameOrder t x
  others : OtherEngines s u d e
  cycle : (eng u d e).cycle = (eng s d e).cycle
  next : (eng u d e).next = (eng s d e).next

theorem TrainWork.refl (d e : Nat) (s : State) : TrainWork d e s s :=
  ⟨Same.refl _ s, fun t ht => ⟨t, ht, .refl t⟩, .refl s d e, rfl, rfl⟩

theorem TrainWork.trans {d e : Nat} {s t u : State} (h : TrainWork d e s t) (g : TrainWork d e t u) : TrainWork d e s u := by
  refine ⟨(h.same.trans g.same).mono (by simp), fun x hx => ?_, h.others.trans g.others, g.cycle.trans h.cycle, g.next.trans h.next⟩
  obtain ⟨y, hy, hxy⟩ := h.trains x hx
  obtain ⟨z, hz, hyz⟩ := g.trains y hy
  exact ⟨z, hz, hxy.trans hyz⟩

theorem TrainWork.of_same {ps : List Part} {d e : Nat} {s u : State} (h : Same ps s u) (hps : ∀ p ∈ ps, p ∈ trainParts)
    (he : Part.engines ∉ ps) (ht : Part.trains ∉ ps) : TrainWork d e s u := by
  have htrains : u.trains = s.trains := h .trains ht
  exact ⟨h.mono hps, fun t hm => ⟨t, htrains ▸ hm, .refl t⟩, .of_same h he d e, by rw [h.eng he], by rw [h.eng he]⟩

theorem TrainWork.foldl {α : Type} {d e : Nat} {f : State → α → State} (h : ∀ s a, TrainWork d e s (f s a)) (l : List α) (s : State) :
    TrainWork d e s (l.foldl f s) := by
  induction l generalizing s with
  | nil => exact .refl d e s
  | cons a l ih => exact (h s a).trans (ih _)

theorem TrainWork.issuedAt {d e c : Nat} {s u : State} (h : TrainWork d e s u) (hs : IssuedAt s d e c) : IssuedAt u d e c :=
  ⟨h.cycle.trans hs.1, h.next.trans hs.2⟩

theorem trainWork_updTrain (d e : Nat) (s : State) (t : Train) {f : Train → Train} (hf : ∀ x, SameOrder x (f x)) :
    TrainWork d e s (updTrain s t f) := by
  have h : Same [.trains] s (updTrain s t f) := same_trains s _
  refine ⟨h.mono (by simp [trainParts]), fun x hx => ?_, .of_same h (by decide) d e, by rw [h.eng (by decide)], by rw [h.eng (by decide)]⟩
  refine ⟨_, List.mem_map_of_mem hx, ?_⟩
  split
  · exact hf x
  · exact .refl x

theorem trainWork_xlateFirst (s : State) {d j : Nat} (hj : j < 4) : TrainWork d (9 + j) s (xlateFirst s d j) := by
  unfold xlateFirst
  split
  · exact .refl _ _ s
  · have h1 : TrainWork d (9 + j) s (setEng s d (9 + j) (fun e => { e with flagged := true })) :=
      ⟨(same_setEng s _ _ _).mono (by simp [trainParts]), fun t ht => ⟨t, ht, .refl t⟩, otherEngines_setEng s d _ (by omega),
        by rw [eng_setEng_same], by rw [eng_setEng_same]⟩
    exact h1.trans (.of_same (same_trEvent _ d j 0) (by simp [trainParts]) (by decide) (by decide))

section
variable (s : State) (t : Train)

theorem trainWork_trainFaults (d e : Nat) (f : RowFault) (write : Bool) : TrainWork d e s (trainFaults s t f write) := by
  unfold trainFaults
  extract_lets k s1 s2 s3
  split
  · exact .refl d e s
  · have h1 : Same [.regs, .port] s s1 := by
      show Same _ _ (match f.refused with | some r => denyRemote s t.die r | none => s)
      split
      · exact same_denyRemote s _ _
      · exact Same.refl _ s
    have h2 : Same [.regs, .port] s1 s2 := by
      show Same _ _ (if f.window then trEvent (wr s1 (tr t.die t.engine 0x28) (BitVec.ofNat 64 f.va)) t.die t.engine 2 else s1)
      split
      · exact ((same_wr s1 _ _).trans (same_trEvent _ _ _ 2)).mono (by simp)
      · exact Same.refl _ s1
    have h3 : Same [.regs, .port, .trans, .msis] s2 s3 := same_faultRecord s2 _ _ _ _ _ _ _
    have h : TrainWork d e s s3 := .of_same ((h1.trans h2).trans h3) (by simp [trainParts]) (by decide) (by decide)
    exact h.trans (trainWork_updTrain d e s3 t (fun x => ⟨rfl, rfl, rfl, rfl, rfl, rfl, rfl, rfl⟩))

theorem trainWork_trainHold (hj : t.engine < 4) (f : RowFault) (write : Bool) :
    TrainWork t.die (9 + t.engine) s (trainHold s t f write) := by
  unfold trainHold
  extract_lets s1 now_
  refine TrainWork.trans ?_ (trainWork_xlateFirst _ hj)
  exact (trainWork_trainFaults s t _ _ f write).trans
    (trainWork_updTrain _ _ s1 t (fun x => ⟨rfl, rfl, rfl, rfl, rfl, rfl, rfl, rfl⟩))

theorem trainWork_walkPages (d e : Nat) (write : Bool) (l : List (Nat × Nat × Nat)) (x y : Nat) :
    TrainWork x y s (walkPages s d e write l).1 :=
  .of_same (same_walkPages d e write l s) (by simp [trainParts]) (by decide) (by decide)

/-- The translation unit works ahead of a train (R316). -/
theorem trainWork_trainAhead (hj : t.engine < 4) : TrainWork t.die (9 + t.engine) s (trainAhead s t) := by
  have hfault : ∀ (s : State) (f : RowFault) (write : Bool) (hold : Prop) [Decidable hold],
      TrainWork t.die (9 + t.engine) s (if hold then trainHold s t f write else trainFaults s t f write) := by
    intro s f write hold _
    split
    · exact trainWork_trainHold s t hj f write
    · exact trainWork_trainFaults s t _ _ f write
  unfold trainAhead
  split
  · exact .refl _ _ s
  · have h1 := trainWork_walkPages s t.die (9 + t.engine) false (srcAhead t t.data.length) t.die (9 + t.engine)
    generalize walkPages s t.die (9 + t.engine) false (srcAhead t t.data.length) = r at h1 ⊢
    obtain ⟨s1, a⟩ := r
    dsimp only at h1 ⊢
    split
    · exact h1.trans (hfault s1 _ false _)
    · have h2 := trainWork_walkPages s1 t.die (9 + t.engine) true (dstAhead t t.landed) t.die (9 + t.engine)
      generalize walkPages s1 t.die (9 + t.engine) true (dstAhead t t.landed) = r at h2 ⊢
      obtain ⟨s2, b⟩ := r
      dsimp only at h2 ⊢
      split
      · exact (h1.trans h2).trans (hfault s2 _ true _)
      · exact h1.trans h2

/-! ### A train that goes to another package (R385) -/

variable (d e : Nat)

theorem trainWork_sendBooked (kind path dst owner : Nat) (pl : BitVec 1792) : TrainWork d e s (sendBooked s kind path dst owner pl) :=
  .of_same (same_sendBooked s kind path dst owner pl) (by simp [trainParts]) (by decide) (by decide)

theorem trainWork_drawWord : TrainWork d e s (drawWord s).2 :=
  .of_same (same_freeIx s _) (by simp [trainParts]) (by decide) (by decide)

theorem trainWork_trainAsk : TrainWork d e s (trainAsk s t) := by
  unfold trainAsk
  extract_lets n s1
  have h1 : TrainWork d e s s1 := by
    refine TrainWork.foldl (fun t' r => ?_) _ s
    dsimp only
    split
    · exact .refl d e t'
    · split
      · exact (trainWork_drawWord t' d e).trans (trainWork_sendBooked _ d e _ _ _ _ _)
      · exact .refl d e t'
  exact h1.trans (trainWork_updTrain d e s1 t (fun x => ⟨rfl, rfl, rfl, rfl, rfl, rfl, rfl, rfl⟩))

theorem trainWork_trainSend (l : List Byte) (done : Nat) : TrainWork d e s (trainSend s t l done) := by
  unfold trainSend
  extract_lets n runs flits m s1
  have h1 : TrainWork d e s s1 := TrainWork.foldl (fun t' x => trainWork_sendBooked t' d e _ _ _ _ _) _ s
  exact h1.trans (trainWork_updTrain d e s1 t (fun x => ⟨rfl, rfl, rfl, rfl, rfl, rfl, rfl, rfl⟩))

theorem trainWork_trainLost (a : Nat) : TrainWork d e s (trainLost s t a) := by
  unfold trainLost
  extract_lets s1
  have h1 : TrainWork d e s s1 := .of_same (same_wr s _ _) (by simp [trainParts]) (by decide) (by decide)
  refine TrainWork.trans ?_ (.of_same (same_trEvent _ _ _ 2) (by simp [trainParts]) (by decide) (by decide))
  exact h1.trans (trainWork_updTrain d e s1 t (fun x => ⟨rfl, rfl, rfl, rfl, rfl, rfl, rfl, rfl⟩))

/-- A train does what it owes other packages. -/
theorem trainWork_trainAbroad (hj : t.engine < 4) (done : Nat) : TrainWork t.die (9 + t.engine) s (trainAbroad s t done) := by
  unfold trainAbroad
  split
  · exact trainWork_trainHold s t hj _ _
  · split
    · split
      · split
        · exact trainWork_trainAsk s t _ _
        · exact trainWork_trainLost s t _ _ _
      · exact .refl _ _ s
    · split
      · split
        · split
          · exact trainWork_trainSend s t _ _ _ _
          · exact trainWork_trainLost s t _ _ _
        · exact .refl _ _ s
      · exact .refl _ _ s

end

/-! ### A train order issues (R81) -/

/-- The train of an order with the row of its descriptor table, as it stands at ISSUE. -/
def trainIssued (d j op : Nat) (issue : BitVec 24) (ops : BitVec 96) (x : BitVec 512) : Train :=
  { die := d, engine := j, issue := issue.toNat, desc := x, index := fld ops 0 20, transpose := decide (op = 0x21)
    arriveSig := fld ops 20 14, arrive := ops.getLsbD 34, book := fld ops 40 24, wait := none, heldAt := none, faulted := false
    data := [], landed := 0, asked := false, sent := false, dead := false }

theorem trainOf_mkOrder {s : State} {d j op : Nat} {ops : BitVec 96} {x : BitVec 512} (hop : op < 256) (issue : BitVec 24)
    (hx : ((dieTT s d).descs.getD j [])[fld ops 0 20]? = some x) :
    trainOf s d j (mkOrder op issue ops) = some (trainIssued d j op issue ops x) := by
  have hfld : ∀ {lo len : Nat}, lo + len ≤ 96 → fld (mkOrder op issue ops) (32 + lo) len = fld ops lo len :=
    fun h => fld_mkOrder_ops hop issue ops h
  have hbit : bitOf (mkOrder op issue ops) (32 + 34) = ops.getLsbD 34 := bitOf_mkOrder_ops hop issue ops (by decide)
  have hindex : fld (mkOrder op issue ops) 32 20 = fld ops 0 20 := hfld (lo := 0) (by decide)
  have hsig : fld (mkOrder op issue ops) 52 14 = fld ops 20 14 := hfld (lo := 20) (by decide)
  have hbook : fld (mkOrder op issue ops) 72 24 = fld ops 40 24 := hfld (lo := 40) (by decide)
  unfold trainOf trainIssued
  rw [hindex, hx, hsig, hbook, hbit, fld_mkOrder_op hop, fld_mkOrder_issue]
  rfl

/-- The trains in flight with one more. -/
def trainAdded (s : State) (t : Train) : State := { s with trains := s.trains ++ [t] }

theorem same_trainAdded (s : State) (t : Train) : Same [.trains] s (trainAdded s t) := same_trains s _

theorem trainIssue_of_canIssue {s : State} {d j op : Nat} {issue : BitVec 24} {ops : BitVec 96} {t : Train}
    (ht : trainOf s d j (mkOrder op issue ops) = some t) (hc : canIssue s d (9 + j) (mkOrder op issue ops) = true) :
    trainIssue s d j op issue ops = trainAbroad (trainAhead (trainAdded (atIssue s d (9 + j) issue.toNat) t) t) t 0 := by
  unfold trainIssue
  dsimp only
  rw [ht]
  dsimp only
  rw [if_pos hc]
  rfl

theorem trainIssue_shows {s : State} {d j op : Nat} (hj : j < 4) (hop : op < 256) {issue : BitVec 24} {ops : BitVec 96} {x : BitVec 512}
    (hx : ((dieTT s d).descs.getD j [])[fld ops 0 20]? = some x) (hq : Quiet s d (9 + j) issue.toNat)
    (hc : canIssue s d (9 + j) (mkOrder op issue ops) = true) : let u := trainIssue s d j op issue ops
    IssuedAt u d (9 + j) issue.toNat ∧ (∃ t ∈ u.trains, SameOrder (trainIssued d j op issue ops x) t) ∧ OtherEngines s u d (9 + j)
      ∧ Same trainParts s u := by
  have ht := trainOf_mkOrder hop issue hx
  rw [trainIssue_of_canIssue ht hc]
  have hcycle := cycle_le_of_canIssue hc
  have hissued := issuedAt_atIssue hq hcycle
  have hothers := otherEngines_atIssue hq (e := 9 + j) (by omega)
  have hsame := same_atIssue hq
  generalize htrain : trainIssued d j op issue ops x = t at ht ⊢
  have hdie : t.die = d := by rw [← htrain]; rfl
  have hengine : t.engine = j := by rw [← htrain]; rfl
  generalize atIssue s d (9 + j) issue.toNat = s1 at hissued hothers hsame ⊢
  have hadd := same_trainAdded s1 t
  have hmem : t ∈ (trainAdded s1 t).trains := List.mem_append_right _ (List.mem_singleton_self t)
  generalize trainAdded s1 t = s2 at hadd hmem ⊢
  have hwork : TrainWork d (9 + j) s2 (trainAbroad (trainAhead s2 t) t 0) := by
    have h := (trainWork_trainAhead s2 t (by omega)).trans (trainWork_trainAbroad (trainAhead s2 t) t (by omega) 0)
    rwa [hdie, hengine] at h
  exact ⟨hwork.issuedAt (hissued.of_eng (hadd.eng (by decide) _ _)), hwork.trains t hmem,
    (hothers.trans (.of_same hadd (by decide) _ _)).trans hwork.others, ((hsame.trans hadd).trans hwork.same).mono (by simp [trainParts])⟩

end Sys2Proof.Machine

open Sys2Proof Sys2Proof.Machine

/-- Settles O14: a train order's train is in flight with its row, whatever its first translation and its first flits do. -/
theorem trainOrdersStartTrains : Obligations.TrainOrdersStartTrains := by
  intro s d j issue ops x hx hq a ha hc
  simp only [List.mem_cons, List.not_mem_nil, or_false] at ha
  rcases ha with rfl | rfl
  · obtain ⟨hissued, ⟨t, hm, ht⟩, hothers, hsame⟩ := trainIssue_shows j.isLt (op := 0x20) (by decide) hx hq hc
    exact ⟨_, rfl, hissued, ⟨t, hm, ht.die, ht.engine, ht.issue, ht.desc, ht.transpose, ht.arriveSig, ht.arrive, ht.book⟩, hothers, hsame⟩
  · obtain ⟨hissued, ⟨t, hm, ht⟩, hothers, hsame⟩ := trainIssue_shows j.isLt (op := 0x21) (by decide) hx hq hc
    exact ⟨_, rfl, hissued, ⟨t, hm, ht.die, ht.engine, ht.issue, ht.desc, ht.transpose, ht.arriveSig, ht.arrive, ht.book⟩, hothers, hsame⟩
end

section
/-! Arrivals of engines and dies (R87, R88). -/

namespace Sys2Proof.Machine

/-! ### Registers of the timetable blocks -/

/-- Every register of the A-dies' timetable blocks but TT_EVENT holds what it held. -/
def TtKept (s u : State) : Prop := ∀ x off, x < 8 → off < 0x1000000 → off ≠ 0x48 → rd u (tt x off) = rd s (tt x off)

theorem TtKept.refl (s : State) : TtKept s s := fun _ _ _ _ _ => rfl

theorem TtKept.trans {s t u : State} (h : TtKept s t) (g : TtKept t u) : TtKept s u :=
  fun x off hx ho hn => (g x off hx ho hn).trans (h x off hx ho hn)

theorem TtKept.of_regs {s u : State} (h : u.regs = s.regs) : TtKept s u := fun _ _ _ _ _ => rd_congr h _

/-- A register that is none of the timetable blocks, or that is TT_EVENT. -/
def offTt (k : Nat) : Prop := ∀ x off, x < 8 → off < 0x1000000 → off ≠ 0x48 → k ≠ tt x off

theorem TtKept.of_regsBut {ks : List Nat} {s u : State} (h : RegsBut ks s u) (hk : ∀ k ∈ ks, offTt k) : TtKept s u :=
  fun x off hx ho hn => h _ fun hm => hk _ hm x off hx ho hn rfl

theorem offTt_of_mod {k : Nat} (h : 0x1000000 ≤ k % 2 ^ 30) : offTt k := by
  intro x off _ ho _
  unfold tt key
  omega

theorem offTt_event (d : Nat) : offTt (tt d 0x48) := by
  intro x off _ ho hn
  unfold tt key
  omega

theorem offTt_noticeKeys : ∀ k ∈ noticeKeys, offTt k := by
  intro k hk x off hx ho _
  simp only [noticeKeys, List.mem_cons, List.not_mem_nil, or_false] at hk
  rcases hk with rfl | rfl <;> unfold bar0 tt key <;> omega

theorem ttKept_wr (s : State) {k : Nat} (v : W64) (h : offTt k) : TtKept s (wr s k v) := .of_regsBut (regsBut_wr s k v) (by simpa using h)

theorem TtKept.foldl {α : Type} {f : State → α → State} (h : ∀ s a, TtKept s (f s a)) (l : List α) (s : State) :
    TtKept s (l.foldl f s) := by
  induction l generalizing s with
  | nil => exact .refl s
  | cons a l ih => exact (h s a).trans (ih _)

theorem TtKept.rdB {s u : State} (h : TtKept s u) {d off : Nat} (hd : d < 8) (ho : off < 0x1000000) (hn : off ≠ 0x48) (i : Nat) :
    rdB u (tt d off) i = rdB s (tt d off) i := by
  unfold Machine.rdB
  rw [h d off hd ho hn]

/-- STATE and the engines' arrivals of TT_STATUS are as they were (R106). -/
def StatusKept (d : Nat) (s u : State) : Prop := ∀ i, i < 4 ∨ (20 ≤ i ∧ i < 35) → rdB u (tt d 0) i = rdB s (tt d 0) i

theorem StatusKept.trans {d : Nat} {s t u : State} (h : StatusKept d s t) (g : StatusKept d t u) : StatusKept d s u :=
  fun i hi => (g i hi).trans (h i hi)

theorem StatusKept.of_ttKept {d : Nat} {s u : State} (h : TtKept s u) (hd : d < 8) : StatusKept d s u :=
  fun i _ => h.rdB hd (by decide) (by decide) i

theorem StatusKept.of_regs {d : Nat} {s u : State} (h : u.regs = s.regs) : StatusKept d s u :=
  fun i _ => rdB_congr h _ i

theorem StatusKept.of_flushShown {d : Nat} {s u : State} (h : FlushShown s u) : StatusKept d s u := fun i hi => h.bits d i (by omega)

theorem StatusKept.state {d : Nat} {s u : State} (h : StatusKept d s u) : ttState u d = ttState s d :=
  rdF_eq_of_bits fun i hi => h _ (.inl (by omega))

/-! ### Reports and messages (R21, R88) -/

theorem same_portReport (s : State) (unit : Nat) (dep : Bool) (k m : Nat) : Same [.reports] s (portReport s unit dep k m) := same_reports s _

/-- What a unit has portReported last. -/
def portReported (s : State) (n : Nat) : Nat × W64 := Store.get (fun _ => (0, 0)) s.reports n

theorem portReported_portReport_same (s : State) (unit : Nat) (dep : Bool) (k m : Nat) :
    portReported (portReport s unit dep k m) (2 * unit + dep.toNat) = (k, BitVec.ofNat 64 m) := Store.get_set_same _ _ _ _

theorem portReported_portReport_ne (s : State) {unit n : Nat} {dep : Bool} (k m : Nat) (h : n ≠ 2 * unit + dep.toNat) :
    portReported (portReport s unit dep k m) n = portReported s n := Store.get_set_ne _ h _ _

theorem portReported_congr {s u : State} (h : u.reports = s.reports) (n : Nat) : portReported u n = portReported s n := by unfold portReported; rw [h]

/-- A die that has seen the arrival of die `src` at station `k`. -/
def seenWith (k src : Nat) (x : DieTT) : DieTT := if x.seen.contains (k, src) then x else { x with seen := x.seen ++ [(k, src)] }

theorem contains_seenWith (k src : Nat) (x : DieTT) : (seenWith k src x).seen.contains (k, src) = true := by
  unfold seenWith
  split
  · assumption
  · simp

theorem arrivedAt_seenWith (k src : Nat) (x : DieTT) : (seenWith k src x).arrivedAt = x.arrivedAt := by
  unfold seenWith
  split <;> rfl

theorem same_showSeen (s : State) (d : Nat) : Same [.regs] s (showSeen s d) := same_wrF s _ _ _ _

theorem regsBut_showSeen (s : State) (d : Nat) : RegsBut [tt d 0] s (showSeen s d) := regsBut_wrF s _ _ _ _

theorem statusKept_showSeen (s : State) (d : Nat) : StatusKept d s (showSeen s d) := fun i hi => rdB_wrF_out s _ _ (by omega)

theorem noteSeen_eq (s : State) (d k src : Nat) : noteSeen s d k src = showSeen (setDie s d (seenWith k src)) d := rfl

theorem same_noteSeen (s : State) (d k src : Nat) : Same [.dies, .regs] s (noteSeen s d k src) :=
  (same_setDie s d _).trans (same_showSeen _ d)

theorem regsBut_noteSeen (s : State) (d k src : Nat) : RegsBut [tt d 0] s (noteSeen s d k src) :=
  (regsBut_of_regs (same_setDie s d (seenWith k src) .regs (by decide))).trans (regsBut_showSeen _ d)

theorem statusKept_noteSeen (s : State) (d k src : Nat) : StatusKept d s (noteSeen s d k src) :=
  (StatusKept.of_regs (same_setDie s d (seenWith k src) .regs (by decide))).trans (statusKept_showSeen _ d)

theorem dieTT_noteSeen (s : State) (d k src : Nat) : dieTT (noteSeen s d k src) d = seenWith k src (dieTT s d) := by
  rw [noteSeen_eq, dieTT_congr (same_showSeen _ d .dies (by decide)), dieTT_setDie_same]

/-- The message is on its way no more. -/
def messageTaken (s : State) (m : Nat × Nat × Nat) : State := { s with ttx := { s.ttx with msgs := s.ttx.msgs.erase m } }

theorem same_messageTaken (s : State) (m : Nat × Nat × Nat) : Same [.ttx] s (messageTaken s m) := same_ttx s _

theorem execArrivalMessage_of {s : State} {d src : ADie} {m : Nat × Nat × Nat}
    (h : s.ttx.msgs.find? (fun m => decide (m.1 = d.val) && decide (m.2.1 = src.val)) = some m) :
    exec (.arrivalMessage d src) s = .next (noteRemote (noteSeen (messageTaken s m) d m.2.2 src) d m.2.2) := by
  show execArrivalMessage d src s = _
  unfold execArrivalMessage
  rw [h]
  rfl

theorem arrivalMessage_shows {s : State} {d src : ADie} {m : Nat × Nat × Nat}
    (h : s.ttx.msgs.find? (fun m => decide (m.1 = d.val) && decide (m.2.1 = src.val)) = some m) :
    Runs (.arrivalMessage d src) s (fun u => (dieTT u d).seen.contains (m.2.2, src.val) = true
        ∧ u.ttx.msgs = s.ttx.msgs.erase m ∧ RegsBut [tt d 0] s u ∧ Same [.regs, .dies, .ttx] s u) := by
  refine ⟨_, execArrivalMessage_of h, ?_⟩
  have hmsgs : (messageTaken s m).ttx.msgs = s.ttx.msgs.erase m := rfl
  have h1 := same_messageTaken s m
  generalize messageTaken s m = s1 at hmsgs h1 ⊢
  have h2 := same_noteSeen s1 d m.2.2 src
  have hregs2 := regsBut_noteSeen s1 d m.2.2 src
  have hdie2 := dieTT_noteSeen s1 d m.2.2 src
  generalize noteSeen s1 d m.2.2 src = s2 at h2 hregs2 hdie2 ⊢
  have h3 := same_noteRemote s2 d m.2.2
  have hdie3 : (dieTT (noteRemote s2 d m.2.2) d).seen = (dieTT s2 d).seen := by
    rw [noteRemote, dieTT_setDie_same]
  generalize noteRemote s2 d m.2.2 = s3 at h3 hdie3 ⊢
  refine ⟨?_, ?_, ?_, ((h1.trans h2).trans h3).mono (by simp)⟩
  · rw [hdie3, hdie2]
    exact contains_seenWith _ _ _
  · rw [(h2.trans h3) .ttx (by decide)]
    exact hmsgs
  · exact (((regsBut_of_regs (h1 .regs (by decide))).trans hregs2).trans (regsBut_of_regs (h3 .regs (by decide)))).mono (by simp)

/-! ### A die arrives (R88) -/

theorem same_enqueue (s : State) (p : Nat) (f : TxFlit) : Same [.regs, .om] s (enqueue s p f) := same_setPort s p _

theorem ttKept_setPort (s : State) (p : Nat) (f : OmPort → OmPort) : TtKept s (setPort s p f) :=
  .of_regsBut (regsBut_setPort s p f) (by
    have h : offTt (omP p 0) := offTt_of_mod (by unfold omP om key; omega)
    simpa using h)

theorem ttKept_enqueue (s : State) (p : Nat) (f : TxFlit) : TtKept s (enqueue s p f) := ttKept_setPort s p _

theorem same_sendUnbooked (s : State) (d kind : Nat) (tag : BitVec 16) (dst : Nat) (pl : BitVec 1792) :
    Same [.regs, .om] s (sendUnbooked s d kind tag dst pl).1 := by
  unfold sendUnbooked
  split
  · exact same_enqueue s _ _
  · exact Same.refl _ s

theorem ttKept_sendUnbooked (s : State) (d kind : Nat) (tag : BitVec 16) (dst : Nat) (pl : BitVec 1792) :
    TtKept s (sendUnbooked s d kind tag dst pl).1 := by
  unfold sendUnbooked
  split
  · exact ttKept_enqueue s _ _
  · exact .refl s

theorem dieNow_congr {s u : State} (hcw : u.cw = s.cw) (hnow : now u = now s) (d : Nat) : dieNow u d = dieNow s d := by
  unfold dieNow copyOf
  rw [hcw, hnow]

/-- A die that has stood at its station since beat `t`. -/
def arrivedSince (t : Nat) (x : DieTT) : DieTT := { x with arrivedAt := some (BitVec.ofNat 64 t) }

/-- The die stands at its station from beat `t` on. -/
def dieStands (s : State) (d t : Nat) : State := setTtState (setDie s d (arrivedSince t)) d 5

theorem dieStands_shows (s : State) (d t : Nat) : ttState (dieStands s d t) d = 5
    ∧ (∀ i, 20 ≤ i → rdB (dieStands s d t) (tt d 0) i = rdB s (tt d 0) i)
    ∧ (dieTT (dieStands s d t) d).arrivedAt = some (BitVec.ofNat 64 t) ∧ Same [.dies, .regs] s (dieStands s d t) := by
  have h1 := same_setDie s d (arrivedSince t)
  have hdie := dieTT_setDie_same s d (arrivedSince t)
  unfold dieStands
  generalize setDie s d (arrivedSince t) = s1 at h1 hdie ⊢
  have h2 := same_setTtState s1 d 5
  refine ⟨ttState_setTtState s1 d (by decide), fun i hi => ?_, ?_, h1.trans h2⟩
  · rw [setTtState, rdB_wrF_out _ _ _ (by omega)]
    exact rdB_congr (h1 .regs (by decide)) _ i
  · rw [dieTT_congr (h2 .dies (by decide)), hdie]
    rfl

/-- Messages to dies are on their way. -/
def messagesSent (s : State) (l : List (Nat × Nat × Nat)) : State := { s with ttx := { s.ttx with msgs := s.ttx.msgs ++ l } }

theorem same_messagesSent (s : State) (l : List (Nat × Nat × Nat)) : Same [.ttx] s (messagesSent s l) := same_ttx s _

/-- What follows the die's own arrival: messages, ARRIVAL flits, and the possessions that start there. -/
def arrivalTold (s : State) (d k : Nat) (named : BitVec 256) : State :=
  let tells := (upTo 8).filter (fun x => decide (x ≠ d) && (match station s x k with
    | some y => bitOf y.dieMask d
    | none => false))
  let s := messagesSent s (tells.map (fun x => (x, d, k)))
  let n := ((upTo 8).filter (ttLoaded s)).length
  let pk := (upTo 256).filter (fun g => decide (g ≠ ownPos s) && bitOf named g)
  possStart (pk.foldl (fun s g => (sendUnbooked s d 3 s.job.tag g (arrivalPayload k d n)).1) s) k

theorem arrivalTold_shows (s : State) {d : Nat} (hd : d < 8) (k : Nat) (named : BitVec 256) :
    StatusKept d s (arrivalTold s d k named) ∧ Same [.ttx, .om, .regs, .possMap] s (arrivalTold s d k named) := by
  unfold arrivalTold
  extract_lets tells s1 n pk
  have h1 : Same [.ttx] s s1 := same_messagesSent s _
  have h2 : Same [.regs, .om] s1 (pk.foldl (fun s g => (sendUnbooked s d 3 s.job.tag g (arrivalPayload k d n)).1) s1) :=
    Same.foldl _ (fun t g => same_sendUnbooked t _ _ _ _ _) pk s1
  have hk2 : TtKept s1 (pk.foldl (fun s g => (sendUnbooked s d 3 s.job.tag g (arrivalPayload k d n)).1) s1) :=
    TtKept.foldl (fun t g => ttKept_sendUnbooked t _ _ _ _ _) pk s1
  generalize pk.foldl (fun s g => (sendUnbooked s d 3 s.job.tag g (arrivalPayload k d n)).1) s1 = s2 at h2 hk2 ⊢
  have h3 := flushShown_possStart s2 k
  exact ⟨((StatusKept.of_regs (h1 .regs (by decide))).trans (.of_ttKept hk2 hd)).trans (.of_flushShown h3),
    ((h1.trans h2).trans h3.same).mono (by simp)⟩

/-- The die, and with it the package, reports its arrival. -/
def arrivalReported (s : State) (d k t : Nat) : State :=
  let s := portReport s (120 + d) false k t
  if (upTo 8).all (fun x => !ttLoaded s x || decide (k < atStation s x) || decide (ttState s x = 5 ∧ atStation s x = k)) then
      portReport s 128 false k t else s

theorem arrivalReported_shows (s : State) (d k t : Nat) :
    Same [.reports] s (arrivalReported s d k t) ∧ ∀ n < 240, portReported (arrivalReported s d k t) n = portReported s n := by
  have h1 := same_portReport s (120 + d) false k t
  have hr1 : ∀ n < 240, portReported (portReport s (120 + d) false k t) n = portReported s n :=
    fun n hn => portReported_portReport_ne s k t (by simp only [Bool.toNat_false]; omega)
  unfold arrivalReported
  extract_lets s1
  split
  · exact ⟨(h1.trans (same_portReport s1 128 false k t)).mono (by simp),
      fun n hn => (portReported_portReport_ne s1 k t (by simp only [Bool.toNat_false]; omega)).trans (hr1 n hn)⟩
  · exact ⟨h1, hr1⟩

theorem dieArrive_eq (s : State) (d : Nat) (named : BitVec 256) : dieArrive s d named =
    arrivalTold (noteSeen (arrivalReported (dieStands s d (dieNow s d)) d (atStation s d) (dieNow s d)) d (atStation s d) d) d
      (atStation s d) named := rfl

theorem dieArrive_shows (s : State) {d : Nat} (hd : d < 8) (named : BitVec 256) : let u := dieArrive s d named
    ttState u d = 5 ∧ (∀ i, 20 ≤ i → i < 35 → rdB u (tt d 0) i = rdB s (tt d 0) i)
      ∧ (dieTT u d).arrivedAt = some (BitVec.ofNat 64 (dieNow s d)) ∧ (dieTT u d).seen.contains (atStation s d, d) = true
      ∧ (∀ n < 240, portReported u n = portReported s n) ∧ Same [.regs, .dies, .ttx, .om, .possMap, .reports] s u := by
  intro u
  have hu : u = _ := dieArrive_eq s d named
  clear_value u
  generalize atStation s d = k at hu ⊢
  generalize dieNow s d = t at hu ⊢
  obtain ⟨hstate1, hbits1, hat1, h1⟩ := dieStands_shows s d t
  generalize dieStands s d t = s1 at hstate1 hbits1 hat1 h1 hu
  obtain ⟨h2, hrep2⟩ := arrivalReported_shows s1 d k t
  generalize arrivalReported s1 d k t = s2 at h2 hrep2 hu
  have h3 := same_noteSeen s2 d k d
  have hk3 := statusKept_noteSeen s2 d k d
  have hdie3 := dieTT_noteSeen s2 d k d
  generalize noteSeen s2 d k d = s3 at h3 hk3 hdie3 hu
  obtain ⟨hk4, h4⟩ := arrivalTold_shows s3 hd k named
  rw [← hu] at hk4 h4
  have hk : StatusKept d s1 u := ((StatusKept.of_regs (h2 .regs (by decide))).trans hk3).trans hk4
  have hdie : dieTT u d = seenWith k d (dieTT s1 d) := by
    rw [dieTT_congr (h4 .dies (by decide)), hdie3, dieTT_congr (h2 .dies (by decide))]
  refine ⟨hk.state.trans hstate1, fun i hi hi' => (hk i (.inr ⟨hi, hi'⟩)).trans (hbits1 i hi), ?_, ?_, fun n hn => ?_,
    (((h1.trans h2).trans h3).trans h4).mono (by simp)⟩
  · rw [hdie, arrivedAt_seenWith, hat1]
  · rw [hdie]
    exact contains_seenWith k d _
  · rw [portReported_congr ((h3.trans h4) .reports (by decide)), hrep2 n hn, portReported_congr (h1 .reports (by decide))]

end Sys2Proof.Machine
end

section
/-! An engine arrives at its station (R87). -/

namespace Sys2Proof.Machine

/-! ### An empty stream cache is flushed (R216) -/

theorem Store.erase_eq_of_not_mem {α : Type} {k : Nat} {st : Store α} (h : ∀ p ∈ st, p.1 ≠ k) : Store.erase k st = st :=
  List.filter_eq_self.2 fun p hp => by simpa using h p hp

theorem Store.get_of_not_mem {α : Type} (d : Nat → α) {k : Nat} {st : Store α} (h : ∀ p ∈ st, p.1 ≠ k) : Store.get d st k = d k := by
  rw [← Store.erase_eq_of_not_mem h, Store.get_erase_same]

theorem scEmpty_iff {s : State} {cl : Nat} : scEmpty s cl = true ↔ ∀ p ∈ s.scEntries, p.1 < cl * 48 ∨ cl * 48 + 48 ≤ p.1 := by
  simp only [scEmpty, Store.keysIn, List.isEmpty_iff, List.map_eq_nil_iff, List.filter_eq_nil_iff, Bool.and_eq_true, decide_eq_true_eq]
  exact forall₂_congr fun p _ => by omega

theorem not_mem_of_scEmpty {s : State} {cl i : Nat} (h : scEmpty s cl = true) (hi : i < 48) : ∀ p ∈ s.scEntries, p.1 ≠ cl * 48 + i := by
  intro p hp
  have := scEmpty_iff.1 h p hp
  omega

theorem scGet_of_scEmpty {s : State} {cl i : Nat} (h : scEmpty s cl = true) (hi : i < 48) : scGet s cl i = SCEntry.none (cl * 48 + i) :=
  Store.get_of_not_mem _ (not_mem_of_scEmpty h hi)

theorem scPut_none {s : State} {cl i : Nat} (h : ∀ p ∈ s.scEntries, p.1 ≠ cl * 48 + i) : scPut s cl i (SCEntry.none (cl * 48 + i)) = s := by
  unfold scPut Store.set
  rw [if_pos rfl, Store.erase_eq_of_not_mem h]

theorem scWriteBack_of_scEmpty {s : State} {cl i : Nat} (h : scEmpty s cl = true) (hi : i < 48) (which : Nat → Bool) :
    scWriteBack s cl i which = s := by
  have hks : (upTo 128).filter (fun k => bitOf (SCEntry.none (cl * 48 + i)).dirty k && which k) = [] := by
    simp [SCEntry.none, bitOf]
  unfold scWriteBack
  dsimp only
  rw [scGet_of_scEmpty h hi, hks]
  exact scPut_none (not_mem_of_scEmpty h hi)

theorem foldl_putBit_zero (l : List Nat) : l.foldl (fun w k => putBit w k false) (0 : BitVec 128) = 0 := by
  induction l with
  | nil => rfl
  | cons k l ih =>
    have h : putBit (0 : BitVec 128) k false = 0 := BitVec.eq_of_getLsbD_eq fun i _ => by
      rw [getLsbD_putBit]
      simp
    rw [List.foldl_cons, h, ih]

theorem scDrop_of_scEmpty {s : State} {cl i : Nat} (h : scEmpty s cl = true) (hi : i < 48) (which : Nat → Bool) :
    scDrop s cl i which = s := by
  unfold scDrop
  dsimp only
  rw [scGet_of_scEmpty h hi, show (SCEntry.none (cl * 48 + i)).valid = 0 from rfl, if_pos (foldl_putBit_zero _), Store.erase_eq_of_not_mem (not_mem_of_scEmpty h hi)]

/-- The detectors and the pages that wait to be taken start again. -/
def detectorsCleared (s : State) (cl : Nat) : State :=
  { s with scStreams := Store.eraseRange s.scStreams (cl * 16) (cl * 16 + 16), scPre := s.scPre.filter (fun p => !decide (p.1 = cl)) }

theorem scFlush_of_scEmpty {s : State} {cl : Nat} (h : scEmpty s cl = true) : scFlush s cl = scRefresh (detectorsCleared s cl) cl := by
  have hfold : (upTo 48).foldl (fun s i => scDrop (scWriteBack s cl i (fun _ => true)) cl i (fun _ => true)) s = s := by
    have hall : ∀ l : List Nat, (∀ i ∈ l, i < 48) →
        l.foldl (fun s i => scDrop (scWriteBack s cl i (fun _ => true)) cl i (fun _ => true)) s = s := by
      intro l
      induction l with
      | nil => exact fun _ => rfl
      | cons i l ih =>
        intro hl
        have hi : i < 48 := hl i (by simp)
        rw [List.foldl_cons, scWriteBack_of_scEmpty h hi, scDrop_of_scEmpty h hi, ih fun j hj => hl j (by simp [hj])]
    exact hall _ fun i hi => List.mem_range.1 hi
  unfold scFlush
  dsimp only
  rw [hfold]
  rfl

theorem same_scStreams_scPre (s : State) (x : Store SCStream) (y : List (Nat × Nat)) :
    Same [.scStreams, .scPre] s { s with scStreams := x, scPre := y } := (same_scStreams s x).trans (same_scPre _ y)

theorem same_detectorsCleared (s : State) (cl : Nat) : Same [.scStreams, .scPre] s (detectorsCleared s cl) := same_scStreams_scPre s _ _

theorem same_scRefresh (s : State) (cl : Nat) : Same [.regs] s (scRefresh s cl) :=
  ((((same_wrF s _ _ _ _).trans (same_wrF _ _ _ _ _)).trans (same_wrF _ _ _ _ _)).trans (same_wrF _ _ _ _ _)).mono (by simp)

theorem regsBut_scRefresh (s : State) (cl : Nat) : RegsBut [vc (cl / 8) (cl % 8) 0x38] s (scRefresh s cl) :=
  ((((regsBut_wrF s _ _ _ _).trans (regsBut_wrF _ _ _ _ _)).trans (regsBut_wrF _ _ _ _ _)).trans (regsBut_wrF _ _ _ _ _)).mono (by simp)

theorem scFlush_shows {s : State} {d c : Nat} (hc : c < 8) (h : scEmpty s (clIx d c) = true) :
    (∀ p ∈ (scFlush s (clIx d c)).scPre, p.1 ≠ clIx d c) ∧ RegsBut [vc d c 0x38] s (scFlush s (clIx d c))
      ∧ Same [.regs, .scStreams, .scPre] s (scFlush s (clIx d c)) := by
  rw [scFlush_of_scEmpty h]
  have h1 := same_detectorsCleared s (clIx d c)
  have hpre : ∀ p ∈ (detectorsCleared s (clIx d c)).scPre, p.1 ≠ clIx d c := fun p hp => by
    simpa using (List.mem_filter.1 hp).2
  generalize detectorsCleared s (clIx d c) = s1 at h1 hpre ⊢
  have h2 := same_scRefresh s1 (clIx d c)
  have hregs2 := regsBut_scRefresh s1 (clIx d c)
  have hdiv : clIx d c / 8 = d := by
    unfold clIx
    omega
  have hmod : clIx d c % 8 = c := by
    unfold clIx
    omega
  rw [hdiv, hmod] at hregs2
  refine ⟨?_, ((regsBut_of_regs (h1 .regs (by decide))).trans hregs2).mono (by simp), (h1.trans h2).mono (by simp)⟩
  rw [h2 .scPre (by decide)]
  exact hpre

end Sys2Proof.Machine
end

section
/-! An engine arrives at its station, and with the last engine its die (R87, R88). -/

namespace Sys2Proof.Machine

/-! ### An engine reaches the end of its segment -/

theorem engineClear_shows {s : State} {d e : Nat} (h : engineClear s d e = true) :
    (eng s d e).reads = [] ∧ (eng s d e).writes = [] ∧ (1 ≤ e → e ≤ 8 → scEmpty s (clIx d (e - 1)) = true) := by
  simp only [engineClear, Bool.and_eq_true, List.isEmpty_iff, Bool.not_eq_true', Bool.and_eq_false_iff, decide_eq_false_iff_not,
    Bool.not_eq_false'] at h
  obtain ⟨⟨⟨⟨⟨⟨⟨hreads, hwrites⟩, -⟩, -⟩, -⟩, hcache⟩, -⟩, -⟩ := h
  exact ⟨hreads, hwrites, fun h1 h8 => hcache.resolve_left (by omega)⟩

theorem quiet_of_engineClear {s : State} {d e : Nat} (h : engineClear s d e = true) (c : Nat) : Quiet s d e c := by
  obtain ⟨hreads, hwrites, -⟩ := engineClear_shows h
  unfold Quiet
  rw [hreads, hwrites]
  exact ⟨nofun, nofun⟩

theorem engineClear_reached (s : State) (d e c : Nat) : engineClear (setEng s d e (reachedAt c)) d e = engineClear s d e := by
  have h : Same [.engines] s (setEng s d e (reachedAt c)) := same_setEng _ _ _ _
  have he := eng_setEng_same s d e (reachedAt c)
  generalize setEng s d e (reachedAt c) = t at h he
  have htrains : t.trains = s.trains := h .trains (by decide)
  have hcolls : t.colls = s.colls := h .colls (by decide)
  have hupds : t.upds = s.upds := h .upds (by decide)
  have hcache : t.scEntries = s.scEntries := h .scEntries (by decide)
  unfold engineClear scEmpty
  rw [he, htrains, hcolls, hupds, hcache]
  rfl

/-- The engine stands at cycle `c` with nothing in flight, and a cluster's stream cache starts again. -/
def engineEnded (s : State) (d e c : Nat) : State :=
  if 1 ≤ e ∧ e ≤ 8 then scFlush (setEng s d e (reachedAt c)) (clIx d (e - 1)) else setEng s d e (reachedAt c)

section
variable {s : State} {d e c : Nat} (h : engineClear s d e = true)
include h

theorem cluster_engineEnded (h1 : 1 ≤ e) (h8 : e ≤ 8) : (∀ p ∈ (engineEnded s d e c).scPre, p.1 ≠ clIx d (e - 1))
    ∧ RegsBut [vc d (e - 1) 0x38] s (engineEnded s d e c) ∧ Same [.engines, .regs, .scStreams, .scPre] s (engineEnded s d e c)
    ∧ (engineEnded s d e c).engines = (setEng s d e (reachedAt c)).engines := by
  have hclear := (engineClear_reached s d e c).trans h
  obtain ⟨-, -, hcache⟩ := engineClear_shows hclear
  have h0 : Same [.engines] s (setEng s d e (reachedAt c)) := same_setEng _ _ _ _
  unfold engineEnded
  rw [if_pos ⟨h1, h8⟩]
  generalize setEng s d e (reachedAt c) = t at hcache h0 ⊢
  obtain ⟨hpre, hregs, hsame⟩ := scFlush_shows (c := e - 1) (by omega) (hcache h1 h8)
  generalize scFlush t (clIx d (e - 1)) = u at hpre hregs hsame ⊢
  exact ⟨hpre, ((regsBut_of_regs (h0 .regs (by decide))).trans hregs).mono (by simp), (h0.trans hsame).mono (by simp),
    hsame .engines (by decide)⟩

omit h in
theorem engineEnded_of_other (h8 : e = 0 ∨ 8 < e) : engineEnded s d e c = setEng s d e (reachedAt c) := by
  unfold engineEnded
  rw [if_neg (by omega)]

theorem engineEnded_shows : (engineEnded s d e c).engines = (setEng s d e (reachedAt c)).engines
    ∧ RegsBut [vc d (e - 1) 0x38] s (engineEnded s d e c) ∧ Same [.engines, .regs, .scStreams, .scPre] s (engineEnded s d e c) := by
  by_cases he : 1 ≤ e ∧ e ≤ 8
  · obtain ⟨-, hregs, hsame, heng⟩ := cluster_engineEnded (c := c) h he.1 he.2
    exact ⟨heng, hregs, hsame⟩
  · rw [engineEnded_of_other (by omega)]
    have h0 : Same [.engines] s (setEng s d e (reachedAt c)) := same_setEng _ _ _ _
    exact ⟨rfl, (regsBut_of_regs (h0 .regs (by decide))).mono (by simp), h0.mono (by simp)⟩

end

/-! ### An engine has arrived -/

/-- An engine that has arrived. -/
def engineArrived (x : Engine) : Engine := { x with arrived := true }

/-- The engine has arrived, TT_STATUS shows it, and its port reports it. -/
def engineMarked (s : State) (d e : Nat) : State :=
  let t := wrB (setEng s d e engineArrived) (tt d 0) (20 + e) true
  portReport t (15 * d + e) false (atStation t d) (dieNow t d)

theorem engineMarked_shows (s : State) {d e : Nat} (he : e < 15) : let u := engineMarked s d e
    eng u d e = engineArrived (eng s d e) ∧ OtherEngines s u d e ∧ rdB u (tt d 0) (20 + e) = true ∧ RegsBut [tt d 0] s u
      ∧ portReported u (2 * (15 * d + e)) = (atStation s d, BitVec.ofNat 64 (dieNow s d)) ∧ Same [.engines, .regs, .reports] s u := by
  have h1 : Same [.engines] s (setEng s d e engineArrived) := same_setEng _ _ _ _
  have heng := eng_setEng_same s d e engineArrived
  have hothers := otherEngines_setEng s d engineArrived he
  unfold engineMarked
  generalize setEng s d e engineArrived = s1 at h1 heng hothers ⊢
  have h2 := same_wrB s1 (tt d 0) (20 + e) true
  have hregs2 := regsBut_wrB s1 (tt d 0) (20 + e) true
  have hbit := rdB_wrB_same s1 (tt d 0) (20 + e) true (by omega)
  generalize wrB s1 (tt d 0) (20 + e) true = s2 at h2 hregs2 hbit ⊢
  have h12 := h1.trans h2
  have hnow : now s2 = now s := by
    have hmtc : mtc 0 ∉ [tt d 0] := by
      rw [List.mem_singleton]
      unfold mtc tt key
      omega
    rw [now, hregs2 _ hmtc]
    exact rd_congr (h1 .regs (by decide)) _
  have hstation : atStation s2 d = atStation s d := by
    unfold atStation
    rw [dieTT_congr (h12 .dies (by decide))]
  have hdie : dieNow s2 d = dieNow s d := dieNow_congr (h12 .cw (by decide)) hnow d
  dsimp only
  have h3 := same_portReport s2 (15 * d + e) false (atStation s2 d) (dieNow s2 d)
  have hrep := portReported_portReport_same s2 (15 * d + e) false (atStation s2 d) (dieNow s2 d)
  generalize portReport s2 (15 * d + e) false (atStation s2 d) (dieNow s2 d) = u at h3 hrep ⊢
  have hregs3 : RegsBut [] s2 u := regsBut_of_regs (h3 .regs (by decide))
  refine ⟨?_, ?_, ?_, (((regsBut_of_regs (h1 .regs (by decide))).trans hregs2).trans hregs3).mono (by simp), ?_, (h12.trans h3).mono (by simp)⟩
  · rw [(h2.trans h3).eng (by decide), heng]
  · exact hothers.trans (.of_same (h2.trans h3) (by decide) d e)
  · rw [hregs3.rdB (by simp), hbit]
  · rw [← hstation, ← hdie]
    exact hrep

/-- Every engine of the die has arrived. -/
def allArrived (s : State) (d : Nat) : Prop := ∀ x : EngineIx, (eng s d x).arrived = true

theorem allArrived_iff {s : State} {d : Nat} : (upTo 15).all (fun x => (eng s d x).arrived) = true ↔ allArrived s d := by
  rw [List.all_eq_true]
  exact ⟨fun h x => h x (List.mem_range.2 x.isLt), fun h x hx => h ⟨x, List.mem_range.1 hx⟩⟩

theorem execEngineArrival_of {s : State} {d : ADie} {e : EngineIx} {named : BitVec 256} (hstate : ttState s d = 4)
    (harrived : (eng s d e).arrived = false) (hwin : windowBlocks s d e (segLen s d) = false) (hclear : engineClear s d e = true)
    (hreach : mayReach s d e (segLen s d) = true) : exec (.engineArrival d e named) s = .next (
      let t := engineMarked (engineEnded s d e (segLen s d)) d e
      if (upTo 15).all (fun x => (eng t d x).arrived) then dieArrive t d named else t) := by
  have hclear' := (engineClear_reached s d e (segLen s d)).trans hclear
  show execEngineArrival d e named s = _
  unfold execEngineArrival
  rw [hstate, harrived, hwin, hreach, reach_of_quiet (quiet_of_engineClear hclear _)]
  dsimp only
  rw [hclear']
  rfl

section
variable {s : State} {d : ADie} {e : EngineIx} (hclear : engineClear s d e = true)
include hclear

/-- What the engine's own arrival shows, before that of its die. -/
theorem engineMarked_ended_shows (hc : (eng s d e).cycle ≤ segLen s d) : let u := engineMarked (engineEnded s d e (segLen s d)) d e
    (eng u d e).arrived = true ∧ (eng u d e).cycle = segLen s d ∧ rdB u (tt d 0) (20 + e) = true ∧ OtherEngines s u d e
      ∧ portReported u (2 * (15 * d + e)) = (atStation s d, BitVec.ofNat 64 (dieNow s d))
      ∧ (1 ≤ e.val → e.val ≤ 8 → ∀ p ∈ u.scPre, p.1 ≠ clIx d (e - 1)) ∧ RegsBut [tt d 0, vc d (e - 1) 0x38] s u
      ∧ Same [.engines, .regs, .reports, .scStreams, .scPre] s u
      ∧ (e.val = 0 ∨ 8 < e.val → RegsBut [tt d 0] s u ∧ Same [.engines, .regs, .reports] s u) := by
  have he : (e : Nat) < 15 := e.isLt
  obtain ⟨heng1, hregs1, h1⟩ := engineEnded_shows (c := segLen s d) hclear
  have hpre1 := fun h1 h8 => (cluster_engineEnded (c := segLen s d) hclear h1 h8).1
  have hother := engineEnded_of_other (s := s) (d := d) (e := e) (c := segLen s d)
  have hend := eng_setEng_same s d e (reachedAt (segLen s d))
  have hothers0 := otherEngines_setEng s d (reachedAt (segLen s d)) he
  have h0 : Same [.engines] s (setEng s d e (reachedAt (segLen s d))) := same_setEng _ _ _ _
  generalize setEng s d e (reachedAt (segLen s d)) = s0 at heng1 hend hothers0 hother h0
  generalize engineEnded s d e (segLen s d) = s1 at heng1 hregs1 h1 hpre1 hother ⊢
  obtain ⟨heng2, hothers2, hbit, hregs2, hrep, h2⟩ := engineMarked_shows s1 (d := d) he
  generalize engineMarked s1 d e = u at heng2 hothers2 hbit hregs2 hrep h2 ⊢
  have hu : eng u d e = engineArrived (reachedAt (segLen s d) (eng s d e)) := by rw [heng2, eng_congr heng1, hend]
  have hothers1 : OtherEngines s s1 d e := fun a b hb hne => (eng_congr heng1 a b).trans (hothers0 a b hb hne)
  have hnow : now s1 = now s := hregs1 _ (by
    rw [List.mem_singleton]
    unfold mtc vc key
    omega)
  have hstation : atStation s1 d = atStation s d := by
    unfold atStation
    rw [dieTT_congr (h1 .dies (by decide))]
  have hdie : dieNow s1 d = dieNow s d := dieNow_congr (h1 .cw (by decide)) hnow d
  refine ⟨by rw [hu]; rfl, by rw [hu]; exact Nat.max_eq_right hc, hbit, hothers1.trans hothers2, ?_, fun h1 h8 => ?_,
    (hregs1.trans hregs2).mono (by simp), (h1.trans h2).mono (by simp), fun h8 => ?_⟩
  · rw [hrep, hstation, hdie]
  · rw [h2 .scPre (by decide)]
    exact hpre1 h1 h8
  · rw [hother h8] at hregs2 h2
    exact ⟨((regsBut_of_regs (h0 .regs (by decide))).trans hregs2).mono (by simp), (h0.trans h2).mono (by simp)⟩

end

theorem engineArrival_shows {s : State} {d : ADie} {e : EngineIx} (named : BitVec 256) (hstate : ttState s d = 4)
    (harrived : (eng s d e).arrived = false) (hwin : windowBlocks s d e (segLen s d) = false) (hclear : engineClear s d e = true)
    (hc : (eng s d e).cycle ≤ segLen s d) (hreach : mayReach s d e (segLen s d) = true) : Runs (.engineArrival d e named) s (fun u =>
      (eng u d e).arrived = true ∧ (eng u d e).cycle = segLen s d
        ∧ rdB u (tt d 0) (20 + e) = true ∧ OtherEngines s u d e
        ∧ portReported u (2 * (15 * d + e)) = (atStation s d, BitVec.ofNat 64 (dieNow s d))
        ∧ (1 ≤ e.val → e.val ≤ 8 → ∀ p ∈ u.scPre, p.1 ≠ clIx d (e - 1))
        ∧ ((∃ x : EngineIx, x ≠ e ∧ (eng s d x).arrived = false) → RegsBut [tt d 0, vc d (e - 1) 0x38] s u
            ∧ Same [.engines, .regs, .reports, .scStreams, .scPre] s u
            ∧ (e.val = 0 ∨ 8 < e.val → RegsBut [tt d 0] s u ∧ Same [.engines, .regs, .reports] s u))
        ∧ ((∀ x : EngineIx, x ≠ e → (eng s d x).arrived = true) → ttState u d = 5 ∧ (dieTT u d).arrivedAt = some (BitVec.ofNat 64 (dieNow s d))
            ∧ (dieTT u d).seen.contains (atStation s d, d.val) = true
            ∧ Same [.engines, .regs, .dies, .ttx, .om, .possMap, .reports, .scStreams, .scPre] s u)) := by
  have hd : (d : Nat) < 8 := d.isLt
  have he : (e : Nat) < 15 := e.isLt
  refine ⟨_, execEngineArrival_of hstate harrived hwin hclear hreach, ?_⟩
  obtain ⟨harr, hcycle, hbit, hothers, hrep, hpre, hregs, hsame, hno⟩ := engineMarked_ended_shows hclear hc
  generalize engineMarked (engineEnded s d e (segLen s d)) d e = t at harr hcycle hbit hothers hrep hpre hregs hsame hno ⊢
  have hother : ∀ x : EngineIx, x ≠ e → eng t d x = eng s d x := fun x hx =>
    hothers d x x.isLt (fun h => hx (Fin.ext (congrArg Prod.snd h)))
  have hall : allArrived t d ↔ ∀ x : EngineIx, x ≠ e → (eng s d x).arrived = true := by
    refine ⟨fun h x hx => hother x hx ▸ h x, fun h x => ?_⟩
    by_cases hx : x = e
    · rw [hx, harr]
    · rw [hother x hx, h x hx]
  dsimp only
  by_cases h : allArrived t d
  case neg =>
    rw [if_neg (mt allArrived_iff.1 h)]
    exact ⟨harr, hcycle, hbit, hothers, hrep, hpre, fun _ => ⟨hregs, hsame, hno⟩, fun hx => absurd (hall.2 hx) h⟩
  case pos =>
    rw [if_pos (allArrived_iff.2 h)]
    have hnow : now t = now s := hregs _ (by
      simp only [List.mem_cons, List.not_mem_nil, or_false]
      unfold mtc vc tt key
      omega)
    have hstation : atStation t d = atStation s d := by
      unfold atStation
      rw [dieTT_congr (hsame .dies (by decide))]
    have hdie : dieNow t d = dieNow s d := dieNow_congr (hsame .cw (by decide)) hnow d
    obtain ⟨hstate', hbits, hat, hseen, hreps, hsame'⟩ := dieArrive_shows t hd named
    generalize dieArrive t d named = u at hstate' hbits hat hseen hreps hsame' ⊢
    have heng : ∀ a b, eng u a b = eng t a b := hsame'.eng (by decide)
    refine ⟨by rw [heng, harr], by rw [heng, hcycle], by rw [hbits _ (by omega) (by omega), hbit],
      hothers.trans (.of_same hsame' (by decide) d e), ?_, fun h1 h8 => ?_, fun ⟨x, hx, hne⟩ => ?_, fun _ => ⟨hstate', ?_, ?_, ?_⟩⟩
    · rw [hreps _ (by omega), hrep]
    · rw [hsame' .scPre (by decide)]
      exact hpre h1 h8
    · rw [hall.1 h x hx] at hne
      exact absurd hne nofun
    · rw [hat, hdie]
    · rw [← hstation]
      exact hseen
    · exact (hsame.trans hsame').mono (by simp)

end Sys2Proof.Machine
end

section
/-! A die that is late at its station (R90, R506). -/

namespace Sys2Proof.Machine

/-! ### The state of the job -/

/-- The job with another state. -/
def jobMoved (s : State) (st : JobState) : State := { s with job := { s.job with state := st } }

theorem same_jobMoved (s : State) (st : JobState) : Same [.job] s (jobMoved s st) := same_job s _

theorem setJob_of_ne {s : State} {st : JobState} (h : s.job.state ≠ st) (status : Nat) : setJob s st status =
    post (wrB (jobMoved s st) (hp 0x130) 0 true) 4 status (sourceOf 12 0x130) 0
      (BitVec.ofNat 64 (jobCode s.job.state + 2 ^ 8 * jobCode st + 2 ^ 16 * s.job.tag.toNat)) 0 0 0 := by
  unfold setJob
  rw [if_neg h]
  rfl

theorem Posted.of_regsBut {s t u : State} {ks : List Nat} {typ status code : Nat} (h : Posted t u typ status code) (hr : RegsBut ks s t)
    (hmtc : mtc 0 ∉ ks) (hdrop : bar0 0x70 ∉ ks) : Posted s u typ status code := by
  have hnow : now t = now s := hr _ hmtc
  unfold Posted at h ⊢
  rwa [hnow, hr _ hdrop] at h

theorem Posted.of_same {s t u : State} {typ status code : Nat} (h : Posted s t typ status code) (hport : u.port = t.port)
    (hrd : rd u (bar0 0x70) = rd t (bar0 0x70)) : Posted s u typ status code := by
  unfold Posted at h ⊢
  rwa [hport, hrd]

theorem posted_setJob {s : State} {st : JobState} (h : s.job.state ≠ st) (status : Nat) : Posted s (setJob s st status) 4 status 0 := by
  rw [setJob_of_ne h]
  have h1 := same_jobMoved s st
  generalize jobMoved s st = t at h1 ⊢
  exact (posted_post _ _ _ _ _ _ _ _ _).of_regsBut ((regsBut_of_regs (h1 .regs (by decide))).trans (regsBut_wrB t (hp 0x130) 0 true))
    (by decide) (by decide)

theorem linkKey_setJob (s : State) (st : JobState) (status : Nat) : (setJob s st status).job.linkKey = s.job.linkKey := by
  by_cases h : s.job.state = st
  · rw [setJob, if_pos h]
  · rw [setJob_of_ne h]
    have hkey : (jobMoved s st).job.linkKey = s.job.linkKey := rfl
    generalize jobMoved s st = t at hkey ⊢
    have hsame : Same [.regs, .port] t (post (wrB t (hp 0x130) 0 true) 4 status (sourceOf 12 0x130) 0
        (BitVec.ofNat 64 (jobCode s.job.state + 2 ^ 8 * jobCode st + 2 ^ 16 * s.job.tag.toNat)) 0 0 0) :=
      ((same_wrB t _ _ _).trans (same_post _ _ _ _ _ _ _ _ _)).mono (by simp)
    rw [hsame .job (by decide), hkey]

/-! ### The clock moves on -/

theorem ttKept_advance (s : State) (t : W64) : TtKept s (advance s t) := .of_regsBut (regsBut_advance s t) (by
  intro k hk x off hx ho _
  simp only [List.mem_cons, List.not_mem_nil, or_false] at hk
  rcases hk with rfl | rfl | rfl <;> unfold mtc tt key <;> omega)

theorem TtKept.state {s u : State} (h : TtKept s u) {d : Nat} (hd : d < 8) : ttState u d = ttState s d :=
  rdF_eq_of_bits fun _ _ => h.rdB hd (by decide) (by decide) _

theorem station_congr {s u : State} (h : u.dies = s.dies) (d k : Nat) : station u d k = station s d k := by
  unfold station
  rw [dieTT_congr h]

theorem atStation_congr {s u : State} (h : u.dies = s.dies) (d : Nat) : atStation u d = atStation s d := by
  unfold atStation
  rw [dieTT_congr h]

theorem ttCount_congr {s u : State} (h : u.dies = s.dies) (d : Nat) : ttCount u d = ttCount s d := by
  unfold ttCount
  rw [dieTT_congr h]

theorem dueAt_congr {s u : State} (h : u.dies = s.dies) (hr : TtKept s u) {d : Nat} (hd : d < 8) (k : Nat) : dueAt u d k = dueAt s d k := by
  unfold dueAt
  rw [station_congr h, hr d 0x28 hd (by decide) (by decide)]

/-! ### The station timeout and the overdue departure -/

theorem failJob_shows {s : State} (h : jobLive s = true) (status : Nat) : (failJob s status).job.state = .failed
    ∧ (failJob s status).job.linkKey = s.job.linkKey ∧ Posted s (failJob s status) 4 status 0
    ∧ Same [.regs, .port, .job, .mgmt] s (failJob s status) := by
  have hne : s.job.state ≠ .failed := by
    intro hf
    rw [jobLive, hf] at h
    exact absurd h (by decide)
  unfold failJob
  rw [if_pos h]
  have hstate := jobState_setJob s .failed status
  have hkey := linkKey_setJob s .failed status
  have hpost := posted_setJob hne status
  have h1 := same_setJob s .failed status
  generalize setJob s .failed status = s1 at hstate hkey hpost h1 ⊢
  have h2 := same_ttFailed s1
  have hoff := offDies_ttFailed s1
  generalize ttFailed s1 = s2 at h2 hoff ⊢
  have h3 := same_refreshAlerts s2
  generalize refreshAlerts s2 = u at h3 ⊢
  have hjob : u.job = s1.job := (h2.trans h3) .job (by decide)
  have hdrop : rd u (bar0 0x70) = rd s1 (bar0 0x70) := by
    rw [rd_congr (h3 .regs (by decide)), hoff _ (by decide) (by simp)]
  exact ⟨by rw [hjob, hstate], by rw [hjob, hkey], hpost.of_same ((h2.trans h3) .port (by decide)) hdrop,
    ((h1.trans h2).trans h3).mono (by simp)⟩

section
variable {s : State} {d : ADie} {t : W64}

theorem execStationTimeout_of (hs : ttState s d = 4 ∨ ttState s d = 5)
    (hdue : dueAt s d (atStation s d) + s.job.stationTimeout ≤ (now (advance s t)).toNat) :
    exec (.stationTimeout d t) s = .next (failJob (advance s t) stFault) := by
  have h := same_advance s t
  have hk := ttKept_advance s t
  show execStationTimeout d t s = _
  unfold execStationTimeout
  generalize advance s t = a at h hk hdue ⊢
  dsimp only
  rw [hk.state d.isLt, atStation_congr (h .dies (by decide)), show a.job = s.job from h .job (by decide)]
  have h3 : ttState s d ≠ 3 := by omega
  have hst : (ttState s d = 3 ∨ ttState s d = 4) ∨ ttState s d = 5 := by omega
  rw [if_neg h3, dueAt_congr (h .dies (by decide)) hk d.isLt, if_pos]
  simp [hst, hdue]

theorem stationTimeout_shows (hlive : jobLive s = true) (hs : ttState s d = 4 ∨ ttState s d = 5)
    (hdue : dueAt s d (atStation s d) + s.job.stationTimeout ≤ (now (advance s t)).toNat) : Runs (.stationTimeout d t) s (fun u =>
      u.job.state = .failed ∧ u.job.linkKey = s.job.linkKey ∧ Posted (advance s t) u 4 stFault 0
        ∧ Same [.regs, .mtcx, .port, .job, .mgmt] s u) := by
  refine ⟨_, execStationTimeout_of hs hdue, ?_⟩
  have h := same_advance s t
  generalize advance s t = a at h ⊢
  have hjob : a.job = s.job := h .job (by decide)
  obtain ⟨hstate, hkey, hpost, hsame⟩ := failJob_shows (s := a) (by rw [jobLive, hjob]; exact hlive) stFault
  exact ⟨hstate, hkey.trans (congrArg JobX.linkKey hjob), hpost, (h.trans hsame).mono (by simp)⟩

theorem execDepartureOverdue_of (hjob : s.job.state = .departed) (hs : ttState s d = 5)
    (hdue : dueAt s d (atStation s d) + 1000000 ≤ (now (advance s t)).toNat) :
    exec (.departureOverdue d t) s = .next (setJob (advance s t) .held 0) := by
  have h := same_advance s t
  have hk := ttKept_advance s t
  show execDepartureOverdue d t s = _
  unfold execDepartureOverdue overdue
  generalize advance s t = a at h hk hdue ⊢
  dsimp only
  rw [hk.state d.isLt, atStation_congr (h .dies (by decide)), show a.job = s.job from h .job (by decide),
    dueAt_congr (h .dies (by decide)) hk d.isLt, if_pos]
  simp [hjob, hs, hdue]

theorem departureOverdue_shows (hjob : s.job.state = .departed) (hs : ttState s d = 5)
    (hdue : dueAt s d (atStation s d) + 1000000 ≤ (now (advance s t)).toNat) : Runs (.departureOverdue d t) s (fun u =>
      u.job.state = .held ∧ Posted (advance s t) u 4 0 0 ∧ Same [.regs, .mtcx, .port, .job] s u) := by
  refine ⟨_, execDepartureOverdue_of hjob hs hdue, ?_⟩
  have h := same_advance s t
  generalize advance s t = a at h ⊢
  have hne : a.job.state ≠ .held := by
    rw [show a.job = s.job from h .job (by decide), hjob]
    decide
  exact ⟨jobState_setJob a .held 0, posted_setJob hne 0, (h.trans (same_setJob a .held 0)).mono (by simp)⟩

end

end Sys2Proof.Machine
end

section
/-! What a departure changes beside its engines (R62, R91, R97, R316, R362). -/

namespace Sys2Proof.Machine

/-! ### Registers of the timetable blocks that other work leaves -/

theorem offTt_key {d off : Nat} (h : 0x1000000 ≤ off) (ho : off < 2 ^ 30) : offTt (key d off) := offTt_of_mod (by unfold key; omega)

theorem ttKept_inc (s : State) {k : Nat} (h : offTt k) : TtKept s (inc s k) := ttKept_wr s _ h

theorem ttKept_ttEvent (s : State) (d i : Nat) : TtKept s (ttEvent s d i) := .of_regsBut (regsBut_ttEvent s d i) (by
  intro k hk
  rcases List.mem_cons.1 hk with rfl | hk
  · exact offTt_event d
  · exact offTt_noticeKeys k hk)

theorem ttKept_denyAt (s : State) (h pa die kind : Nat) : TtKept s (denyAt s h pa die kind) := by
  unfold denyAt
  exact ((ttKept_inc s (offTt_key (by decide) (by decide))).trans (ttKept_wr _ _ (offTt_key (by decide) (by decide)))).trans
    (ttKept_ttEvent _ h 4)

theorem ttKept_dirRefresh (s : State) (l : Nat) : TtKept s (dirRefresh s l) := by
  unfold dirRefresh
  extract_lets hs
  split
  · exact .of_regs (same_dir s _ .regs (by decide))
  · split
    · exact .refl s
    · exact (TtKept.of_regs (same_dir_dirAge s _ _ .regs (by decide))).trans (ttKept_wr _ _ (offTt_key (by decide) (by decide)))

theorem ttKept_snoopReadLine (s : State) (l : Nat) : TtKept s (snoopReadLine s l) := by
  unfold snoopReadLine
  extract_lets hs
  split
  · exact .refl s
  · exact (TtKept.of_regs (Same.foldl _ (fun t d => same_jPut t d l _) hs s .regs (by decide))).trans (ttKept_dirRefresh _ l)

theorem ttKept_cohTouch (s : State) (a n : Nat) : TtKept s (cohTouch s a n) := TtKept.foldl ttKept_snoopReadLine _ s

theorem ttKept_afterTranslate (s : State) (d e : Nat) (va : W64) (write : Bool) : TtKept s (afterTranslate s d e va write) := by
  unfold afterTranslate
  split
  · exact .refl s
  · extract_lets r t
    have ht : TtKept s t := (TtKept.foldl (fun t a => ttKept_cohTouch t a 8) r.reads s).trans
      (ttKept_inc _ (offTt_key (by decide) (by decide)))
    split
    · exact ht.trans (.of_regs (same_trans t _ .regs (by decide)))
    · split
      · exact ht.trans (ttKept_denyAt t _ _ d 3)
      · exact ht

theorem ttKept_walkPages (d e : Nat) (write : Bool) (l : List (Nat × Nat × Nat)) (s : State) : TtKept s (walkPages s d e write l).1 := by
  induction l generalizing s with
  | nil => exact .refl s
  | cons x rest ih =>
    have h := ttKept_afterTranslate s d e (BitVec.ofNat 64 x.2.1) write
    unfold walkPages
    dsimp only
    split
    · exact h.trans (ih _)
    · exact h

/-- What translation ahead of the trains may change. -/
def walkParts : List Part := [.jlines, .dir, .dirAge, .regs, .trans, .port]

theorem preTranslate_shows (s : State) (t : Train) : TtKept s (preTranslate s t) ∧ Same walkParts s (preTranslate s t) := by
  unfold preTranslate
  extract_lets s1
  have h1 : Same walkParts s s1 := same_walkPages t.die (9 + t.engine) false (srcAhead t 0) s
  have hk1 : TtKept s s1 := ttKept_walkPages t.die (9 + t.engine) false (srcAhead t 0) s
  exact ⟨hk1.trans (ttKept_walkPages t.die (9 + t.engine) true (dstAhead t 0) s1),
    (h1.trans (same_walkPages t.die (9 + t.engine) true (dstAhead t 0) s1)).mono (by simp [walkParts])⟩

theorem preTranslateAll_shows (s : State) (d : Nat) : TtKept s (preTranslateAll s d) ∧ Same walkParts s (preTranslateAll s d) := by
  unfold preTranslateAll
  refine ⟨TtKept.foldl (fun t x => ?_) _ s, Same.foldl _ (fun t x => ?_) _ s⟩
  · split
    · exact (preTranslate_shows t _).1
    · exact .refl t
  · split
    · exact (preTranslate_shows t _).2
    · exact Same.refl _ t

/-! ### Wires move onto spares between segments (R362) -/

theorem offTt_cw {d off : Nat} (ho : off < 2 ^ 20) : offTt (cw d off) := offTt_key (by omega) (by omega)

theorem offTt_cwRx {d e b : Nat} (he : e < 16) (hb : b < 8) : offTt (cwRx d e b) := offTt_cw (by omega)

theorem offTt_cwRepair {d e b i : Nat} (he : e < 16) (hb : b < 8) (hi : i < 8) : offTt (cwRepair d e b i) := by
  refine offTt_of_mod ?_
  unfold cwRepair cwRx cw key
  omega

theorem ttKept_cwEvent (s : State) (d i : Nat) : TtKept s (cwEvent s d i) := .of_regsBut (regsBut_cwEvent s d i) (by
  intro k hk
  rcases List.mem_cons.1 hk with rfl | hk
  · exact offTt_cw (by decide)
  · exact offTt_noticeKeys k hk)

section
variable {d e b : Nat} (he : e < 16) (hb : b < 8)
include he hb

theorem ttKept_setErased (s : State) (l : List Nat) : TtKept s (setErased s d e b l) := .of_regsBut (regsBut_setErased s d e b l) (by
  simp only [List.mem_cons, List.not_mem_nil, or_false, forall_eq_or_imp, forall_eq]
  exact ⟨offTt_cwRx he hb, offTt_cw (by decide)⟩)

theorem ttKept_useSpare (s : State) {n : Nat} (w : Nat) (hn : n < 32) : TtKept s (useSpare s d e b n w) :=
  .of_regsBut (regsBut_useSpare s d e b n w) (by
    simp only [List.mem_cons, List.not_mem_nil, or_false, forall_eq_or_imp, forall_eq]
    exact ⟨offTt_cwRepair he hb (by omega), offTt_cwRx he hb, offTt_cw (by decide)⟩)

theorem remapBundle_shows (s : State) : TtKept s (remapBundle s d e b) ∧ Same [.regs, .cw, .hist, .port] s (remapBundle s d e b) := by
  have hstep : ∀ (t : State) (n w : Nat) (l : List Nat), n < 32 →
      TtKept t (cwEvent (unitChanged (inc (setErased (useSpare t d e b n w) d e b l) (cw d 0x20))) d 1)
        ∧ Same [.regs, .cw, .hist, .port] t (cwEvent (unitChanged (inc (setErased (useSpare t d e b n w) d e b l) (cw d 0x20))) d 1) := by
    intro t n w l hn
    have hunit : ∀ x, Same [.hist] x (unitChanged x) := fun x => same_hist x _
    exact ⟨((((ttKept_useSpare he hb t w hn).trans (ttKept_setErased he hb _ l)).trans (ttKept_inc _ (offTt_cw (by decide)))).trans
        (.of_regs (hunit _ .regs (by decide)))).trans (ttKept_cwEvent _ d 1),
      (((((same_useSpare t d e b n w).trans (same_setErased _ d e b l)).trans (same_inc _ _)).trans (hunit _)).trans
        (same_cwEvent _ d 1)).mono (by simp)⟩
  have hfree : ∀ (t : State) {n : Nat} {r : List Nat}, freeSpares t d e b = n :: r → n < 32 := by
    intro t n r h
    have hmem : n ∈ freeSpares t d e b := by simp [h]
    exact List.mem_range.1 (List.mem_filter.1 hmem).1
  unfold remapBundle
  refine ⟨TtKept.foldl (fun t w => ?_) _ s, Same.foldl _ (fun t w => ?_) _ s⟩
  · split
    next n m rest h => exact (hstep t n w _ (hfree t h)).1
    next => exact .refl t
  · split
    next n m rest h => exact (hstep t n w _ (hfree t h)).2
    next => exact Same.refl _ t

end

theorem remapDie_shows (s : State) (d : Nat) : TtKept s (remapDie s d) ∧ Same [.regs, .cw, .hist, .port] s (remapDie s d) := by
  unfold remapDie remapBlock
  have h := fun (t : State) (k : Nat) => remapBundle_shows (d := d) (Nat.mod_lt (k / 8) (y := 16) (by decide))
    (Nat.mod_lt k (y := 8) (by decide)) t
  exact ⟨TtKept.foldl (fun t k => (h t k).1) _ s, Same.foldl _ (fun t k => (h t k).2) _ s⟩

/-! ### Possessions that end (R97) -/

theorem same_possEnd (s : State) (p : Poss) : Same [.possMap, .ttx] s (possEnd s p) := same_possMap_ttx s _ _

theorem same_possLeave (s : State) (d k : Nat) : Same [.possMap, .ttx] s (possLeave s d k) := by
  unfold possLeave
  exact ((same_ttx s _).trans (Same.foldl _ same_possEnd _ _)).mono (by simp)

/-! ### A late departure (R91) -/

theorem stations_lateCauses (s : State) (d : Nat) (causes : BitVec 16) (x : Nat) :
    (dieTT (lateCauses s d causes) x).stations = (dieTT s x).stations := by
  unfold lateCauses
  extract_lets noted s1 s2 s3 s4
  have h2 : Same [.lateFlags, .regs] s s2 := (same_lateFlags s _).trans (same_wr s1 _ _)
  have hd2 := dieTT_congr (h2 .dies (by decide)) x
  split
  · rw [hd2]
  · have hd3 : (dieTT s3 x).stations = (dieTT s2 x).stations := by
      by_cases hx : x = d
      · have hset : dieTT s3 d = { dieTT s2 d with late := true } := dieTT_setDie_same s2 d _
        rw [hx, hset]
      · exact congrArg DieTT.stations (Store.get_set_ne _ hx _ _)
    have h4 : Same [.regs] s3 s4 := same_wr s3 _ _
    rw [dieTT_congr ((h4.trans (same_post s4 7 0 _ 0 _ _ _ _)) .dies (by decide)), hd3, hd2]

/-- The departure of a late die is counted, and its beats are added. -/
theorem lateDeparture_shows (s : State) {d : Nat} (hd : d < 8) (k beats : Nat) : let u := lateDeparture s d k beats
    rd u (tt d 0x30) = satAdd (rd s (tt d 0x30)) beats ∧ ttCount u d = ttCount s d
      ∧ Same [.regs, .lateFlags, .dies, .port] s u := by
  have hcount : ∀ causes, let u := countLate s d k beats causes
      rd u (tt d 0x30) = satAdd (rd s (tt d 0x30)) beats ∧ ttCount u d = ttCount s d ∧ Same [.regs, .lateFlags, .dies, .port] s u := by
    intro causes
    unfold countLate
    extract_lets s1 s2 s3
    have h1 : Same [.regs] s s1 := same_wr s _ _
    have hregs1 : RegsBut [tt d 0x38] s s1 := regsBut_upd s _ _
    have h2 : Same [.regs] s1 s2 := same_wr s1 _ _
    have hrd2 : rd s2 (tt d 0x30) = satAdd (rd s1 (tt d 0x30)) beats := rd_wr_same s1 _ _
    have h3 : Same [.regs] s2 s3 ∧ RegsBut [tt d 0x40] s2 s3 := by
      show Same _ _ (if _ then _ else _) ∧ RegsBut _ _ (if _ then _ else _)
      split
      · exact ⟨same_wr s2 _ _, regsBut_wr s2 _ _⟩
      · exact ⟨Same.refl _ s2, (RegsBut.refl [] s2).mono (by simp)⟩
    have h13 := (h1.trans h2).trans h3.1
    have h4 := same_lateCauses s3 d causes
    have hregs4 := regsBut_lateCauses s3 d causes
    refine ⟨?_, ?_, (h13.trans h4).mono (by simp)⟩
    · have hk : tt d 0x30 ∉ [tt d 0, tt d 0x48] ++ noticeKeys := by simp [tt_inj, tt_not_mem_noticeKeys hd (off := 0x30) (by decide)]
      rw [hregs4 _ hk, h3.2 _ (by simp [tt_inj]), hrd2, hregs1 _ (by simp [tt_inj])]
    · unfold ttCount
      rw [stations_lateCauses, dieTT_congr (h13 .dies (by decide))]
  exact hcount _

end Sys2Proof.Machine
end

section
/-! A die departs from its station (R89, R91). -/

namespace Sys2Proof.Machine

/-! ### The parts of a departure -/

/-- The departure is counted where it is late. -/
def departCounted (s : State) (d k : Nat) : State :=
  if dueAt s d k < departBeat s d k then lateDeparture s d k (departBeat s d k - dueAt s d k) else s

theorem departCounted_shows (s : State) {d : Nat} (hd : d < 8) (k : Nat) : let u := departCounted s d k
    (dueAt s d k < departBeat s d k → rd u (tt d 0x30) = satAdd (rd s (tt d 0x30)) (departBeat s d k - dueAt s d k))
      ∧ (departBeat s d k ≤ dueAt s d k → rd u (tt d 0x30) = rd s (tt d 0x30)) ∧ ttCount u d = ttCount s d
      ∧ Same [.regs, .lateFlags, .dies, .port] s u := by
  unfold departCounted
  by_cases h : dueAt s d k < departBeat s d k
  · rw [if_pos h]
    obtain ⟨hrd, hcount, hsame⟩ := lateDeparture_shows s hd k (departBeat s d k - dueAt s d k)
    exact ⟨fun _ => hrd, fun hle => absurd h (Nat.not_lt.2 hle), hcount, hsame⟩
  · rw [if_neg h]
    exact ⟨fun hlt => absurd hlt h, fun _ => rfl, rfl, Same.refl _ s⟩

theorem reportDeparture_shows (s : State) {d : Nat} (hd : d < 8) (k beat : Nat) :
    portReported (reportDeparture s d k beat) (2 * (120 + d) + 1) = (k, BitVec.ofNat 64 beat)
      ∧ Same [.reports] s (reportDeparture s d k beat) := by
  unfold reportDeparture
  extract_lets s1 s2
  have h1 : Same [.reports] s s1 := Same.foldl _ (fun t e => same_portReport t _ _ _ _) _ s
  have h2 : Same [.reports] s1 s2 := same_portReport s1 _ _ _ _
  have hrep : portReported s2 (2 * (120 + d) + 1) = (k, BitVec.ofNat 64 beat) := portReported_portReport_same s1 (120 + d) true k beat
  split
  · refine ⟨?_, ((h1.trans h2).trans (same_portReport s2 _ _ _ _)).mono (by simp)⟩
    rw [portReported_portReport_ne s2 k beat (by simp only [Bool.toNat_true]; omega), hrep]
  · exact ⟨hrep, (h1.trans h2).mono (by simp)⟩

/-- Until its segment begins, a die that departs from station `k` has left the possessions that end there, its wires have
moved, and TT_STATUS shows no arrivals. -/
def departLeft (s : State) (d k : Nat) : State :=
  let t := remapDie (possLeave (reportDeparture (departCounted s d k) d k (departBeat s d k)) d k) d
  wrF (wrF t (tt d 0) 20 15 0) (tt d 0) 5 15 0

/-- The segment after station `k` begins on the engines of the die. -/
def segmentBegun (s : State) (d k : Nat) : State :=
  let s := setDie s d (fun x => { x with next := k + 1, arrivedAt := none, remoteAt := Store.erase k x.remoteAt })
  let s := (upTo 15).foldl (fun s e => setEng s d e engineStart) (slotsAgain s d)
  preTranslateAll (showSeen (wrF (setTtState s d 4) (tt d 0x20) 0 16 (k + 1)) d) d

theorem departDie_eq (s : State) (d k : Nat) : departDie s d k =
    if k = ttCount (departLeft s d k) d then ttEvent (setTtState (departLeft s d k) d 6) d 3 else segmentBegun (departLeft s d k) d k := rfl

theorem departLeft_shows (s : State) {d : Nat} (hd : d < 8) (k : Nat) : let u := departLeft s d k
    (dueAt s d k < departBeat s d k → rd u (tt d 0x30) = satAdd (rd s (tt d 0x30)) (departBeat s d k - dueAt s d k))
      ∧ (departBeat s d k ≤ dueAt s d k → rd u (tt d 0x30) = rd s (tt d 0x30)) ∧ ttCount u d = ttCount s d
      ∧ portReported u (2 * (120 + d) + 1) = (k, BitVec.ofNat 64 (departBeat s d k))
      ∧ Same [.regs, .lateFlags, .dies, .port, .reports, .possMap, .ttx, .cw, .hist] s u := by
  obtain ⟨hlate, hontime, hcount, h1⟩ := departCounted_shows s hd k
  unfold departLeft
  generalize departCounted s d k = s1 at hlate hontime hcount h1 ⊢
  obtain ⟨hrep, h2⟩ := reportDeparture_shows s1 hd k (departBeat s d k)
  generalize reportDeparture s1 d k (departBeat s d k) = s2 at hrep h2 ⊢
  have h3 := same_possLeave s2 d k
  generalize possLeave s2 d k = s3 at h3 ⊢
  obtain ⟨hk4, h4⟩ := remapDie_shows s3 d
  generalize remapDie s3 d = s4 at hk4 h4 ⊢
  have h5 : Same [.regs] s4 (wrF (wrF s4 (tt d 0) 20 15 0) (tt d 0) 5 15 0) := ((same_wrF s4 _ _ _ _).trans (same_wrF _ _ _ _ _)).mono (by simp)
  have hregs5 : RegsBut [tt d 0] s4 (wrF (wrF s4 (tt d 0) 20 15 0) (tt d 0) 5 15 0) :=
    ((regsBut_wrF s4 _ _ _ _).trans (regsBut_wrF _ _ _ _ _)).mono (by simp)
  dsimp only
  generalize wrF (wrF s4 (tt d 0) 20 15 0) (tt d 0) 5 15 0 = u at h5 hregs5 ⊢
  have hrd : rd u (tt d 0x30) = rd s1 (tt d 0x30) := by
    rw [hregs5 _ (by simp [tt_inj]), hk4 d 0x30 hd (by decide) (by decide)]
    exact rd_congr ((h2.trans h3) .regs (by decide)) _
  have hafter := ((h2.trans h3).trans h4).trans h5
  refine ⟨fun h => hrd.trans (hlate h), fun h => hrd.trans (hontime h), ?_, ?_, (h1.trans hafter).mono (by simp)⟩
  · rw [ttCount_congr (hafter .dies (by decide)), hcount]
  · rw [portReported_congr (((h3.trans h4).trans h5) .reports (by decide)), hrep]

/-! ### The engines of a segment that begins -/

theorem same_slotsAgain (s : State) (d : Nat) : Same [.regs, .om] s (slotsAgain s d) := Same.foldl _ (fun t p => same_setPort t p _) _ s

theorem ttKept_slotsAgain (s : State) (d : Nat) : TtKept s (slotsAgain s d) := TtKept.foldl (fun t p => ttKept_setPort t p _) _ s

/-- The engines of a die start their segment. -/
def enginesStarted (s : State) (d : Nat) : State := (upTo 15).foldl (fun s e => setEng s d e engineStart) s

theorem same_enginesStarted (s : State) (d : Nat) : Same [.engines] s (enginesStarted s d) :=
  Same.foldl _ (fun t e => same_setEng t d e engineStart) _ s

theorem eng_enginesStarted (s : State) (d : Nat) {e : Nat} (he : e < 15) : (eng (enginesStarted s d) d e).cycle = 0
    ∧ (eng (enginesStarted s d) d e).next = 0 ∧ (eng (enginesStarted s d) d e).writes = []
    ∧ (eng (enginesStarted s d) d e).cfg = (eng s d e).cfg := by
  have hstep : ∀ (t : State) (a b : Nat), eng (setEng t d a engineStart) d b = eng t d b
      ∨ eng (setEng t d a engineStart) d b = engineStart (eng t d b) := by
    intro t a b
    by_cases h : engKey d b = engKey d a
    · right
      unfold eng at *
      rw [h]
      exact eng_setEng_same t d a engineStart
    · exact .inl (eng_setEng_ne t _ h)
  have hcfg : ∀ (l : List Nat) (t : State), (eng (l.foldl (fun s e => setEng s d e engineStart) t) d e).cfg = (eng t d e).cfg := by
    intro l
    induction l with
    | nil => exact fun _ => rfl
    | cons a l ih =>
      intro t
      rw [List.foldl_cons, ih]
      rcases hstep t a e with h | h <;> rw [h]
      rfl
  have hstart := foldl_establishes (P := fun b s => (eng s d b).cycle = 0 ∧ (eng s d b).next = 0 ∧ (eng s d b).writes = [])
    (f := fun s e => setEng s d e engineStart) (fun t a => by rw [eng_setEng_same]; exact ⟨rfl, rfl, rfl⟩)
    (fun t a b hb => by
      rcases hstep t a b with h | h <;> rw [h]
      · exact hb
      · exact ⟨rfl, rfl, rfl⟩) (upTo 15) s e (.inl (List.mem_range.2 he))
  obtain ⟨hcycle, hnext, hwrites⟩ := hstart
  exact ⟨hcycle, hnext, hwrites, hcfg _ s⟩

/-- A die that runs toward the station after `k`. -/
def towardNext (k : Nat) (x : DieTT) : DieTT := { x with next := k + 1, arrivedAt := none, remoteAt := Store.erase k x.remoteAt }

theorem segmentBegun_eq (s : State) (d k : Nat) : segmentBegun s d k =
    preTranslateAll (showSeen (wrF (setTtState (enginesStarted (slotsAgain (setDie s d (towardNext k)) d) d) d 4) (tt d 0x20) 0 16 (k + 1)) d) d := rfl

theorem segmentBegun_shows (s : State) {d : Nat} (hd : d < 8) (k : Nat) : let u := segmentBegun s d k
    ttState u d = 4 ∧ (dieTT u d).next = k + 1 ∧ rdF u (tt d 0x20) 0 16 = (k + 1) % 2 ^ 16
      ∧ (∀ e : EngineIx, (eng u d e).cycle = 0 ∧ (eng u d e).next = 0 ∧ (eng u d e).writes = [] ∧ (eng u d e).cfg = (eng s d e).cfg)
      ∧ rd u (tt d 0x30) = rd s (tt d 0x30)
      ∧ Same [.regs, .dies, .om, .engines, .jlines, .dir, .dirAge, .trans, .port] s u := by
  rw [segmentBegun_eq]
  have h1 := same_setDie s d (towardNext k)
  have hdie1 : (dieTT (setDie s d (towardNext k)) d).next = k + 1 := by
    rw [dieTT_setDie_same]
    rfl
  generalize setDie s d (towardNext k) = s1 at h1 hdie1 ⊢
  have h2 := same_slotsAgain s1 d
  have hk2 := ttKept_slotsAgain s1 d
  generalize slotsAgain s1 d = s2 at h2 hk2 ⊢
  have h3 := same_enginesStarted s2 d
  have heng3 := fun {e : Nat} (he : e < 15) => eng_enginesStarted s2 d he
  generalize enginesStarted s2 d = s3 at h3 heng3 ⊢
  have h4 := same_setTtState s3 d 4
  have hregs4 := regsBut_setTtState s3 d 4
  have hstate4 := ttState_setTtState s3 d (st := 4) (by decide)
  generalize setTtState s3 d 4 = s4 at h4 hregs4 hstate4 ⊢
  have h5 := same_wrF s4 (tt d 0x20) 0 16 (k + 1)
  have hregs5 := regsBut_wrF s4 (tt d 0x20) 0 16 (k + 1)
  have hseg5 := rdF_wrF_same s4 (tt d 0x20) 0 16 (k + 1) (by decide)
  generalize wrF s4 (tt d 0x20) 0 16 (k + 1) = s5 at h5 hregs5 hseg5 ⊢
  have h6 := same_showSeen s5 d
  have hregs6 := regsBut_showSeen s5 d
  have hstate6 := (statusKept_showSeen s5 d).state
  generalize showSeen s5 d = s6 at h6 hregs6 hstate6 ⊢
  obtain ⟨hk7, h7⟩ := preTranslateAll_shows s6 d
  unfold walkParts at h7
  generalize preTranslateAll s6 d = u at hk7 h7 ⊢
  have h13 := (h1.trans h2).trans h3
  have h47 := ((h4.trans h5).trans h6).trans h7
  refine ⟨?_, ?_, ?_, fun e => ?_, ?_, (h13.trans h47).mono (by simp)⟩
  · rw [hk7.state hd, hstate6, ttState_congr hregs5 (by simp [tt_inj]), hstate4]
  · rw [dieTT_congr (((h2.trans h3).trans h47) .dies (by decide)), hdie1]
  · rw [rdF, hk7 d 0x20 hd (by decide) (by decide), hregs6 _ (by simp [tt_inj]), ← rdF, hseg5]
  · have hcfg : eng s2 d e = eng s d e := (h1.trans h2).eng (by decide) d e
    rw [h47.eng (by decide), ← hcfg]
    exact heng3 e.isLt
  · rw [hk7 d 0x30 hd (by decide) (by decide), hregs6 _ (by simp [tt_inj]), hregs5 _ (by simp [tt_inj]), hregs4 _ (by simp [tt_inj]),
      rd_congr (h3 .regs (by decide)), hk2 d 0x30 hd (by decide) (by decide), rd_congr (h1 .regs (by decide))]

/-! ### The departure -/

theorem departDie_shows (s : State) {d : Nat} (hd : d < 8) (k : Nat) : let u := departDie s d k
    (k = ttCount s d → ttState u d = 6 ∧ rdB u (tt d 0x48) 3 = true)
      ∧ (k ≠ ttCount s d → ttState u d = 4 ∧ (dieTT u d).next = k + 1 ∧ rdF u (tt d 0x20) 0 16 = (k + 1) % 2 ^ 16
          ∧ ∀ e : EngineIx, (eng u d e).cycle = 0 ∧ (eng u d e).next = 0 ∧ (eng u d e).writes = [] ∧ (eng u d e).cfg = (eng s d e).cfg)
      ∧ (dueAt s d k < departBeat s d k → rd u (tt d 0x30) = satAdd (rd s (tt d 0x30)) (departBeat s d k - dueAt s d k))
      ∧ (departBeat s d k ≤ dueAt s d k → rd u (tt d 0x30) = rd s (tt d 0x30))
      ∧ portReported u (2 * (120 + d) + 1) = (k, BitVec.ofNat 64 (departBeat s d k))
      ∧ Same [.regs, .port, .dies, .engines, .ttx, .possMap, .lateFlags, .cw, .reports, .hist, .om, .trans, .jlines, .dir, .dirAge] s u := by
  obtain ⟨hlate, hontime, hcount, hrep, h1⟩ := departLeft_shows s hd k
  rw [departDie_eq]
  generalize departLeft s d k = t at hlate hontime hcount hrep h1 ⊢
  rw [hcount]
  by_cases hk : k = ttCount s d
  · rw [if_pos hk]
    have h2 := same_setTtState t d 6
    have hregs2 := regsBut_setTtState t d 6
    have hstate2 := ttState_setTtState t d (st := 6) (by decide)
    generalize setTtState t d 6 = t2 at h2 hregs2 hstate2 ⊢
    have h3 := same_ttEvent t2 d 3
    have hregs3 := regsBut_ttEvent t2 d 3
    have hbit3 : rdB (ttEvent t2 d 3) (tt d 0x48) 3 = true :=
      rdB_raise_same t2 d 0x48 3 _ _ _ _ (not_noticeReg (by omega) (by decide)) (by decide)
    generalize ttEvent t2 d 3 = u at h3 hregs3 hbit3 ⊢
    have hrd : rd u (tt d 0x30) = rd t (tt d 0x30) := by
      rw [hregs3 _ (tt_apart_event hd (by decide) (by decide)), hregs2 _ (by simp [tt_inj])]
    refine ⟨fun _ => ⟨?_, hbit3⟩, fun h => absurd hk h, fun h => hrd.trans (hlate h), fun h => hrd.trans (hontime h), ?_,
      ((h1.trans h2).trans h3).mono (by simp)⟩
    · rw [ttState_congr hregs3 (tt_apart_event hd (by decide) (by decide)), hstate2]
    · rw [portReported_congr ((h2.trans h3) .reports (by decide)), hrep]
  · rw [if_neg hk]
    obtain ⟨hstate, hnext, hseg, heng, hrd, h2⟩ := segmentBegun_shows t hd k
    generalize segmentBegun t d k = u at hstate hnext hseg heng hrd h2 ⊢
    refine ⟨fun h => absurd h hk, fun _ => ⟨hstate, hnext, hseg, fun e => ?_⟩, fun h => hrd.trans (hlate h), fun h => hrd.trans (hontime h), ?_,
      (h1.trans h2).mono (by simp)⟩
    · rw [← h1.eng (by decide) d e]
      exact heng e
    · rw [portReported_congr (h2 .reports (by decide)), hrep]

theorem releaseHeld_shows (s : State) : RegsBut (hp 0x130 :: noticeKeys) s (releaseHeld s) ∧ Same [.regs, .port, .job] s (releaseHeld s) := by
  unfold releaseHeld
  split
  · exact ⟨regsBut_setJob s _ _, same_setJob s _ _⟩
  · exact ⟨(RegsBut.refl [] s).mono (by simp), Same.refl _ s⟩

theorem mayDepart_congr {s u : State} (hdies : u.dies = s.dies) (httx : u.ttx = s.ttx) (hown : ownPos u = ownPos s) {d : Nat}
    (hstate : ttState u d = ttState s d) (k : Nat) : mayDepart u d k = mayDepart s d k := by
  unfold mayDepart
  rw [station_congr hdies, dieTT_congr hdies, httx, hown, hstate]

theorem departBeat_congr {s u : State} (hdies : u.dies = s.dies) (hk : TtKept s u) {d k : Nat} (hd : d < 8) (h0 : 0 < k) :
    departBeat u d k = departBeat s d k := by
  unfold departBeat
  rw [if_neg (by omega), if_neg (by omega), dieTT_congr hdies, dueAt_congr hdies hk hd]

theorem execDeparture_of {s : State} {d : ADie} {t : W64} (hjob : s.job.state = .departed ∨ s.job.state = .held)
    (h0 : 0 < atStation s d) (hmay : mayDepart s d (atStation s d) = true) (hdue : dueAt s d (atStation s d) ≤ dieNow (advance s t) d) :
    exec (.departure d t) s = .next (releaseHeld (departDie (advance s t) d (atStation s d))) := by
  have h := same_advance s t
  have hk := ttKept_advance s t
  have hown : ownPos (advance s t) = ownPos s := (regsBut_advance s t).rdF (by decide) _ _
  show execDeparture d t s = _
  unfold execDeparture
  generalize advance s t = a at h hk hown hdue ⊢
  have hdies : a.dies = s.dies := h .dies (by decide)
  dsimp only
  rw [atStation_congr hdies, mayDepart_congr hdies (h .ttx (by decide)) hown (hk.state d.isLt),
    dueAt_congr hdies hk d.isLt, show a.job = s.job from h .job (by decide), hmay, if_pos]
  simp [hjob, h0, hdue]

theorem departure_shows {s : State} {d : ADie} {t : W64} (hjob : s.job.state = .departed ∨ s.job.state = .held)
    (h0 : 0 < atStation s d) (hmay : mayDepart s d (atStation s d) = true) (hdue : dueAt s d (atStation s d) ≤ dieNow (advance s t) d) :
    let k := atStation s d
    Runs (.departure d t) s (fun u =>
        (k = ttCount s d → ttState u d = 6 ∧ rdB u (tt d 0x48) 3 = true)
        ∧ (k ≠ ttCount s d → ttState u d = 4 ∧ (dieTT u d).next = k + 1 ∧ rdF u (tt d 0x20) 0 16 = (k + 1) % 2 ^ 16
          ∧ ∀ e : EngineIx, (eng u d e).cycle = 0 ∧ (eng u d e).next = 0 ∧ (eng u d e).writes = [] ∧ (eng u d e).cfg = (eng s d e).cfg)
        ∧ (dueAt s d k < departBeat s d k → rd u (tt d 0x30) = satAdd (rd s (tt d 0x30)) (departBeat s d k - dueAt s d k))
        ∧ (departBeat s d k ≤ dueAt s d k → rd u (tt d 0x30) = rd s (tt d 0x30))
        ∧ portReported u (2 * (120 + d) + 1) = (k, BitVec.ofNat 64 (departBeat s d k))
        ∧ Same [.regs, .mtcx, .port, .dies, .engines, .ttx, .possMap, .lateFlags, .cw, .job, .reports, .hist, .om, .trans, .jlines,
            .dir, .dirAge] s u) := by
  have hd : (d : Nat) < 8 := d.isLt
  refine ⟨_, execDeparture_of hjob h0 hmay hdue, ?_⟩
  generalize atStation s d = k at h0 ⊢
  have ha := same_advance s t
  have hka := ttKept_advance s t
  generalize advance s t = a at ha hka ⊢
  have hdies : a.dies = s.dies := ha .dies (by decide)
  obtain ⟨hdone, hruns, hlate, hontime, hrep, h1⟩ := departDie_shows a hd k
  rw [ttCount_congr hdies] at hdone hruns
  rw [dueAt_congr hdies hka hd, departBeat_congr hdies hka hd h0, hka d 0x30 hd (by decide) (by decide)] at hlate hontime
  rw [departBeat_congr hdies hka hd h0] at hrep
  generalize departDie a d k = v at hdone hruns hlate hontime hrep h1 ⊢
  obtain ⟨hregs2, h2⟩ := releaseHeld_shows v
  generalize releaseHeld v = u at hregs2 h2 ⊢
  have hapart : ∀ {off : Nat}, off < 2 ^ 30 → tt d off ∉ hp 0x130 :: noticeKeys := by
    intro off ho
    have hne : tt d off ≠ hp 0x130 := by
      unfold tt hp key
      omega
    exact List.not_mem_cons_of_ne_of_not_mem hne (tt_not_mem_noticeKeys hd ho)
  have hstate : ttState u d = ttState v d := ttState_congr hregs2 (hapart (by decide))
  have hdie : dieTT u d = dieTT v d := dieTT_congr (h2 .dies (by decide)) d
  have hrd := hregs2 _ (hapart (off := 0x30) (by decide))
  refine ⟨fun hk => ?_, fun hk => ?_, fun h => hrd.trans (hlate h), fun h => hrd.trans (hontime h), ?_, ((ha.trans h1).trans h2).mono (by simp)⟩
  · obtain ⟨hs, hbit⟩ := hdone hk
    exact ⟨hstate.trans hs, (hregs2.rdB (hapart (by decide)) 3).trans hbit⟩
  · obtain ⟨hs, hnext, hseg, heng⟩ := hruns hk
    refine ⟨hstate.trans hs, by rw [hdie, hnext], (hregs2.rdF (hapart (by decide)) 0 16).trans hseg, fun e => ?_⟩
    rw [h2.eng (by decide), ← ha.eng (by decide) d e]
    exact heng e
  · rw [portReported_congr (h2 .reports (by decide)), hrep]

end Sys2Proof.Machine

open Sys2Proof Sys2Proof.Machine

/-- Settles O16: engines and dies arrive, messages count, and a die departs, times out or holds the job. -/
theorem arrivalsAndDepartures : Obligations.ArrivalsAndDepartures := by
  refine ⟨fun s d src e named => ⟨?arrives, fun m hm => arrivalMessage_shows hm⟩, fun s d t => ⟨?departs, ?failed, ?held⟩⟩
  case arrives => exact fun hstate harrived hwin hclear hc hreach => engineArrival_shows named hstate harrived hwin hclear hc hreach
  case departs => exact fun hjob h0 hmay hdue => departure_shows hjob h0 hmay hdue
  case failed => exact fun hlive hs hdue => stationTimeout_shows hlive hs hdue
  case held => exact fun hjob hs hdue => departureOverdue_shows hjob hs hdue
end

section
/-! Launching an order (R68, R69): what it starts with stands in its engine's pipeline, and what it reads at its ISSUE is read. -/

namespace Sys2Proof.Machine

/-! ### Operands by their place in the order (R66) -/

theorem fld_mkOrder_operand {op : Nat} (hop : op < 256) (issue : BitVec 24) (ops : BitVec 96) {lo len : Nat} (h : 32 ≤ lo)
    (hlen : lo + len ≤ 128) : fld (mkOrder op issue ops) lo len = fld ops (lo - 32) len := by
  obtain ⟨k, rfl⟩ := Nat.exists_eq_add_of_le h
  rw [fld_mkOrder_ops hop issue ops (by omega), Nat.add_sub_cancel_left]

/-! ### The next event of an engine -/

theorem minOf_of_least {l : List Nat} {x : Nat} (hx : x ∈ l) (h : ∀ y ∈ l, x ≤ y) : minOf l = some x := by
  induction l with
  | nil => exact absurd hx List.not_mem_nil
  | cons a l ih =>
    have ha := h a List.mem_cons_self
    have hl : ∀ y ∈ l, x ≤ y := fun y hy => h y (List.mem_cons_of_mem a hy)
    rw [minOf]
    cases hm : minOf l with
    | none =>
      rcases List.mem_cons.1 hx with rfl | hx
      · rfl
      · exact absurd (hm.symm.trans (ih hx hl)) nofun
    | some y =>
      have hy := hl y (minOf_mem hm)
      rcases List.mem_cons.1 hx with rfl | hx
      · exact congrArg some (Nat.min_eq_left hy)
      · obtain rfl : y = x := Option.some.inj (hm.symm.trans (ih hx hl))
        exact congrArg some (Nat.min_eq_right ha)

theorem nextEvent_of_read {s : State} {d e : Nat} {r : ReadOp} (hr : r ∈ (eng s d e).reads) (hreads : ∀ x ∈ (eng s d e).reads, r.time ≤ x.time)
    (hwrites : ∀ w ∈ (eng s d e).writes, r.time ≤ w.time) : nextEvent s d e = some r.time := by
  refine minOf_of_least (List.mem_append_left _ (List.mem_map_of_mem hr)) fun y hy => ?_
  rcases List.mem_append.1 hy with hy | hy <;> obtain ⟨x, hx, rfl⟩ := List.mem_map.1 hy
  · exact hreads x hx
  · exact hwrites x hx

theorem doWrites_of_later {s : State} {d e t : Nat} (h : ∀ w ∈ (eng s d e).writes, t < w.time) :
    doWrites s d e t = setEng s d e (writesLeft t) := by
  have hdue : (eng s d e).writes.filter (fun w => decide (w.time ≤ t)) = [] := by simpa using h
  simp only [doWrites, dueWrites, hdue, List.foldr_nil, List.foldl_nil]
  rfl

theorem doReads_of_one_due {s : State} {d e : Nat} {r : ReadOp} (h : (eng s d e).reads.filter (fun x => decide (x.time ≤ r.time)) = [r]) :
    doReads s d e r.time = doRead (setEng s d e (readsLeft r.time)) d e r := by
  simp only [doReads, h, List.foldl_cons, List.foldl_nil]
  rfl

theorem doRead_eq (s : State) (d e : Nat) (r : ReadOp) : doRead s d e r = setEng s d e (fun x =>
    { x with writes := x.writes ++ flights r (enginePart s d e r).1, reads := x.reads ++ (enginePart s d e r).2.toList }) := rfl

/-! ### An order in the pipeline -/

/-- What an order starts with: its reads, its writes with their cycles, and the paths it occupies. -/
abbrev Start := List ReadOp × List (Nat × Put) × List Span

/-- An engine with what an order issued at cycle `c` starts with in its pipeline. -/
def launched (c : Nat) (p : Start) (x : Engine) : Engine :=
  { x with reads := x.reads ++ p.1, writes := x.writes ++ p.2.1.map (fun w => { time := w.1, issue := c, put := w.2 })
           spans := x.spans ++ p.2.2 }

section
variable (c : Nat) (p : Start) (x : Engine)

@[simp] theorem launched_cycle : (launched c p x).cycle = x.cycle := rfl
@[simp] theorem launched_next : (launched c p x).next = x.next := rfl
@[simp] theorem launched_reads : (launched c p x).reads = x.reads ++ p.1 := rfl
@[simp] theorem launched_writes :
    (launched c p x).writes = x.writes ++ p.2.1.map (fun w => { time := w.1, issue := c, put := w.2 }) := rfl

end

theorem launch_eq (s : State) (d e c : Nat) (p : Start) : launch s d e c p = runTo 1 (setEng s d e (launched c p)) d e c := rfl

/-- An order with nothing due at its ISSUE waits in the pipeline. -/
theorem launch_of_later {s : State} {d e c : Nat} {p : Start} (hq : Quiet s d e c) (hr : ∀ r ∈ p.1, c < r.time)
    (hw : ∀ w ∈ p.2.1, c < w.1) : launch s d e c p = setEng s d e (launched c p) := by
  obtain ⟨hreads, hwrites⟩ := hq
  rw [launch_eq]
  refine runTo_of_quiet ?_ 1
  unfold Quiet
  rw [eng_setEng_same]
  refine ⟨fun r h => (List.mem_append.1 h).elim (hreads r) (hr r), fun w h => (List.mem_append.1 h).elim (hwrites w) fun h => ?_⟩
  obtain ⟨x, hx, rfl⟩ := List.mem_map.1 h
  exact hw x hx

/-- What is in flight once an order's first part has been read at its ISSUE: its later parts wait, and the writes of the part are
on their way. -/
def launchedRead (r : ReadOp) (later : List ReadOp) (spans : List Span) (part : List (Nat × Put) × Option ReadOp) (x : Engine) : Engine :=
  { x with reads := x.reads ++ later ++ part.2.toList, writes := x.writes ++ flights r part.1, spans := x.spans ++ spans }

section
variable (r : ReadOp) (later : List ReadOp) (spans : List Span) (part : List (Nat × Put) × Option ReadOp) (x : Engine)

@[simp] theorem launchedRead_cycle : (launchedRead r later spans part x).cycle = x.cycle := rfl
@[simp] theorem launchedRead_next : (launchedRead r later spans part x).next = x.next := rfl
@[simp] theorem launchedRead_reads : (launchedRead r later spans part x).reads = x.reads ++ later ++ part.2.toList := rfl
@[simp] theorem launchedRead_writes : (launchedRead r later spans part x).writes = x.writes ++ flights r part.1 := rfl

end

/-- An order that reads its first part at its ISSUE, on an engine whose parts do not depend on its pipeline. -/
theorem launch_of_read {s : State} {d e : Nat} {r : ReadOp} {later : List ReadOp} {spans : List Span} (he : e < 15)
    (hq : Quiet s d e r.time) (hlater : ∀ x ∈ later, r.time < x.time)
    (hpart : ∀ t f, enginePart (setEng t d e f) d e r = enginePart t d e r) :
    let u := launch s d e r.time (r :: later, [], spans)
    eng u d e = launchedRead r later spans (enginePart s d e r) (eng s d e) ∧ OtherEngines s u d e ∧ Same [.engines] s u := by
  obtain ⟨hreads, hwrites⟩ := hq
  rw [launch_eq]
  generalize ht : setEng s d e (launched r.time (r :: later, [], spans)) = t
  have heng : eng t d e = launched r.time (r :: later, [], spans) (eng s d e) := by rw [← ht, eng_setEng_same]
  have hpt : enginePart t d e r = enginePart s d e r := by rw [← ht, hpart]
  have hother : OtherEngines s t d e := ht ▸ otherEngines_setEng s d _ he
  have hsame : Same [.engines] s t := ht ▸ same_setEng s d e _
  have htr : (eng t d e).reads = (eng s d e).reads ++ r :: later := by rw [heng]; rfl
  have htw : (eng t d e).writes = (eng s d e).writes := by rw [heng]; exact List.append_nil _
  have hevent : nextEvent t d e = some r.time := by
    refine nextEvent_of_read (by simp [htr]) (fun x hx => ?_) (fun w hw => (hwrites w (htw ▸ hw)).le)
    rw [htr, List.mem_append, List.mem_cons] at hx
    rcases hx with hx | rfl | hx
    · exact (hreads x hx).le
    · exact Nat.le_refl _
    · exact (hlater x hx).le
  have hrun : runTo 1 t d e r.time = doReads (doWrites t d e r.time) d e r.time := by
    rw [runTo, hevent]
    exact if_pos (Nat.le_refl _)
  have hdue : (eng (setEng t d e (writesLeft r.time)) d e).reads.filter (fun x => decide (x.time ≤ r.time)) = [r] := by
    have h1 : (eng s d e).reads.filter (fun x => decide (x.time ≤ r.time)) = [] := by simpa using hreads
    have h2 : later.filter (fun x => decide (x.time ≤ r.time)) = [] := by simpa using hlater
    rw [eng_setEng_same]
    show (eng t d e).reads.filter _ = _
    simp [htr, h1, h2]
  rw [hrun, doWrites_of_later (fun w hw => hwrites w (htw ▸ hw)), doReads_of_one_due hdue, doRead_eq, hpart, hpart, hpt]
  refine ⟨?_, ((hother.trans (otherEngines_setEng _ d _ he)).trans (otherEngines_setEng _ d _ he)).trans (otherEngines_setEng _ d _ he),
    (((hsame.trans (same_setEng _ d e _)).trans (same_setEng _ d e _)).trans (same_setEng _ d e _)).mono (by simp)⟩
  have hkeep : ((eng s d e).reads ++ r :: later).filter (fun x => !decide (x.time ≤ r.time)) = (eng s d e).reads ++ later := by
    have h1 : (eng s d e).reads.filter (fun x => !decide (x.time ≤ r.time)) = (eng s d e).reads := by simpa using hreads
    have h2 : later.filter (fun x => !decide (x.time ≤ r.time)) = later := by simpa using hlater
    simp [h1, h2]
  have hkeepw : (eng s d e).writes.filter (fun w => !decide (w.time ≤ r.time)) = (eng s d e).writes := by simpa using hwrites
  rw [eng_setEng_same, eng_setEng_same, eng_setEng_same, heng]
  simp only [launchedRead, readsLeft, writesLeft, launched, List.map_nil, List.append_nil, hkeep, hkeepw]

end Sys2Proof.Machine
end

section
/-! What the orders of the main array start with (R124 to R135), and how they issue. -/

namespace Sys2Proof.Machine

/-! ### The configuration as it stands (R127, R129) -/

theorem maCfg_congr {s t : State} {d : Nat} (h : (eng t d 0).cfg = (eng s d 0).cfg) : maCfg t d = maCfg s d :=
  List.map_congr_left fun ix _ => by rw [engCfg, h, ← engCfg]

theorem maStart_congr {s t : State} {d : Nat} (h : (eng t d 0).cfg = (eng s d 0).cfg) (o : Order) : maStart t d o = maStart s d o := by
  unfold maStart
  rw [maCfg_congr h]

/-- A read of part `part` of an order, due at cycle `t`, with the configuration at its ISSUE. -/
def maRead (s : State) (d : Nat) (o : Order) (c t part : Nat) (got : List Nat) : ReadOp :=
  { time := t, issue := c, order := o, cfg := maCfg s d, part := part, got := got }

section
variable (s : State) (d : Nat) (o : Order) (c t part : Nat) (got : List Nat)

@[simp] theorem maRead_time : (maRead s d o c t part got).time = t := rfl
@[simp] theorem maRead_order : (maRead s d o c t part got).order = o := rfl
@[simp] theorem maRead_cfg : (maRead s d o c t part got).cfg = maCfg s d := rfl
@[simp] theorem maRead_part : (maRead s d o c t part got).part = part := rfl
@[simp] theorem maRead_got : (maRead s d o c t part got).got = got := rfl

end

/-! ### What each order starts with -/

section
variable (s : State) (d : Nat) (issue : BitVec 24) (ops : BitVec 96)

/-- MA_OUTCFG (R127). -/
theorem maStart_outcfg : maStart s d (mkOrder 0x41 issue ops) = ([], [(issue.toNat + 1, .cfg 0 (fld ops 0 22)),
    (issue.toNat + 1, .cfg 1 (fld ops 22 2)), (issue.toNat + 1, .cfg 2 (fld ops 24 4)), (issue.toNat + 1, .cfg 3 (fld ops 28 20)),
    (issue.toNat + 1, .cfg 4 (fld ops 48 16)), (issue.toNat + 1, .cfg 5 (fld ops 64 8))], []) := by
  have hfields : (maCfgFields.take 6).zip (upTo 6)
      = [((32, 22), 0), ((54, 2), 1), ((56, 4), 2), ((60, 20), 3), ((80, 16), 4), ((96, 8), 5)] := by decide
  simp [maStart, fld_mkOrder_issue, fld_mkOrder_op, hfields, fld_mkOrder_operand]

/-- MA_SCALECFG (R129). -/
theorem maStart_scalecfg : maStart s d (mkOrder 0x42 issue ops) = ([], [(issue.toNat + 1, .cfg 6 (fld ops 0 22)),
    (issue.toNat + 1, .cfg 7 (fld ops 22 22)), (issue.toNat + 1, .cfg 8 (fld ops 44 3)), (issue.toNat + 1, .cfg 9 (fld ops 47 1)),
    (issue.toNat + 1, .cfg 10 (fld ops 48 3)), (issue.toNat + 1, .cfg 11 (fld ops 51 1))], []) := by
  have hfields : (maCfgFields.drop 6).zip (upTo 6)
      = [((32, 22), 0), ((54, 22), 1), ((76, 3), 2), ((79, 1), 3), ((80, 3), 4), ((83, 1), 5)] := by decide
  simp [maStart, fld_mkOrder_issue, fld_mkOrder_op, hfields, fld_mkOrder_operand]

/-- MA_ZERO (R130). -/
theorem maStart_zero : maStart s d (mkOrder 0x43 issue ops) = ([], ([0, 1, 2, 3].filter (fun q => bitOf ops q)).map (fun q =>
    (issue.toNat + 2, .plane d q (fld ops 4 2) (BitVec.ofNat 16 (fld ops 6 16)))), []) := by
  have hplanes : (upTo 4).filter (fun q => bitOf (mkOrder 0x43 issue ops) (32 + q)) = [0, 1, 2, 3].filter (fun q => bitOf ops q) :=
    List.filter_congr fun q hq => bitOf_mkOrder_ops (by decide) issue ops (Nat.lt_of_lt_of_le (List.mem_range.1 hq) (by decide))
  simp [maStart, fld_mkOrder_issue, fld_mkOrder_op, hplanes, fld_mkOrder_operand]

/-- MA_DRAIN reads its plane from the cycle after its ISSUE (R135). -/
theorem maStart_drain : ∃ spans, maStart s d (mkOrder 0x44 issue ops)
    = ([maRead s d (mkOrder 0x44 issue ops) issue.toNat (issue.toNat + 1) 0 []], [], spans) := by
  simp [maStart, fld_mkOrder_issue, fld_mkOrder_op, maRead]

/-- MA_LOAD reads its first bytes at its ISSUE (R135). -/
theorem maStart_load : ∃ spans, maStart s d (mkOrder 0x45 issue ops)
    = ([maRead s d (mkOrder 0x45 issue ops) issue.toNat issue.toNat 0 []], [], spans) := by
  simp [maStart, fld_mkOrder_issue, fld_mkOrder_op, maRead]

/-- The drains of an MA_MMA that drains its passes, in their order (R125, R134). -/
def mmaDrains (s : State) (d : Nat) (o : Order) (c : Nat) : List ReadOp :=
  let q := mmaOf o
  if q.dst = 1 then
    (upTo q.passes).map (fun p => maRead s d o c (c + 6 + p * q.period (cfgOf (maCfg s d) 2) + q.time + 64) (2 ^ 32 + p) [])
  else []

/-- MA_MMA reads its first step at its ISSUE (R134). -/
theorem maStart_mma : ∃ spans, maStart s d (mkOrder 0x40 issue ops)
    = (maRead s d (mkOrder 0x40 issue ops) issue.toNat issue.toNat 0 [] :: mmaDrains s d (mkOrder 0x40 issue ops) issue.toNat, [], spans) := by
  simp [maStart, fld_mkOrder_issue, fld_mkOrder_op, maRead, mmaDrains]

end

/-! ### The parts read at ISSUE -/

theorem maPart_load {s : State} {d : Nat} {r : ReadOp} (h : fld r.order 24 8 = 0x45) : maPart s d r =
    let dd := ceilDiv ((fld r.order 36 7 + 1) * (fld r.order 43 7 + 1) * (cFmt (fld r.order 50 4)).bits) 4096
    let els := r.got ++ loadChunk s d r.order r.part
    if r.part + 1 < dd then ([], some { r with part := r.part + 1, time := r.time + 1, got := els })
    else ((loadPuts d r.order r.cfg els).map (fun x => (r.time - r.part + dd + 6, x)), none) := by
  simp [maPart, h]

theorem bits_pos (f : Fmt) : 0 < f.bits := by cases f <;> decide

end Sys2Proof.Machine
end

section
/-! MA_OUTCFG to MA_LOAD and MA_MMA at their ISSUE (R124 to R135). -/

namespace Sys2Proof.Machine

/-- An order of the main array has issued at cycle `c`: its engine alone has changed, and has these reads and writes more in flight. -/
def MaIssued (s u : State) (d c : Nat) (reads : List ReadOp) (writes : List WriteOp) : Prop :=
  IssuedAt u d 0 c ∧ OtherEngines s u d 0 ∧ Same [.engines] s u ∧ (eng u d 0).reads = (eng s d 0).reads ++ reads
    ∧ (eng u d 0).writes = (eng s d 0).writes ++ writes

theorem quiet_atIssue {s : State} {d e c : Nat} (hq : Quiet s d e c) : Quiet (atIssue s d e c) d e c := by
  unfold Quiet
  rw [eng_atIssue hq]
  exact hq

theorem maPart_atIssue {s : State} {d c : Nat} (hq : Quiet s d 0 c) (r : ReadOp) : maPart (atIssue s d 0 c) d r = maPart s d r := by
  rw [atIssue, reach_of_quiet hq, maPart_setEng, maPart_setEng]

section
variable {s : State} {d op : Nat} {issue : BitVec 24} {ops : BitVec 96} (hq : Quiet s d 0 issue.toNat)
  (hc : canIssue s d 0 (mkOrder op issue ops) = true)
include hq hc

theorem maIssue_eq :
    maIssue s d op issue ops = launch (atIssue s d 0 issue.toNat) d 0 issue.toNat (maStart s d (mkOrder op issue ops)) := by
  have hcfg : (eng (atIssue s d 0 issue.toNat) d 0).cfg = (eng s d 0).cfg := by rw [eng_atIssue hq]; rfl
  unfold maIssue
  rw [if_pos hc]
  exact congrArg (launch _ d 0 _) (maStart_congr hcfg _)

/-- An order with nothing due at its ISSUE. -/
theorem maIssue_later {reads : List ReadOp} {writes : List (Nat × Put)} {spans : List Span}
    (hp : maStart s d (mkOrder op issue ops) = (reads, writes, spans)) (hr : ∀ r ∈ reads, issue.toNat < r.time)
    (hw : ∀ w ∈ writes, issue.toNat < w.1) : MaIssued s (maIssue s d op issue ops) d issue.toNat reads
      (writes.map (fun w => { time := w.1, issue := issue.toNat, put := w.2 })) := by
  have hissued := issuedAt_atIssue hq (cycle_le_of_canIssue hc)
  have hother := otherEngines_atIssue hq (by decide)
  have hsame := same_atIssue hq
  have heng := eng_atIssue hq
  rw [maIssue_eq hq hc, hp, launch_of_later (quiet_atIssue hq) hr hw]
  refine ⟨?_, hother.trans (otherEngines_setEng _ d _ (by decide)), (hsame.trans (same_setEng _ d 0 _)).mono (by simp), ?_, ?_⟩
  · unfold IssuedAt at hissued ⊢
    rwa [eng_setEng_same, launched_cycle, launched_next]
  · rw [eng_setEng_same, launched_reads, heng]
    rfl
  · rw [eng_setEng_same, launched_writes, heng]
    rfl

/-- An order that reads nothing. -/
theorem maIssue_writes {writes : List (Nat × Put)} {spans : List Span} (hp : maStart s d (mkOrder op issue ops) = ([], writes, spans))
    (hw : ∀ w ∈ writes, issue.toNat < w.1) : let u := maIssue s d op issue ops
      IssuedAt u d 0 issue.toNat ∧ OtherEngines s u d 0 ∧ Same [.engines] s u ∧ (eng u d 0).reads = (eng s d 0).reads
        ∧ (eng u d 0).writes = (eng s d 0).writes ++ writes.map (fun w => { time := w.1, issue := issue.toNat, put := w.2 }) := by
  obtain ⟨hissued, hother, hsame, hreads, hwrites⟩ := maIssue_later hq hc hp (by simp) hw
  exact ⟨hissued, hother, hsame, hreads.trans (List.append_nil _), hwrites⟩

/-- An order that reads its first part at its ISSUE. -/
theorem maIssue_read {r : ReadOp} {later : List ReadOp} {spans : List Span} (ht : r.time = issue.toNat)
    (hp : maStart s d (mkOrder op issue ops) = (r :: later, [], spans)) (hlater : ∀ x ∈ later, issue.toNat < x.time) :
    MaIssued s (maIssue s d op issue ops) d issue.toNat (later ++ (maPart s d r).2.toList) (flights r (maPart s d r).1) := by
  have hissued := issuedAt_atIssue hq (cycle_le_of_canIssue hc)
  have hother := otherEngines_atIssue hq (by decide)
  have hsame := same_atIssue hq
  have heng := eng_atIssue hq
  rw [maIssue_eq hq hc, hp]
  rw [← ht] at hq hlater hissued hother hsame heng ⊢
  obtain ⟨hu, huother, husame⟩ := launch_of_read (spans := spans) (by decide) (quiet_atIssue hq) hlater (fun t f => maPart_setEng t d d 0 f r)
  have hpart : enginePart (atIssue s d 0 r.time) d 0 r = maPart s d r := maPart_atIssue hq r
  rw [hpart, heng] at hu
  refine ⟨?_, hother.trans huother, (hsame.trans husame).mono (by simp), ?_, ?_⟩
  · unfold IssuedAt at hissued ⊢
    rwa [hu, launchedRead_cycle, launchedRead_next, ← heng]
  · rw [hu, launchedRead_reads]
    exact List.append_assoc _ _ _
  · rw [hu, launchedRead_writes]
    rfl

end

end Sys2Proof.Machine

open Sys2Proof Sys2Proof.Machine

/-- Settles O19: each order puts its fields or planes in flight, and has nothing due at its ISSUE. -/
theorem mainArrayConfigurationOrders : Obligations.MainArrayConfigurationOrders := by
  intro s d issue ops c field plane hq
  refine ⟨fun hc => ⟨_, rfl, ?outcfg⟩, fun hc => ⟨_, rfl, ?scalecfg⟩, fun hc => ⟨_, rfl, ?zero⟩⟩
  case outcfg => exact maIssue_writes hq hc (maStart_outcfg s d issue ops) (by simp)
  case scalecfg => exact maIssue_writes hq hc (maStart_scalecfg s d issue ops) (by simp)
  case zero =>
    have hlater : ∀ w ∈ ([0, 1, 2, 3].filter (fun q => bitOf ops q)).map (fun q =>
        (c + 2, Put.plane d q (fld ops 4 2) (BitVec.ofNat 16 (fld ops 6 16)))), c < w.1 := fun w hw => by
      obtain ⟨q, -, rfl⟩ := List.mem_map.1 hw
      exact Nat.lt_add_of_pos_right (by decide)
    have h := maIssue_writes hq hc (maStart_zero s d issue ops) hlater
    rw [List.map_map] at h
    exact h
end

section
/-! What an MA_MMA and an MA_LOAD read at their ISSUE (R125, R132, R134, R135). -/

namespace Sys2Proof.Machine

theorem fld_eq_one_of_bitOf {n lo : Nat} {w : BitVec n} (h : bitOf w lo = true) : fld w lo 1 = 1 := by
  have hlt := fld_lt w lo 1
  have hbit := bitOf_eq_testBit_fld w (lo := lo) (len := 1) (i := 0) (by decide)
  rw [Nat.add_zero, h] at hbit
  have hne : fld w lo 1 ≠ 0 := fun h0 => by simp [h0] at hbit
  omega

section
variable {s : State} {d : Nat} {o : Order} {ops : BitVec 96}

/-- The second step of an MA_MMA (R134). -/
def secondStep (s : State) (d : Nat) (o : Order) (c : Nat) : ReadOp :=
  let q := mmaOf o
  maRead s d o c (if q.steps = 1 then c + q.period (cfgOf (maCfg s d) 2) else c + q.cps) 1 []

/-- The first step of an MA_MMA, and the step that follows it. -/
theorem maPart_first_step (h : fld o 24 8 = 0x40) (c : Nat) : maPart s d (maRead s d o c c 0 []) =
    (mmaStep s d o (maCfg s d) c 0 0, if 1 < (mmaOf o).passes * (mmaOf o).steps then some (secondStep s d o c) else none) := by
  rw [maPart_step (by rw [maRead_order, h]) (by rw [maRead_part]; decide)]
  simp only [nextStepOf, maRead_order, maRead_time, maRead_part, maRead_cfg, Nat.zero_div, Nat.zero_mod, Nat.zero_add, Nat.zero_mul,
    Nat.sub_zero, @eq_comm _ 1]
  rfl

theorem lt_time_of_mem_mmaDrains {c : Nat} : ∀ x ∈ mmaDrains s d o c, c < x.time := by
  intro x hx
  by_cases hdst : (mmaOf o).dst = 1
  · rw [mmaDrains, if_pos hdst] at hx
    obtain ⟨p, -, rfl⟩ := List.mem_map.1 hx
    rw [maRead_time]
    omega
  · rw [mmaDrains, if_neg hdst] at hx
    exact absurd hx List.not_mem_nil

theorem mem_mmaDrains {c p : Nat} (hdst : (mmaOf o).dst = 1) (hp : p < (mmaOf o).passes) :
    let q := mmaOf o
    maRead s d o c (c + 6 + p * q.period (cfgOf (maCfg s d) 2) + q.time + 64) (2 ^ 32 + p) [] ∈ mmaDrains s d o c := by
  intro q
  rw [mmaDrains, if_pos hdst]
  exact List.mem_map.2 ⟨p, List.mem_range.2 hp, rfl⟩

theorem mmaOf_dst {issue : BitVec 24} (h : bitOf ops 87 = true) : (mmaOf (mkOrder 0x40 issue ops)).dst = 1 :=
  (fld_mkOrder_operand (lo := 119) (by decide) issue ops (by decide) (by decide)).trans (fld_eq_one_of_bitOf h)

/-- Bits that an MA_LOAD reads. -/
def loadBits (o : Order) : Nat := (fld o 36 7 + 1) * (fld o 43 7 + 1) * (cFmt (fld o 50 4)).bits

theorem loadBits_mkOrder (issue : BitVec 24) (ops : BitVec 96) :
    loadBits (mkOrder 0x45 issue ops) = (fld ops 4 7 + 1) * (fld ops 11 7 + 1) * (cFmt (fld ops 18 4)).bits := by
  simp [fld_mkOrder_operand, loadBits]

theorem loadBits_pos (o : Order) : 0 < loadBits o :=
  Nat.mul_pos (Nat.mul_pos (Nat.succ_pos _) (Nat.succ_pos _)) (bits_pos _)

/-- The first 512 bytes of an MA_LOAD (R135): the rest follows from the next cycle, or the puts are on their way. -/
theorem maPart_first_load (h : fld o 24 8 = 0x45) (c : Nat) : maPart s d (maRead s d o c c 0 []) =
    let els := loadChunk s d o 0
    if 4096 < loadBits o then ([], some (maRead s d o c (c + 1) 1 els))
    else ((loadPuts d o (maCfg s d) els).map (fun w => (c + 7, w)), none) := by
  have hpos := loadBits_pos o
  rw [maPart_load (by rw [maRead_order, h])]
  simp only [maRead_order, maRead_time, maRead_part, maRead_cfg, maRead_got, ← loadBits.eq_1, List.nil_append, Nat.zero_add, Nat.sub_zero]
  by_cases hn : 4096 < loadBits o
  · have hdd : 1 < ceilDiv (loadBits o) 4096 := by
      unfold ceilDiv
      omega
    rw [if_pos hn, if_pos hdd]
    rfl
  · have hdd : ceilDiv (loadBits o) 4096 = 1 := by
      unfold ceilDiv
      omega
    rw [if_neg hn, hdd, if_neg (by decide)]

end

/-- An MA_MMA issues, and then the cubes' residue checks find their mismatches (R143). -/
theorem exec_maMma {s : State} {d : ADie} {issue : BitVec 24} {ops : BitVec 96} (hc : canIssue s d 0 (mkOrder 0x40 issue ops) = true)
    (bad : List (Fin 33 × Fin 33)) : exec (.maMma d issue ops bad) s
      = .next (bad.foldl (fun t x => cubeMismatch t d x.1 x.2 issue.toNat) (maIssue s d 0x40 issue ops)) :=
  congrArg Host.Outcome.next (if_pos hc)

end Sys2Proof.Machine

open Sys2Proof Sys2Proof.Machine

/-- Settles O20: a drain waits for its cycle, and a matrix product and a load have read their first part at ISSUE. -/
theorem mainArrayDataOrders : Obligations.MainArrayDataOrders := by
  intro s d issue ops c cfg due hq
  refine ⟨fun hc => ⟨_, exec_maMma hc [], ?mma⟩, fun hc => ⟨_, rfl, ?drain⟩, fun hc => ⟨_, rfl, ?load⟩⟩
  case mma =>
    let o := mkOrder 0x40 issue ops
    let q := mmaOf o
    obtain ⟨spans, hp⟩ := maStart_mma s d issue ops
    obtain ⟨hissued, hother, hsame, hreads, hwrites⟩ := maIssue_read hq hc (maRead_time ..) hp lt_time_of_mem_mmaDrains
    rw [maPart_first_step (fld_mkOrder_op (by decide) issue ops)] at hreads hwrites
    have hmem (r : ReadOp) : r ∈ (eng (maIssue s d 0x40 issue ops) d 0).reads ↔ r ∈ (eng s d 0).reads ∨ r ∈ mmaDrains s d o c
        ∨ r ∈ (if 1 < q.passes * q.steps then some (secondStep s d o c) else none).toList := by
      rw [hreads, List.mem_append, List.mem_append]
    refine ⟨hissued, hother, hsame, hwrites, fun hmore => (hmem _).2 (.inr (.inr ?_)),
      fun p hp hdst => (hmem _).2 (.inr (.inl (mem_mmaDrains (mmaOf_dst hdst) hp))), fun r hr => (hmem r).2 (.inl hr)⟩
    rw [if_pos hmore]
    exact List.mem_cons_self
  case drain =>
    obtain ⟨spans, hp⟩ := maStart_drain s d issue ops
    obtain ⟨hissued, hother, hsame, hreads, hwrites⟩ := maIssue_later hq hc hp (by simp) (by simp)
    exact ⟨hissued, hother, hsame, hwrites.trans (List.append_nil _), hreads⟩
  case load =>
    obtain ⟨spans, hp⟩ := maStart_load s d issue ops
    obtain ⟨hissued, hother, hsame, hreads, hwrites⟩ := maIssue_read hq hc (maRead_time ..) hp (by simp)
    rw [maPart_first_load (fld_mkOrder_op (by decide) issue ops), loadBits_mkOrder] at hreads hwrites
    refine ⟨hissued, hother, hsame, fun hn => ?_, fun hn => ?_⟩
    · rw [if_pos hn] at hreads hwrites
      exact ⟨hwrites.trans (List.append_nil _), hreads⟩
    · rw [if_neg (Nat.not_lt.2 hn)] at hreads hwrites
      rw [flights, List.map_map] at hwrites
      exact ⟨hreads.trans (List.append_nil _), hwrites⟩
end

section
/-! PLATFORM_WINDOW_ACCESS at the end of platform SRAM (R116, R181, R309). -/

open Sys2Proof Sys2Proof.Machine

/-- Refutes O25: its last clause admits a write of no bytes at the offset where the planes begin. A privileged agent's empty write
there is counted as a write to the planes after reset, so a register changes, and the clause has the registers stay. -/
theorem not_platformWindowAccesses : ¬ Obligations.PlatformWindowAccesses := by
  intro h
  obtain ⟨-, h⟩ := h State.reset 0 0x10000000 0 [] false
  obtain ⟨-, -, hwrite⟩ := h nofun
  obtain ⟨u, hu, -, -, hsame⟩ := hwrite (by decide) (by decide)
  have hexec : exec (.platformWindowAccess false 0 0x10000000 0 (some [])) State.reset = .next (inc State.reset (ma 0 0x58)) := rfl
  obtain rfl : inc State.reset (ma 0 0x58) = u := Host.Outcome.next.inj (hexec.symm.trans hu)
  have hkept : rd (inc State.reset (ma 0 0x58)) (ma 0 0x58) = rd State.reset (ma 0 0x58) := rd_congr (hsame .regs (by decide)) _
  rw [inc_wr, rd_wr_same] at hkept
  exact absurd hkept (by decide)
end

section
/-! Residue mismatches of cubes and lanes (R143, R178, R588, R589): the mark, the first record since ARM_JOB, and the failed job. -/

namespace Sys2Proof.Machine

/-! ### What the failure of the job leaves of the A-dies' registers (R506) -/

/-- Of an A-die's registers the failure of the job changes TT_STATUS alone. -/
theorem regsIn_failJob (s : State) (status : Nat) : RegsIn abortKey s (failJob s status) := by
  have hset : RegsIn abortKey s (setJob s .failed status) := .of_regsBut (regsBut_setJob s .failed status) (by
    intro k hk
    rcases List.mem_cons.1 hk with rfl | hk
    · exact abortKey_of_off_dies (by decide)
    · exact abortKey_notice k hk)
  have hdies (t : State) : RegsIn abortKey t (ttFailed t) := by
    refine RegsIn.foldl (fun u d _ => ?_) t
    split
    · exact .refl _ u
    · exact .of_regsBut (regsBut_wrF u (tt d 0) 0 4 7) (by
        simp only [List.mem_singleton, forall_eq, abortKey, tt, key]
        omega)
  unfold failJob
  split
  · exact (hset.trans (hdies _)).trans (.of_regs (same_refreshAlerts _ .regs (by decide)))
  · exact .refl _ s

theorem failJob_of_not_live {s : State} (h : jobLive s = false) (status : Nat) : failJob s status = s := by
  unfold failJob
  simp [h]

theorem not_live_of_failed {s : State} (h : s.job.state = .failed) : jobLive s = false := by
  unfold jobLive
  rw [h]
  rfl

/-- An offset of the blocks of the main array and the clusters (R13). -/
abbrev UnitOff (off : Nat) : Prop := 0x1000000 ≤ off ∧ off < 0x3000000

theorem not_abortKey_unit {d off : Nat} (hd : d < 8) (h : UnitOff off) : ¬ abortKey (key d off) := by
  unfold abortKey key
  omega

/-! ### A mark and the first mismatch -/

/-- A unit is marked in the start-up history. -/
def marked (s : State) (k : Nat) : State := { s with marks := Store.set (fun _ => false) s.marks k true }

theorem same_marked (s : State) (k : Nat) : Same [.marks] s (marked s k) := same_marks s _

theorem marks_marked_same (s : State) (k : Nat) : Store.get (fun _ => false) (marked s k).marks k = true :=
  Store.get_set_same _ k true s.marks

theorem marks_marked_keeps {s : State} {j : Nat} (k : Nat) (h : Store.get (fun _ => false) s.marks j = true) :
    Store.get (fun _ => false) (marked s k).marks j = true := by
  unfold marked
  rw [Store.get_set]
  split
  · rfl
  · exact h

/-- The first mismatch that an engine's units find: it is recorded as `v` in the register at `a`, and bit 0 of the event register at
`b` is raised with these words (R588, R589). -/
def mismatchRecorded (s : State) (d e a b : Nat) (v : W64) (w0 w1 w2 w3 : State → W64) : State :=
  raise (wr (setEng s d e (fun x => { x with mismatched := true })) (key d a) v) d b 0 w0 w1 w2 w3

/-- A first mismatch has been found: the unit of mark `m` is marked, the record and its event stand, and the job has failed. -/
def MismatchFound (s u : State) (d e m k : Nat) (v : W64) (ev : Nat) : Prop :=
  Store.get (fun _ => false) u.marks m = true ∧ (eng u d e).mismatched = true ∧ rd u k = v ∧ rdB u ev 0 = true
    ∧ u.job.state = .failed ∧ u.job.linkKey = s.job.linkKey ∧ Same [.marks, .engines, .regs, .port, .job, .mgmt] s u

section
variable {s : State} {d e a b : Nat} {v : W64} {w0 w1 w2 w3 : State → W64} (hd : d < 8) (ha : UnitOff a) (hb : UnitOff b) (hab : a ≠ b)
include hd ha hb hab

theorem mismatchRecorded_shows : let u := mismatchRecorded s d e a b v w0 w1 w2 w3
    (eng u d e).mismatched = true ∧ rd u (key d a) = v ∧ rdB u (key d b) 0 = true ∧ RegsBut (key d a :: key d b :: noticeKeys) s u
      ∧ Same [.engines, .regs, .port] s u := by
  obtain ⟨-, hahi⟩ := ha
  obtain ⟨-, hbhi⟩ := hb
  have hne : key d a ≠ key d b := fun e => hab (Nat.add_left_cancel e)
  unfold mismatchRecorded
  generalize ht : setEng s d e (fun x => { x with mismatched := true }) = t
  have hmis : (eng t d e).mismatched = true := by rw [← ht, eng_setEng_same]
  have h1 : Same [.engines] s t := ht ▸ same_setEng s d e _
  have h2 := (same_wr t (key d a) v).trans (same_raise (wr t (key d a) v) d b 0 w0 w1 w2 w3)
  refine ⟨?_, ?_, rdB_raise_same _ _ _ _ _ _ _ _ (not_noticeReg (by omega) (by omega)) (by decide),
    ((regsBut_of_regs (h1 .regs (by decide))).trans (regsBut_wr t _ v)).trans (regsBut_raise _ d b 0 _ _ _ _), (h1.trans h2).mono (by simp)⟩
  · rw [h2.eng (by decide), hmis]
  · rw [rd_raise_ne _ _ _ _ _ _ _ _ (not_noticeReg (by omega) (by omega)) hne, rd_wr_same]

/-- The first mismatch while the job is live. -/
theorem mismatch_found {m : Nat} (hlive : jobLive s = true) :
    let u := failJob (mismatchRecorded (marked s m) d e a b v w0 w1 w2 w3) stFault
    MismatchFound s u d e m (key d a) v (key d b)
      ∧ ∀ off, UnitOff off → off ≠ a → off ≠ b → rd u (key d off) = rd s (key d off) := by
  have hmark := marks_marked_same s m
  have h1 := same_marked s m
  generalize marked s m = s1 at hmark h1 ⊢
  obtain ⟨hmis, hrec, hev, hreg, h2⟩ := mismatchRecorded_shows (s := s1) (e := e) (v := v) (w0 := w0) (w1 := w1) (w2 := w2) (w3 := w3)
    hd ha hb hab
  generalize mismatchRecorded s1 d e a b v w0 w1 w2 w3 = s2 at hmis hrec hev hreg h2 ⊢
  have hjob : s2.job = s.job := (h1.trans h2) .job (by decide)
  obtain ⟨hfailed, hkey, -, h3⟩ := failJob_shows (s := s2) (by rw [jobLive, hjob]; exact hlive) stFault
  have hkept := regsIn_failJob s2 stFault
  generalize failJob s2 stFault = u at hfailed hkey h3 hkept ⊢
  have hmarks : u.marks = s1.marks := (h2.trans h3) .marks (by decide)
  refine ⟨⟨by rw [hmarks, hmark], by rw [h3.eng (by decide), hmis], (hkept _ (not_abortKey_unit hd ha)).trans hrec,
    (hkept.rdB (not_abortKey_unit hd hb) 0).trans hev, hfailed, by rw [hkey, hjob], ((h1.trans h2).trans h3).mono (by simp)⟩, fun off ho hoa hob => ?_⟩
  have hnot : key d off ∉ key d a :: key d b :: noticeKeys := by
    have hlt := ho.2
    have hn := not_mem_noticeKeys (d := d) (off := off) (by omega) (by omega)
    have hka : key d off ≠ key d a := fun e => hoa (Nat.add_left_cancel e)
    have hkb : key d off ≠ key d b := fun e => hob (Nat.add_left_cancel e)
    exact List.not_mem_cons_of_ne_of_not_mem hka (List.not_mem_cons_of_ne_of_not_mem hkb hn)
  rw [hkept _ (not_abortKey_unit hd ho), hreg _ hnot, rd_congr (h1 .regs (by decide))]

end

/-! ### Cubes (R143, R588) -/

section
variable {s : State} {d row col : Nat} (issue : Nat) (hrow : row ≠ rdF s (ma d 0x10) 0 6) (hcol : col ≠ rdF s (ma d 0x10) 8 6)
include hrow hcol

theorem cubeMismatch_first (h : (eng s d 0).mismatched = false) : cubeMismatch s d row col issue
    = failJob (mismatchRecorded (marked s (cubeMark d row col)) d 0 (0x1000000 + 0x50) 0x1000060
      (BitVec.ofNat 64 (row + 2 ^ 8 * col + 2 ^ 16 * issue + 2 ^ 63)) (reg (ma d 0x50)) (reg (ma d 8)) (reg (ma d 0)) (reg (ma d 0x10)))
      stFault := by
  have hin : ¬ (row = rdF s (ma d 0x10) 0 6 ∨ col = rdF s (ma d 0x10) 8 6) := not_or.2 ⟨hrow, hcol⟩
  have hfirst : (eng (marked s (cubeMark d row col)) d 0).mismatched = false := h
  unfold cubeMismatch
  rw [if_neg hin]
  exact congrArg (failJob · stFault) (if_neg (by simp [← marked.eq_1, hfirst]))

theorem cubeMismatch_later (h : (eng s d 0).mismatched = true) (hjob : s.job.state = .failed) :
    cubeMismatch s d row col issue = marked s (cubeMark d row col) := by
  have hin : ¬ (row = rdF s (ma d 0x10) 0 6 ∨ col = rdF s (ma d 0x10) 8 6) := not_or.2 ⟨hrow, hcol⟩
  unfold cubeMismatch
  rw [if_neg hin]
  refine (congrArg (failJob · stFault) (if_pos h)).trans (failJob_of_not_live (not_live_of_failed ?_) stFault)
  exact hjob

end

/-- The residue checks of an MA_MMA act on the state that the plain order leaves. -/
theorem exec_maMma_of_plain {s v : State} {d : ADie} {issue : BitVec 24} {ops : BitVec 96}
    (hc : canIssue s d 0 (mkOrder 0x40 issue ops) = true) (hv : exec (.maMma d issue ops []) s = .next v)
    (bad : List (Fin 33 × Fin 33)) : exec (.maMma d issue ops bad) s
      = .next (bad.foldl (fun t x => cubeMismatch t d x.1 x.2 issue.toNat) v) := by
  have hplain : maIssue s d 0x40 issue ops = v := Host.Outcome.next.inj ((exec_maMma hc []).symm.trans hv)
  rw [exec_maMma hc, hplain]

section
variable {s : State} {d : ADie} {row col : Nat} {issue : Nat} (hlive : jobLive s = true) (hrow : row ≠ rdF s (ma d 0x10) 0 6)
  (hcol : col ≠ rdF s (ma d 0x10) 8 6) (hfirst : (eng s d 0).mismatched = false)
include hlive hrow hcol hfirst

/-- A first mismatch of the job, in a cube in service. -/
theorem cubeMismatch_found : let u := cubeMismatch s d row col issue
    MismatchFound s u d 0 (cubeMark d row col) (ma d 0x50) (BitVec.ofNat 64 (row + 2 ^ 8 * col + 2 ^ 16 * issue + 2 ^ 63)) (ma d 0x60)
      ∧ rd u (ma d 0x10) = rd s (ma d 0x10) := by
  rw [cubeMismatch_first issue hrow hcol hfirst]
  obtain ⟨hfound, hkept⟩ := mismatch_found (s := s) (e := 0) (a := 0x1000000 + 0x50) (b := 0x1000060) (m := cubeMark d row col)
    d.isLt (by decide) (by decide) (by decide) hlive
  exact ⟨hfound, hkept (0x1000000 + 0x10) (by decide) (by decide) (by decide)⟩

/-- A second mismatch of the job is marked, and the record stays. -/
theorem cubeMismatch_again {row2 col2 : Nat} (hrow2 : row2 ≠ rdF s (ma d 0x10) 0 6) (hcol2 : col2 ≠ rdF s (ma d 0x10) 8 6) :
    cubeMismatch (cubeMismatch s d row col issue) d row2 col2 issue = marked (cubeMismatch s d row col issue) (cubeMark d row2 col2) := by
  obtain ⟨⟨-, hagain, -, -, hfailed, -⟩, hkept⟩ := cubeMismatch_found (issue := issue) hlive hrow hcol hfirst
  exact cubeMismatch_later issue (by rwa [rdF, hkept]) (by rwa [rdF, hkept]) hagain hfailed

end

/-! ### Lanes (R178, R589) -/

theorem laneMismatch_first {s : State} {d c l : Nat} (issue : Nat) (hin : laneOut s d c l = false) (h : (eng s d (1 + c)).mismatched = false) :
    laneMismatch s d c l issue
      = failJob (mismatchRecorded (marked s (laneMark d c l)) d (1 + c) (0x2000000 + c * 0x100000 + 0x60) (0x2000068 + c * 0x100000)
        (BitVec.ofNat 64 (l + 2 ^ 16 * issue + 2 ^ 63)) (reg (vc d c 0x60)) (reg (vc d c 8)) (reg (vc d c 0x38)) (reg (vc d c 0))) stFault := by
  unfold laneMismatch
  rw [hin]
  exact congrArg (failJob · stFault) (if_neg (by rw [← Bool.not_eq_true] at h; exact h))

/-- A first mismatch of the job, in a lane in service. -/
theorem laneMismatch_found {s : State} {d : ADie} {c : Cluster} {l issue : Nat} (hlive : jobLive s = true) (hin : laneOut s d c l = false)
    (h : (eng s d (1 + c)).mismatched = false) : MismatchFound s (laneMismatch s d c l issue) d (1 + c) (laneMark d c l) (vc d c 0x60)
      (BitVec.ofNat 64 (l + 2 ^ 16 * issue + 2 ^ 63)) (vc d c 0x68) := by
  have hc := c.isLt
  have hev : key d (0x2000068 + c * 0x100000) = vc d c 0x68 := by
    unfold vc key
    omega
  rw [laneMismatch_first issue hin h, ← hev]
  exact (mismatch_found d.isLt (by unfold UnitOff; omega) (by unfold UnitOff; omega) (by omega) hlive).1

/-- Residue mismatches in lanes, in the order in which they are found. -/
def laneMismatches (s : State) (d c issue : Nat) (bad : List (Fin 1056)) : State :=
  bad.foldl (fun t (l : Fin 1056) => laneMismatch t d c l.val issue) s

theorem laneMismatches_eq (s : State) (d c issue : Nat) (bad : List (Fin 1056)) :
    List.foldl (fun t l => laneMismatch t d c l issue) s (do let l ← bad; pure l.val) = laneMismatches s d c issue bad := by
  have hval : (do let l ← bad; pure l.val) = bad.map Fin.val := (List.map_eq_flatMap ..).symm
  rw [hval, List.foldl_map]
  rfl

@[simp] theorem laneMismatches_one (s : State) (d c issue : Nat) (l : Fin 1056) :
    laneMismatches s d c issue [l] = laneMismatch s d c l issue := by
  rw [laneMismatches, List.foldl_cons, List.foldl_nil]

/-! The residue checks of a cluster's orders and set-mode operations act on the state that the plain one leaves. -/

section
variable {s v : State} {d : ADie} {c : Cluster} {issue : BitVec 24} {ops : BitVec 96}

theorem vcLaneIssue_eq {op : Nat} (hc : canIssue s d (1 + c) (mkOrder op issue ops) = true) (bad : List (Fin 1056)) :
    vcLaneIssue s d c op issue ops bad = laneMismatches (vcIssue s d c op issue ops) d c issue.toNat bad := by
  rw [vcLaneIssue, if_pos hc, ← laneMismatches_eq]

theorem gsIssue_eq {op : Nat} (hc : canIssue s d (1 + c) (mkOrder op issue ops) = true) (bad : List (Fin 1056)) :
    gsIssue s d c op issue ops bad = laneMismatches (winIssue s d c op issue ops) d c issue.toNat bad := by
  rw [gsIssue, if_pos hc, ← laneMismatches_eq]

theorem exec_vadd_of_plain (hc : canIssue s d (1 + c) (mkOrder 0x83 issue ops) = true) (hv : exec (.vadd d c issue ops []) s = .next v)
    (bad : List (Fin 1056)) : exec (.vadd d c issue ops bad) s = .next (laneMismatches v d c issue.toNat bad) := by
  have hexec (l : List (Fin 1056)) : exec (.vadd d c issue ops l) s = .next (vcLaneIssue s d c 0x83 issue ops l) := rfl
  rw [hexec, vcLaneIssue_eq hc] at hv ⊢
  obtain rfl : vcIssue s d c 0x83 issue ops = v := Host.Outcome.next.inj hv
  rfl

theorem exec_vgather_of_plain (hc : canIssue s d (1 + c) (mkOrder 0xB0 issue ops) = true)
    (hv : exec (.vgather d c issue ops []) s = .next v) (bad : List (Fin 1056)) :
    exec (.vgather d c issue ops bad) s = .next (laneMismatches v d c issue.toNat bad) := by
  have hexec (l : List (Fin 1056)) : exec (.vgather d c issue ops l) s = .next (gsIssue s d c 0xB0 issue ops l) := rfl
  rw [hexec, gsIssue_eq hc] at hv ⊢
  obtain rfl : winIssue s d c 0xB0 issue ops = v := Host.Outcome.next.inj hv
  rfl

theorem exec_setInstruction {slot : SlotIx} {i : SetIssue} (h : setIssue s d c slot = some i) (cycles : W64) (bad : List (Fin 1056)) :
    exec (.setInstruction d c slot cycles bad) s
      = .next (laneMismatches (setPlain s d c slot cycles) d c i.call.issue bad) := by
  show execSetInstruction d c slot cycles bad s = _
  rw [execSetInstruction, h, ← laneMismatches_eq]

theorem exec_setInstruction_of_plain {slot : SlotIx} {i : SetIssue} {cycles : W64} (h : setIssue s d c slot = some i)
    (hv : exec (.setInstruction d c slot cycles []) s = .next v) (bad : List (Fin 1056)) :
    exec (.setInstruction d c slot cycles bad) s = .next (laneMismatches v d c i.call.issue bad) := by
  rw [exec_setInstruction h] at hv ⊢
  obtain rfl : setPlain s d c slot cycles = v := Host.Outcome.next.inj hv
  rfl

end

end Sys2Proof.Machine

open Sys2Proof Sys2Proof.Machine

/-- Settles O31: a mismatch of an MA_MMA, of a second cube with it, and of a lane under an order, a gather and a set's operation. -/
theorem residueMismatchFailsTheJob : Obligations.ResidueMismatchFailsTheJob := by
  refine fun s v d c issue ops row col row2 col2 l slot cycles _ => ⟨fun hc hv hlive hrow hcol hfirst => ?cubes, fun hlive hin hfirst => ?lanes⟩
  case cubes =>
    obtain ⟨hfound, -⟩ := cubeMismatch_found (issue := issue.toNat) hlive hrow hcol hfirst
    refine ⟨⟨_, exec_maMma_of_plain hc hv [(row, col)], hfound⟩, fun hrow2 hcol2 => ⟨_, exec_maMma_of_plain hc hv [(row, col), (row2, col2)], ?_⟩⟩
    have hagain := cubeMismatch_again (issue := issue.toNat) hlive hrow hcol hfirst hrow2 hcol2
    obtain ⟨hmark, -, hrec, -, hfailed, -, hsame⟩ := hfound
    simp only [List.foldl_cons, List.foldl_nil, hagain]
    exact ⟨marks_marked_keeps _ hmark, marks_marked_same _ _, hrec, hfailed, (hsame.trans (same_marked _ _)).mono (by simp)⟩
  case lanes =>
    have hfound (i : Nat) := laneMismatch_found (l := l) (issue := i) hlive hin hfirst
    refine ⟨fun hc hv => ⟨_, ?_, hfound issue.toNat⟩, fun hc hv => ⟨_, ?_, hfound issue.toNat⟩, fun i hi hv => ⟨_, ?_, hfound i.call.issue⟩⟩
    · rw [exec_vadd_of_plain hc hv, laneMismatches_one]
    · rw [exec_vgather_of_plain hc hv, laneMismatches_one]
    · rw [exec_setInstruction_of_plain hi hv, laneMismatches_one]
end

section
/-! Rounding to nearest even (R148, R151): the nearest integer at the quantum of the result, and the encoding that stands for it. -/

namespace Sys2Proof.Machine

/-! ### The nearest integer, the even one on a tie -/

/-- No integer is nearer to `a` than `k`, and if another one is as near, `k` is even. -/
def NearestEven (k : Nat) (a : ℚ) : Prop :=
  ∀ j : ℤ, |(k : ℚ) - a| ≤ |(j : ℚ) - a| ∧ (|(k : ℚ) - a| = |(j : ℚ) - a| → (k : ℚ) ≠ j → k % 2 = 0)

variable {k : Nat} {a : ℚ}

/-- Two integers are at least 1 apart, so one within a half of `a` is a nearest one. -/
theorem nearestEven_of_abs_le_half (hle : |(k : ℚ) - a| ≤ 1 / 2) (htie : |(k : ℚ) - a| = 1 / 2 → k % 2 = 0) : NearestEven k a := by
  intro j
  by_cases hj : (k : ℤ) = j
  · subst hj
    exact ⟨le_of_eq (by simp), fun _ hne => absurd (by simp) hne⟩
  · have hone : (1 : ℚ) ≤ |(k : ℚ) - j| := by exact_mod_cast Int.one_le_abs (sub_ne_zero.2 hj)
    have htri : |(k : ℚ) - j| ≤ |(k : ℚ) - a| + |(j : ℚ) - a| := by
      rw [abs_sub_comm (j : ℚ)]
      exact abs_sub_le _ _ _
    exact ⟨by linarith, fun heq _ => htie (by linarith)⟩

/-- A nearest integer is as near as any number that is an integer or lies below an integer that `a` reaches. -/
theorem NearestEven.nearest (h : NearestEven k a) {t : ℚ} (ht : (∃ j : ℤ, t = j) ∨ ∃ j : ℤ, t < j ∧ (j : ℚ) ≤ a) :
    |(k : ℚ) - a| ≤ |t - a| ∧ (|(k : ℚ) - a| = |t - a| → (k : ℚ) ≠ t → k % 2 = 0) := by
  obtain ⟨j, rfl⟩ | ⟨j, hlt, hle⟩ := ht
  · exact h j
  · have hfar : |(k : ℚ) - a| < |t - a| := by
      calc |(k : ℚ) - a| ≤ |(j : ℚ) - a| := (h j).1
        _ = a - j := by rw [abs_sub_comm, abs_of_nonneg (by linarith)]
        _ < a - t := by linarith
        _ = |t - a| := by rw [abs_sub_comm, abs_of_nonneg (by linarith)]
    exact ⟨hfar.le, fun heq => absurd heq hfar.ne⟩

theorem NearestEven.le_of_le (h : NearestEven k a) {n : Nat} (ha : a ≤ n) : k ≤ n := by
  by_contra hk
  have hk' : (n : ℚ) < k := by exact_mod_cast not_le.1 hk
  have := (h n).1
  rw [abs_of_nonneg (by linarith), abs_of_nonneg (by push_cast; linarith)] at this
  push_cast at this
  linarith

theorem NearestEven.ge_of_ge (h : NearestEven k a) {n : Nat} (ha : (n : ℚ) ≤ a) : n ≤ k := by
  by_contra hk
  have hk' : (k : ℚ) < n := by exact_mod_cast not_le.1 hk
  have := (h n).1
  rw [abs_of_nonpos (by linarith), abs_of_nonpos (by push_cast; linarith)] at this
  push_cast at this
  linarith

/-! ### The rounded multiple of a power of two -/

variable {neg : Bool} {m : Nat} {e q : Int}

theorem roundUp_rne_iff (odd : Bool) (r d : Nat) : roundUp .rne neg odd r d = true ↔ d < 2 * r ∨ 2 * r = d ∧ odd = true := by
  simp [roundUp]

/-- Where nothing is cut off, the multiple is exact. -/
theorem quantize_exact (h : q ≤ e) (rm : Rm) :
    (quantize rm neg m e q).2 = false ∧ ((quantize rm neg m e q).1 : ℚ) = m * 2 ^ (e - q) := by
  obtain ⟨n, hn⟩ := Int.eq_ofNat_of_zero_le (sub_nonneg.2 h)
  simp [quantize, if_pos h, hn]

/-- Where bits are cut off, the number is the kept part and a fraction of the cut part over a whole. -/
theorem scaled_eq_div_add (h : e < q) :
    (m : ℚ) * 2 ^ (e - q) = (m / 2 ^ (q - e).toNat : Nat) + ((m % 2 ^ (q - e).toNat : Nat) : ℚ) / (2 ^ (q - e).toNat : Nat) := by
  obtain ⟨n, hn⟩ := Int.eq_ofNat_of_zero_le (sub_nonneg.2 h.le)
  have hneg : e - q = -(n : ℤ) := by omega
  have hm : (m : ℚ) = (2 ^ n : Nat) * (m / 2 ^ n : Nat) + (m % 2 ^ n : Nat) := by exact_mod_cast (Nat.div_add_mod m (2 ^ n)).symm
  rw [hn, Int.toNat_natCast, hneg, zpow_neg, zpow_natCast]
  nth_rw 1 [hm]
  push_cast
  field_simp

/-- A cut part of more than a half, or of a half after an odd digit, is nearer to the next integer. -/
theorem nearestEven_succ {c r d : Nat} (hr : r < d) (hup : d < 2 * r ∨ 2 * r = d ∧ c % 2 = 1) :
    NearestEven (c + 1) (c + r / d) ∧ ((c + 1 : Nat) : ℚ) ≠ c + r / d := by
  have hd : (0 : ℚ) < d := by exact_mod_cast Nat.zero_lt_of_lt hr
  have hlt : (r : ℚ) / d < 1 := by rw [div_lt_one hd]; exact_mod_cast hr
  have hhalf : (1 / 2 : ℚ) ≤ r / d := by
    rw [div_le_div_iff₀ two_pos hd]
    exact_mod_cast (by omega : 1 * d ≤ r * 2)
  have habs : |((c + 1 : Nat) : ℚ) - (c + r / d)| = 1 - r / d := by
    push_cast
    rw [abs_of_nonneg] <;> linarith
  refine ⟨nearestEven_of_abs_le_half (by linarith) fun htie => ?_, fun heq => ?_⟩
  · have heq : (r : ℚ) / d = 1 / 2 := by linarith
    rw [div_eq_div_iff hd.ne' two_ne_zero] at heq
    have : r * 2 = 1 * d := by exact_mod_cast heq
    omega
  · push_cast at heq
    linarith

/-- Any other cut part leaves the kept part the nearest integer. -/
theorem nearestEven_kept {c r d : Nat} (hd : 0 < d) (hdown : ¬ (d < 2 * r ∨ 2 * r = d ∧ c % 2 = 1)) : NearestEven c (c + r / d) := by
  have hdq : (0 : ℚ) < d := by exact_mod_cast hd
  have habs : |(c : ℚ) - (c + r / d)| = r / d := by rw [sub_add_cancel_left, abs_neg, abs_of_nonneg (by positivity)]
  refine nearestEven_of_abs_le_half ?_ fun htie => ?_
  · rw [habs, div_le_div_iff₀ hdq two_pos]
    exact_mod_cast (by omega : r * 2 ≤ 1 * d)
  · rw [habs, div_eq_div_iff hdq.ne' two_ne_zero] at htie
    have : r * 2 = 1 * d := by exact_mod_cast htie
    omega

/-- Rounding with ties to even gives the nearest multiple, and says whether it is exact. -/
theorem quantize_rne (neg : Bool) (m : Nat) (e q : Int) :
    NearestEven (quantize .rne neg m e q).1 (m * 2 ^ (e - q))
      ∧ ((quantize .rne neg m e q).2 = true ↔ ((quantize .rne neg m e q).1 : ℚ) ≠ m * 2 ^ (e - q)) := by
  by_cases h : q ≤ e
  · obtain ⟨hin, heq⟩ := quantize_exact (neg := neg) (m := m) h .rne
    exact ⟨nearestEven_of_abs_le_half (by simp [heq]) (by simp [heq]), by simp [hin, heq]⟩
  · rw [scaled_eq_div_add (not_le.1 h)]
    simp only [quantize, if_neg h]
    have hd : 0 < 2 ^ (q - e).toNat := Nat.two_pow_pos _
    generalize 2 ^ (q - e).toNat = d at hd
    have hr : m % d < d := Nat.mod_lt _ hd
    generalize m / d = c, m % d = r at hr
    split
    case isTrue hup =>
      rw [roundUp_rne_iff, decide_eq_true_iff] at hup
      obtain ⟨hnear, hne⟩ := nearestEven_succ hr hup
      exact ⟨hnear, iff_of_true (decide_eq_true (by omega)) hne⟩
    case isFalse hdown =>
      rw [roundUp_rne_iff, decide_eq_true_iff] at hdown
      exact ⟨nearestEven_kept hd hdown, by simp [hd.ne']⟩

/-! ### The quantum of a result (R148) -/

/-- The formats whose values have a sign, an exponent and a mantissa (R148). -/
abbrev Fmt.IsFloat (f : Fmt) : Prop := f ∈ [Fmt.fp4, Fmt.e4m3, Fmt.e5m2, Fmt.bf16, Fmt.fp16, Fmt.fp32, Fmt.fp64]

variable {f : Fmt}

theorem qmin_le_ulpOf (f : Fmt) (m : Nat) (e : Int) : f.qmin ≤ ulpOf f m e := by
  unfold Fmt.qmin ulpOf
  omega

theorem two_pow_bitLen_le (hm : 0 < m) : 2 ^ (bitLen m - 1) ≤ m ∧ m < 2 ^ bitLen m := by
  rw [bitLen, if_neg hm.ne']
  exact ⟨Nat.log2_self_le hm.ne', Nat.lt_log2_self⟩

theorem bitLen_pos (hm : 0 < m) : 0 < bitLen m := by
  rw [bitLen, if_neg hm.ne']
  omega

/-- In units of its quantum a number has at most one bit more than the mantissa. -/
theorem scaled_ulpOf_le (f : Fmt) (hm : 0 < m) (e : Int) : (m : ℚ) * 2 ^ (e - ulpOf f m e) ≤ (2 ^ (f.mb + 1) : Nat) := by
  have hlt : (m : ℚ) ≤ (2 : ℚ) ^ (bitLen m : ℤ) := by
    rw [zpow_natCast]
    exact_mod_cast (two_pow_bitLen_le hm).2.le
  calc (m : ℚ) * 2 ^ (e - ulpOf f m e) ≤ 2 ^ (bitLen m : ℤ) * 2 ^ (e - ulpOf f m e) := by gcongr
    _ = 2 ^ (bitLen m + (e - ulpOf f m e)) := (zpow_add₀ two_ne_zero _ _).symm
    _ ≤ 2 ^ ((f.mb + 1 : Nat) : ℤ) := zpow_le_zpow_right₀ one_le_two (by unfold ulpOf; push_cast; omega)
    _ = (2 ^ (f.mb + 1) : Nat) := by rw [zpow_natCast]; push_cast; rfl

/-- Above the subnormal numbers it has all the mantissa's bits and the leading one. -/
theorem le_scaled_ulpOf (hm : 0 < m) (h : f.qmin < ulpOf f m e) : ((2 ^ f.mb : Nat) : ℚ) ≤ m * 2 ^ (e - ulpOf f m e) := by
  have hpos := bitLen_pos hm
  have hle : (2 : ℚ) ^ (bitLen m - 1 : ℤ) ≤ m := by
    rw [show (bitLen m - 1 : ℤ) = ((bitLen m - 1 : Nat) : ℤ) by omega, zpow_natCast]
    exact_mod_cast (two_pow_bitLen_le hm).1
  calc ((2 ^ f.mb : Nat) : ℚ) = 2 ^ (f.mb : ℤ) := by rw [zpow_natCast]; push_cast; rfl
    _ ≤ 2 ^ ((bitLen m - 1 : ℤ) + (e - ulpOf f m e)) := zpow_le_zpow_right₀ one_le_two (by unfold Fmt.qmin ulpOf at *; omega)
    _ = 2 ^ (bitLen m - 1 : ℤ) * 2 ^ (e - ulpOf f m e) := zpow_add₀ two_ne_zero _ _
    _ ≤ m * 2 ^ (e - ulpOf f m e) := by gcongr

/-! ### The values of encodings (R148, R150) -/

theorem mb_pos (hf : f.IsFloat) : 0 < f.mb := by revert f; decide

theorem maxFin_lt_signBit (hf : f.IsFloat) : f.maxFin < 2 ^ f.signBit := by revert f; decide

theorem maxFin_lt_infBits (hf : f.IsFloat) : f ≠ .fp4 → f ≠ .e4m3 → f.maxFin < f.infBits := by revert f; decide

/-- A finite magnitude lies below the NaN of E4M3 and below the infinities and NaNs of the formats that have them. -/
theorem not_special_of_le_maxFin {mag : Nat} (hf : f.IsFloat) (h : mag ≤ f.maxFin) :
    ¬ (f = .e4m3 ∧ mag / 2 ^ f.mb = 2 ^ f.eb - 1 ∧ mag % 2 ^ f.mb = 7) ∧
      ¬ (f ≠ .fp4 ∧ f ≠ .e4m3 ∧ mag / 2 ^ f.mb = 2 ^ f.eb - 1) := by
  constructor
  · rintro ⟨rfl, hexp, hman⟩
    simp only [Fmt.mb, Fmt.eb, Fmt.maxFin] at *
    omega
  · rintro ⟨h4, h8, hexp⟩
    have hinf : f.infBits ≤ mag := by
      rw [Fmt.infBits, ← hexp]
      exact Nat.div_mul_le_self mag _
    exact absurd (maxFin_lt_infBits hf h4 h8) (not_lt.2 (hinf.trans h))

theorem withSign_mod (neg : Bool) {mag n : Nat} (hn : n ≤ f.signBit) : withSign f neg mag % 2 ^ n = mag % 2 ^ n := by
  unfold withSign
  split
  · rw [← Nat.add_sub_cancel' hn, Nat.pow_add, Nat.add_mul_mod_self_left]
  · rfl

section
variable {mag : Nat} (neg) (h : mag < 2 ^ f.signBit)
include h

theorem testBit_withSign : Nat.testBit (withSign f neg mag) f.signBit = neg := by
  cases neg
  · exact Nat.testBit_lt_two_pow h
  · simp [withSign, Nat.add_comm mag, Nat.testBit_two_pow_add_eq, Nat.testBit_lt_two_pow h]

theorem natField_withSign : natField (withSign f neg mag) f.mb f.eb = mag / 2 ^ f.mb := by
  have hlt : mag / 2 ^ f.mb < 2 ^ f.eb := Nat.div_lt_of_lt_mul (by rwa [← Nat.pow_add, Nat.add_comm])
  unfold natField withSign Fmt.signBit
  rw [Nat.shiftRight_eq_div_pow]
  split
  · rw [Nat.pow_add, Nat.add_mul_div_right _ _ (Nat.two_pow_pos _), Nat.add_mod_right, Nat.mod_eq_of_lt hlt]
  · exact Nat.mod_eq_of_lt hlt

end

/-- The encoding of a finite magnitude, as R148 reads it: subnormal where the exponent's field is 0. -/
theorem decodeF_withSign {mag : Nat} (hf : f.IsFloat) (neg : Bool) (h : mag ≤ f.maxFin) : decodeF f (withSign f neg mag) =
    if mag / 2 ^ f.mb = 0 then .fin neg (mag % 2 ^ f.mb) f.qmin
    else .fin neg (2 ^ f.mb + mag % 2 ^ f.mb) (f.qmin + (((mag / 2 ^ f.mb : Nat) : Int) - 1)) := by
  have hlt := h.trans_lt (maxFin_lt_signBit hf)
  obtain ⟨hnan, hinf⟩ := not_special_of_le_maxFin hf h
  unfold decodeF
  split
  case h_1 | h_2 | h_3 | h_4 => exact absurd hf (by decide)
  case h_5 =>
    simp only [testBit_withSign neg hlt, natField_withSign neg hlt, withSign_mod neg (Nat.le_add_left f.mb f.eb), if_neg hnan, if_neg hinf]

/-- Every finite value is a multiple of the format's least one, with at most one bit more than the mantissa. -/
theorem bounds_of_decodeF (hf : f.IsFloat) {w n m i} (h : decodeF f w = .fin n m i) : f.qmin ≤ i ∧ m < 2 ^ (f.mb + 1) := by
  have hlt : w % 2 ^ f.mb < 2 ^ f.mb := Nat.mod_lt _ (Nat.two_pow_pos _)
  have hsucc : 2 ^ (f.mb + 1) = 2 ^ f.mb * 2 := Nat.pow_succ ..
  unfold decodeF at h
  split at h
  case h_1 | h_2 | h_3 | h_4 => exact absurd hf (by decide)
  case h_5 =>
    simp only at h
    split_ifs at h
    all_goals
      cases h
      omega

/-- The encoding of a multiple of a quantum: the exponent's field counts the quanta, and a carry out of the mantissa runs into it. -/
theorem decodeF_quanta (hf : f.IsFloat) (neg : Bool) (hq : f.qmin ≤ q) (hk : k ≤ 2 ^ (f.mb + 1))
    (hnormal : f.qmin < q → 2 ^ f.mb ≤ k) (hfin : (q - f.qmin).toNat * 2 ^ f.mb + k ≤ f.maxFin) :
    ∃ k' i, decodeF f (withSign f neg ((q - f.qmin).toNat * 2 ^ f.mb + k)) = .fin neg k' i ∧ (k' : ℚ) * 2 ^ i = k * 2 ^ q := by
  obtain ⟨j, hj⟩ := Int.eq_ofNat_of_zero_le (sub_nonneg.2 hq)
  obtain rfl : q = f.qmin + j := by omega
  have hpos : 0 < 2 ^ f.mb := Nat.two_pow_pos _
  rw [Nat.pow_succ] at hk
  rw [decodeF_withSign hf neg hfin, hj, Int.toNat_natCast, Nat.mul_comm j, Nat.mul_add_div hpos, Nat.mul_add_mod]
  obtain hsub | hge := lt_or_ge k (2 ^ f.mb)
  case inl =>
    obtain rfl : j = 0 := by omega
    rw [Nat.div_eq_of_lt hsub, Nat.mod_eq_of_lt hsub, if_pos rfl]
    exact ⟨_, _, rfl, by simp⟩
  case inr =>
    obtain hlt | rfl := hk.lt_or_eq
    · obtain ⟨c, rfl⟩ := Nat.exists_eq_add_of_le hge
      have hc : c < 2 ^ f.mb := by omega
      rw [Nat.add_div_left _ hpos, Nat.div_eq_of_lt hc, Nat.add_mod_left, Nat.mod_eq_of_lt hc, if_neg (by omega)]
      exact ⟨_, _, rfl, by congr 2; push_cast; ring⟩
    · rw [Nat.mul_div_cancel_left _ hpos, Nat.mul_mod_right, if_neg (by omega)]
      refine ⟨_, _, rfl, ?_⟩
      rw [show f.qmin + (((j + 2 : Nat) : ℤ) - 1) = f.qmin + j + 1 by push_cast; ring, zpow_add_one₀ two_ne_zero]
      push_cast
      ring

/-! ### A result without overflow -/

/-- INEXACT of a result's flags, whatever UNDERFLOW is. -/
theorem getLsbD_inexact : ∀ inexact under : Bool,
    ((if inexact then flInexact else 0) ||| (if under then flUnderflow else 0)).getLsbD 3 = inexact := by decide

/-- Where no OVERFLOW is raised, the result is the rounded multiple of its quantum, and INEXACT is the multiple's. -/
theorem roundFin_of_no_overflow {rm : Rm} (h : (roundFin f rm neg m e).2.getLsbD 1 = false) :
    (ulpOf f m e - f.qmin).toNat * 2 ^ f.mb + (quantize rm neg m e (ulpOf f m e)).1 ≤ f.maxFin
      ∧ (roundFin f rm neg m e).1 = withSign f neg ((ulpOf f m e - f.qmin).toNat * 2 ^ f.mb + (quantize rm neg m e (ulpOf f m e)).1)
      ∧ (roundFin f rm neg m e).2.getLsbD 3 = (quantize rm neg m e (ulpOf f m e)).2 := by
  simp only [roundFin, ← ulpOf.eq_1] at h ⊢
  split at h
  case isTrue hover => exact absurd h (by decide : (flOverflow ||| flInexact).getLsbD 1 ≠ false)
  case isFalse hfin =>
    rw [if_neg hfin]
    exact ⟨not_lt.1 hfin, rfl, getLsbD_inexact _ _⟩

theorem withSign_mod_two (hf : f.IsFloat) (neg : Bool) (j k : Nat) : withSign f neg (j * 2 ^ f.mb + k) % 2 = k % 2 := by
  have hmb := mb_pos hf
  have h1 : 1 ≤ f.signBit := by unfold Fmt.signBit; omega
  have heven : 2 ∣ j * 2 ^ f.mb := Dvd.dvd.mul_left (dvd_pow_self 2 hmb.ne') j
  have := withSign_mod (f := f) (mag := j * 2 ^ f.mb + k) neg h1
  omega

/-! ### Distances in units of the quantum -/

/-- The factor of a sign. -/
def signRat (neg : Bool) : ℚ := if neg then -1 else 1

theorem toRat_fin (neg : Bool) (m : Nat) (e : Int) : FVal.toRat (.fin neg m e) = signRat neg * m * 2 ^ e := rfl

theorem abs_signRat (neg : Bool) : |signRat neg| = 1 := by cases neg <;> simp [signRat]

theorem signRat_mul_self (neg : Bool) : signRat neg * signRat neg = 1 := by cases neg <;> simp [signRat]

/-- A number in units of 2^q, its sign taken against `neg`. -/
def quanta (neg : Bool) (q : Int) (x : ℚ) : ℚ := signRat neg * x / 2 ^ q

theorem quanta_fin (neg : Bool) (m : Nat) (e q : Int) : quanta neg q (FVal.toRat (.fin neg m e)) = m * 2 ^ (e - q) := by
  rw [quanta, toRat_fin, ← mul_assoc, ← mul_assoc, signRat_mul_self, one_mul, zpow_sub₀ two_ne_zero, mul_div_assoc]

theorem quanta_inj {x y : ℚ} : quanta neg q x = quanta neg q y ↔ x = y := by
  have hs : signRat neg ≠ 0 := by cases neg <;> simp [signRat]
  unfold quanta
  rw [div_left_inj' (by positivity), mul_right_inj' hs]

theorem abs_sub_eq_quanta (neg : Bool) (q : Int) (x y : ℚ) : |x - y| = |quanta neg q x - quanta neg q y| * 2 ^ q := by
  unfold quanta
  rw [← sub_div, ← mul_sub, abs_div, abs_mul, abs_signRat, one_mul, abs_of_pos (by positivity : (0 : ℚ) < 2 ^ q),
    div_mul_cancel₀ _ (by positivity)]

/-- A finite value of the format is a whole number of quanta, or too small for a normal number of this quantum. -/
theorem quanta_decodeF (hf : f.IsFloat) {w n m i} (h : decodeF f w = .fin n m i) (neg : Bool) (q : Int) :
    (∃ j : ℤ, quanta neg q (FVal.toRat (.fin n m i)) = j)
      ∨ f.qmin < q ∧ quanta neg q (FVal.toRat (.fin n m i)) < (2 ^ f.mb : Nat) := by
  obtain ⟨hi, hm⟩ := bounds_of_decodeF hf h
  have hval : quanta neg q (FVal.toRat (.fin n m i)) = signRat neg * signRat n * (m * 2 ^ (i - q)) := by
    rw [quanta, toRat_fin, zpow_sub₀ two_ne_zero]
    ring
  by_cases hq : q ≤ i
  · obtain ⟨c, hc⟩ := Int.eq_ofNat_of_zero_le (sub_nonneg.2 hq)
    refine .inl ⟨(if neg then -1 else 1) * (if n then -1 else 1) * (m * 2 ^ c), ?_⟩
    rw [hval, hc, zpow_natCast]
    push_cast
    rfl
  · refine .inr ⟨by omega, ?_⟩
    calc quanta neg q (FVal.toRat (.fin n m i)) ≤ m * 2 ^ (i - q) := by
          rw [hval]
          refine (le_abs_self _).trans_eq ?_
          rw [abs_mul, abs_mul, abs_signRat, abs_signRat, one_mul, one_mul, abs_of_nonneg (by positivity)]
      _ ≤ m * 2 ^ (-1 : ℤ) := by gcongr <;> [exact one_le_two; omega]
      _ < (2 ^ f.mb : Nat) := by
          have : (m : ℚ) < 2 ^ f.mb * 2 := by rw [← pow_succ]; exact_mod_cast hm
          push_cast
          rw [zpow_neg_one]
          linarith

end Sys2Proof.Machine

open Sys2Proof Sys2Proof.Machine

/-- Settles O5: in units of the result's quantum the rounded multiple is the nearest integer, and every other value of the format is an
integer there or lies below the least normal number of that quantum, which the exact value reaches. -/
theorem roundingIsToNearestEven : Obligations.RoundingIsToNearestEven := by
  intro f neg m e x r hf hm hover
  obtain ⟨hfin, hr, hinexact⟩ := roundFin_of_no_overflow hover
  obtain ⟨hnear, hinex⟩ := quantize_rne neg m e (ulpOf f m e)
  have hx : quanta neg (ulpOf f m e) x = m * 2 ^ (e - ulpOf f m e) := quanta_fin ..
  obtain ⟨k', i, hdec, hval⟩ := decodeF_quanta hf neg (qmin_le_ulpOf f m e) (hnear.le_of_le (scaled_ulpOf_le f hm e))
    (fun h => hnear.ge_of_ge (le_scaled_ulpOf hm h)) hfin
  have hy : quanta neg (ulpOf f m e) (FVal.toRat (.fin neg k' i)) = (quantize .rne neg m e (ulpOf f m e)).1 := by
    rw [quanta_fin, zpow_sub₀ two_ne_zero, ← mul_div_assoc, hval, mul_div_cancel_right₀ _ (by positivity)]
  rw [← hr] at hdec
  refine ⟨neg, k', i, hdec, ?inexact, fun w n' k'' i' hw => ?nearest⟩
  case inexact => rw [hinexact, hinex, ← hx, ← hy, ne_eq, quanta_inj]
  case nearest =>
    have hgrid := (quanta_decodeF hf hw neg (ulpOf f m e)).imp_right fun ⟨hq, hlt⟩ =>
      (⟨(2 ^ f.mb : Nat), hlt, le_scaled_ulpOf hm hq⟩ : ∃ j : ℤ, _ < (j : ℚ) ∧ (j : ℚ) ≤ m * 2 ^ (e - ulpOf f m e))
    obtain ⟨hle, htie⟩ := hnear.nearest hgrid
    rw [abs_sub_eq_quanta neg (ulpOf f m e) _ x, abs_sub_eq_quanta neg (ulpOf f m e) (FVal.toRat (.fin n' k'' i')) x, hx, hy]
    refine ⟨by gcongr, fun heq hne => ?_⟩
    rw [hr, withSign_mod_two hf]
    exact htie (mul_right_cancel₀ (by positivity) heq) (by rwa [← hy, ne_eq, quanta_inj])
end

section
/-! Any engine at its ISSUE (R68, R69): the reads and writes that an order leaves in flight. -/

namespace Sys2Proof.Machine

/-- Engine `e` has issued at cycle `c`: it alone has changed, and has these reads and writes more in flight. -/
def LeavesInFlight (s u : State) (d e c : Nat) (reads : List ReadOp) (writes : List WriteOp) : Prop :=
  (IssuedAt u d e c ∧ OtherEngines s u d e ∧ Same [.engines] s u) ∧ (eng u d e).reads = (eng s d e).reads ++ reads
    ∧ (eng u d e).writes = (eng s d e).writes ++ writes

section
variable {s : State} {d e c : Nat} (he : e < 15) (hcycle : (eng s d e).cycle ≤ c) {spans : List Span}
include he hcycle

/-- An order without reads, and with nothing due at its ISSUE. -/
theorem leavesInFlight_launch_writes {writes : List (Nat × Put)} (hq : Quiet s d e c) (hw : ∀ w ∈ writes, c < w.1) :
    LeavesInFlight s (launch (atIssue s d e c) d e c ([], writes, spans)) d e c []
      (writes.map (fun w => { time := w.1, issue := c, put := w.2 })) := by
  have hissued := issuedAt_atIssue hq hcycle
  have heng := eng_atIssue hq
  rw [launch_of_later (quiet_atIssue hq) (by simp) hw]
  refine ⟨⟨?_, (otherEngines_atIssue hq he).trans (otherEngines_setEng _ d _ he),
    ((same_atIssue hq).trans (same_setEng _ d e _)).mono (by simp)⟩, ?_, ?_⟩
  · unfold IssuedAt at hissued ⊢
    rwa [eng_setEng_same, launched_cycle, launched_next]
  · rw [eng_setEng_same, launched_reads, heng]
    rfl
  · rw [eng_setEng_same, launched_writes, heng]
    rfl

/-- An order that reads its first part at its ISSUE, on an engine whose parts do not depend on the engines. -/
theorem leavesInFlight_launch_read {r : ReadOp} (hq : Quiet s d e c) (hr : r.time = c)
    (hpart : ∀ t f, enginePart (setEng t d e f) d e r = enginePart t d e r) :
    LeavesInFlight s (launch (atIssue s d e c) d e c ([r], [], spans)) d e c (enginePart s d e r).2.toList
      (flights r (enginePart s d e r).1) := by
  subst hr
  have hissued := issuedAt_atIssue hq hcycle
  have heng := eng_atIssue hq
  have hparts : enginePart (atIssue s d e r.time) d e r = enginePart s d e r := by
    rw [atIssue, reach_of_quiet hq, hpart, hpart]
  obtain ⟨hu, hother, hsame⟩ := launch_of_read (later := []) (spans := spans) he (quiet_atIssue hq) (by simp) hpart
  rw [hparts, heng] at hu
  refine ⟨⟨?_, (otherEngines_atIssue hq he).trans hother, ((same_atIssue hq).trans hsame).mono (by simp)⟩, ?_, ?_⟩
  · unfold IssuedAt at hissued ⊢
    rwa [hu, launchedRead_cycle, launchedRead_next, ← heng]
  · rw [hu, launchedRead_reads, List.append_nil]
    rfl
  · rw [hu, launchedRead_writes]
    rfl

end

end Sys2Proof.Machine
end

section
/-! Vector orders at their ISSUE (R188 to R191): what they start with, and the part that they read there. -/

namespace Sys2Proof.Machine

theorem vcCfg_congr {s t : State} {d c : Nat} (h : (eng t d (1 + c)).cfg = (eng s d (1 + c)).cfg) : vcCfg t d c = vcCfg s d c :=
  List.map_congr_left fun ix _ => by rw [engCfg, h, ← engCfg]

theorem vcStart_congr {s t : State} {d c : Nat} (h : (eng t d (1 + c)).cfg = (eng s d (1 + c)).cfg) (o : Order) :
    vcStart t d c o = vcStart s d c o := by
  unfold vcStart
  rw [vcCfg_congr h]

/-- The parts of vector orders read registers, planes and memory, and no engine. -/
theorem vcPart_setEng (s : State) (d c a b : Nat) (f : Engine → Engine) (r : ReadOp) :
    vcPart (setEng s a b f) d c r = vcPart s d c r := rfl

theorem enginePart_cluster {c : Nat} (hc : c < 8) (s : State) (d : Nat) (r : ReadOp) : enginePart s d (1 + c) r = vcPart s d c r := by
  rw [enginePart, if_neg (by omega), if_pos (by omega), Nat.add_sub_cancel_left]

/-- A read of part `part` of a vector order, due at cycle `t`, with the configuration at its ISSUE. -/
def vcRead (s : State) (d c : Nat) (o : Order) (issue t part : Nat) (got : List Nat) : ReadOp :=
  { time := t, issue := issue, order := o, cfg := vcCfg s d c, part := part, got := got }

section
variable (s : State) (d c : Nat) (o : Order) (issue t part : Nat) (got : List Nat)

@[simp] theorem vcRead_time : (vcRead s d c o issue t part got).time = t := rfl
@[simp] theorem vcRead_order : (vcRead s d c o issue t part got).order = o := rfl
@[simp] theorem vcRead_cfg : (vcRead s d c o issue t part got).cfg = vcCfg s d c := rfl
@[simp] theorem vcRead_part : (vcRead s d c o issue t part got).part = part := rfl
@[simp] theorem vcRead_got : (vcRead s d c o issue t part got).got = got := rfl

end

/-! ### What each order starts with -/

/-- The opcodes of orders that read at their ISSUE: all but VCFG and VBASE (R189). -/
abbrev ReadsAtIssue (op : Nat) : Prop := op < 256 ∧ op ≠ 0x80 ∧ op ≠ 0x81

section
variable (s : State) (d c : Nat) (issue : BitVec 24) (ops : BitVec 96)

/-- VCFG (R189). -/
theorem vcStart_vcfg : ∃ spans, vcStart s d c (mkOrder 0x80 issue ops) = ([], [(issue.toNat + 1, .cfg 0 (fld ops 0 16)),
    (issue.toNat + 1, .cfg 1 (fld ops 16 3)), (issue.toNat + 1, .cfg 2 (fld ops 20 20)), (issue.toNat + 1, .cfg 3 (fld ops 40 20))],
    spans) := by
  simp [vcStart, fld_mkOrder_issue, fld_mkOrder_op, fld_mkOrder_operand]

/-- VBASE (R189). -/
theorem vcStart_vbase : ∃ spans, vcStart s d c (mkOrder 0x81 issue ops)
    = ([], [(issue.toNat + 1, .cfg (4 + 2 * fld ops 0 3) (fld ops 3 1)), (issue.toNat + 1, .cfg (5 + 2 * fld ops 0 3) (fld ops 32 64))],
      spans) := by
  simp [vcStart, fld_mkOrder_issue, fld_mkOrder_op, fld_mkOrder_operand]

/-- Every other vector order reads its first part at its ISSUE (R188). -/
theorem vcStart_read {op : Nat} (hop : ReadsAtIssue op) : ∃ spans, vcStart s d c (mkOrder op issue ops)
    = ([vcRead s d c (mkOrder op issue ops) issue.toNat issue.toNat 0 []], [], spans) := by
  obtain ⟨hlt, hcfg, hbase⟩ := hop
  simp [vcStart, fld_mkOrder_issue, fld_mkOrder_op hlt, hcfg, hbase, vcRead]

end

/-! ### Issuing -/

section
variable {s : State} {d : ADie} {c : Cluster} {op : Nat} {issue : BitVec 24} {ops : BitVec 96} (hq : Quiet s d (1 + c) issue.toNat)
  (hc : canIssue s d (1 + c) (mkOrder op issue ops) = true)
include hq hc

theorem vcIssue_eq : vcIssue s d c op issue ops
    = launch (atIssue s d (1 + c) issue.toNat) d (1 + c) issue.toNat (vcStart s d c (mkOrder op issue ops)) := by
  have hcfg : (eng (atIssue s d (1 + c) issue.toNat) d (1 + c)).cfg = (eng s d (1 + c)).cfg := by rw [eng_atIssue hq]; rfl
  unfold vcIssue
  rw [if_pos hc]
  exact congrArg (launch _ d (1 + c) _) (vcStart_congr hcfg _)

/-- A configuration order puts its fields in flight. -/
theorem vcIssue_writes {writes : List (Nat × Put)} (hp : ∃ spans, vcStart s d c (mkOrder op issue ops) = ([], writes, spans))
    (hw : ∀ w ∈ writes, issue.toNat < w.1) : LeavesInFlight s (vcIssue s d c op issue ops) d (1 + c) issue.toNat []
      (writes.map (fun w => { time := w.1, issue := issue.toNat, put := w.2 })) := by
  obtain ⟨spans, hp⟩ := hp
  rw [vcIssue_eq hq hc, hp]
  exact leavesInFlight_launch_writes (by omega) (cycle_le_of_canIssue hc) hq hw

/-- An order that reads has read its first part: what that part writes is in flight, and the part that follows waits. -/
theorem vcLaneIssue_read (hop : ReadsAtIssue op) {later : Option ReadOp} {writes : List (Nat × Put)}
    (hpart : vcPart s d c (vcRead s d c (mkOrder op issue ops) issue.toNat issue.toNat 0 []) = (writes, later)) :
    LeavesInFlight s (vcLaneIssue s d c op issue ops []) d (1 + c) issue.toNat later.toList
      (writes.map (fun w => { time := w.1, issue := issue.toNat, put := w.2 })) := by
  obtain ⟨spans, hp⟩ := vcStart_read s d c issue ops hop
  have hissued := leavesInFlight_launch_read (r := vcRead s d c (mkOrder op issue ops) issue.toNat issue.toNat 0 []) (spans := spans)
    (by omega) (cycle_le_of_canIssue hc) hq rfl fun t f => by rw [enginePart_cluster c.isLt, enginePart_cluster c.isLt, vcPart_setEng]
  rw [enginePart_cluster c.isLt, hpart, ← hp, ← vcIssue_eq hq hc] at hissued
  rw [vcLaneIssue_eq hc]
  exact hissued

end

/-! ### The first part of each order -/

theorem ceilDiv_pos {a n : Nat} (hn : 0 < n) (ha : 0 < a) : 0 < ceilDiv a n := by
  rw [ceilDiv, Nat.div_pos_iff]
  omega

theorem one_lt_ceilDiv {a n : Nat} (hn : 0 < n) : 1 < ceilDiv a n ↔ n < a := by
  rw [ceilDiv, Nat.lt_iff_add_one_le, Nat.le_div_iff_mul_le hn]
  omega

theorem gemvP_pos (o : Order) : 0 < gemvP o := by
  unfold gemvP
  split <;> decide

section
variable {s : State} {d c : Nat} {o : Order} {t : Nat}

theorem vN_mkOrder {op : Nat} (hop : op < 256) (issue : BitVec 24) (ops : BitVec 96) :
    vN (mkOrder op issue ops) = fld ops 0 14 + 1 :=
  congrArg (· + 1) (fld_mkOrder_operand hop issue ops (by decide) (by decide))

/-- The opcodes of line orders, VACC and VRED, whose parts are not the chunks of the general layout (R185, R195 to R209). -/
def groupOps : List Nat := [0xA1, 0xAC, 0xAD, 0xA2, 0x98]

/-- Chunk 0 of an order of the general layout (R188, R190). -/
theorem vcPart_first_chunk (h : fld o 24 8 ∉ groupOps) : vcPart s d c (vcRead s d c o t t 0 []) =
    ((vChunk s d c o (vcCfg s d c) 0).map (fun p => (t + vLat o, p)),
      if 1024 < vN o then some (vcRead s d c o t (t + vQ o) 1 []) else none) := by
  simp only [groupOps, List.mem_cons, List.not_mem_nil, or_false, not_or] at h
  simp [vcPart, h, vM, one_lt_ceilDiv, vcRead]

/-- Part 0 of VRED (R195). -/
theorem vcPart_first_vred (h : fld o 24 8 = 0x98) : vcPart s d c (vcRead s d c o t t 0 []) =
    let f := vFmt (vCode o)
    let els := (upTo (min 1024 (vN o))).map (readEl s d c f false (vA o))
    if 1024 < vN o then ([], some (vcRead s d c o t (t + vQ o) 1 els))
    else ((writeEl d c f false (vDst o) 0 (reduce (vMod o) f els).1 ++ [Put.vcFlags d c (vFgrp o) (reduce (vMod o) f els).2]).map
      (fun p => (t + vQ o + 24, p)), none) := by
  simp [vcPart, h, vM, one_lt_ceilDiv, vcRead]

/-- Part 0 of VACC (R203, R204). -/
theorem vcPart_first_vacc (h : fld o 24 8 = 0xA2) : vcPart s d c (vcRead s d c o t t 0 []) =
    ((vaccChunk s d c o 0).map (fun p => (t + (if opKind (vDst o) = 1 then 6 else 4), p)),
      if 256 < vN o then some (vcRead s d c o t (t + 1) 1 []) else none) := by
  rw [vcPart]
  simp only [vcRead_order, vcRead_time, vcRead_part, h, Nat.reduceEqDiff, reduceIte, or_self, Nat.zero_add,
    one_lt_ceilDiv (n := 256) (by decide)]
  rfl

/-- Part 0 of VGEMV (R198 to R200). -/
theorem vcPart_first_vgemv (h : fld o 24 8 = 0xA1) : vcPart s d c (vcRead s d c o t t 0 []) =
    let old := if lAcc o = 1 then (upTo (lLines o)).map (readEl s d c (gemvD o) false (lDst o)) else []
    let els := old ++ (upTo (min (gemvP o) (lK o))).flatMap (gemvTerm s d c o (vcCfg s d c))
    if gemvP o < lK o then ([], some (vcRead s d c o t (t + 1) 1 els))
    else ((gemvPuts d c o (vcCfg s d c) els).map
      (fun p => (t + 1 + if opKind (lDst o) = 0 then 12 else 13 + ceilDiv (lLines o * (gemvD o).bits) 32768, p)), none) := by
  have hcycles : 1 < gemvT o ↔ gemvP o < lK o := one_lt_ceilDiv (gemvP_pos o)
  rw [vcPart]
  simp only [vcRead_order, vcRead_time, vcRead_part, vcRead_got, vcRead_cfg, h, reduceIte, true_and, Nat.zero_mul, Nat.zero_add,
    Nat.sub_zero, List.nil_append, List.map_id', hcycles]
  by_cases hlt : gemvP o < lK o
  · rw [if_pos hlt, if_pos hlt]
    rfl
  · have hpos : 0 < gemvT o := ceilDiv_pos (gemvP_pos o) (Nat.succ_pos _)
    have hone : gemvT o = 1 := by omega
    rw [if_neg hlt, if_neg hlt, hone]
    rfl

/-- Part 0 of VSLEXP (R208). -/
theorem vcPart_first_vslexp (h : fld o 24 8 = 0xAC) : vcPart s d c (vcRead s d c o t t 0 []) =
    if 1 < lK o then ([], some (vcRead s d c o t (t + 2) 1 (sliceSrc s d c o 0)))
    else ((slexpPuts d c o (sliceSrc s d c o 0)).map (fun p => (t + 2 * lK o + 12, p)), none) := by
  simp [vcPart, h, vcRead]

/-- Part 0 of VSLICE (R209), which has read the exponents too. -/
theorem vcPart_first_vslice (h : fld o 24 8 = 0xAD) : vcPart s d c (vcRead s d c o t t 0 []) =
    let exps := (upTo (lLines o)).map (readEl s d c .int32 false (lAux o % 64))
    if 1 < lK o then ([], some (vcRead s d c o t (t + 2) 1 (exps ++ sliceSrc s d c o 0)))
    else ((slicePuts d c o exps (sliceSrc s d c o 0)).map (fun p => (t + 2 * lK o + 14, p)), none) := by
  have hlen : ((upTo (lLines o)).map (readEl s d c .int32 false (lAux o % 64))).length = lLines o := by simp [upTo]
  simp [vcPart, h, vcRead, List.take_left' hlen, List.drop_left' hlen]

end

/-! ### What is in flight once the first part has been read -/

section
variable {s : State} {d : ADie} {c : Cluster} {op : Nat} {issue : BitVec 24} {ops : BitVec 96} (hq : Quiet s d (1 + c) issue.toNat)
  (hc : canIssue s d (1 + c) (mkOrder op issue ops) = true)
include hq hc

/-- An order whose parts are gathered: while more follow, the next one waits with what has been read; else the results are in
flight for their write cycle. -/
theorem vcLaneIssue_gathers (hop : ReadsAtIssue op) {more : Prop} [Decidable more] {due write : Nat}
    {els : List Nat} {puts : List Put} (hpart : vcPart s d c (vcRead s d c (mkOrder op issue ops) issue.toNat issue.toNat 0 []) =
      if more then ([], some (vcRead s d c (mkOrder op issue ops) issue.toNat due 1 els)) else (puts.map (fun p => (write, p)), none)) :
    let u := vcLaneIssue s d c op issue ops []
    (IssuedAt u d (1 + c) issue.toNat ∧ OtherEngines s u d (1 + c) ∧ Same [.engines] s u)
      ∧ (¬ more → (eng u d (1 + c)).writes = (eng s d (1 + c)).writes
          ++ puts.map (fun p => { time := write, issue := issue.toNat, put := p }))
      ∧ (more → (eng u d (1 + c)).writes = (eng s d (1 + c)).writes
          ∧ (eng u d (1 + c)).reads = (eng s d (1 + c)).reads ++ [vcRead s d c (mkOrder op issue ops) issue.toNat due 1 els]) := by
  by_cases hmore : more
  · rw [if_pos hmore] at hpart
    obtain ⟨hissued, hreads, hwrites⟩ := vcLaneIssue_read hq hc hop hpart
    exact ⟨hissued, absurd hmore, fun _ => ⟨hwrites.trans (List.append_nil _), hreads⟩⟩
  · rw [if_neg hmore] at hpart
    obtain ⟨hissued, -, hwrites⟩ := vcLaneIssue_read hq hc hop hpart
    rw [List.map_map] at hwrites
    exact ⟨hissued, fun _ => hwrites, fun h => absurd h hmore⟩

/-- An order whose parts each have their own results: those of the first are in flight, and the next part waits if one follows. -/
theorem vcLaneIssue_chunks (hop : ReadsAtIssue op) {more : Prop} [Decidable more] {due write : Nat}
    {puts : List Put} (hpart : vcPart s d c (vcRead s d c (mkOrder op issue ops) issue.toNat issue.toNat 0 []) =
      (puts.map (fun p => (write, p)), if more then some (vcRead s d c (mkOrder op issue ops) issue.toNat due 1 []) else none)) :
    let u := vcLaneIssue s d c op issue ops []
    (IssuedAt u d (1 + c) issue.toNat ∧ OtherEngines s u d (1 + c) ∧ Same [.engines] s u)
      ∧ (eng u d (1 + c)).writes = (eng s d (1 + c)).writes ++ puts.map (fun p => { time := write, issue := issue.toNat, put := p })
      ∧ (¬ more → (eng u d (1 + c)).reads = (eng s d (1 + c)).reads)
      ∧ (more → (eng u d (1 + c)).reads
          = (eng s d (1 + c)).reads ++ [vcRead s d c (mkOrder op issue ops) issue.toNat due 1 []]) := by
  obtain ⟨hissued, hreads, hwrites⟩ := vcLaneIssue_read hq hc hop hpart
  rw [List.map_map] at hwrites
  refine ⟨hissued, hwrites, fun hmore => ?_, fun hmore => ?_⟩
  · rw [if_neg hmore] at hreads
    exact hreads.trans (List.append_nil _)
  · rw [if_pos hmore] at hreads
    exact hreads

end

end Sys2Proof.Machine

open Sys2Proof Sys2Proof.Machine

/-- Settles O22: each of the 24 orders reads its first chunk at ISSUE. -/
theorem vectorLaneOrders : Obligations.VectorLaneOrders := by
  intro s d c issue ops t hq a ha hc
  obtain ⟨hexec, hop, hgeneral⟩ :
      exec a.1 s = .next (vcLaneIssue s d c a.2 issue ops []) ∧ ReadsAtIssue a.2 ∧ a.2 ∉ groupOps := by
    fin_cases ha <;> refine ⟨rfl, ?_⟩ <;> dsimp only <;> decide
  obtain ⟨hissued, hwrites, hone, hmore⟩ := vcLaneIssue_chunks hq hc hop
    (vcPart_first_chunk (by rwa [fld_mkOrder_op hop.1 issue ops]))
  obtain ⟨hat, hother, hsame⟩ := hissued
  rw [vN_mkOrder hop.1, Nat.lt_succ_iff] at hone hmore
  exact ⟨_, hexec, hat, hother, hsame, hwrites, fun h => hone (Nat.not_le.2 h), hmore⟩

/-- Settles O23: the configuration orders read nothing, and each of the others reads its first part at ISSUE. -/
theorem vectorGroupOrders : Obligations.VectorGroupOrders := by
  intro s d c issue ops t e cfg base puts next may hq
  refine ⟨fun hc => ⟨_, rfl, ?vcfg⟩, fun hc => ⟨_, rfl, ?vbase⟩, fun hc => ⟨_, rfl, ?vred⟩, fun hc => ⟨_, rfl, ?vacc⟩,
    fun hc => ⟨_, rfl, ?vgemv⟩, fun hc => ⟨_, rfl, ?vslexp⟩, fun hc => ⟨_, rfl, ?vslice⟩⟩
  case vcfg =>
    obtain ⟨hbase, -, hwrites⟩ := vcIssue_writes hq hc (vcStart_vcfg s d c issue ops) (by simp)
    exact ⟨hbase, hwrites⟩
  case vbase =>
    obtain ⟨hbase, -, hwrites⟩ := vcIssue_writes hq hc (vcStart_vbase s d c issue ops) (by simp)
    exact ⟨hbase, hwrites⟩
  case vred =>
    obtain ⟨hbase, hone, hmore⟩ := vcLaneIssue_gathers hq hc (by decide)
      (vcPart_first_vred (fld_mkOrder_op (by decide) issue ops))
    exact ⟨hbase, fun h => hone (Nat.not_lt.2 h), hmore⟩
  case vacc =>
    obtain ⟨hbase, hwrites, -, hmore⟩ := vcLaneIssue_chunks hq hc (by decide)
      (vcPart_first_vacc (fld_mkOrder_op (by decide) issue ops))
    exact ⟨hbase, hwrites, hmore⟩
  case vgemv =>
    obtain ⟨hbase, hone, hmore⟩ := vcLaneIssue_gathers hq hc (by decide)
      (vcPart_first_vgemv (fld_mkOrder_op (by decide) issue ops))
    exact ⟨hbase, fun h => hone (Nat.not_lt.2 h), hmore⟩
  case vslexp =>
    obtain ⟨hbase, hone, hmore⟩ := vcLaneIssue_gathers hq hc (by decide)
      (vcPart_first_vslexp (fld_mkOrder_op (by decide) issue ops))
    refine ⟨hbase, fun hk => ?_, hmore⟩
    have hwrites := hone (by rw [hk]; decide)
    rwa [hk] at hwrites
  case vslice =>
    obtain ⟨hbase, hone, hmore⟩ := vcLaneIssue_gathers hq hc (by decide)
      (vcPart_first_vslice (fld_mkOrder_op (by decide) issue ops))
    refine ⟨hbase, fun hk => ?_, hmore⟩
    have hwrites := hone (by rw [hk]; decide)
    rwa [hk] at hwrites
end

section
/-! A range operation passes over an entry of the stream cache without a valid sector (R220), and the statement of O24 has its dirty
sectors cleaned. -/

namespace Sys2Proof.Machine

/-- An entry with no valid sector and a dirty one. -/
def strayDirty : SCEntry := { SCEntry.none 0 with dirty := 1 }

/-- A clean of the byte at 0, which a VSCOP of cluster 0 of die 0 made. -/
def cleanFirstByte : RangeOp := { cl := 0, op := 1, base := 0, len := 1, order := true }

/-- The clean waits, and entry 0 of the cluster's stream cache has a dirty sector that is not valid. -/
def cleanOverStray : State := { State.reset with scEntries := [(0, strayDirty)], scRange := [cleanFirstByte] }

theorem cleanOverStray_stays_dirty :
    Ends (exec (.rangeDone 0 0) cleanOverStray) (fun u => bitOf (scGet u 0 0).dirty 0) = true := by
  decide +kernel

end Sys2Proof.Machine

open Sys2Proof Sys2Proof.Machine

/-- Refutes O24: its clause of RANGE_DONE has a clean leave no dirty sector in its range, whatever the entry. In `cleanOverStray` the
sector is dirty but not valid, so the operation passes over its entry; the statement does not ask that a dirty sector be valid. -/
theorem not_gathersAndStreamCaches : ¬ Obligations.GathersAndStreamCaches := by
  intro h
  obtain ⟨-, -, -, -, -, -, hrange⟩ := h.2 cleanOverStray 0 0 0
  obtain ⟨u, ⟨-, -, -, -, hvisited, -⟩, hdirty⟩ := (hrange cleanFirstByte (by decide)).of_ends cleanOverStray_stays_dirty
  have hclean : bitOf (scGet u 0 0).dirty 0 = false :=
    (hvisited 0 0 (by decide) (by decide) (by decide) (by decide)).1 rfl
  rw [hclean] at hdirty
  exact absurd hdirty (by decide)
end

section
/-! A call whose update sequencer already stands at the cycle of its issue (R68, R228): the statement of O26 has the sequencer held in
the cycle before, and leaves out that SM_CALL may also find it at the cycle itself. -/

namespace Sys2Proof.Machine

/-- The order SM_CALL with ISSUE 6. -/
def callOrder : Order := mkOrder 0xEF 6 0

/-- The update sequencer of die 2 stands at cycle 6, where its next order, SM_CALL, issues; the die runs a segment of 50 cycles. -/
def sequencerAtIssue : State :=
  { State.reset with
    regs := [(tt 2 0, 4)]
    engines := [(engKey 2 14, { Engine.idle 0 with cycle := 6 })]
    dies := [(2, { DieTT.none 0 with stations := [{ depart := 1000, segLen := 50, dieMask := 4, pkgMask := 0 }]
                                     orders := [(14, [callOrder])], next := 1 })] }

theorem sequencerAtIssue_ready : canIssue sequencerAtIssue 2 14 callOrder = true
    ∧ (eng sequencerAtIssue 2 14).reads = [] ∧ (eng sequencerAtIssue 2 14).writes = [] := by
  decide +kernel

theorem sequencerAtIssue_stays :
    Ends (exec (.smCall 2 6 0) sequencerAtIssue) (fun u => decide ((eng u 2 14).cycle = 6)) = true := by
  decide +kernel

end Sys2Proof.Machine

open Sys2Proof Sys2Proof.Machine

/-- Refutes O26: its clause of SM_CALL has the sequencer at the cycle before the issue. `sequencerAtIssue` may issue SM_CALL at cycle 6
and stands at cycle 6 already, which no hold takes back. -/
theorem not_setModeCalls : ¬ Obligations.SetModeCalls := by
  intro h
  obtain ⟨hissue, -⟩ := h.1 sequencerAtIssue 2 0
  obtain ⟨hcan, hreads, hwrites⟩ := sequencerAtIssue_ready
  have hquiet : Quiet sequencerAtIssue 2 14 6 := by simp [Quiet, hreads, hwrites]
  obtain ⟨u, ⟨-, hbefore, -⟩, hcycle⟩ := (hissue 6 0 hcan hquiet).of_ends sequencerAtIssue_stays
  rw [decide_eq_true_eq] at hcycle
  exact absurd (hcycle.symm.trans hbefore) (by decide)
end

section
/-! Two sets of one thread, whose states the statements of O28 and O30 do not exclude (R237, R242, R243, R255). -/

namespace Sys2Proof.Machine

/-- An open call of cluster 3 of die 2 whose figures have one set each. -/
def soloCall : Call :=
  { die := 2, cluster := 3, issue := 3, desc := 0, win := 9, endSig := 0, endEn := false, opened := true, ready := true
    flushed := false, expired := false, ended := false, killed := false, entry := BitVec.ofNat 64 localBase, grid := 1, fsets := 1
    fgrp := 0, grace := 0, arg0 := 0, arg1 := 0, stack := 0, stackBytes := 0, seats := [], figDone := 0, fflags := 0
    lastOps := [], heldSlots := [] }

/-- A live thread at the call's entry with these x registers. -/
def soloThread (x : Store W64) : Thread := { Thread.none 0 with live := true, pc := BitVec.ofNat 64 localBase, x := x }

/-- Key of the thread: the first one of slot 0. -/
def soloKey : Nat := thKey 19 0 0

/-- The thread alone is about to issue the word `w`, in a segment that runs. -/
def soloSet (w : W32) (x : Store W64) : State :=
  { wrBytes State.reset (winBase 2 3) (leBytes 4 w.toNat) with
    regs := [(tt 2 0, 4)], calls := [soloCall], threads := [(soloKey, soloThread x)] }

/-- What it issues. -/
def soloIssue (w : W32) : SetIssue := { call := soloCall, keys := [soloKey], instr := some w }

/-! ### A thread that lists x0 -/

/-- SM.ACCRD of the low half of a long sum, with rd and rs1 x0. -/
def accrdZero : W32 := 0x0020200B

/-- Plane 0 holds long sums, and the thread's x0 is listed with the value 1. -/
def listedZero : State :=
  { soloSet accrdZero [(0, 1)] with regs := [(planeInfo 2 0, 3), (tt 2 0, 4)] }

theorem listedZero_issues : setIssue listedZero 2 3 0 = some (soloIssue accrdZero) ∧ setRow accrdZero = .accrd
    ∧ fld accrdZero 20 2 = 2 ∧ planeMode listedZero 2 0 = 3 ∧ ((thread listedZero soloKey).rx (rvRs1 accrdZero)).toNat = 16384 * 0 + 1 := by
  decide +kernel

theorem listedZero_reads_one :
    Ends (exec (.smAccrd 2 3 0) listedZero) (fun u => decide ((thread u soloKey).rx (rvRd accrdZero) = 1)) = true := by
  decide +kernel

/-! ### A kill of a thread that waits for an old value -/

/-- SM.SIG.SET of the signal in x5. -/
def setSignalWord : W32 := 0x0002C00B

/-- The thread's earlier addition to signal 7, whose old value goes to x9. -/
def askedAdd : SigOp := { sig := 7, add := true, value := 1, order := none, asker := 3, askId := 32 * soloKey + 9, setMode := true }

/-- That addition is on its way, and x5 names a signal that no package has. -/
def askedBefore : State := { soloSet setSignalWord [(5, 16384)] with sigOps := [askedAdd] }

theorem askedBefore_issues : setIssue askedBefore 2 3 0 = some (soloIssue setSignalWord) ∧ setRow setSignalWord = .sig 0
    ∧ 16384 ≤ ((thread askedBefore soloKey).rx (rvRs1 setSignalWord)).toNat := by
  decide +kernel

theorem askedBefore_forgotten :
    Ends (exec (.smSigSet 2 3 0) askedBefore) (fun u => decide (u.sigOps = [{ askedAdd with asker := 0 }])) = true := by
  decide +kernel

end Sys2Proof.Machine

open Sys2Proof Sys2Proof.Machine

/-- Refutes O28: its clause of SM.ACCRD has x0 read 0 after form 2. In `listedZero` the thread lists x0 with the value 1, which nothing
excludes; the write to x0 is discarded and x0 reads 1. -/
theorem not_setModeFigures : ¬ Obligations.SetModeFigures := by
  intro h
  obtain ⟨hissue, hrow, hform, hmode, haddr⟩ := listedZero_issues
  obtain ⟨-, -, haccrd⟩ := (h listedZero 2 3 0 (soloIssue accrdZero) accrdZero).1 hissue rfl
  have hbelow : ∀ k ∈ (soloIssue accrdZero).keys, ((thread listedZero k).rx (rvRs1 accrdZero)).toNat < 65536 := by
    intro k hk
    obtain rfl : k = soloKey := by simpa [soloIssue] using hk
    rw [haddr]
    decide
  obtain ⟨u, ⟨-, hread, -⟩, hone⟩ := (haccrd hrow hbelow).of_ends listedZero_reads_one
  obtain ⟨hlow, -⟩ := hread soloKey (by simp [soloIssue]) 0 1 haddr (by decide)
  have hzero : (thread u soloKey).rx (rvRd accrdZero) = 0 := (hlow hform hmode).trans (if_pos (by decide))
  rw [hzero] at hone
  exact absurd hone (by decide)

/-- Refutes O30: its clause of a number that no signal has leaves the operations on their way as they were. In `askedBefore` the thread
waits for the value before an earlier operation of its own, and the kill takes its name off that operation. -/
theorem not_setModeSignals : ¬ Obligations.SetModeSignals := by
  intro h
  obtain ⟨hissue, hrow, hnumber⟩ := askedBefore_issues
  obtain ⟨hsend, -⟩ := h askedBefore 2 3 0 (soloIssue setSignalWord) setSignalWord soloKey hissue rfl rfl
  obtain ⟨-, hkill⟩ := hsend (.smSigSet 2 3 0, 0) (by simp) hrow
  obtain ⟨u, ⟨-, -, hkept⟩, hforgotten⟩ := (hkill hnumber).of_ends askedBefore_forgotten
  rw [hkept] at hforgotten
  exact absurd hforgotten (by decide)
end

section
/-! Threads and the sets that issue them (R236, R239): what retiring an instruction changes, what a set issues, and the registers of a
cluster's set mode. -/

namespace Sys2Proof.Machine

/-! ### Threads -/

theorem thread_congr {s t : State} (h : t.threads = s.threads) (k : Nat) : thread t k = thread s k := by unfold thread; rw [h]

theorem Same.thread {ps : List Part} {s u : State} (h : Same ps s u) (hp : Part.threads ∉ ps) (k : Nat) : thread u k = thread s k :=
  thread_congr (h .threads hp) k

@[simp] theorem thread_countInstr (s : State) (d c k : Nat) : thread (countInstr s d c) k = thread s k := rfl

theorem thread_setThread_same (s : State) (k : Nat) (f : Thread → Thread) : thread (setThread s k f) k = f (thread s k) :=
  Store.get_set_same _ _ _ _

theorem thread_setThread_ne (s : State) {k j : Nat} (f : Thread → Thread) (h : j ≠ k) : thread (setThread s k f) j = thread s j :=
  Store.get_set_ne _ h _ _

@[simp] theorem thread_retire_same (s : State) (k : Nat) (h : Thread) : thread (retire s k h) k = retired h :=
  thread_setThread_same _ _ _

theorem thread_retire_ne (s : State) {k j : Nat} (h : Thread) (hj : j ≠ k) : thread (retire s k h) j = thread s j :=
  thread_setThread_ne _ _ hj

theorem same_retire (s : State) (k : Nat) (h : Thread) : Same [.threads] s (retire s k h) := same_setThread _ _ _

/-- The threads `ks` retire one after the other, thread `k` with the registers `g k`. -/
def retireAll (s : State) (g : Nat → Thread) (ks : List Nat) : State := ks.foldl (fun s k => retire s k (g k)) s

theorem same_retireAll (s : State) (g : Nat → Thread) (ks : List Nat) : Same [.threads] s (retireAll s g ks) :=
  Same.foldl _ (fun _ _ => same_retire _ _ _) _ _

theorem thread_retireAll_of_not_mem {ks : List Nat} {k : Nat} (hk : k ∉ ks) (s : State) (g : Nat → Thread) :
    thread (retireAll s g ks) k = thread s k := by
  induction ks generalizing s with
  | nil => rfl
  | cons j ks ih =>
    obtain ⟨hj, hks⟩ := not_or.1 (mt List.mem_cons.2 hk)
    exact (ih hks (retire s j (g j))).trans (thread_retire_ne s _ hj)

theorem thread_retireAll_of_mem {ks : List Nat} {k : Nat} (hnd : ks.Nodup) (hk : k ∈ ks) (s : State) (g : Nat → Thread) :
    thread (retireAll s g ks) k = retired (g k) := by
  induction ks generalizing s with
  | nil => exact absurd hk List.not_mem_nil
  | cons j ks ih =>
    obtain ⟨hj, hks⟩ := List.nodup_cons.1 hnd
    rcases List.mem_cons.1 hk with rfl | hk
    · exact (thread_retireAll_of_not_mem hj (retire s k (g k)) g).trans (thread_retire_same s k _)
    · exact ih hks hk (retire s j (g j))

/-- Threads that change nothing but themselves, each by its own registers and by what none of them changes, retire one after the
other. -/
theorem foldl_eq_retireAll {s : State} {f : State → Nat → State} {g : Nat → Thread} {ks : List Nat} (hnd : ks.Nodup)
    (hf : ∀ t, Same [.threads] s t → ∀ k ∈ ks, thread t k = thread s k → f t k = retire t k (g k)) :
    ks.foldl f s = retireAll s g ks := by
  suffices h : ∀ t, Same [.threads] s t → (∀ k ∈ ks, thread t k = thread s k) → ks.foldl f t = retireAll t g ks from
    h s (Same.refl _ s) (fun _ _ => rfl)
  induction ks with
  | nil => exact fun _ _ _ => rfl
  | cons k ks ih =>
    obtain ⟨hk, hks⟩ := List.nodup_cons.1 hnd
    intro t ht hthreads
    rw [List.foldl_cons, hf t ht k List.mem_cons_self (hthreads k List.mem_cons_self)]
    refine ih hks (fun t ht j hj => hf t ht j (List.mem_cons_of_mem k hj)) _ ((ht.trans (same_retire t k _)).mono (by simp)) ?_
    intro j hj
    rw [thread_retire_ne t _ (ne_of_mem_of_not_mem hj hk)]
    exact hthreads j (List.mem_cons_of_mem k hj)

/-! ### Registers of set mode (R258) -/

theorem sm_inj {d c a b : Nat} : sm d c a = sm d c b ↔ a = b := by
  unfold sm vc key
  omega

theorem vc_ne_sm {d c a b : Nat} (h : a < 0x1000) : vc d c a ≠ sm d c b := by
  unfold sm vc key
  omega

theorem sm_not_mem_noticeKeys (d : ADie) (c : Cluster) {off : Nat} (h : off < 2 ^ 20) : sm d c off ∉ noticeKeys :=
  not_mem_noticeKeys (by omega) (by omega)

theorem sm_ne_count {d : ADie} {c off : Nat} (h : off < 2 ^ 20) (hc : c < 8) : mtc 0 ≠ sm d c off := by
  have hd := d.isLt
  unfold mtc sm vc key
  omega

theorem rd_countInstr (s : State) (d c : Nat) : rd (countInstr s d c) (sm d c 0x30) = satInc (rd s (sm d c 0x30)) := rd_wr_same _ _ _

theorem same_countInstr (s : State) (d c : Nat) : Same [.regs] s (countInstr s d c) := same_inc _ _

theorem regsBut_countInstr (s : State) (d c : Nat) : RegsBut [sm d c 0x30] s (countInstr s d c) := regsBut_wr _ _ _

/-- The sectors that an access of a set touches are counted (SM_SECTORS). -/
theorem rd_instr_incBy (s : State) (d c n : Nat) : rd (incBy (countInstr s d c) (sm d c 0x38) n) (sm d c 0x30) = satInc (rd s (sm d c 0x30)) := by
  rw [incBy_wr, rd_wr_ne _ (by simp [sm_inj]), rd_countInstr]

/-! ### What a set issues (R239) -/

theorem minOf_isSome {l : List Nat} (h : l ≠ []) : ∃ x, minOf l = some x := by
  cases l with
  | nil => exact absurd rfl h
  | cons a l =>
    rw [minOf]
    split <;> exact ⟨_, rfl⟩

/-- Some of the threads stand at the least pc of them. -/
theorem exists_at_minPc {s : State} {ks : List Nat} (h : ks ≠ []) : ∃ k ∈ ks, (thread s k).pc.toNat = minPc s ks := by
  obtain ⟨x, hx⟩ := minOf_isSome (l := ks.map (fun k => (thread s k).pc.toNat)) (by simpa using h)
  obtain ⟨k, hk, hpc⟩ := List.mem_map.1 (minOf_mem hx)
  exact ⟨k, hk, by simp [minPc, hx, hpc]⟩

theorem nodup_slotKeys (d c slot : Nat) : (slotKeys d c slot).Nodup :=
  List.nodup_range.map (fun _ _ h => by unfold thKey at h; omega)

section
variable {s : State} {d c slot : Nat} {i : SetIssue} (hi : setIssue s d c slot = some i)
include hi

/-- A set that issues has an open call, and its threads at the lowest pc. -/
theorem setIssue_parts : openCall s d c = some i.call ∧ eligible s d c slot ≠ []
    ∧ i.keys = (eligible s d c slot).filter (fun x => decide ((thread s x).pc.toNat = minPc s (eligible s d c slot))) := by
  unfold setIssue at hi
  split at hi
  · cases hi
  next k hk =>
    extract_lets es pc keys instr waits at hi
    split at hi
    · cases hi
    next hruns =>
      split at hi
      · cases hi
      · cases hi
        refine ⟨hk, fun he => hruns ?_, rfl⟩
        simp [es, he]

theorem nodup_keys_of_setIssue : i.keys.Nodup := by
  obtain ⟨-, -, hkeys⟩ := setIssue_parts hi
  rw [hkeys]
  exact (((nodup_slotKeys d c slot).filter _).filter _).filter _

theorem keys_ne_nil_of_setIssue : i.keys ≠ [] := by
  obtain ⟨-, hsome, hkeys⟩ := setIssue_parts hi
  obtain ⟨k, hk, hpc⟩ := exists_at_minPc (s := s) hsome
  have hmem : k ∈ i.keys := by
    rw [hkeys]
    exact List.mem_filter.2 ⟨hk, decide_eq_true hpc⟩
  exact List.ne_nil_of_mem hmem

variable {w : W32} (hw : i.instr = some w)
include hw

theorem onRow_of_issue {row : SetRow} (hrow : setRow w = row) (act : SetIssue → W32 → State → State) :
    onRow s d c slot row act = act i w (countInstr s d c) := by
  simp only [onRow, hi, hw, hrow, if_true]

end

end Sys2Proof.Machine
end

section
/-! The local window as a set's accesses reach it (R238, R245, R246). -/

namespace Sys2Proof.Machine

/-! ### The window -/

section
variable {s : State} {d c a n o : Nat}

theorem localOff_eq_some (h : localOff s d c a n = some o) : localBase ≤ a ∧ o = a - localBase := by
  unfold localOff at h
  split at h
  next hin =>
    obtain ⟨hbase, -⟩ := hin
    exact ⟨hbase, (Option.some.inj h).symm⟩
  · cases h

/-- The window is what VC_SC_CFG makes it (R181). -/
theorem localOff_congr {t : State} (h : rd t (vc d c 0x18) = rd s (vc d c 0x18)) (a n : Nat) : localOff t d c a n = localOff s d c a n := by
  unfold localOff inWindow memEntries rdF
  rw [h]

theorem localOff_countInstr (s : State) (d c a n : Nat) : localOff (countInstr s d c) d c a n = localOff s d c a n :=
  localOff_congr (regsBut_countInstr s d c _ (by simp [vc_ne_sm])) a n

theorem accessParts_local (h : localBase ≤ a) (n : Nat) : accessParts a n = [(a, n)] := by
  rw [accessParts, if_neg (by omega)]

/-- An access inside the window does not stop its thread. -/
theorem accessStop_local (h : localOff s d c a n = some o) (write : Bool) : accessStop s d c a n write = none := by
  obtain ⟨hbase, -⟩ := localOff_eq_some h
  rw [accessStop, accessParts_local hbase]
  simp [partStop, hbase, h]

theorem threadLoad_local (h : localOff s d c a n = some o) (slot : Nat) :
    threadLoad s d c slot a n = (rdNat s (winBase d c + o) n, s) := by
  obtain ⟨hbase, -⟩ := localOff_eq_some h
  simp [threadLoad, accessParts_local hbase, h, rdNat]

theorem threadStore_local (h : localOff s d c a n = some o) (slot v : Nat) :
    threadStore s d c slot a n v = wrBytes s (winBase d c + o) (leBytes n v) := by
  obtain ⟨hbase, -⟩ := localOff_eq_some h
  have hslice : slice (leBytes n v) 0 n = leBytes n v := by
    have hlen := length_leBytes n v
    simp [slice, hlen, List.take_of_length_le hlen.le]
  simp [threadStore, accessParts_local hbase, h, hslice]

end

/-- Accesses that no thread stops at. -/
theorem firstStop_eq_none {ks : List Nat} {stop : Nat → Option Stop} (h : ∀ k ∈ ks, stop k = none) :
    firstStop (ks.map (fun k => (k, stop k))) = none := by
  have hnil : (ks.map (fun k => (k, stop k))).filterMap (fun x => x.2.map (fun p => (x.1, p))) = [] := by
    rw [List.filterMap_eq_nil_iff]
    intro x hx
    obtain ⟨k, hk, rfl⟩ := List.mem_map.1 hx
    simp [h k hk]
  simp [firstStop, hnil]

/-! ### Numbers in memory -/

theorem rdNat_congr {s t : State} (h : t.mem = s.mem) (a n : Nat) : rdNat t a n = rdNat s a n := by
  unfold rdNat rdBytes rdByte
  rw [h]

theorem rdNat_wrBytes (s : State) (a n v : Nat) : rdNat (wrBytes s a (leBytes n v)) a n = v % 256 ^ n := by
  have h := rdBytes_wrBytes s a (leBytes n v)
  rw [length_leBytes] at h
  rw [rdNat, h, leNat_leBytes]

theorem same_mem_poisoned_resv (s : State) (x : Store Byte) (y : Store Bool) (z : List (Nat × Nat)) :
    Same [.mem, .poisoned, .resv] s { s with mem := x, poisoned := y, resv := z } :=
  ((same_mem s x).trans (same_poisoned { s with mem := x } y)).trans (same_resv { s with mem := x, poisoned := y } z)

theorem same_wrBytes (s : State) (a : Nat) (l : List Byte) : Same [.mem, .poisoned, .resv] s (wrBytes s a l) :=
  same_mem_poisoned_resv s _ _ _

theorem rdByte_congr {s t : State} (h : t.mem = s.mem) (b : Nat) : rdByte t b = rdByte s b := by
  unfold rdByte
  rw [h]

end Sys2Proof.Machine
end

section
/-! The kill of a call by one of its threads (R255). -/

namespace Sys2Proof.Machine

/-- The fault is recorded (R255, R259): SM_FAULT with its cause, thread, set and figure, the pc, and the address. -/
def killRecorded (s : State) (d c cause fig set thr : Nat) (pc addr : W64) : State :=
  wr (wr (wr { s with freeIx := s.freeIx + 3 } (sm d c 0x10)
    (BitVec.ofNat 64 (cause + 2 ^ 4 * thr + 2 ^ 9 * set + 2 ^ 16 * (fig % 2 ^ 24) + 2 ^ 63))) (sm d c 0x18) pc) (sm d c 0x20) addr

/-- A call that has been killed: it only ends. -/
def killedCall (k : Call) : Call := { k with killed := true, ready := true, heldSlots := [] }

/-- The threads have stopped, and the open call is killed. -/
def callStopped (s : State) (d c : Nat) : State := updCall (stopThreads s d c) d c killedCall

theorem smKill_eq (s : State) (d c cause fig set thr : Nat) (pc addr : W64) :
    smKill s d c cause (some (fig, set, thr)) (some pc) (some addr)
      = smEvent (smRefresh (wrB (callStopped (killRecorded s d c cause fig set thr pc addr) d c) (sm d c 0) 1 true) d c) d c 0 := rfl

/-! ### The open call -/

theorem openCall_congr {s t : State} (h : t.calls = s.calls) (d c : Nat) : openCall t d c = openCall s d c := by unfold openCall; rw [h]

/-- A change of the open call that leaves it the open call of its cluster. -/
theorem openCall_updCall (s : State) (d c : Nat) (f : Call → Call)
    (hf : ∀ k, (f k).die = k.die ∧ (f k).cluster = k.cluster ∧ (f k).opened = k.opened ∧ (f k).ended = k.ended) :
    openCall (updCall s d c f) d c = (openCall s d c).map f := by
  unfold openCall updCall
  rw [List.find?_map]
  have hsame : (fun k : Call => decide (k.die = d) && decide (k.cluster = c) && k.opened && !k.ended)
      ∘ (fun k => if decide (k.die = d) && decide (k.cluster = c) && k.opened && !k.ended then f k else k)
      = fun k => decide (k.die = d) && decide (k.cluster = c) && k.opened && !k.ended := by
    funext k
    obtain ⟨hd, hc, ho, he⟩ := hf k
    simp only [Function.comp]
    split <;> simp [*]
  rw [hsame]
  cases hk : s.calls.find? (fun k => decide (k.die = d) && decide (k.cluster = c) && k.opened && !k.ended) with
  | none => rfl
  | some k => simp only [Option.map_some, List.find?_some hk, if_true]

theorem same_updCall (s : State) (d c : Nat) (f : Call → Call) : Same [.calls] s (updCall s d c f) := same_calls _ _

/-! ### Its threads -/

theorem same_threads_resv (s : State) (x : Store Thread) (y : List (Nat × Nat)) : Same [.threads, .resv] s { s with threads := x, resv := y } :=
  (same_threads s x).trans (same_resv { s with threads := x } y)

theorem same_stopThreads (s : State) (d c : Nat) : Same [.sigOps, .calls, .threads, .resv] s (stopThreads s d c) := by
  unfold stopThreads
  extract_lets lo ks fl s1 s2
  have h1 : Same [.sigOps] s s1 := same_sigOps s _
  have h2 : Same [.calls] s1 s2 := same_updCall s1 d c _
  exact (h1.trans h2).trans (same_threads_resv s2 _ _)

theorem same_callStopped (s : State) (d c : Nat) : Same [.sigOps, .calls, .threads, .resv] s (callStopped s d c) :=
  ((same_stopThreads s d c).trans (same_updCall _ d c _)).mono (by simp)

theorem openCall_callStopped {s : State} {d c : Nat} {k : Call} (h : openCall s d c = some k) :
    ∃ n, openCall (callStopped s d c) d c = some n ∧ n.killed = true := by
  have hstop : ∃ n, openCall (stopThreads s d c) d c = some n := by
    unfold stopThreads
    extract_lets lo ks fl s1 s2
    have hs2 : openCall s2 d c = (openCall s1 d c).map (fun k => { k with fflags := k.fflags ||| fl }) :=
      openCall_updCall s1 d c _ fun _ => ⟨rfl, rfl, rfl, rfl⟩
    exact ⟨_, hs2.trans (congrArg _ ((openCall_congr (t := s1) rfl d c).trans h))⟩
  obtain ⟨n, hn⟩ := hstop
  refine ⟨killedCall n, ?_, rfl⟩
  rw [callStopped, openCall_updCall _ d c killedCall fun _ => ⟨rfl, rfl, rfl, rfl⟩, hn]
  rfl

theorem threads_callStopped (s : State) (d c : Nat) : (callStopped s d c).threads = (stopThreads s d c).threads := rfl

/-- No thread of the cluster is there any longer. -/
theorem thread_stopThreads (s : State) (d c : Nat) {slot t : Nat} (hslot : slot < 64) (ht : t < 32) :
    thread (stopThreads s d c) (thKey (clIx d c) slot t) = Thread.none 0 := by
  refine (Store.get_filter_key Thread.none (fun k => decide (k < thKey (clIx d c) 0 0) || decide (thKey (clIx d c) 0 0 + 2048 ≤ k))
    _ s.threads).trans (if_neg ?_)
  simp only [Bool.or_eq_true, decide_eq_true_eq, not_or]
  unfold thKey
  omega

theorem liveOf_eq_nil_of_stopped {s u : State} {d c slot : Nat} (hslot : slot < 64) (h : u.threads = (stopThreads s d c).threads) :
    liveOf u d c slot = [] := by
  unfold liveOf slotKeys
  rw [List.filter_eq_nil_iff]
  intro k hk
  obtain ⟨t, ht, rfl⟩ := List.mem_map.1 hk
  rw [thread_congr h, thread_stopThreads s d c hslot (List.mem_range.1 ht)]
  exact Bool.false_ne_true

/-! ### The kill -/

theorem same_killRecorded (s : State) (d c cause fig set thr : Nat) (pc addr : W64) :
    Same [.freeIx, .regs] s (killRecorded s d c cause fig set thr pc addr) :=
  ((((same_freeIx s _).trans (same_wr _ _ _)).trans (same_wr _ _ _)).trans (same_wr _ _ _)).mono (by simp)

/-- What SM_FAULT and the two registers after it read of a recorded fault. -/
theorem killRecorded_shows (s : State) (d c fig set thr : Nat) {cause : Nat} (pc addr : W64) (hcause : cause < 16) :
    let u := killRecorded s d c cause fig set thr pc addr
    rdF u (sm d c 0x10) 0 4 = cause ∧ rd u (sm d c 0x18) = pc ∧ rd u (sm d c 0x20) = addr := by
  have hfault : rd (killRecorded s d c cause fig set thr pc addr) (sm d c 0x10)
      = BitVec.ofNat 64 (cause + 2 ^ 4 * thr + 2 ^ 9 * set + 2 ^ 16 * (fig % 2 ^ 24) + 2 ^ 63) := by
    rw [killRecorded, rd_wr_ne _ (by simp [sm_inj]), rd_wr_ne _ (by simp [sm_inj]), rd_wr_same]
  refine ⟨?_, ?_, rd_wr_same _ _ _⟩
  · rw [rdF, hfault, fld_ofNat (by decide)]
    omega
  · rw [killRecorded, rd_wr_ne _ (by simp [sm_inj]), rd_wr_same]

theorem same_smRefresh (s : State) (d c : Nat) : Same [.regs] s (smRefresh s d c) :=
  ((same_wrF s _ _ _ _).trans (same_wrF _ _ _ _ _)).mono (by simp)

theorem regsBut_smRefresh (s : State) (d c : Nat) : RegsBut [sm d c 0] s (smRefresh s d c) :=
  ((regsBut_wrF s _ _ _ _).trans (regsBut_wrF _ _ _ _ _)).mono (by simp)

theorem same_smEvent (s : State) (d c i : Nat) : Same [.regs, .port] s (smEvent s d c i) := same_raise s _ _ _ _ _ _ _

theorem regsBut_smEvent (s : State) (d c i : Nat) : RegsBut (sm d c 0x50 :: noticeKeys) s (smEvent s d c i) := by
  have hkey : sm d c 0x50 = key d (0x2001050 + c * 0x100000) := by
    unfold sm vc key
    omega
  rw [hkey]
  exact regsBut_raise s _ _ _ _ _ _ _

/-- The end of the call begins, and the event is raised (R255, R259). -/
def killShown (s : State) (d c : Nat) : State := smEvent (smRefresh (wrB s (sm d c 0) 1 true) d c) d c 0

theorem same_killShown (s : State) (d c : Nat) : Same [.regs, .port] s (killShown s d c) :=
  (((same_wrB s _ _ _).trans (same_smRefresh _ d c)).trans (same_smEvent _ d c 0)).mono (by simp)

theorem regsBut_killShown (s : State) (d c : Nat) : RegsBut ([sm d c 0, sm d c 0x50] ++ noticeKeys) s (killShown s d c) :=
  (((regsBut_wrB s _ _ _).trans (regsBut_smRefresh _ d c)).trans (regsBut_smEvent _ d c 0)).mono (by simp)

/-- A kill records its fault, stops every thread of the cluster and ends the call. -/
theorem smKill_shows {s : State} {d : ADie} {c : Cluster} {k : Call} (hk : openCall s d c = some k) {cause : Nat} (hcause : cause < 16)
    (fig set thr : Nat) (pc addr : W64) :
    let u := smKill s d c cause (some (fig, set, thr)) (some pc) (some addr)
    rdF u (sm d c 0x10) 0 4 = cause ∧ rd u (sm d c 0x18) = pc ∧ rd u (sm d c 0x20) = addr
      ∧ (∃ n, openCall u d c = some n ∧ n.killed = true) ∧ (∀ slot < 64, liveOf u d c slot = []) ∧ u.mem = s.mem := by
  rw [smKill_eq, ← killShown]
  have hrecorded := same_killRecorded s d c cause fig set thr pc addr
  obtain ⟨hcode, hpc, haddr⟩ := killRecorded_shows s d c fig set thr pc addr hcause
  generalize killRecorded s d c cause fig set thr pc addr = r at *
  have hstopped := same_callStopped r d c
  have hsame := same_killShown (callStopped r d c) d c
  have hregs := (regsBut_of_regs (hstopped .regs (by decide))).trans (regsBut_killShown (callStopped r d c) d c)
  have hout {off : Nat} (h : off < 2 ^ 20) (h0 : off ≠ 0) (h50 : off ≠ 0x50) : sm d c off ∉ [] ++ ([sm d c 0, sm d c 0x50] ++ noticeKeys) := by
    simp [sm_inj, h0, h50, sm_not_mem_noticeKeys d c h]
  refine ⟨?_, ?_, ?_, ?_, fun slot hslot => ?_, ?_⟩
  · rw [hregs.rdF (hout (by decide) (by decide) (by decide)), hcode]
  · rw [hregs _ (hout (by decide) (by decide) (by decide)), hpc]
  · rw [hregs _ (hout (by decide) (by decide) (by decide)), haddr]
  · rw [openCall_congr (hsame .calls (by decide))]
    exact openCall_callStopped ((openCall_congr (hrecorded .calls (by decide)) d c).trans hk)
  · exact liveOf_eq_nil_of_stopped (s := r) hslot (Eq.trans (hsame .threads (by decide)) (threads_callStopped r d c))
  · exact ((hrecorded .mem (by decide)).trans (hstopped .mem (by decide))).trans (hsame .mem (by decide))

end Sys2Proof.Machine
end

section
/-! One instruction of a set without ordered operations (R236, R239, R244 to R246), and O27. -/

namespace Sys2Proof.Machine

section
variable {s : State} {d : ADie} {c : Cluster} {slot : SlotIx} {i : SetIssue} {w : W32}
  (hi : setIssue s d c slot = some i) (hw : i.instr = some w)
include hi hw

/-! ### Instructions without memory -/

omit hi hw in
/-- What the CSRs of a thread of the set read (R237). -/
def setEnv (s : State) (d c slot : Nat) (i : SetIssue) (cycles : W64) (k : Nat) : RvEnv :=
  { cycle := cycles, time := BitVec.ofNat 64 (dieNow s d), smtid := k % 32, smsid := slot % i.call.fsets, smfid := i.call.figOf slot
    smfsets := i.call.fsets, smgrid := i.call.grid, smslot := 32 * slot + k % 32, smcluster := clIx d c }

omit hi hw in
theorem dieNow_countInstr (s : State) (d : ADie) (c : Cluster) (x : Nat) : dieNow (countInstr s d c) x = dieNow s x := by
  have hnow : now (countInstr s d c) = now s := rd_wr_ne s (sm_ne_count (by decide) c.isLt) _
  simp only [dieNow, copyOf, hnow]
  rfl

/-- Every thread of the set executes the instruction (R239). -/
theorem setPlain_of_ok (hrow : setRow w = .plain) (cycles : W64) {g : Nat → Thread}
    (hg : ∀ k ∈ i.keys, rvExec (setEnv s d c slot i cycles k) w (thread s k) = .ok (g k)) :
    setPlain s d c slot cycles = retireAll (countInstr s d c) g i.keys := by
  have hrs : i.keys.map (fun k => (k, rvExec (setEnv s d c slot i cycles k) w (thread s k))) = i.keys.map (fun k => (k, .ok (g k))) :=
    List.map_congr_left fun k hk => by rw [hg k hk]
  simp only [setPlain, hi, hw, hrow, thread_countInstr, dieNow_countInstr]
  simp only [setEnv] at hrs
  have hnone : i.keys.findSome? (fun _ => (none : Option (Nat × Nat × W64))) = none := List.findSome?_eq_none_iff.2 fun _ _ => rfl
  simp only [hrs, List.findSome?_map, Function.comp_def, hnone]
  exact List.foldl_map

/-- A set whose instruction is illegal in its first thread kills the call (R236, R255). -/
theorem setPlain_of_error (hrow : setRow w = .plain) (cycles : W64) {cause : Nat} {addr : W64}
    (herr : rvExec (setEnv s d c slot i cycles (i.keys.headD 0)) w (thread s (i.keys.headD 0)) = .error (cause, addr)) :
    setPlain s d c slot cycles = smKillAt (countInstr s d c) d c i.call slot (i.keys.headD 0) cause (some addr) := by
  obtain ⟨k, ks, hks⟩ := List.exists_cons_of_ne_nil (keys_ne_nil_of_setIssue hi)
  rw [hks, List.headD_cons] at herr ⊢
  simp only [setEnv] at herr
  simp only [setPlain, hi, hw, hrow, hks, thread_countInstr, dieNow_countInstr, List.map_cons, List.findSome?_cons, herr]

/-! ### What a set leaves behind -/

omit hw in
/-- An instruction of a set whose threads retire with the registers `g`, after its count and its sectors. -/
theorem retireAll_shows (g : Nat → Thread) {t : State} (hregs : rd t (sm d c 0x30) = satInc (rd s (sm d c 0x30)))
    (ht : Same [.regs] s t) :
    let u := retireAll t g i.keys
    ((∀ k, k ∉ i.keys → thread u k = thread s k) ∧ rd u (sm d c 0x30) = satInc (rd s (sm d c 0x30)))
      ∧ RegsBut [] t u ∧ Same [.threads, .regs] s u ∧ ∀ k ∈ i.keys, thread u k = retired (g k) := by
  have hsame := same_retireAll t g i.keys
  have hkeep := regsBut_of_regs (hsame .regs (by decide))
  refine ⟨⟨fun k hk => ?_, ?_⟩, hkeep, (ht.trans hsame).mono (by simp), fun k hk => ?_⟩
  · rw [thread_retireAll_of_not_mem hk, ht.thread (by decide)]
  · rw [hkeep _ (by simp), hregs]
  · exact thread_retireAll_of_mem (nodup_keys_of_setIssue hi) hk t g

/-- A plain instruction that every thread of the set executes. -/
theorem exec_plain_runs (hrow : setRow w = .plain) (cycles : W64) {g : Nat → Thread}
    (hg : ∀ k ∈ i.keys, rvExec (setEnv s d c slot i cycles k) w (thread s k) = .ok (g k)) :
    Runs (.setInstruction d c slot cycles []) s (fun u =>
      ((∀ k, k ∉ i.keys → thread u k = thread s k) ∧ rd u (sm d c 0x30) = satInc (rd s (sm d c 0x30)))
        ∧ RegsBut [sm d c 0x30] s u ∧ Same [.threads, .regs] s u ∧ ∀ k ∈ i.keys, thread u k = retired (g k)) := by
  obtain ⟨hgone, hkeep, hsame, hkeys⟩ := retireAll_shows hi g (rd_countInstr s d c) (same_countInstr s d c)
  refine ⟨_, ?_, hgone, ((regsBut_countInstr s d c).trans hkeep).mono (by simp), hsame, hkeys⟩
  rw [exec_setInstruction hi, setPlain_of_ok hi hw hrow cycles hg]
  rfl

/-! ### Loads, stores and prefetches -/

omit hi hw in
/-- The set's instruction is counted, and the sectors that its accesses `xs` touch (R245, R259). -/
def accessCounted (s : State) (d c : Nat) (xs : List (Nat × Nat)) : State :=
  incBy (countInstr s d c) (sm d c 0x38) (max 1 (sectorCount xs))

omit hi hw in
theorem same_accessCounted (s : State) (d c : Nat) (xs : List (Nat × Nat)) : Same [.regs] s (accessCounted s d c xs) :=
  ((same_countInstr s d c).trans (same_wr _ _ _)).mono (by simp)

omit hi hw in
theorem regsBut_accessCounted (s : State) (d c : Nat) (xs : List (Nat × Nat)) :
    RegsBut [sm d c 0x30, sm d c 0x38] s (accessCounted s d c xs) := (regsBut_countInstr s d c).trans (regsBut_wr _ _ _)

omit hi hw in
theorem localOff_accessCounted (s : State) (d c : Nat) (xs : List (Nat × Nat)) (a n : Nat) :
    localOff (accessCounted s d c xs) d c a n = localOff s d c a n :=
  localOff_congr (regsBut_accessCounted s d c xs _ (by simp [vc_ne_sm])) a n

/-- The state that the threads' accesses start from when none of them stops. -/
theorem execSetMemoryAccess_of_local (hrow : setRow w = .memory)
    (hl : ∀ k ∈ i.keys, (localOff s d c (memAddr w (thread s k)) (memSize w)).isSome = true) :
    exec (.setMemoryAccess d c slot) s = .next (i.keys.foldl (fun t k =>
      if memIsStore w then
        retire (threadStore t d c slot (memAddr w (thread t k)) (memSize w)
          (if rvOp w = 0x27 then ((thread t k).rf (rvRs2 w)).toNat else ((thread t k).rx (rvRs2 w)).toNat)) k (thread t k).step
      else
        retire (threadLoad t d c slot (memAddr w (thread t k)) (memSize w)).2 k
          (loadInto w (thread t k) (threadLoad t d c slot (memAddr w (thread t k)) (memSize w)).1))
      (accessCounted s d c (i.keys.map (fun k => (memAddr w (thread s k), memSize w))))) := by
  have hstop : firstStop (i.keys.map (fun k => (k, accessStop (countInstr s d c) d c (memAddr w (thread s k)) (memSize w) (memIsStore w))))
      = none := firstStop_eq_none fun k hk => by
    obtain ⟨o, ho⟩ := Option.isSome_iff_exists.1 (hl k hk)
    exact accessStop_local ((localOff_countInstr s d c _ _).trans ho) _
  show execSetMemoryAccess d c slot s = _
  rw [execSetMemoryAccess, onRow_of_issue hi hw hrow]
  simp only [thread_countInstr, hstop]
  rfl

/-- A load from the local window in every thread of the set (R245). -/
theorem exec_load_runs (hrow : setRow w = .memory) (hload : memIsStore w = false)
    (hl : ∀ k ∈ i.keys, (localOff s d c (memAddr w (thread s k)) (memSize w)).isSome = true) :
    Runs (.setMemoryAccess d c slot) s (fun u =>
      ((∀ k, k ∉ i.keys → thread u k = thread s k) ∧ rd u (sm d c 0x30) = satInc (rd s (sm d c 0x30)))
        ∧ RegsBut [sm d c 0x30, sm d c 0x38] s u ∧ Same [.threads, .regs] s u
        ∧ ∀ k ∈ i.keys, thread u k = retired (loadInto w (thread s k)
            (rdNat s (winBase d c + (memAddr w (thread s k) - localBase)) (memSize w)))) := by
  have hexec := execSetMemoryAccess_of_local hi hw hrow hl
  generalize hxs : i.keys.map (fun k => (memAddr w (thread s k), memSize w)) = xs at hexec
  have hcounted := same_accessCounted s d c xs
  rw [foldl_eq_retireAll (g := fun k => loadInto w (thread s k)
    (rdNat s (winBase d c + (memAddr w (thread s k) - localBase)) (memSize w))) (nodup_keys_of_setIssue hi) ?reads] at hexec
  case reads =>
    intro t ht k hk hthread
    obtain ⟨o, ho⟩ := Option.isSome_iff_exists.1 (hl k hk)
    obtain ⟨-, hplace⟩ := localOff_eq_some ho
    rw [hplace] at ho
    have hoff : localOff t d c (memAddr w (thread s k)) (memSize w) = some (memAddr w (thread s k) - localBase) :=
      ((localOff_congr (rd_congr (ht .regs (by decide)) _) _ _).trans (localOff_accessCounted s d c _ _ _)).trans ho
    have hmem : t.mem = s.mem := (hcounted .mem (by decide)).trans (ht .mem (by decide))
    rw [hthread, hcounted.thread (by decide), threadLoad_local hoff, rdNat_congr hmem, hload]
    rfl
  obtain ⟨hgone, hkeep, hsame, hkeys⟩ := retireAll_shows hi _ (rd_instr_incBy s d c _) hcounted
  exact ⟨_, hexec, hgone, ((regsBut_accessCounted s d c _).trans hkeep).mono (by simp), hsame, hkeys⟩

/-- A store of one thread to the local window (R245, R246). -/
theorem exec_store_runs {k o : Nat} (hrow : setRow w = .memory) (hstore : memIsStore w = true) (hk : i.keys = [k])
    (ho : localOff s d c (memAddr w (thread s k)) (memSize w) = some o) :
    Runs (.setMemoryAccess d c slot) s (fun u =>
      ((∀ j, j ∉ i.keys → thread u j = thread s j) ∧ rd u (sm d c 0x30) = satInc (rd s (sm d c 0x30)))
        ∧ thread u k = retired (thread s k).step
        ∧ rdBytes u (winBase d c + o) (memSize w)
          = leBytes (memSize w) (if rvOp w = 0x27 then (thread s k).rf (rvRs2 w) else (thread s k).rx (rvRs2 w)).toNat
        ∧ (∀ b, b < winBase d c + o ∨ winBase d c + o + memSize w ≤ b → rdByte u b = rdByte s b)
        ∧ RegsBut [sm d c 0x30, sm d c 0x38] s u ∧ Same [.threads, .regs, .mem, .poisoned, .resv] s u) := by
  have hexec := execSetMemoryAccess_of_local hi hw hrow (by simpa [hk] using Option.isSome_of_eq_some ho)
  generalize i.keys.map (fun k => (memAddr w (thread s k), memSize w)) = xs at hexec
  have hcounted := same_accessCounted s d c xs
  have hkept := regsBut_accessCounted s d c xs
  have hcount : rd (accessCounted s d c xs) (sm d c 0x30) = satInc (rd s (sm d c 0x30)) := rd_instr_incBy s d c _
  have hoff := (localOff_accessCounted s d c xs (memAddr w (thread s k)) (memSize w)).trans ho
  generalize accessCounted s d c xs = t0 at *
  rw [hk, List.foldl_cons, List.foldl_nil, hcounted.thread (by decide), hstore, if_pos rfl, ← apply_ite BitVec.toNat,
    threadStore_local hoff] at hexec
  generalize (if rvOp w = 0x27 then (thread s k).rf (rvRs2 w) else (thread s k).rx (rvRs2 w)).toNat = v at hexec ⊢
  have hbytes := rdBytes_wrBytes t0 (winBase d c + o) (leBytes (memSize w) v)
  rw [length_leBytes] at hbytes
  have hwritten := same_wrBytes t0 (winBase d c + o) (leBytes (memSize w) v)
  have hretired := same_retire (wrBytes t0 (winBase d c + o) (leBytes (memSize w) v)) k (thread s k).step
  have hregs := regsBut_of_regs ((hwritten.trans hretired) .regs (by decide))
  refine ⟨_, hexec, ⟨fun j hj => ?_, (hregs _ (by simp)).trans hcount⟩, thread_retire_same _ _ _, hbytes, fun b hb => ?_,
    (hkept.trans hregs).mono (by simp), ((hcounted.trans hwritten).trans hretired).mono (by simp)⟩
  · rw [thread_retire_ne _ _ (by simpa [hk] using hj), hwritten.thread (by decide), hcounted.thread (by decide)]
  · rw [rdByte_congr (hretired .mem (by decide)), rdByte_wrBytes_out _ _ _ _ (by rwa [length_leBytes]),
      rdByte_congr (hcounted .mem (by decide))]

omit hi hw in
/-- A prefetch is no store. -/
theorem memIsStore_of_prefetch (hrow : setRow w = .prefetch) : memIsStore w = false := by
  unfold setRow at hrow
  unfold memIsStore
  by_cases h23 : rvOp w = 0x23
  · simp [h23] at hrow
    split at hrow <;> cases hrow
  · by_cases h27 : rvOp w = 0x27
    · simp [h27] at hrow
      split at hrow <;> cases hrow
    · simp [h23, h27]

/-- A prefetch of the local window does nothing but count (R244). -/
theorem exec_prefetch_runs (hrow : setRow w = .prefetch) (hl : ∀ k ∈ i.keys, localBase ≤ memAddr w (thread s k)) :
    Runs (.smPrefetch d c slot) s (fun u =>
      ((∀ k, k ∉ i.keys → thread u k = thread s k) ∧ rd u (sm d c 0x30) = satInc (rd s (sm d c 0x30)))
        ∧ (∀ k ∈ i.keys, thread u k = retired (thread s k).step) ∧ RegsBut [sm d c 0x30, sm d c 0x38] s u ∧ Same [.threads, .regs] s u) := by
  have haddr (h : Thread) : memAddr w h = (h.rx (rvRs1 w) + immI w).toNat := by
    rw [memAddr, memIsStore_of_prefetch hrow]
    rfl
  have hexec : exec (.smPrefetch d c slot) s = .next (i.keys.foldl (fun t k =>
      retire (if localBase ≤ memAddr w (thread t k) then t else prefetch t (clIx d c) (memAddr w (thread t k))) k (thread t k).step)
      (accessCounted s d c (i.keys.map (fun k => (memAddr w (thread s k), 1))))) := by
    show execSmPrefetch d c slot s = _
    rw [execSmPrefetch, onRow_of_issue hi hw hrow]
    simp only [haddr]
    rfl
  have hcounted : Same [.regs] s (accessCounted s d c (i.keys.map (fun k => (memAddr w (thread s k), 1)))) := same_accessCounted s d c _
  rw [foldl_eq_retireAll (g := fun k => (thread s k).step) (nodup_keys_of_setIssue hi) ?counts] at hexec
  case counts =>
    intro t ht k hk hthread
    rw [hthread, hcounted.thread (by decide), if_pos (hl k hk)]
  obtain ⟨hgone, hkeep, hsame, hkeys⟩ := retireAll_shows hi _ (rd_instr_incBy s d c _) hcounted
  exact ⟨_, hexec, hgone, hkeys, ((regsBut_accessCounted s d c _).trans hkeep).mono (by simp), hsame⟩

end

/-! ### Single instructions -/

theorem setRow_opImm {w : W32} (h : rvOp w = 0x13) : setRow w = .plain := by simp [setRow, h]

theorem setRow_system {w : W32} (h : rvOp w = 0x73) : setRow w = .plain := by simp [setRow, h]

theorem setRow_undefined {w : W32} (h : rvOp w = 0x7F) : setRow w = .plain := by simp [setRow, h]

/-- ADDI. -/
theorem rvExec_addi {w : W32} (hop : rvOp w = 0x13) (hf : rvF3 w = 0) (env : RvEnv) (h : Thread) :
    rvExec env w h = .ok (h.put (rvRd w) (h.rx (rvRs1 w) + BitVec.signExtend 64 (BitVec.ofNat 12 (fld w 20 12)))) := by
  simp only [rvExec, hop, rvAluI, hf]
  rfl

/-- RDTIME: CSRRS of the time CSR into rd, with x0. -/
theorem rvExec_rdtime {w : W32} (hop : rvOp w = 0x73) (hf : rvF3 w = 2) (hrs : rvRs1 w = 0) (hcsr : fld w 20 12 = 0xC01) (env : RvEnv)
    (h : Thread) : rvExec env w h = .ok (h.put (rvRd w) env.time) := by
  simp [rvExec, hop, hf, hrs, hcsr, rvCsrOp, rvCsr]

/-- An operation code that R236 does not define. -/
theorem rvExec_undefined {w : W32} (hop : rvOp w = 0x7F) (env : RvEnv) (h : Thread) :
    rvExec env w h = .error (killIllegal, BitVec.setWidth 64 w) := by
  simp only [rvExec, hop]
  rfl

end Sys2Proof.Machine

open Sys2Proof Sys2Proof.Machine

/-- Settles O27: the instruction's work is done thread by thread, each by its own registers, so the set's threads retire and the others
stay; inside the local window no access stops, and an operation that is not defined kills the call by its first thread. -/
theorem setModeInstructions : Obligations.SetModeInstructions := by
  intro s d c slot i w cycles hi hw
  refine ⟨fun hrow hok => ?plain, fun hop hf => ?addi, fun hop hf hrs hcsr => ?rdtime, fun hop => ?undefined,
    fun hrow hload hl => exec_load_runs hi hw hrow hload hl, fun k o hrow hstore hk ho => exec_store_runs hi hw hrow hstore hk ho,
    fun hrow hl => exec_prefetch_runs hi hw hrow hl⟩
  case plain =>
    have : Nonempty Thread := ⟨Thread.none 0⟩
    choose! g hg using hok
    obtain ⟨u, hu, hgone, hregs, hsame, hkeys⟩ := exec_plain_runs hi hw hrow cycles fun k hk => hg k hk _
    exact ⟨u, hu, hgone, hregs, hsame, fun k hk => ⟨g k, hg k hk, hkeys k hk⟩⟩
  case addi =>
    obtain ⟨u, hu, hgone, -, -, hkeys⟩ := exec_plain_runs hi hw (setRow_opImm hop) cycles fun k _ => rvExec_addi hop hf _ (thread s k)
    exact ⟨u, hu, hgone, hkeys⟩
  case rdtime =>
    obtain ⟨u, hu, hgone, -, -, hkeys⟩ :=
      exec_plain_runs hi hw (setRow_system hop) cycles fun k _ => rvExec_rdtime hop hf hrs hcsr _ (thread s k)
    exact ⟨u, hu, hgone, hkeys⟩
  case undefined =>
    obtain ⟨hcall, -⟩ := setIssue_parts hi
    have hkill := setPlain_of_error hi hw (setRow_undefined hop) cycles (rvExec_undefined hop _ _)
    obtain ⟨hcause, hpc, haddr, hkilled, hlive, hmem⟩ := smKill_shows (s := countInstr s d c) (c := c) hcall (cause := killIllegal) (by decide)
      (i.call.figOf slot) (slot % i.call.fsets) (i.keys.headD 0 % 32) (thread s (i.keys.headD 0)).pc (BitVec.setWidth 64 w)
    refine ⟨_, ?_, hcause, hpc, haddr, hkilled, hlive, hmem⟩
    rw [exec_setInstruction hi, hkill]
    rfl
end

section
/-! Sums of one thread (R249): the tree of R249 passes a lone addend through, and a delivered number fits its format. -/

namespace Sys2Proof.Machine

/-! ### The tree with one addend -/

/-- An addend at lane `t`, and none at the others. -/
def soleLane (t : Nat) (x : Option Nat) (i : Nat) : Option Nat := if i = t then x else none

/-- A level of the tree where no pair has both addends: each lane takes the one that its pair has. -/
theorem faddLevel_of_lone_lanes (f : Fmt) (n : Nat) (g : Nat → Option Nat) (h : ∀ i, g (2 * i) = none ∨ g (2 * i + 1) = none) :
    faddLevel f ((upTo (2 * n)).map g) = ((upTo n).map (fun i => (g (2 * i)).or (g (2 * i + 1))), 0) := by
  induction n generalizing g with
  | zero => rfl
  | succ n ih =>
    have hpair : (upTo (2 * (n + 1))).map g = g 0 :: g 1 :: (upTo (2 * n)).map (fun i => g (i + 2)) := by
      rw [show 2 * (n + 1) = 2 * n + 1 + 1 by omega, upTo, List.range_succ_eq_map, List.range_succ_eq_map]
      simp [upTo, Function.comp_def]
    have hrest := ih (fun i => g (i + 2)) fun i => h (i + 1)
    have hout : (upTo (n + 1)).map (fun i => (g (2 * i)).or (g (2 * i + 1)))
        = (g 0).or (g 1) :: (upTo n).map (fun i => (g (2 * i + 2)).or (g (2 * i + 1 + 2))) := by
      simp [upTo, List.range_succ_eq_map, Function.comp_def, Nat.mul_add]
    rw [hpair, hout, faddLevel, hrest]
    obtain h0 | h1 := h 0
    · rw [Nat.mul_zero] at h0
      simp [h0]
    · rw [Nat.mul_zero] at h1
      cases g 0 <;> simp [h1]

theorem faddLevel_soleLane (f : Fmt) (n t : Nat) (x : Option Nat) :
    faddLevel f ((upTo (2 * n)).map (soleLane t x)) = ((upTo n).map (soleLane (t / 2) x), 0) := by
  rw [faddLevel_of_lone_lanes f n (soleLane t x) fun i => ?lone]
  case lone =>
    unfold soleLane
    by_cases hi : 2 * i = t
    · exact .inr (if_neg (by omega))
    · exact .inl (if_neg hi)
  congr 1
  refine List.map_congr_left fun i _ => ?_
  unfold soleLane
  by_cases hi : i = t / 2
  · obtain h | h : 2 * i = t ∨ 2 * i + 1 = t := by omega
    · rw [if_pos h, if_pos hi, if_neg (by omega), Option.or_none]
    · rw [if_pos h, if_pos hi, if_neg (by omega), Option.none_or]
  · rw [if_neg hi, if_neg (by omega), if_neg (by omega), Option.none_or]

/-- The tree passes a lone addend through without a rounding (R249). -/
theorem faddTree_soleLane (f : Fmt) {t : Nat} (ht : t < 32) (x : Option Nat) : faddTree f ((upTo 32).map (soleLane t x)) = (x, 0) := by
  have hlevel (n t : Nat) := faddLevel_soleLane f n t x
  have hroot : t / 2 / 2 / 2 / 2 / 2 = 0 := by omega
  simp only [faddTree, show upTo 5 = [0, 1, 2, 3, 4] from rfl, List.foldl_cons, List.foldl_nil, hlevel 16 t, hlevel 8, hlevel 4, hlevel 2,
    hlevel 1, hroot]
  rfl

theorem faddLanes_one (t v : Nat) (pick : Nat → Bool) :
    faddLanes [(t, v)] pick = (upTo 32).map (soleLane t (if pick t then some v else none)) := by
  refine List.map_congr_left fun i _ => ?_
  unfold soleLane
  by_cases hi : i = t
  · simp [hi]
  · simp [hi, Ne.symm hi]

/-- The format of SM.FADD (R249). -/
def faddFmt (w : W32) : Fmt := if rvF3 w = 2 then .fp32 else .fp64

/-- The rounded sum of two encodings of the instruction's format. -/
def faddSum (w : W32) (old v : Nat) : Nat × Flags := deliver (faddFmt w) .rne (addV (decodeF (faddFmt w) old) (decodeF (faddFmt w) v))

/-- SM.FADD of one thread adds its operand to the old value, which the thread receives. -/
theorem combineFadd_one (w : W32) (old : Nat) {t : Nat} (ht : t < 32) (v : Nat) :
    combineFadd w old [(t, v)] = ((faddSum w old v).1, [amoOld w old], toFflags (faddSum w old v).2) := by
  have hnew : faddTree (faddFmt w) (faddLanes [(t, v)] fun _ => true) = (some v, 0) := by
    rw [faddLanes_one, faddTree_soleLane _ ht, if_pos rfl]
  have hbelow : faddTree (faddFmt w) (faddLanes [(t, v)] fun i => decide (i < t)) = (none, 0) := by
    rw [faddLanes_one, faddTree_soleLane _ ht, if_neg (by simp)]
  unfold combineFadd
  simp only [← faddFmt.eq_1, List.map_cons, List.map_nil, List.foldl_cons, List.foldl_nil, hnew, hbelow, faddOn, ← faddSum.eq_1]
  simp

/-! ### Delivered numbers fit their format (R148) -/

section
variable {f : Fmt} (hf : f.IsFloat)
include hf

omit hf in
theorem withSign_lt {mag : Nat} (neg : Bool) (h : mag < 2 ^ f.signBit) : withSign f neg mag < 2 ^ (f.signBit + 1) := by
  rw [Nat.pow_succ]
  unfold withSign
  split <;> omega

theorem infBits_lt_signBit : f.infBits < 2 ^ f.signBit := by revert f; decide

theorem nan_lt : f.nan < 2 ^ (f.signBit + 1) := by revert f; decide

theorem overflowTo_lt (rm : Rm) (neg : Bool) : overflowTo f rm neg < 2 ^ (f.signBit + 1) := by
  unfold overflowTo
  refine withSign_lt neg ?_
  split
  · exact maxFin_lt_signBit hf
  · exact infBits_lt_signBit hf

theorem roundFin_lt (rm : Rm) (neg : Bool) (m : Nat) (e : Int) : (roundFin f rm neg m e).1 < 2 ^ (f.signBit + 1) := by
  unfold roundFin
  extract_lets top q
  split
  next k inex hk =>
    extract_lets mag
    split
    · exact overflowTo_lt hf rm neg
    next hfin => exact withSign_lt neg (lt_of_le_of_lt (not_lt.1 hfin) (maxFin_lt_signBit hf))

theorem roundV_lt (rm : Rm) (v : FVal) : (roundV f rm v).1 < 2 ^ (f.signBit + 1) := by
  cases v with
  | nan => exact nan_lt hf
  | inf neg =>
    rw [roundV]
    split
    · exact nan_lt hf
    · exact withSign_lt neg (infBits_lt_signBit hf)
  | fin neg m e =>
    rw [roundV]
    split
    · exact withSign_lt neg (Nat.two_pow_pos _)
    · exact roundFin_lt hf rm neg m e

theorem deliver_lt (rm : Rm) (r : FVal × Bool) : (deliver f rm r).1 < 2 ^ (f.signBit + 1) := by
  unfold deliver
  split
  · exact nan_lt hf
  · exact roundV_lt hf rm r.1

end

theorem pow_amoSize (w : W32) : 256 ^ amoSize w = 2 ^ (8 * amoSize w) := by rw [Nat.pow_mul]

theorem faddSum_lt (w : W32) (old v : Nat) : (faddSum w old v).1 < 256 ^ amoSize w := by
  have hbits : 256 ^ amoSize w = 2 ^ ((faddFmt w).signBit + 1) := by
    unfold amoSize faddFmt
    split <;> decide
  rw [hbits]
  exact deliver_lt (by unfold faddFmt; split <;> decide) _ _

theorem amoNat_lt (w : W32) (x y : Nat) : amoNat w x y < 256 ^ amoSize w := by
  rw [pow_amoSize]
  unfold amoNat amoSize
  split
  · exact BitVec.isLt _
  · exact BitVec.isLt _

end Sys2Proof.Machine
end

section
/-! Ordered operations on the local window (R247 to R251), and O29. -/

namespace Sys2Proof.Machine

/-! ### The place of an operation -/

section
variable {s : State} {d c a n o : Nat} (h : localOff s d c a n = some o)
include h

/-- Inside the local window nothing stands between the operation and its place. -/
theorem orderedStart_local (write : Bool) : orderedStart s d c a n write = (s, winBase d c + o) := by
  obtain ⟨hbase, -⟩ := localOff_eq_some h
  simp [orderedStart, hbase, orderedPa, h]

end

/-- The windows lie above unified memory (R308). -/
theorem inUnified_window (d c o n : Nat) : inUnified (winBase d c + o) n = false := by
  unfold inUnified unifiedEnd winBase
  exact decide_eq_false (by omega)

theorem orderedGet_window (s : State) (d c o n : Nat) : orderedGet s (winBase d c + o) n = rdNat s (winBase d c + o) n := by
  simp [orderedGet, inUnified_window]

theorem orderedPut_window (s : State) (d c o n v : Nat) : orderedPut s (winBase d c + o) n v = wrBytes s (winBase d c + o) (leBytes n v) := by
  simp [orderedPut, inUnified_window]

theorem orderedEnd_window (s : State) (d c o n : Nat) : orderedEnd s (winBase d c + o) n = s := by
  simp [orderedEnd, inUnified_window]

/-! ### What an operation leaves -/

/-- An operation of the threads `keys` on the `n` bytes from `place`: other threads and other bytes are as they were. -/
def StaysBut (keys : List Nat) (place n : Nat) (s u : State) : Prop :=
  (∀ j, j ∉ keys → thread u j = thread s j) ∧ (∀ b, b < place ∨ place + n ≤ b → rdByte u b = rdByte s b)
    ∧ Same [.threads, .regs, .port, .calls, .mem, .poisoned, .resv] s u

section
variable {keys : List Nat} {place n : Nat} {s t u : State}

theorem StaysBut.trans (h : StaysBut keys place n s t) (g : StaysBut keys place n t u) : StaysBut keys place n s u := by
  obtain ⟨hthreads, hbytes, hsame⟩ := h
  obtain ⟨gthreads, gbytes, gsame⟩ := g
  exact ⟨fun j hj => (gthreads j hj).trans (hthreads j hj), fun b hb => (gbytes b hb).trans (hbytes b hb), (hsame.trans gsame).mono (by simp)⟩

theorem StaysBut.of_same {ps : List Part} (h : Same ps s u) (hps : ∀ p ∈ ps, p ∈ [Part.regs, .port, .calls, .resv]) :
    StaysBut keys place n s u := by
  have hnot {p : Part} (hp : p ∉ [Part.regs, .port, .calls, .resv]) : p ∉ ps := fun hmem => hp (hps p hmem)
  refine ⟨fun j _ => h.thread (hnot (by decide)) j, fun b _ => rdByte_congr (h .mem (hnot (by decide))) b, h.mono fun p hp => ?_⟩
  have := hps p hp
  simp only [List.mem_cons, List.not_mem_nil, or_false] at this ⊢
  tauto

theorem staysBut_write (s : State) (v : Nat) : StaysBut keys place n s (wrBytes s place (leBytes n v)) := by
  have hsame := same_wrBytes s place (leBytes n v)
  exact ⟨fun j _ => hsame.thread (by decide) j, fun b hb => rdByte_wrBytes_out _ _ _ _ (by rwa [length_leBytes]), hsame.mono (by simp)⟩

theorem staysBut_retire {k : Nat} (hk : k ∈ keys) (s : State) (h : Thread) : StaysBut keys place n s (retire s k h) := by
  have hsame := same_retire s k h
  exact ⟨fun j hj => thread_retire_ne s h (fun e => hj (e ▸ hk)), fun b _ => rdByte_congr (hsame .mem (by decide)) b, hsame.mono (by simp)⟩

theorem same_incBy (s : State) (k n : Nat) : Same [.regs] s (incBy s k n) := same_wr s _ _

theorem staysBut_inc (s : State) (k : Nat) : StaysBut keys place n s (inc s k) := .of_same (same_inc s k) (by simp)

theorem staysBut_resv (s : State) (r : List (Nat × Nat)) : StaysBut keys place n s { s with resv := r } := .of_same (same_resv s r) (by simp)

theorem staysBut_countInstr (s : State) (d c : Nat) : StaysBut keys place n s (countInstr s d c) := staysBut_inc s _

end

/-! ### The order of operations on a word (R251) -/

theorem same_smChoice (s : State) (d c : Nat) : Same [.regs, .port] s (smChoice s d c) := by
  unfold smChoice
  extract_lets first s1
  have h1 : Same [.regs] s s1 := ((same_inc s _).trans (same_inc _ _)).mono (by simp)
  split
  · exact (h1.trans (same_smEvent s1 d c 2)).mono (by simp)
  · exact h1.mono (by simp)

/-- The registers that a noted operation may change: the choices, and what their event and its notice do. -/
def choiceKeys (d c : Nat) : List Nat := [sm d c 0x28, hp 0x120, sm d c 0x50] ++ noticeKeys

theorem regsBut_smChoice (s : State) (d c : Nat) : RegsBut (choiceKeys d c) s (smChoice s d c) := by
  unfold smChoice choiceKeys
  extract_lets first s1
  have h1 : RegsBut [sm d c 0x28, hp 0x120] s s1 := (regsBut_upd s _ _).trans (regsBut_upd _ _ _)
  split
  · exact (h1.trans (regsBut_smEvent s1 d c 2)).mono (by simp)
  · exact h1.mono (by simp)

/-- The set in `slot` with its figure, as R251 tells agents apart. -/
def noteMark (k : Call) (slot : Nat) : Nat := k.figOf slot * 32 + slot % k.fsets + 1

/-- The open calls know of the operation (R251). -/
def wordNoted (s : State) (d c slot key kind : Nat) (k : Call) : State :=
  otherOp (updCall s d c (fun x => x.noteOp key (noteMark k slot) kind)) (fun x => decide (x.die = d) && decide (x.cluster = c)) key kind

theorem same_wordNoted (s : State) (d c slot key kind : Nat) (k : Call) : Same [.calls] s (wordNoted s d c slot key kind k) :=
  Same.mono ((same_updCall s d c _).trans (same_otherOp (updCall s d c _) _ key kind)) (by simp)

theorem orderedNote_cases (s : State) (d c slot key kind : Nat) : orderedNote s d c slot key kind = s
    ∨ ∃ k, orderedNote s d c slot key kind = wordNoted s d c slot key kind k
      ∨ orderedNote s d c slot key kind = smChoice (wordNoted s d c slot key kind k) d c := by
  unfold orderedNote
  split
  · exact .inl rfl
  next k hk =>
    extract_lets me choice s1
    split
    · exact .inr ⟨k, .inr rfl⟩
    · exact .inr ⟨k, .inl rfl⟩

theorem orderedNote_shows (s : State) (d c slot key kind : Nat) :
    Same [.calls, .regs, .port] s (orderedNote s d c slot key kind) ∧ RegsBut (choiceKeys d c) s (orderedNote s d c slot key kind) := by
  obtain hu | ⟨k, hu | hu⟩ := orderedNote_cases s d c slot key kind <;> rw [hu]
  case inl => exact ⟨Same.refl _ _, .refl _ _⟩
  all_goals
    have hnoted := same_wordNoted s d c slot key kind k
    have hregs : RegsBut (choiceKeys d c) s _ := (regsBut_of_regs (hnoted .regs (by decide))).mono (by simp)
  case inr.inl => exact ⟨hnoted.mono (by simp), hregs⟩
  case inr.inr => exact ⟨(hnoted.trans (same_smChoice _ d c)).mono (by simp), hregs.comp (regsBut_smChoice _ d c)⟩

theorem same_orderedNote (s : State) (d c slot key kind : Nat) : Same [.calls, .regs, .port] s (orderedNote s d c slot key kind) :=
  (orderedNote_shows s d c slot key kind).1

theorem staysBut_orderedNote {keys : List Nat} {place n : Nat} (s : State) (d c slot key kind : Nat) :
    StaysBut keys place n s (orderedNote s d c slot key kind) := .of_same (same_orderedNote s d c slot key kind) (by simp)

/-- The counts of operations and lanes are no registers of choices. -/
theorem sm_not_mem_choiceKeys (d : ADie) (c : Cluster) {off : Nat} (h : off ∈ [0x40, 0x48]) : sm d c off ∉ choiceKeys d c := by
  have hd := d.isLt
  have hc := c.isLt
  simp only [List.mem_cons, List.not_mem_nil, or_false] at h
  simp only [choiceKeys, noticeKeys, List.mem_append, List.mem_cons, List.not_mem_nil, or_false, sm, vc, hp, bar0, key]
  omega

/-! ### Combined operations (R248, R249) -/

/-- The combined operation has put its new value, and is counted and noted; its threads have not retired. -/
def combined (s : State) (d c slot : Nat) (w : W32) (lanes place kind new : Nat) : State :=
  orderedNote (incBy (inc (wrBytes s place (leBytes (amoSize w) new)) (sm d c 0x40)) (sm d c 0x48) lanes) d c slot (place / 8) kind

/-- The operand of a thread, of the instruction's width. -/
def amoGiven (s : State) (w : W32) (k : Nat) : Nat := ((thread s k).rx (rvRs2 w)).toNat % 2 ^ (8 * amoSize w)

theorem amoGiven_countInstr (s : State) (d c : Nat) (w : W32) (k : Nat) : amoGiven (countInstr s d c) w k = amoGiven s w k := by
  unfold amoGiven
  rw [thread_countInstr]

theorem rdNat_countInstr (s : State) (d c a n : Nat) : rdNat (countInstr s d c) a n = rdNat s a n :=
  rdNat_congr (same_countInstr s d c .mem (by decide)) a n

theorem amoGiven_lt (s : State) (w : W32) (k : Nat) : amoGiven s w k < 256 ^ amoSize w := by
  rw [pow_amoSize]
  exact Nat.mod_lt _ (Nat.two_pow_pos _)

theorem combineAt_local {s : State} {d c a o : Nat} {w : W32} (h : localOff s d c a (amoSize w) = some o) (slot : Nat) (ks : List Nat) (kind : Nat)
    {f : Nat → List (Nat × Nat) → Nat × List W64 × Byte} {new : Nat} {vals : List W64} {fl : Byte}
    (hf : f (rdNat s (winBase d c + o) (amoSize w)) (ks.map (fun k => (k % 32, amoGiven s w k))) = (new, vals, fl)) :
    combineAt s d c slot w ks a kind f = giveAll (combined s d c slot w (ks.length - 1) (winBase d c + o) kind new) w ks vals fl := by
  unfold amoGiven at hf
  simp only [combineAt, orderedStart_local h, orderedGet_window, hf, orderedPut_window, orderedEnd_window, combined]

/-- `u` has done the combined operation of a set of `s` but for its threads: the place holds `new`, and the operation and the lanes
combined with its first one are counted. -/
structure HasCombined (s u : State) (d c place n lanes new : Nat) : Prop where
  value : rdNat u place n = new
  threads : ∀ k, thread u k = thread s k
  operations : rd u (sm d c 0x40) = satInc (rd s (sm d c 0x40))
  combinedLanes : rd u (sm d c 0x48) = satAdd (rd s (sm d c 0x48)) lanes
  stays : ∀ keys, StaysBut keys place n s u

theorem hasCombined (s : State) (d : ADie) (c : Cluster) (slot : Nat) (w : W32) (lanes place kind : Nat) {new : Nat}
    (hnew : new < 256 ^ amoSize w) :
    HasCombined s (combined (countInstr s d c) d c slot w lanes place kind new) d c place (amoSize w) lanes new := by
  obtain ⟨hnoted, hregs⟩ := orderedNote_shows
    (incBy (inc (wrBytes (countInstr s d c) place (leBytes (amoSize w) new)) (sm d c 0x40)) (sm d c 0x48) lanes) d c slot (place / 8) kind
  rw [← combined] at hnoted hregs
  have hstays (keys : List Nat) : StaysBut keys place (amoSize w) s (combined (countInstr s d c) d c slot w lanes place kind new) :=
    ((((staysBut_countInstr s d c).trans (staysBut_write _ new)).trans (staysBut_inc _ _)).trans (.of_same (same_incBy _ _ _) (by simp))).trans
      (staysBut_orderedNote _ d c slot _ kind)
  have hwritten (k : Nat) : rd (wrBytes (countInstr s d c) place (leBytes (amoSize w) new)) k = rd (countInstr s d c) k :=
    rd_congr (same_wrBytes (countInstr s d c) place _ .regs (by decide)) k
  refine ⟨?_, fun k => (hstays []).1 k List.not_mem_nil, ?_, ?_, hstays⟩
  · have hcounted := (same_inc (wrBytes (countInstr s d c) place (leBytes (amoSize w) new)) (sm d c 0x40)).trans (same_incBy _ (sm d c 0x48) lanes)
    rw [rdNat_congr ((hcounted.trans hnoted) .mem (by decide)), rdNat_wrBytes, Nat.mod_eq_of_lt hnew]
  · rw [hregs _ (sm_not_mem_choiceKeys d c (by simp)), incBy_wr, rd_wr_ne _ (by simp [sm_inj]), inc_wr, rd_wr_same, hwritten,
      regsBut_countInstr s d c _ (by simp [sm_inj])]
  · rw [hregs _ (sm_not_mem_choiceKeys d c (by simp)), incBy_wr, rd_wr_same, inc_wr, rd_wr_ne _ (by simp [sm_inj]), hwritten,
      regsBut_countInstr s d c _ (by simp [sm_inj])]

/-! ### Threads at one address -/

theorem amoGroups_one (s : State) (w : W32) (k : Nat) : amoGroups s w [k] = [(amoAddr w (thread s k), [k])] := by
  simp [amoGroups]

theorem amoGroups_pair {s : State} {w : W32} {k m : Nat} (hm : amoAddr w (thread s m) = amoAddr w (thread s k)) :
    amoGroups s w [k, m] = [(amoAddr w (thread s k), [k, m])] := by
  simp [amoGroups, hm]

theorem accrue_zero (h : Thread) : h.accrue 0 = h := by
  unfold Thread.accrue
  rw [show (0 : Byte) &&& 0x1F = 0#8 from rfl, BitVec.or_zero]

theorem giveAll_one (s : State) (w : W32) (k : Nat) (x : W64) (fl : Byte) :
    giveAll s w [k] [x] fl = retire s k (((thread s k).put (rvRd w) x).accrue fl) := rfl

theorem giveAll_pair (s : State) (w : W32) {k m : Nat} (hkm : k ≠ m) (x y : W64) : giveAll s w [k, m] [x, y] 0
    = retire (retire s k ((thread s k).put (rvRd w) x)) m ((thread s m).put (rvRd w) y) := by
  simp only [giveAll, List.zip_cons_cons, List.zip_nil_right, List.foldl_cons, List.foldl_nil, accrue_zero,
    thread_retire_ne s _ (Ne.symm hkm)]

/-- The integer combination of two operands: the second thread receives what the first one leaves (R248). -/
theorem combineInt_pair (w : W32) (old x y a b : Nat) : combineInt w old [(a, x), (b, y)]
    = (amoNat w (amoNat w old x) y, [amoOld w old, amoOld w (amoNat w old x)], 0) := rfl

/-! ### Operations of one thread (R250) -/

/-- The thread has taken its old value, and its operation is noted. -/
def finished (s : State) (d c slot : Nat) (w : W32) (k place : Nat) (v : W64) : State :=
  orderedNote (retire s k ((thread s k).put (rvRd w) v)) d c slot (place / 8) 0

theorem finished_shows {keys : List Nat} {place n k : Nat} {s t : State} (hk : k ∈ keys) (ht : StaysBut keys place n s t)
    (hthread : thread t k = thread s k) (d c slot : Nat) (w : W32) (v : W64) :
    let u := finished t d c slot w k place v
    u.mem = t.mem ∧ thread u k = retired ((thread s k).put (rvRd w) v) ∧ u.resv = t.resv ∧ StaysBut keys place n s u := by
  have hsame := same_orderedNote (retire t k ((thread t k).put (rvRd w) v)) d c slot (place / 8) 0
  have hretired := same_retire t k ((thread t k).put (rvRd w) v)
  have hmem := (hretired.trans hsame) .mem (by decide)
  have hresv := (hretired.trans hsame) .resv (by decide)
  refine ⟨hmem, ?_, hresv, (ht.trans (staysBut_retire hk t _)).trans (staysBut_orderedNote _ d c slot _ 0)⟩
  rw [finished, hsame.thread (by decide), thread_retire_same, hthread]

/-- A value that fits its place is read back after the operation is counted. -/
theorem rdNat_stored (s : State) {n v : Nat} (place key : Nat) (h : v < 256 ^ n) :
    rdNat (inc (wrBytes s place (leBytes n v)) key) place n = v := by
  rw [rdNat_congr (same_inc _ key .mem (by decide)), rdNat_wrBytes, Nat.mod_eq_of_lt h]

theorem thread_stored (s : State) (d c place key n v k : Nat) :
    thread (inc (wrBytes (countInstr s d c) place (leBytes n v)) key) k = thread s k :=
  (same_inc _ key).thread (by decide) k

theorem staysBut_stored {keys : List Nat} (s : State) (d c place key n v : Nat) :
    StaysBut keys place n s (inc (wrBytes (countInstr s d c) place (leBytes n v)) key) :=
  ((staysBut_countInstr s d c).trans (staysBut_write _ v)).trans (staysBut_inc _ key)

/-- No reservation of the thread is left. -/
def unreserved (s : State) (k : Nat) : State := { s with resv := s.resv.filter (fun r => !decide (r.1 = k)) }

theorem not_mem_unreserved (s : State) (k : Nat) : ∀ r ∈ (unreserved s k).resv, r.1 ≠ k := by
  intro r hr
  simpa using (List.mem_filter.1 hr).2

theorem staysBut_unreserved {keys : List Nat} {place n : Nat} (s : State) (k : Nat) : StaysBut keys place n s (unreserved s k) := staysBut_resv s _

/-- The thread alone has reserved a word (R250). -/
def reserved (s : State) (k word : Nat) : State := { s with resv := (k, word) :: (unreserved s k).resv }

theorem staysBut_reserved {keys : List Nat} {place n : Nat} (s : State) (k word : Nat) : StaysBut keys place n s (reserved s k word) :=
  staysBut_resv s _

section
variable {s : State} {d c o k : Nat} {w : W32} (h : localOff s d c (amoAddr w (thread s k)) (amoSize w) = some o) (slot : Nat)
include h

theorem serialOne_swap (hf : fld w 27 5 = 1) : serialOne s d c slot w k
    = finished (inc (wrBytes s (winBase d c + o) (leBytes (amoSize w) (amoGiven s w k))) (sm d c 0x40)) d c slot w k (winBase d c + o)
        (amoOld w (rdNat s (winBase d c + o) (amoSize w))) := by
  simp only [serialOne, orderedStart_local h, orderedGet_window, orderedPut_window, orderedEnd_window, hf]
  rfl

theorem serialOne_reserve (hf : fld w 27 5 = 2) : serialOne s d c slot w k
    = finished (inc (reserved s k ((winBase d c + o) / 8)) (sm d c 0x40)) d c slot w k (winBase d c + o)
        (amoOld w (rdNat s (winBase d c + o) (amoSize w))) := by
  simp only [serialOne, orderedStart_local h, orderedGet_window, orderedEnd_window, hf]
  rfl

theorem serialOne_store (hf : fld w 27 5 = 3) (hr : (k, (winBase d c + o) / 8) ∈ s.resv) : serialOne s d c slot w k
    = finished (unreserved (inc (wrBytes s (winBase d c + o) (leBytes (amoSize w) (amoGiven s w k))) (sm d c 0x40)) k) d c slot w k
        (winBase d c + o) 0 := by
  have hany : s.resv.any (fun r => decide (r.1 = k) && decide (r.2 = (winBase d c + o) / 8)) = true :=
    List.any_eq_true.2 ⟨_, hr, by simp⟩
  simp only [serialOne, orderedStart_local h, orderedPut_window, orderedEnd_window, hf, hany]
  rfl

theorem serialOne_fail (hf : fld w 27 5 = 3) (hr : (k, (winBase d c + o) / 8) ∉ s.resv) : serialOne s d c slot w k
    = finished (unreserved s k) d c slot w k (winBase d c + o) 1 := by
  have hany : s.resv.any (fun r => decide (r.1 = k) && decide (r.2 = (winBase d c + o) / 8)) = false := by
    rw [List.any_eq_false]
    rintro ⟨a, b⟩ hab heq
    simp only [Bool.and_eq_true, decide_eq_true_eq] at heq
    obtain ⟨rfl, rfl⟩ := heq
    exact hr hab
  simp only [serialOne, orderedStart_local h, orderedEnd_window, hf, hany]
  rfl

theorem casOne_local : casOne s d c slot w k
    = finished (inc (if rdNat s (winBase d c + o) (amoSize w) = ((thread s k).rx (rvRd w)).toNat % 2 ^ (8 * amoSize w)
        then wrBytes s (winBase d c + o) (leBytes (amoSize w) (amoGiven s w k)) else s) (sm d c 0x40)) d c slot w k
        (winBase d c + o) (amoOld w (rdNat s (winBase d c + o) (amoSize w))) := by
  simp only [casOne, orderedStart_local h, orderedGet_window, orderedPut_window, orderedEnd_window]
  split_ifs <;> rfl

end

/-! ### The operations of a set -/

section
variable {s : State} {d : ADie} {c : Cluster} {slot : SlotIx} {i : SetIssue} {w : W32}
  (hi : setIssue s d c slot = some i) (hw : i.instr = some w)
include hi hw

omit hi hw in
/-- An aligned operation inside the local window does not stop its thread. -/
theorem amoStop_countInstr {h : Thread} {o : Nat} (ha : amoAddr w h % amoSize w = 0) (ho : localOff s d c (amoAddr w h) (amoSize w) = some o)
    (write : Bool) : amoStop (countInstr s d c) d c w h write = none := by
  rw [amoStop, if_neg (by simp [ha])]
  exact accessStop_local ((localOff_countInstr s d c _ _).trans ho) write

section
variable (hok : ∀ k ∈ i.keys, amoAddr w (thread s k) % amoSize w = 0 ∧ (localOff s d c (amoAddr w (thread s k)) (amoSize w)).isSome = true)
include hok

omit hi hw in
theorem no_amoStop (write : Bool) : firstStop (i.keys.map (fun k => (k, amoStop (countInstr s d c) d c w (thread s k) write))) = none :=
  firstStop_eq_none fun k hk => by
    obtain ⟨halign, hlocal⟩ := hok k hk
    obtain ⟨o, ho⟩ := Option.isSome_iff_exists.1 hlocal
    exact amoStop_countInstr halign ho write

theorem execSetAmoCombine_of_local (hrow : setRow w = .combine) : exec (.setAmoCombine d c slot) s =
    .next ((amoGroups (countInstr s d c) w i.keys).foldl (fun t g => combineAt t d c slot w g.2 g.1 (amoKind w) (combineInt w))
      (countInstr s d c)) := by
  show execSetAmoCombine d c slot s = _
  rw [execSetAmoCombine, onRow_of_issue hi hw hrow]
  simp only [thread_countInstr, no_amoStop hok]

theorem execSmFadd_of_local (hrow : setRow w = .fadd) : exec (.smFadd d c slot) s =
    .next ((amoGroups (countInstr s d c) w i.keys).foldl (fun t g => combineAt t d c slot w g.2 g.1 0 (combineFadd w)) (countInstr s d c)) := by
  show execSmFadd d c slot s = _
  rw [execSmFadd, onRow_of_issue hi hw hrow]
  simp only [thread_countInstr, no_amoStop hok]

theorem execSetSerialAtomic_of_local (hrow : setRow w = .serial) : exec (.setSerialAtomic d c slot) s =
    .next (i.keys.foldl (fun t k => serialOne t d c slot w k) (countInstr s d c)) := by
  show execSetSerialAtomic d c slot s = _
  rw [execSetSerialAtomic, onRow_of_issue hi hw hrow]
  simp only [thread_countInstr, no_amoStop hok]

theorem execSmCas_of_local (hrow : setRow w = .cas) : exec (.smCas d c slot) s =
    .next (i.keys.foldl (fun t k => casOne t d c slot w k) (countInstr s d c)) := by
  show execSmCas d c slot s = _
  rw [execSmCas, onRow_of_issue hi hw hrow]
  simp only [thread_countInstr, no_amoStop hok]

end

/-- A combined operation of two threads on one place of the local window (R248). -/
theorem exec_combine_runs {k m o : Nat} (hkm : k ≠ m) (hkeys : i.keys = [k, m]) (hrow : setRow w = .combine)
    (halign : amoAddr w (thread s k) % amoSize w = 0) (ho : localOff s d c (amoAddr w (thread s k)) (amoSize w) = some o)
    (hm : amoAddr w (thread s m) = amoAddr w (thread s k)) {place old : Nat} (hplace : place = winBase d c + o)
    (hold : old = rdNat s place (amoSize w)) :
    Runs (.setAmoCombine d c slot) s (fun u => rdNat u place (amoSize w) = amoNat w (amoNat w old (amoGiven s w k)) (amoGiven s w m)
      ∧ thread u k = retired ((thread s k).put (rvRd w) (amoOld w old))
      ∧ thread u m = retired ((thread s m).put (rvRd w) (amoOld w (amoNat w old (amoGiven s w k))))
      ∧ rd u (sm d c 0x40) = satInc (rd s (sm d c 0x40)) ∧ rd u (sm d c 0x48) = satAdd (rd s (sm d c 0x48)) 1
      ∧ StaysBut i.keys place (amoSize w) s u) := by
  have hok : ∀ j ∈ i.keys, amoAddr w (thread s j) % amoSize w = 0
      ∧ (localOff s d c (amoAddr w (thread s j)) (amoSize w)).isSome = true := by
    intro j hj
    have haddr : amoAddr w (thread s j) = amoAddr w (thread s k) := by
      rw [hkeys, List.mem_pair] at hj
      obtain rfl | rfl := hj
      · rfl
      · exact hm
    rw [haddr]
    exact ⟨halign, Option.isSome_of_eq_some ho⟩
  have hexec := execSetAmoCombine_of_local hi hw hok hrow
  have hkmem : k ∈ i.keys := by simp [hkeys]
  have hmmem : m ∈ i.keys := by simp [hkeys]
  have hcombined := hasCombined s d c slot w ([k, m].length - 1) place (amoKind w)
    (amoNat_lt w (amoNat w old (amoGiven s w k)) (amoGiven s w m))
  simp only [hkeys, amoGroups_pair (s := countInstr s d c) hm, List.foldl_cons, List.foldl_nil, thread_countInstr] at hexec
  rw [combineAt_local ((localOff_countInstr s d c _ _).trans ho) slot [k, m] _ (combineInt_pair _ _ _ _ _ _), giveAll_pair _ _ hkm] at hexec
  simp only [amoGiven_countInstr, rdNat_countInstr, ← hplace, ← hold] at hexec
  obtain ⟨hvalue, hthreads, hops, hlanes, hstays⟩ := hcombined
  rw [hthreads, hthreads] at hexec
  generalize combined (countInstr s d c) d c slot w ([k, m].length - 1) place _ _ = t at *
  have hfirst := same_retire t k ((thread s k).put (rvRd w) (amoOld w old))
  have hretired := hfirst.trans (same_retire _ m ((thread s m).put (rvRd w) (amoOld w (amoNat w old (amoGiven s w k)))))
  have hregs := rd_congr (hretired .regs (by decide))
  refine ⟨_, hexec, ?_, ?_, thread_retire_same _ _ _, ?_, ?_, ?_⟩
  · rw [rdNat_congr (hretired .mem (by decide)), hvalue]
  · rw [thread_retire_ne _ _ hkm, thread_retire_same]
  · rw [hregs, hops]
  · rw [hregs, hlanes]
    rfl
  · exact ((hstays i.keys).trans (staysBut_retire hkmem _ _)).trans (staysBut_retire hmmem _ _)

/-! ### Operations of one thread (R249, R250) -/

section
variable {k o : Nat} (hkeys : i.keys = [k]) (halign : amoAddr w (thread s k) % amoSize w = 0)
  (ho : localOff s d c (amoAddr w (thread s k)) (amoSize w) = some o)
include hkeys halign ho

omit hi hw in
/-- The one thread does not stop. -/
theorem lone_ok : ∀ j ∈ i.keys, amoAddr w (thread s j) % amoSize w = 0
    ∧ (localOff s d c (amoAddr w (thread s j)) (amoSize w)).isSome = true := by
  simpa [hkeys] using ⟨halign, Option.isSome_of_eq_some ho⟩

variable {place old : Nat} (hplace : place = winBase d c + o) (hold : old = rdNat s place (amoSize w))
include hplace hold

/-- A sum of one thread. -/
theorem exec_fadd_runs (hrow : setRow w = .fadd) : Runs (.smFadd d c slot) s (fun u =>
    rdNat u place (amoSize w) = (faddSum w old (amoGiven s w k)).1
      ∧ thread u k = retired (((thread s k).put (rvRd w) (amoOld w old)).accrue (toFflags (faddSum w old (amoGiven s w k)).2))
      ∧ StaysBut i.keys place (amoSize w) s u) := by
  have hexec := execSmFadd_of_local hi hw (lone_ok hkeys halign ho) hrow
  have hkmem : k ∈ i.keys := by simp [hkeys]
  have hcombined := hasCombined s d c slot w ([k].length - 1) place 0 (faddSum_lt w old (amoGiven s w k))
  simp only [hkeys, amoGroups_one, List.foldl_cons, List.foldl_nil, thread_countInstr] at hexec
  rw [combineAt_local ((localOff_countInstr s d c _ _).trans ho) slot [k] _ (combineFadd_one w _ (Nat.mod_lt k (by decide)) _), giveAll_one]
    at hexec
  simp only [amoGiven_countInstr, rdNat_countInstr, ← hplace, ← hold] at hexec
  obtain ⟨hvalue, hthreads, -, -, hstays⟩ := hcombined
  rw [hthreads] at hexec
  generalize combined (countInstr s d c) d c slot w ([k].length - 1) place _ _ = t at *
  refine ⟨_, hexec, ?_, thread_retire_same _ _ _, (hstays i.keys).trans (staysBut_retire hkmem _ _)⟩
  rw [rdNat_congr (same_retire t k _ .mem (by decide)), hvalue]

omit hi hw hkeys halign in
/-- From the state with the set's instruction counted, the place is where it was and holds what it held. -/
theorem counted_place : localOff (countInstr s d c) d c (amoAddr w (thread (countInstr s d c) k)) (amoSize w) = some o
    ∧ amoGiven (countInstr s d c) w k = amoGiven s w k ∧ rdNat (countInstr s d c) (winBase d c + o) (amoSize w) = old := by
  refine ⟨(localOff_countInstr s d c _ _).trans ho, amoGiven_countInstr s d c w k, ?_⟩
  rw [rdNat_countInstr, hold, hplace]

omit hi hw halign ho hplace hold in
/-- The thread's operation on the local window ends in `t` but for the thread itself, which takes `v`. -/
theorem finished_runs {a : Instr} {t : State} {v : W64} (hexec : exec a s = .next (finished t d c slot w k place v))
    (ht : StaysBut i.keys place (amoSize w) s t) (hthread : thread t k = thread s k) :
    Runs a s (fun u => u.mem = t.mem ∧ thread u k = retired ((thread s k).put (rvRd w) v) ∧ u.resv = t.resv
      ∧ StaysBut i.keys place (amoSize w) s u) :=
  ⟨_, hexec, finished_shows (by simp [hkeys]) ht hthread d c slot w v⟩

omit hplace hold in
theorem exec_serialOne (hrow : setRow w = .serial) :
    exec (.setSerialAtomic d c slot) s = .next (serialOne (countInstr s d c) d c slot w k) := by
  rw [execSetSerialAtomic_of_local hi hw (lone_ok hkeys halign ho) hrow, hkeys]
  rfl

omit hplace hold in
theorem exec_casOne (hrow : setRow w = .cas) : exec (.smCas d c slot) s = .next (casOne (countInstr s d c) d c slot w k) := by
  rw [execSmCas_of_local hi hw (lone_ok hkeys halign ho) hrow, hkeys]
  rfl

/-- A swap. -/
theorem exec_swap_runs (hrow : setRow w = .serial) (hf : fld w 27 5 = 1) : Runs (.setSerialAtomic d c slot) s (fun u =>
    rdNat u place (amoSize w) = amoGiven s w k ∧ thread u k = retired ((thread s k).put (rvRd w) (amoOld w old))
      ∧ StaysBut i.keys place (amoSize w) s u) := by
  obtain ⟨hlocal, hgiven, hread⟩ := counted_place ho hplace hold
  have hexec := exec_serialOne hi hw hkeys halign ho hrow
  rw [serialOne_swap hlocal slot hf, hread, hgiven, ← hplace] at hexec
  obtain ⟨u, hu, hmem, hthread, -, hstays⟩ := finished_runs hkeys hexec (staysBut_stored _ _ _ _ _ _ _) (thread_stored _ _ _ _ _ _ _ _)
  exact ⟨u, hu, by rw [rdNat_congr hmem, rdNat_stored _ _ _ (amoGiven_lt s w k)], hthread, hstays⟩

/-- A load that reserves. -/
theorem exec_loadReserved_runs (hrow : setRow w = .serial) (hf : fld w 27 5 = 2) : Runs (.setSerialAtomic d c slot) s (fun u =>
    u.mem = s.mem ∧ thread u k = retired ((thread s k).put (rvRd w) (amoOld w old)) ∧ (k, place / 8) ∈ u.resv
      ∧ StaysBut i.keys place (amoSize w) s u) := by
  obtain ⟨hlocal, hgiven, hread⟩ := counted_place ho hplace hold
  have hexec := exec_serialOne hi hw hkeys halign ho hrow
  rw [serialOne_reserve hlocal slot hf, hread, ← hplace] at hexec
  have hinc := same_inc (reserved (countInstr s d c) k (place / 8)) (sm d c 0x40)
  obtain ⟨u, hu, hmem, hthread, hresv, hstays⟩ := finished_runs hkeys hexec
    (((staysBut_countInstr s d c).trans (staysBut_reserved _ _ _)).trans (staysBut_inc _ _)) (hinc.thread (by decide) k)
  refine ⟨u, hu, hmem.trans (hinc .mem (by decide)), hthread, ?_, hstays⟩
  rw [hresv.trans (hinc .resv (by decide))]
  exact List.mem_cons_self

/-- A store to the word that the thread has reserved. -/
theorem exec_storeConditional_runs (hrow : setRow w = .serial) (hf : fld w 27 5 = 3) (hr : (k, place / 8) ∈ s.resv) :
    Runs (.setSerialAtomic d c slot) s (fun u => rdNat u place (amoSize w) = amoGiven s w k
      ∧ thread u k = retired ((thread s k).put (rvRd w) 0) ∧ (∀ r ∈ u.resv, r.1 ≠ k) ∧ StaysBut i.keys place (amoSize w) s u) := by
  obtain ⟨hlocal, hgiven, hread⟩ := counted_place ho hplace hold
  have hexec := exec_serialOne hi hw hkeys halign ho hrow
  rw [serialOne_store hlocal slot hf (hplace ▸ hr), hgiven, ← hplace] at hexec
  have hvalue := rdNat_stored (countInstr s d c) place (sm d c 0x40) (amoGiven_lt s w k)
  have hkept := thread_stored s d c place (sm d c 0x40) (amoSize w) (amoGiven s w k) k
  have hstored := staysBut_stored (keys := i.keys) s d c place (sm d c 0x40) (amoSize w) (amoGiven s w k)
  generalize inc (wrBytes (countInstr s d c) place _) _ = t at hexec hvalue hkept hstored
  obtain ⟨u, hu, hmem, hthread, hresv, hstays⟩ := finished_runs hkeys hexec (hstored.trans (staysBut_unreserved t k)) hkept
  exact ⟨u, hu, (rdNat_congr hmem place (amoSize w)).trans hvalue, hthread, hresv ▸ not_mem_unreserved t k, hstays⟩

/-- A store to another word fails. -/
theorem exec_storeConditional_fails (hrow : setRow w = .serial) (hf : fld w 27 5 = 3) (hr : (k, place / 8) ∉ s.resv) :
    Runs (.setSerialAtomic d c slot) s (fun u => u.mem = s.mem ∧ thread u k = retired ((thread s k).put (rvRd w) 1)
      ∧ (∀ r ∈ u.resv, r.1 ≠ k) ∧ StaysBut i.keys place (amoSize w) s u) := by
  obtain ⟨hlocal, hgiven, hread⟩ := counted_place ho hplace hold
  have hexec := exec_serialOne hi hw hkeys halign ho hrow
  rw [serialOne_fail hlocal slot hf (hplace ▸ hr), ← hplace] at hexec
  obtain ⟨u, hu, hmem, hthread, hresv, hstays⟩ := finished_runs hkeys hexec
    ((staysBut_countInstr s d c).trans (staysBut_unreserved _ _)) rfl
  exact ⟨u, hu, hmem, hthread, hresv ▸ not_mem_unreserved _ k, hstays⟩

/-- A compare and swap. -/
theorem exec_cas_runs (hrow : setRow w = .cas) : Runs (.smCas d c slot) s (fun u => rdNat u place (amoSize w)
      = (if old = ((thread s k).rx (rvRd w)).toNat % 2 ^ (8 * amoSize w) then amoGiven s w k else old)
      ∧ thread u k = retired ((thread s k).put (rvRd w) (amoOld w old)) ∧ StaysBut i.keys place (amoSize w) s u) := by
  obtain ⟨hlocal, hgiven, hread⟩ := counted_place ho hplace hold
  have hexec := exec_casOne hi hw hkeys halign ho hrow
  rw [casOne_local hlocal slot, hread, hgiven, ← hplace, thread_countInstr] at hexec
  split_ifs at hexec ⊢ with heq
  · obtain ⟨u, hu, hmem, hthread, -, hstays⟩ := finished_runs hkeys hexec (staysBut_stored _ _ _ _ _ _ _) (thread_stored _ _ _ _ _ _ _ _)
    exact ⟨u, hu, by rw [rdNat_congr hmem, rdNat_stored _ _ _ (amoGiven_lt s w k)], hthread, hstays⟩
  · have hinc := same_inc (countInstr s d c) (sm d c 0x40)
    obtain ⟨u, hu, hmem, hthread, -, hstays⟩ := finished_runs hkeys hexec
      ((staysBut_countInstr s d c).trans (staysBut_inc _ _)) (hinc.thread (by decide) k)
    exact ⟨u, hu, by rw [rdNat_congr hmem, rdNat_congr (hinc .mem (by decide)), hplace, hread], hthread, hstays⟩
end
end
end Sys2Proof.Machine

open Sys2Proof Sys2Proof.Machine

/-- Settles O29: a combined operation is one read and one write of its place with the threads' operands folded in lane order, and
an operation of one thread is a read, a write or a reservation of its place before the thread takes its old value. -/
theorem setModeOrderedOperations : Obligations.SetModeOrderedOperations := by
  intro s d c slot i w k m o hi hw a n place old given stays halign ho
  exact ⟨fun hrow hkeys hkm hm => exec_combine_runs hi hw hkm hkeys hrow halign ho hm rfl rfl,
    fun hkeys => ⟨exec_fadd_runs hi hw hkeys halign ho rfl rfl, exec_swap_runs hi hw hkeys halign ho rfl rfl,
      exec_loadReserved_runs hi hw hkeys halign ho rfl rfl, exec_storeConditional_runs hi hw hkeys halign ho rfl rfl,
      exec_storeConditional_fails hi hw hkeys halign ho rfl rfl, exec_cas_runs hi hw hkeys halign ho rfl rfl⟩⟩
end

section
/-! An UP_APPLY whose update sequencer already stands at the cycle of its issue (R68, R273): the statement of O32 has the sequencer held
in the cycle before, and leaves out that UP_APPLY may also find it at the cycle itself. -/

namespace Sys2Proof.Machine

/-- The operands of an UP_APPLY of rule row 0, in a window of 20 cycles on cluster C0. -/
def applyOperands : BitVec 96 := BitVec.ofNat 96 (2 ^ 6 + 20 * 2 ^ 14)

/-- The update sequencer of die 2 stands at cycle 6, where its next order, an UP_APPLY, issues. -/
def applyAtIssue : State := setDie sequencerAtIssue 2 (fun x => { x with orders := [(14, [mkOrder 0xE3 6 applyOperands])] })

theorem applyAtIssue_ready : canIssue applyAtIssue 2 14 (mkOrder 0xE3 6 applyOperands) = true
    ∧ (eng applyAtIssue 2 14).reads = [] ∧ (eng applyAtIssue 2 14).writes = [] := by
  decide +kernel

theorem applyAtIssue_stays :
    Ends (exec (.upApply 2 6 applyOperands) applyAtIssue) (fun u => decide ((eng u 2 14).cycle = 6)) = true := by
  decide +kernel

end Sys2Proof.Machine

open Sys2Proof Sys2Proof.Machine

/-- Refutes O32: its clause of UP_APPLY has the sequencer at the cycle before the issue. `applyAtIssue` may issue an UP_APPLY of a zero
rule row at cycle 6 and stands at cycle 6 already, which no hold takes back. -/
theorem not_updateOrdersAndWindow : ¬ Obligations.UpdateOrdersAndWindow := by
  intro h
  obtain ⟨horders, -⟩ := h applyAtIssue 2 6 applyOperands 0 0 0
  obtain ⟨hcan, hreads, hwrites⟩ := applyAtIssue_ready
  have hquiet : Quiet applyAtIssue 2 14 6 := by simp [Quiet, hreads, hwrites]
  obtain ⟨-, -, -, happly⟩ := horders hquiet
  obtain ⟨hheld, -⟩ := happly hcan
  obtain ⟨u, ⟨hbefore, -⟩, hcycle⟩ := (hheld (by decide +kernel)).of_ends applyAtIssue_stays
  rw [decide_eq_true_eq] at hcycle
  exact absurd (hcycle.symm.trans hbefore) (by decide)
end

section
/-! The end of an update of one FP32 weight with its momentum (R261, R263, R264, R273), and O33. -/

namespace Sys2Proof.Machine

/-! ### Registers of the update sequencer (R279) -/

theorem up_inj {d a b : Nat} : up d a = up d b ↔ a = b := by
  unfold up key
  omega

theorem up_not_mem_noticeKeys {d off : Nat} (hd : d < 8) (ho : off < 2 ^ 20) : up d off ∉ noticeKeys :=
  not_mem_noticeKeys (by omega) (by omega)

theorem same_upEvent (s : State) (d i : Nat) : Same [.regs, .port] s (upEvent s d i) := same_raise s _ _ _ _ _ _ _

theorem regsBut_upEvent (s : State) (d i : Nat) : RegsBut (up d 0x38 :: noticeKeys) s (upEvent s d i) :=
  regsBut_raise s d 0xB000038 i _ _ _ _

theorem rdB_upEvent (s : State) {d i : Nat} (hd : d < 8) (hi : i < 64) : rdB (upEvent s d i) (up d 0x38) i = true :=
  rdB_raise_same s d 0xB000038 i _ _ _ _ (not_noticeReg (by omega) (by decide)) hi

/-- UP_STATUS is a view of the die's open windows. -/
theorem readReg_upStatus (s : State) {d : Nat} (hd : d < 8) : readReg s (up d 0) = upStatus s d := by
  have hdie : up d 0 / 1073741824 = d := by unfold up key; omega
  have hoff : up d 0 % 1073741824 = 0xB000000 := by unfold up key; omega
  have hpackage : ∀ off < 2 ^ 20, up d 0 ≠ bar0 off ∧ up d 0 ≠ hp off := by
    unfold up bar0 hp key
    omega
  have hview : readView s d 0xB000000 = some (upStatus s d) := by simp [readView]
  simp [readReg, hpackage, hdie, hoff, hview, hd]

theorem upStatus_of_ended {s : State} {d : Nat} (h : ∀ q ∈ s.upds, q.ended = true) : upStatus s d = 0 := by
  have hnone : s.upds.filter (fun u => decide (u.die = d) && u.opened && !u.ended) = [] :=
    List.filter_eq_nil_iff.2 fun q hq => by simp [h q hq]
  simp only [upStatus, hnone]

/-! ### Numbers in memory -/

theorem rdNat_wrBytes_out (s : State) {a b n : Nat} {l : List Byte} (h : b + n ≤ a ∨ a + l.length ≤ b) :
    rdNat (wrBytes s a l) b n = rdNat s b n := by
  have hbytes : rdBytes (wrBytes s a l) b n = rdBytes s b n := by
    refine List.map_congr_left fun i hi => rdByte_wrBytes_out s a l (b + i) ?_
    have hlt : i < n := List.mem_range.1 hi
    omega
  rw [rdNat, hbytes, ← rdNat]

/-! ### One element of the recurrence (R261) -/

/-- An FP32 number delivered again in FP32, as a load or a store of the state does (R262). -/
def again32 (w : Nat) : Nat := (convV .fp32 .rne (val32 w)).1

theorem again32_lt (w : Nat) : again32 w < 256 ^ 4 := by
  have hf : Fmt.fp32.IsFloat := by decide
  unfold again32 convV
  split
  · exact nan_lt hf
  · exact roundV_lt hf _ _

/-- The input that bit 0 of the byte at `g` stands for (R264). -/
def signInput (s : State) (g : Nat) : Nat := if (rdByte s g).toNat % 2 = 1 then minusOne32 else one32

/-- m' of a momentum `m` and an input `x`. -/
def newMomentum (q : Upd) (m x : Nat) : Nat := (fma32 (ruleF q 0) m (mul32 (ruleF q 4) x).1).1

/-- d of a new momentum `m` and an input `x`. -/
def direction (q : Upd) (m x : Nat) : Nat := (fma32 (ruleF q 8) m (mul32 (ruleF q 12) x).1).1

/-- 1 - λη. -/
def decay (q : Upd) : Nat := (add32 one32 (neg32 (mul32 (ruleF q 16) (ruleF q 20)).1)).1

/-- The new weight from `w` and the direction `dd`. -/
def newWeight (q : Upd) (w dd : Nat) : Nat := (fma32 (neg32 (ruleF q 20)) dd (mul32 (decay q) w).1).1

/-- The layer of an update is one FP32 weight at `a` with its FP32 momentum at `b` and its sign at `g`, without mask, mixing or sign
rules (R263 to R266). -/
structure OneWeight (q : Upd) (a b g : Nat) : Prop where
  cfg : q.cfg = [a, b, g, 0, 0, 0, 0, 0, 0, 0, 0]
  flags : leAt q.rule 32 1 = 0
  mixk : ruleMixk q = 0

section
variable {q : Upd} {a b g : Nat} (h : OneWeight q a b g)
include h

theorem OneWeight.ruleFlag (i : Nat) : ruleFlag q i = false := by simp [Machine.ruleFlag, h.flags]

theorem OneWeight.cols : upCols q = 1 := by simp [upCols, h.cfg, cfgOf]

theorem OneWeight.weightFmt : upW q = .fp32 := by simp [upW, h.cfg, cfgOf, upFmt]

theorem OneWeight.momentumFmt : upM q = .fp32 := by simp [upM, h.cfg, cfgOf, upFmt]

theorem OneWeight.present (s : State) : presentRows s q = [0] := by simp [presentRows, upRows, h.cfg, cfgOf, upTo]

theorem OneWeight.input (s : State) : (upInput s q 0).1 = signInput s g := by
  simp [upInput, signInput, h.cfg, cfgOf, Nat.testBit_zero]

/-- Phase 1: what is stored as momentum, and the direction. -/
theorem OneWeight.phase1 (s : State) : (upPhase1 s q 0).1 = again32 (newMomentum q (again32 (rdNat s b 4)) (signInput s g))
    ∧ (upPhase1 s q 0).2.1 = direction q (newMomentum q (again32 (rdNat s b 4)) (signInput s g)) (signInput s g) := by
  have hb : rdNat s (cfgOf q.cfg 1 + 0 * (Fmt.fp32.bits / 8)) (Fmt.fp32.bits / 8) = rdNat s b 4 := by simp [h.cfg, cfgOf, Fmt.bits]
  simp only [upPhase1, h.ruleFlag, h.momentumFmt, hb, h.input]
  exact ⟨rfl, rfl⟩

/-- Phase 3: what is stored as weight. -/
theorem OneWeight.phase3 (s : State) (dd : Nat) : (upPhase3 s q (decay q) 0 dd).1 = again32 (newWeight q (again32 (rdNat s a 4)) dd) := by
  have ha : rdNat s (cfgOf q.cfg 0 + 0 * (Fmt.fp32.bits / 8)) (Fmt.fp32.bits / 8) = rdNat s a 4 := by simp [h.cfg, cfgOf, Fmt.bits]
  simp only [upPhase3, h.weightFmt, ha]
  rfl

/-- The update writes the momentum, and then the weight. -/
theorem OneWeight.run (s : State) :
    let m := newMomentum q (again32 (rdNat s b 4)) (signInput s g)
    let t := wrBytes s b (leBytes 4 (again32 m))
    (upRun s q).1 = wrBytes t a (leBytes 4 (again32 (newWeight q (again32 (rdNat t a 4)) (direction q m (signInput s g))))) := by
  intro m t
  obtain ⟨hm, hd⟩ := h.phase1 s
  have hb : cfgOf q.cfg 1 = b := by simp [h.cfg, cfgOf]
  have ha : cfgOf q.cfg 0 = a := by simp [h.cfg, cfgOf]
  have hone : upTo 1 = [0] := rfl
  have hbytes : Fmt.fp32.bits / 8 = 4 := rfl
  simp only [upRun, h.present, h.cols, h.weightFmt, h.momentumFmt, h.ruleFlag, h.mixk, hone, hbytes, ha, hb, Bool.false_eq_true, if_false,
    if_true, List.map_cons, List.map_nil, List.zip_cons_cons, List.zip_nil_right, List.foldl_cons, List.foldl_nil, List.flatMap_cons,
    List.flatMap_nil, List.append_nil, Nat.zero_mul, Nat.add_zero, hm, hd, ← decay.eq_1, h.phase3]
  rfl

end

/-- What the end of an update has written: its weight and momentum read back, and no other byte has changed. -/
theorem OneWeight.writes {q : Upd} {a b g : Nat} (h : OneWeight q a b g) (s : State) (hab : a + 4 ≤ b ∨ b + 4 ≤ a) :
    let m := newMomentum q (again32 (rdNat s b 4)) (signInput s g)
    let u := (upRun s q).1
    rdNat u b 4 = again32 m ∧ rdNat u a 4 = again32 (newWeight q (again32 (rdNat s a 4)) (direction q m (signInput s g)))
      ∧ (∀ x, (x < a ∨ a + 4 ≤ x) → (x < b ∨ b + 4 ≤ x) → rdByte u x = rdByte s x)
      ∧ Same [.mem, .poisoned, .resv] s u := by
  intro m u
  have hu : u = _ := h.run s
  have hlen := length_leBytes 4
  rw [hu, rdNat_wrBytes_out s (by rw [hlen]; omega)]
  refine ⟨?_, ?_, fun x hxa hxb => ?_, ((same_wrBytes s b _).trans (same_wrBytes _ a _)).mono (by simp)⟩
  · rw [rdNat_wrBytes_out _ (by rw [hlen]; omega), rdNat_wrBytes, Nat.mod_eq_of_lt (again32_lt m)]
  · rw [rdNat_wrBytes, Nat.mod_eq_of_lt (again32_lt _)]
  · rw [rdByte_wrBytes_out _ _ _ _ (by rwa [hlen]), rdByte_wrBytes_out _ _ _ _ (by rwa [hlen])]

/-! ### The end of an update (R273, R279) -/

/-- The only update of the package has ended. -/
def updateClosed (s : State) (q : Upd) : State := { s with upds := [{ q with ended := true }] }

/-- The only update has ended with `present` rows, and is recorded in the registers. -/
def updateEnded (s : State) (d : Nat) (q : Upd) (present : Nat) : State :=
  let t := wr (wr (updateClosed s q) (up d 8) (BitVec.ofNat 64 (q.issue + 2 ^ 24 * fld q.order 32 6))) (up d 0x10) (BitVec.ofNat 64 present)
  upEvent (incBy (incBy (inc t (up d 0x18)) (up d 0x20) (present * upCols q)) (up d 0x28) (upBytes q present)) d 0

theorem same_updateClosed (s : State) (q : Upd) : Same [.upds] s (updateClosed s q) := same_upds s _

section
variable (s : State) (d : Nat) (q : Upd) (present : Nat)

theorem same_updateClosed_updateEnded : Same [.regs, .port] (updateClosed s q) (updateEnded s d q present) :=
  ((((((same_wr _ _ _).trans (same_wr _ _ _)).trans (same_inc _ _)).trans (same_incBy _ _ _)).trans (same_incBy _ _ _)).trans
    (same_upEvent _ d 0)).mono (by simp)

theorem same_updateEnded : Same [.upds, .regs, .port] s (updateEnded s d q present) :=
  ((same_updateClosed s q).trans (same_updateClosed_updateEnded s d q present)).mono (by simp)

theorem upds_updateEnded : (updateEnded s d q present).upds = [{ q with ended := true }] :=
  same_updateClosed_updateEnded s d q present .upds (by decide)

end

theorem updateEnded_shows (s : State) {d : Nat} (hd : d < 8) (q : Upd) (present : Nat) :
    let u := updateEnded s d q present
    readReg u (up d 0) = 0 ∧ rd u (up d 0x10) = BitVec.ofNat 64 present ∧ rd u (up d 0x18) = satInc (rd s (up d 0x18))
      ∧ rd u (up d 0x20) = satAdd (rd s (up d 0x20)) (present * upCols q) ∧ rdB u (up d 0x38) 0 = true := by
  have hevent : ∀ t off, off < 0x38 → rd (upEvent t d 0) (up d off) = rd t (up d off) := by
    intro t off hoff
    refine regsBut_upEvent t d 0 _ (List.not_mem_cons_of_ne_of_not_mem ?_ (up_not_mem_noticeKeys hd (by omega)))
    rw [Ne, up_inj]
    omega
  have hclosed : ∀ k, rd (updateClosed s q) k = rd s k := rd_congr rfl
  intro u
  refine ⟨?_, ?_, ?_, ?_, rdB_upEvent _ hd (by decide)⟩
  · rw [readReg_upStatus u hd]
    refine upStatus_of_ended fun v hv => ?_
    rw [upds_updateEnded s d q present, List.mem_singleton] at hv
    rw [hv]
  all_goals
    show rd (upEvent _ d 0) _ = _
    rw [hevent _ _ (by decide)]
    simp [incBy_wr, inc_wr, rd_wr_ne, up_inj, hclosed]

/-- A window that has not expired stays (R273). -/
theorem updSettle_of_open {s : State} (h : ∀ q ∈ s.upds, q.expired = false) (d issue : Nat) : updSettle s d issue = s := by
  have hnone : s.upds.find? (fun u => decide (u.die = d) && decide (u.issue = issue) && u.ended && u.expired) = none :=
    List.find?_eq_none.2 fun q hq => by simp [h q hq]
  simp only [updSettle, hnone]

/-- The end of the only update, without mixing and without clusters, whose window has not expired. -/
theorem exec_updateEnd {s : State} {d : ADie} {issue : BitVec 24} {q : Upd} (hupds : s.upds = [q]) (hdie : q.die = d.val)
    (hissue : q.issue = issue.toNat) (hopened : q.opened = true) (hended : q.ended = false) (hexpired : q.expired = false)
    (hmixk : ruleMixk q = 0) (hclusters : fld q.order 38 8 = 0) (hrun : (upRun s q).1.upds = s.upds) :
    exec (.updateEnd d issue false) s = .next (updateEnded (upRun s q).1 d q (presentRows s q).length) := by
  have hfind : s.upds.find? (fun u => decide (u.die = d.val) && decide (u.issue = issue.toNat) && u.opened && !u.ended) = some q := by
    simp [hupds, hdie, hissue, hopened, hended]
  have hnone : (upTo 8).filter (fun j => bitOf q.order (38 + j)) = [] :=
    List.filter_eq_nil_iff.2 fun j hj => by
      simp [bitOf_eq_testBit_fld q.order (lo := 38) (List.mem_range.1 hj), hclusters]
  have hclosed : (upRun s q).1.upds.map (fun v => if v = q then { v with ended := true } else v) = [{ q with ended := true }] := by
    simp [hrun, hupds]
  have hin : ¬ q.expired = true := by simp [hexpired]
  have hopen : ∀ v ∈ (updateEnded (upRun s q).1 d q (presentRows s q).length).upds, v.expired = false := by
    rw [upds_updateEnded]
    intro v hv
    rw [List.mem_singleton.1 hv, hexpired]
  show execUpdateEnd d issue false s = _
  simp only [execUpdateEnd, hfind, hnone, List.foldl_nil, hmixk, if_true, hclosed, Bool.false_eq_true, if_false]
  rw [if_neg hin]
  exact congrArg _ (updSettle_of_open hopen _ _)

end Sys2Proof.Machine

open Sys2Proof Sys2Proof.Machine

/-- Settles O33: the one weight and its momentum are what the recurrence delivers, rounding by rounding, and the end of the update
records itself beside them. -/
theorem updateRecurrence : Obligations.UpdateRecurrence := by
  intro s d issue q a b g hupds hdie hissue hopened hended hexpired hcfg hflags hmixk hclusters hab
  have hone : OneWeight q a b g := ⟨hcfg, hflags, hmixk⟩
  obtain ⟨hmomentum, hweight, hbytes, hsame⟩ := hone.writes s hab
  have hexec := exec_updateEnd hupds hdie hissue hopened hended hexpired hmixk hclusters (hsame .upds (by decide))
  rw [hone.present] at hexec
  have hregs := rd_congr (hsame .regs (by decide))
  have hend := same_updateEnded (upRun s q).1 d q 1
  have hmem := hend .mem (by decide)
  obtain ⟨hstatus, hpresent, happlies, helements, hevent⟩ := updateEnded_shows (upRun s q).1 d.isLt q 1
  rw [hregs] at happlies helements
  rw [hone.cols] at helements
  exact ⟨_, hexec, (rdNat_congr hmem b 4).trans hmomentum, (rdNat_congr hmem a 4).trans hweight,
    fun x hxa hxb => (rdByte_congr hmem x).trans (hbytes x hxa hxb), upds_updateEnded _ _ _ _, hstatus, hpresent, happlies, helements,
    hevent, (hsame.trans hend).mono (by simp)⟩
end

section
/-! The canonical form of the four byte stores (`State.Inv`) under the model's operations. An operation that writes no store leaves
the invariant as it is (`(f s).Inv ↔ s.Inv`, by which simp removes it); one that writes a store keeps it (`s.Inv → (f s).Inv`). Every
write of a store is `putBytes`, the erasure of a range, or the empty store, and each keeps the form (`storesWf_put…`). -/

namespace Sys2Proof.Machine

/-- The four byte stores are in their canonical form. -/
def StoresWf (mem hostMem nportMem bar2 : Store Byte) : Prop :=
  Memory.wf mem = true ∧ Memory.wf hostMem = true ∧ Memory.wf nportMem = true ∧ Memory.wf bar2 = true

@[simp] theorem inv_mk {q x1 m h n b x6 x7 x8 x9 x10 x11 x12 x13 x14 x15 x16 x17 x18 x19 g x21 x22 x23 x24 x25 x26 x27
      x28 x29 x30 x31 x32 x33 x34 x35 x36 x37 x38 x39 x40 x41 x42 x43 x44 x45 x46 x47 x48 x49 x50 x51 x52 x53 x54 x55 x56 x57
      x58 x59 x60 x61 x62 x63 x64 x65 x66} :
    State.Inv (.mk q x1 m h n b x6 x7 x8 x9 x10 x11 x12 x13 x14 x15 x16 x17 x18 x19 g x21 x22 x23 x24 x25 x26 x27
      x28 x29 x30 x31 x32 x33 x34 x35 x36 x37 x38 x39 x40 x41 x42 x43 x44 x45 x46 x47 x48 x49 x50 x51 x52 x53 x54 x55 x56 x57
      x58 x59 x60 x61 x62 x63 x64 x65 x66) ↔ StoresWf m h n b := Iff.rfl

@[simp] theorem storesWf_eta (s : State) : StoresWf s.mem s.hostMem s.nportMem s.bar2 ↔ s.Inv := Iff.rfl
@[simp] theorem inv_ite (c : Prop) [Decidable c] (a b : State) :
    (if c then a else b).Inv ↔ if c then a.Inv else b.Inv := by split <;> rfl

/-! Writes of the stores. -/

@[simp] theorem storesWf_putMem {m h n b : Store Byte} (hs : StoresWf m h n b) (a : Nat) (l : List Byte) :
    StoresWf (putBytes m a l) h n b := ⟨memory_wf_putBytes l m a hs.1, hs.2⟩
@[simp] theorem storesWf_putHostMem {m h n b : Store Byte} (hs : StoresWf m h n b) (a : Nat) (l : List Byte) :
    StoresWf m (putBytes h a l) n b := ⟨hs.1, memory_wf_putBytes l h a hs.2.1, hs.2.2⟩
@[simp] theorem storesWf_putNportMem {m h n b : Store Byte} (hs : StoresWf m h n b) (a : Nat) (l : List Byte) :
    StoresWf m h (putBytes n a l) b := ⟨hs.1, hs.2.1, memory_wf_putBytes l n a hs.2.2.1, hs.2.2.2⟩
@[simp] theorem storesWf_putBar2 {m h n b : Store Byte} (hs : StoresWf m h n b) (a : Nat) (l : List Byte) :
    StoresWf m h n (putBytes b a l) := ⟨hs.1, hs.2.1, hs.2.2.1, memory_wf_putBytes l b a hs.2.2.2⟩
@[simp] theorem storesWf_eraseMem {m h n b : Store Byte} (hs : StoresWf m h n b) (lo hi : Nat) :
    StoresWf (Store.eraseRange m lo hi) h n b := ⟨Store.wf_eraseRange memDefault lo hi hs.1, hs.2⟩
@[simp] theorem storesWf_noMem {s : State} (hs : s.Inv) : StoresWf [] s.hostMem s.nportMem s.bar2 := ⟨Store.wf_nil _, hs.2⟩

theorem inv_foldl_of {σ α : Type} (p : σ → State) {f : σ → α → σ} (h : ∀ r a, (p (f r a)).Inv ↔ (p r).Inv)
    (l : List α) (r : σ) : (p (l.foldl f r)).Inv ↔ (p r).Inv := by
  induction l generalizing r with
  | nil => rfl
  | cons a l ih => rw [List.foldl_cons, ih, h]

@[simp] theorem inv_foldl {α : Type} {f : State → α → State} (h : ∀ s a, (f s a).Inv ↔ s.Inv)
    (l : List α) (s : State) : (l.foldl f s).Inv ↔ s.Inv := inv_foldl_of id h l s

@[simp] theorem inv_foldr {α : Type} {f : α → State → State} (h : ∀ a s, (f a s).Inv ↔ s.Inv)
    (l : List α) (s : State) : (l.foldr f s).Inv ↔ s.Inv := by
  induction l with
  | nil => rfl
  | cons a l ih => rw [List.foldr_cons, h, ih]

/-- A fold whose steps keep the invariant keeps it. -/
theorem inv_foldl_imp_of {σ α : Type} (p : σ → State) {f : σ → α → σ} (hf : ∀ r a, (p r).Inv → (p (f r a)).Inv) (l : List α) {r : σ}
    (h : (p r).Inv) : (p (l.foldl f r)).Inv :=
  foldl_keeps (fun r => (p r).Inv) f hf l r h

@[simp] theorem inv_foldl_imp {α : Type} {f : State → α → State} (hf : ∀ s a, s.Inv → (f s a).Inv) (l : List α) {s : State}
    (h : s.Inv) : (l.foldl f s).Inv := inv_foldl_imp_of id hf l h

/-- The state that a command answers meets the invariant. -/
def NextInv (o : Host.Outcome State Fault Refusal) : Prop := ∀ u, o = .next u → u.Inv

@[simp] theorem nextInv_next {u : State} : NextInv (.next u) ↔ u.Inv := by simp [NextInv]

/-! ### Ops -/

@[simp] theorem inv_wr (s k v) : (wr s k v).Inv ↔ s.Inv := Iff.rfl
@[simp] theorem inv_upd (s k f) : (upd s k f).Inv ↔ s.Inv := by simp [upd]
@[simp] theorem inv_wrF (s k lo len v) : (wrF s k lo len v).Inv ↔ s.Inv := by simp [wrF]
@[simp] theorem inv_wrB (s k i b) : (wrB s k i b).Inv ↔ s.Inv := by simp [wrB]
@[simp] theorem inv_inc (s k) : (inc s k).Inv ↔ s.Inv := by simp [inc]
@[simp] theorem inv_incBy (s k n) : (incBy s k n).Inv ↔ s.Inv := by simp [incBy]
@[simp] theorem inv_drawWord (s) : (drawWord s).2.Inv ↔ s.Inv := Iff.rfl
@[simp] theorem inv_drawBytes (s n) : (drawBytes s n).2.Inv ↔ s.Inv := Iff.rfl
@[simp] theorem inv_otherOp (s mine key kind) : (otherOp s mine key kind).Inv ↔ s.Inv := by simp [otherOp]
@[simp] theorem inv_pushNotice (s typ status src code d0 d1 d2 d3) :
    (pushNotice s typ status src code d0 d1 d2 d3).Inv ↔ s.Inv := Iff.rfl
@[simp] theorem inv_hpEvent (s i) : (hpEvent s i).Inv ↔ s.Inv := by simp [hpEvent]
@[simp] theorem inv_overflowNotice (s) : (overflowNotice s).Inv ↔ s.Inv := by simp [overflowNotice]
@[simp] theorem inv_post (s typ status src code d0 d1 d2 d3) :
    (post s typ status src code d0 d1 d2 d3).Inv ↔ s.Inv := by simp [post]
@[simp] theorem inv_raise (s d off i w0 w1 w2 w3) : (raise s d off i w0 w1 w2 w3).Inv ↔ s.Inv := by simp [raise]
@[simp] theorem inv_mtcEvent (s i) : (mtcEvent s i).Inv ↔ s.Inv := by simp [mtcEvent]
@[simp] theorem inv_mtcMove (s st) : (mtcMove s st).Inv ↔ s.Inv := by simp [mtcMove]
@[simp] theorem inv_gdEvent (s i) : (gdEvent s i).Inv ↔ s.Inv := by simp [gdEvent]
@[simp] theorem inv_forgetGranules (s base n) (h : s.Inv) : (forgetGranules s base n).Inv := by simp [forgetGranules, h]
@[simp] theorem inv_destroyKeys (s) (h : s.Inv) : (destroyKeys s).Inv := by simp +contextual [destroyKeys, h]
@[simp] theorem inv_setJob (s st status) : (setJob s st status).Inv ↔ s.Inv := by simp [setJob]
@[simp] theorem inv_setDevice (s st status) : (setDevice s st status).Inv ↔ s.Inv := by simp [setDevice]
@[simp] theorem inv_refreshAlerts (s) : (refreshAlerts s).Inv ↔ s.Inv := by simp [refreshAlerts]
@[simp] theorem inv_unitChanged (s) : (unitChanged s).Inv ↔ s.Inv := Iff.rfl
@[simp] theorem inv_updCmd (s q f) : (updCmd s q f).Inv ↔ s.Inv := by simp [updCmd]
@[simp] theorem inv_doneCmd (s q status detail value result) :
    (doneCmd s q status detail value result).Inv ↔ s.Inv := by simp [doneCmd]
@[simp] theorem inv_failCmd (s q status) : (failCmd s q status).Inv ↔ s.Inv := by simp [failCmd]

@[simp] theorem inv_endJobCmds (s status) : (endJobCmds s status).Inv ↔ s.Inv := by
  simp only [endJobCmds]
  repeat' split
  all_goals simp

@[simp] theorem inv_ttFailed (s) : (ttFailed s).Inv ↔ s.Inv := by simp [ttFailed]
@[simp] theorem inv_failJob (s status) : (failJob s status).Inv ↔ s.Inv := by simp [failJob]
@[simp] theorem inv_openGates (s) (h : s.Inv) : (openGates s).Inv := by simp [openGates, h]
@[simp] theorem inv_failDevice (s) (h : s.Inv) : (failDevice s).Inv := by simp [failDevice, h]

/-! ### Aplic -/

@[simp] theorem inv_apPut (s m off i b) : (apPut s m off i b).Inv ↔ s.Inv := by simp [apPut]
@[simp] theorem inv_aplicSync (s) : (aplicSync s).Inv ↔ s.Inv := by simp [aplicSync]
@[simp] theorem inv_apSend (s m w) : (apSend s m w).Inv ↔ s.Inv := by simp [apSend]

@[simp] theorem inv_aplicForward (s) : (aplicForward s).Inv ↔ s.Inv := by
  simp only [aplicForward, inv_ite]
  repeat' split
  all_goals simp

@[simp] theorem inv_apSetPending (s m i) : (apSetPending s m i).Inv ↔ s.Inv := by simp [apSetPending]
@[simp] theorem inv_apSource (s m off i b) : (apSource s m off i b).Inv ↔ s.Inv := by simp [apSource]
@[simp] theorem inv_apSourceCfg (s m i w) : (apSourceCfg s m i w).Inv ↔ s.Inv := by simp [apSourceCfg]
@[simp] theorem inv_aplicWrite (s m o w) : (aplicWrite s m o w).Inv ↔ s.Inv := by simp [aplicWrite]
@[simp] theorem inv_w1c (s k v same) : (w1c s k v same).Inv ↔ s.Inv := by simp [w1c]

/-! ### Mtc -/

@[simp] theorem inv_advance (s t) : (advance s t).Inv ↔ s.Inv := by
  simp only [advance, inv_ite]
  repeat' split
  all_goals simp

@[simp] theorem inv_sourceLost (s) : (sourceLost s).Inv ↔ s.Inv := by simp [sourceLost]
@[simp] theorem inv_shiftParts (s f) : (shiftParts s f).Inv ↔ s.Inv := Iff.rfl
@[simp] theorem inv_shiftTimers (s d) : (shiftTimers s d).Inv ↔ s.Inv := by simp [shiftTimers]
@[simp] theorem inv_mtcStep (s off) : (mtcStep s off).Inv ↔ s.Inv := by simp [mtcStep]
@[simp] theorem inv_slewed (s off since) : (slewed s off since).2.Inv ↔ s.Inv := by simp [slewed]

@[simp] theorem inv_applyStep (s) : (applyStep s).Inv ↔ s.Inv := by
  unfold applyStep
  split <;> simp

@[simp] theorem inv_learn (s) : (learn s).Inv ↔ s.Inv := by simp [learn]
@[simp] theorem inv_runsReset (s) : (runsReset s).Inv ↔ s.Inv := Iff.rfl
@[simp] theorem inv_measure (s off goodRun badRun) : (measure s off goodRun badRun).Inv ↔ s.Inv := by simp [measure]
@[simp] theorem inv_missEdge (s base) : (missEdge s base).Inv ↔ s.Inv := by simp [missEdge]

@[simp] theorem inv_ttodMessage (s t msg) : (ttodMessage s t msg).Inv ↔ s.Inv := by
  simp only [ttodMessage, inv_ite, inv_advance, inv_upd, inv_wr, inv_wrB, inv_mtcEvent
    , inv_mtcMove, inv_mk, storesWf_eta, ite_self]

@[simp] theorem inv_tppsEdge (s t) : (tppsEdge s t).Inv ↔ s.Inv := by
  simp only [tppsEdge, inv_ite]
  repeat' split
  all_goals simp

@[simp] theorem inv_ibMeasure (s off) : (ibMeasure s off).Inv ↔ s.Inv := by simp [ibMeasure]
@[simp] theorem inv_noteCause (s d bit) : (noteCause s d bit).Inv ↔ s.Inv := Iff.rfl
@[simp] theorem nextInv_execTrefLost (t s) (h : s.Inv) : NextInv (execTrefLost t s) := by simp [execTrefLost, h]
@[simp] theorem nextInv_execTrefReturn (t s) (h : s.Inv) : NextInv (execTrefReturn t s) := by simp [execTrefReturn, h]
@[simp] theorem nextInv_execTrefHoldExpiry (t s) (h : s.Inv) : NextInv (execTrefHoldExpiry t s) := by simp [execTrefHoldExpiry, h]
@[simp] theorem nextInv_execTtodTimeout (t s) (h : s.Inv) : NextInv (execTtodTimeout t s) := by simp [execTtodTimeout, h]

@[simp] theorem nextInv_execTppsMissing (t s) (h : s.Inv) : NextInv (execTppsMissing t s) := by
  simp only [execTppsMissing, nextInv_next]
  split <;> simp [h]

@[simp] theorem nextInv_execHoldoverExpiry (t s) (h : s.Inv) : NextInv (execHoldoverExpiry t s) := by simp [execHoldoverExpiry, h]
@[simp] theorem nextInv_execHoldEligible (t s) (h : s.Inv) : NextInv (execHoldEligible t s) := by simp [execHoldEligible, h]
@[simp] theorem inv_sourceChanged (s old) : (sourceChanged s old).Inv ↔ s.Inv := by simp [sourceChanged]
@[simp] theorem nextInv_execMtcRegisterWrite (off v same s) (h : s.Inv) : NextInv (execMtcRegisterWrite off v same s) := by
  simp [execMtcRegisterWrite, h]

/-! ### Memory -/

@[simp] theorem inv_wrBytes (s a l) (h : s.Inv) : (wrBytes s a l).Inv := by simp [wrBytes, h]
@[simp] theorem inv_ttEvent (s d i) : (ttEvent s d i).Inv ↔ s.Inv := by simp [ttEvent]
@[simp] theorem inv_denyAt (s h pa die kind) : (denyAt s h pa die kind).Inv ↔ s.Inv := by simp [denyAt]
@[simp] theorem inv_deny (s pa die kind) : (deny s pa die kind).Inv ↔ s.Inv := by simp [deny]
@[simp] theorem inv_jPut (s d l v) : (jPut s d l v).Inv ↔ s.Inv := Iff.rfl
@[simp] theorem inv_putLine (s l v) (h : s.Inv) : (putLine s l v).Inv := by simp [putLine, h]
@[simp] theorem inv_dirDrop (s l) : (dirDrop s l).Inv ↔ s.Inv := by simp [dirDrop]

@[simp] theorem inv_dirRefresh (s l) : (dirRefresh s l).Inv ↔ s.Inv := by
  unfold dirRefresh
  split <;> simp

@[simp] theorem inv_invalidateLine (s l keep) (h : s.Inv) : (invalidateLine s l keep).Inv := by
  unfold invalidateLine
  split <;> simp [h]

@[simp] theorem inv_snoopReadLine (s l) : (snoopReadLine s l).Inv ↔ s.Inv := by simp [snoopReadLine]
@[simp] theorem inv_cohTouch (s a n) : (cohTouch s a n).Inv ↔ s.Inv := by simp [cohTouch]
@[simp] theorem inv_cohWrite (s a l) (h : s.Inv) : (cohWrite s a l).Inv :=
  inv_wrBytes _ a l (inv_foldl_imp (fun s x h => inv_invalidateLine s x _ h) _ h)

@[simp] theorem inv_dirtyEvict (s l) (h : s.Inv) : (dirtyEvict s l).Inv := by
  unfold dirtyEvict
  split
  · dsimp only
    split <;> simp [h]
  · exact h

@[simp] theorem inv_hostPut (s x v) (h : s.Inv) : (hostPut s x v).Inv := by simp [hostPut, h]
@[simp] theorem inv_hostPosted (s a l) (h : s.Inv) : (hostPosted s a l).Inv :=
  storesWf_putHostMem (inv_foldl_imp (fun s x h => inv_dirtyEvict s x h) _ h) a l
@[simp] theorem inv_hostWrite (s a l) (h : s.Inv) : (hostWrite s a l).Inv := by simp +contextual [hostWrite, h]
@[simp] theorem inv_hostFlush (s a n) (h : s.Inv) : (hostFlush s a n).Inv := by simp +contextual [hostFlush, h]

/-! ### Pipe -/

@[simp] theorem inv_setEng (s d e f) : (setEng s d e f).Inv ↔ s.Inv := Iff.rfl
@[simp] theorem inv_setPlane (s d q mode anchor) : (setPlane s d q mode anchor).Inv ↔ s.Inv := by simp [setPlane]
@[simp] theorem inv_setCell (s d q ix c) : (setCell s d q ix c).Inv ↔ s.Inv := by simp [setCell]
@[simp] theorem inv_vcEvent (s d c i) : (vcEvent s d c i).Inv ↔ s.Inv := by simp [vcEvent]
@[simp] theorem inv_maEvent (s d i) : (maEvent s d i).Inv ↔ s.Inv := by simp [maEvent]
@[simp] theorem inv_orMaFlags (s d f) : (orMaFlags s d f).Inv ↔ s.Inv := by simp [orMaFlags]
@[simp] theorem inv_orVcFlags (s d c g f) : (orVcFlags s d c g f).Inv ↔ s.Inv := by simp [orVcFlags]

@[simp] theorem inv_applyPut (s d e p) (h : s.Inv) : (applyPut s d e p).Inv := by
  unfold applyPut
  split <;> simp [h]

@[simp] theorem inv_doWrites (s d e t) (h : s.Inv) : (doWrites s d e t).Inv := by simp +contextual [doWrites, h]
@[simp] theorem inv_setDie (s d f) : (setDie s d f).Inv ↔ s.Inv := Iff.rfl
@[simp] theorem inv_lateCauses (s d causes) : (lateCauses s d causes).Inv ↔ s.Inv := by simp [lateCauses]
@[simp] theorem inv_countHold (s d causes) : (countHold s d causes).Inv ↔ s.Inv := by simp [countHold]
@[simp] theorem inv_countLate (s d k beats causes) : (countLate s d k beats causes).Inv ↔ s.Inv := by simp [countLate]
@[simp] theorem inv_setHold (s d e h) : (setHold s d e h).Inv ↔ s.Inv := by simp [setHold]
@[simp] theorem inv_sendSig (s o) : (sendSig s o).Inv ↔ s.Inv := Iff.rfl
@[simp] theorem inv_sendAdd1 (s d e sig) : (sendAdd1 s d e sig).Inv ↔ s.Inv := by simp [sendAdd1]

/-! ### Links -/

@[simp] theorem inv_setPort (s p f) : (setPort s p f).Inv ↔ s.Inv := by simp [setPort]
@[simp] theorem inv_omEvent (s p i) : (omEvent s p i).Inv ↔ s.Inv := by simp [omEvent]
@[simp] theorem inv_ceEvent (s d i) : (ceEvent s d i).Inv ↔ s.Inv := by simp [ceEvent]
@[simp] theorem inv_setSelf (s gpid pos rank inJob) : (setSelf s gpid pos rank inJob).Inv ↔ s.Inv := by simp [setSelf]
@[simp] theorem inv_enqueue (s p f) : (enqueue s p f).Inv ↔ s.Inv := by simp [enqueue]

@[simp] theorem inv_sendBooked (s kind path dst owner pl) :
    (sendBooked s kind path dst owner pl).Inv ↔ s.Inv := by
  unfold sendBooked
  split <;> simp

@[simp] theorem inv_sendUnbooked (s d kind tag dst pl) : (sendUnbooked s d kind tag dst pl).1.Inv ↔ s.Inv := by
  unfold sendUnbooked
  split <;> simp

/-! ### Signals -/

@[simp] theorem inv_setThread (s k f) : (setThread s k f).Inv ↔ s.Inv := Iff.rfl
@[simp] theorem inv_answerSig (s o old) : (answerSig s o old).Inv ↔ s.Inv := by simp [answerSig]
@[simp] theorem inv_applySig (s o) : (applySig s o).Inv ↔ s.Inv := by simp [applySig]

@[simp] theorem inv_seeWaits (s d) : (seeWaits s d).Inv ↔ s.Inv := by
  unfold seeWaits
  extract_lets s1 s2
  have h1 : s1.Inv ↔ s.Inv := by
    refine inv_foldl (fun s e => ?_) _ _
    split <;> simp
  have h2 : s2.Inv ↔ s1.Inv := by
    refine inv_foldl (fun s k => ?_) _ _
    split <;> simp
  simp [h2, h1]

@[simp] theorem nextInv_execSignalOpArrival (d picks s) (h : s.Inv) : NextInv (execSignalOpArrival d picks s) := by
  simp [execSignalOpArrival, h]
@[simp] theorem inv_sgWrite (s d k v add) : (sgWrite s d k v add).Inv ↔ s.Inv := by simp [sgWrite]
@[simp] theorem nextInv_execSgWaitCfgWrite (d w v s) (h : s.Inv) : NextInv (execSgWaitCfgWrite d w v s) := by
  simp [execSgWaitCfgWrite, h]
@[simp] theorem nextInv_execWaitSlotFire (d w s) (h : s.Inv) : NextInv (execWaitSlotFire d w s) := by simp [execWaitSlotFire, h]

/-! ### Translate -/

@[simp] theorem inv_tuEvent (s d i) : (tuEvent s d i).Inv ↔ s.Inv := by simp [tuEvent]

@[simp] theorem inv_afterTranslate (s d e va write) : (afterTranslate s d e va write).Inv ↔ s.Inv := by
  simp only [afterTranslate, inv_ite]
  repeat' split
  all_goals simp

@[simp] theorem inv_afterPieces (d e write s l) : (afterPieces d e write s l).Inv ↔ s.Inv := by
  induction l generalizing s with
  | nil => exact Iff.rfl
  | cons p t ih =>
    unfold afterPieces
    dsimp only
    split <;> simp [ih]

@[simp] theorem inv_afterVirt (s d e va n write) : (afterVirt s d e va n write).Inv ↔ s.Inv := by simp [afterVirt]

@[simp] theorem inv_faultRecord (s d e k window cause write va) :
    (faultRecord s d e k window cause write va).Inv ↔ s.Inv := by
  unfold faultRecord
  repeat' split
  all_goals simp

@[simp] theorem inv_freeRec (s d i) : (freeRec s d i).Inv ↔ s.Inv := by
  simp only [freeRec]
  split <;> simp

@[simp] theorem inv_freeAllRecs (s) : (freeAllRecs s).Inv ↔ s.Inv := by simp [freeAllRecs]
@[simp] theorem inv_winCacheFill (s d v g) : (winCacheFill s d v g).Inv ↔ s.Inv := by simp [winCacheFill]

@[simp] theorem inv_denyRemote (s d refused) : (denyRemote s d refused).Inv ↔ s.Inv := by
  unfold denyRemote
  split <;> simp

@[simp] theorem nextInv_execTuSatpWrite (d v s) (h : s.Inv) : NextInv (execTuSatpWrite d v s) := by simp [execTuSatpWrite, h]
@[simp] theorem nextInv_execTranslationWalk (d e va write s) (h : s.Inv) : NextInv (execTranslationWalk d e va write s) := by
  simp [execTranslationWalk, h]

@[simp] theorem inv_walkComplete (s d e) : (walkComplete s d e).Inv ↔ s.Inv := by
  simp only [walkComplete]
  repeat' split
  all_goals simp

@[simp] theorem nextInv_execFaultKeyArrival (d sender k window s) (h : s.Inv) :
    NextInv (execFaultKeyArrival d sender k window s) := by
  simp only [execFaultKeyArrival, nextInv_next, inv_ite]
  repeat' split
  all_goals simp [h]

@[simp] theorem nextInv_execOwWindowWrite (d recv w v s) (h : s.Inv) : NextInv (execOwWindowWrite d recv w v s) := by
  simp [execOwWindowWrite, h]
@[simp] theorem nextInv_execTuWinfence (d v s) (h : s.Inv) : NextInv (execTuWinfence d v s) := by simp [execTuWinfence, h]
@[simp] theorem nextInv_execWinfenceDone (s) (h : s.Inv) : NextInv (execWinfenceDone s) := by simp [execWinfenceDone, h]

/-! ### StreamCache -/

@[simp] theorem inv_scPut (s cl i e) : (scPut s cl i e).Inv ↔ s.Inv := Iff.rfl
@[simp] theorem inv_setStream (s cl n f) : (setStream s cl n f).Inv ↔ s.Inv := Iff.rfl
@[simp] theorem inv_scRefresh (s cl) : (scRefresh s cl).Inv ↔ s.Inv := by simp [scRefresh]
@[simp] theorem inv_scWriteBack (s cl i which) (h : s.Inv) : (scWriteBack s cl i which).Inv := by
  simp +contextual [scWriteBack, h]
@[simp] theorem inv_scDrop (s cl i which) : (scDrop s cl i which).Inv ↔ s.Inv := by simp [scDrop]
@[simp] theorem inv_scFlush (s cl) (h : s.Inv) : (scFlush s cl).Inv := by simp +contextual [scFlush, h]

@[simp] theorem inv_scAlloc (s cl page ppage) (h : s.Inv) : (scAlloc s cl page ppage).1.Inv := by
  unfold scAlloc
  split <;> simp [h]

@[simp] theorem inv_scFill (s cl i k) : (scFill s cl i k).Inv ↔ s.Inv := by simp [scFill]
@[simp] theorem inv_scTouch (s cl i) : (scTouch s cl i).Inv ↔ s.Inv := by simp [scTouch]
@[simp] theorem inv_strideMiss (s cl n x) : (strideMiss s cl n x).Inv ↔ s.Inv := by simp [strideMiss]
@[simp] theorem inv_prefetch (s cl a) : (prefetch s cl a).Inv ↔ s.Inv := by simp [prefetch]

@[simp] theorem inv_stridePrefetch (s cl n x) : (stridePrefetch s cl n x).Inv ↔ s.Inv := by
  simp only [stridePrefetch]
  split <;> simp

@[simp] theorem inv_scCount (s cl n x as got) : (scCount s cl n x as got).Inv ↔ s.Inv := by simp [scCount]

@[simp] theorem inv_scNeed (s cl a pp) (h : s.Inv) : (scNeed s cl a pp).Inv := by
  simp only [scNeed]
  split <;> simp [h]

@[simp] theorem inv_scLoadFrom (s d c n a len got) (h : s.Inv) : (scLoadFrom s d c n a len got).1.Inv := by
  unfold scLoadFrom
  dsimp only
  simp only [inv_scRefresh, inv_stridePrefetch]
  exact inv_foldl_imp_of Prod.fst (fun p x hp => inv_scNeed _ _ _ _ hp) _ (by simp [h])

@[simp] theorem inv_scLoad (s d c n a len) (h : s.Inv) : (scLoad s d c n a len).2.Inv := by simp [scLoad, h]

@[simp] theorem inv_scPutSector (s cl x ws) : (scPutSector s cl x ws).Inv ↔ s.Inv := by
  unfold scPutSector
  split <;> simp

@[simp] theorem inv_scStores (d c n s done l) (h : s.Inv) : (scStores d c n s done l).Inv := by
  induction l generalizing s done with
  | nil => simp [scStores, h]
  | cons w rest ih =>
    unfold scStores
    extract_lets cl s1 st seq as direct s2 s3 s4 s5 new s6
    have h4 : s4.Inv := by
      unfold s4
      split <;> simp [s3, s2, s1, h]
    have h5 : s5.Inv := by
      refine inv_foldl_imp (fun s x h => ?_) _ h4
      split <;> simp [h]
    have h6 : s6.Inv := inv_foldl_imp (fun s x h => by simp [h]) _ h5
    exact ih _ _ (by simp [h6])

@[simp] theorem inv_scStore (s d c n a l) (h : s.Inv) : (scStore s d c n a l).Inv := by simp [scStore, h]
@[simp] theorem inv_scRangeOp (s cl op base len) (h : s.Inv) : (scRangeOp s cl op base len).Inv := by
  simp +contextual [scRangeOp, h]

@[simp] theorem inv_gatherAll (s d c o cfg got) (h : s.Inv) : (gatherAll s d c o cfg got).1.Inv := by
  refine inv_foldl_imp_of (fun a : State × Fetched × List Nat × Bool => a.1) (fun a i ha => ?_) _ h
  dsimp only
  split
  · split <;> exact ha
  · simp [ha]

@[simp] theorem inv_scatterAll (s d c o cfg got) (h : s.Inv) : (scatterAll s d c o cfg got).1.Inv := by
  unfold scatterAll
  dsimp only
  split
  · refine inv_foldl_imp_of Prod.fst (fun a w ha => ?_) _ h
    split
    · exact inv_foldl_imp (fun s b h => by simp [h]) _ ha
    · exact ha
  · simp [h]

/-! ### Engine -/

@[simp] theorem inv_doRead (s d e r) : (doRead s d e r).Inv ↔ s.Inv := by simp [doRead]
@[simp] theorem inv_doReads (s d e t) : (doReads s d e t).Inv ↔ s.Inv := by simp [doReads]

@[simp] theorem inv_runTo (fuel s d e t) (h : s.Inv) : (runTo fuel s d e t).Inv := by
  induction fuel generalizing s with
  | zero => exact h
  | succ fuel ih =>
    unfold runTo
    split
    · exact h
    · split <;> simp [ih, h]

@[simp] theorem inv_reach (s d e t) (h : s.Inv) : (reach s d e t).Inv := by simp [reach, h]
@[simp] theorem inv_atIssue (s d e c) (h : s.Inv) : (atIssue s d e c).Inv := by simp [atIssue, h]
@[simp] theorem inv_holdAt (s d e c hold) (h : s.Inv) : (holdAt s d e c hold).Inv := by simp [holdAt, h]
@[simp] theorem inv_letGo (s d e) (h : s.Inv) : (letGo s d e).Inv := by simp [letGo, h]
@[simp] theorem inv_launch (s d e c p) (h : s.Inv) : (launch s d e c p).Inv := by simp [launch, h]

@[simp] theorem nextInv_execNop (d e issue s) (h : s.Inv) : NextInv (execNop d e issue s) := by
  unfold execNop
  split <;> simp [h]

@[simp] theorem inv_remoteSignal (s o add) : (remoteSignal s o add).Inv ↔ s.Inv := by simp [remoteSignal]
@[simp] theorem inv_signalOut (s d e o add) (h : s.Inv) : (signalOut s d e o add).Inv := by simp [signalOut, h]
@[simp] theorem inv_signalWait (s d e o op) (h : s.Inv) : (signalWait s d e o op).Inv := by simp [signalWait, h]
@[simp] theorem nextInv_execSigSet (d e issue ops s) (h : s.Inv) : NextInv (execSigSet d e issue ops s) := by simp [execSigSet, h]
@[simp] theorem nextInv_execSigAdd (d e issue ops s) (h : s.Inv) : NextInv (execSigAdd d e issue ops s) := by simp [execSigAdd, h]
@[simp] theorem nextInv_execSigWaitGe (d e issue ops s) (h : s.Inv) : NextInv (execSigWaitGe d e issue ops s) := by
  simp [execSigWaitGe, h]
@[simp] theorem nextInv_execSigWaitEq (d e issue ops s) (h : s.Inv) : NextInv (execSigWaitEq d e issue ops s) := by
  simp [execSigWaitEq, h]
@[simp] theorem nextInv_execSigWaitMask (d e issue ops s) (h : s.Inv) : NextInv (execSigWaitMask d e issue ops s) := by
  simp [execSigWaitMask, h]

@[simp] theorem nextInv_execSignalWaitRelease (d w s) (h : s.Inv) : NextInv (execSignalWaitRelease d w s) := by
  simp only [execSignalWaitRelease, nextInv_next]
  repeat' split
  all_goals simp [h]

/-! ### Trains -/

@[simp] theorem inv_physWrite (s a l) (h : s.Inv) : (physWrite s a l).Inv := by simp +contextual [physWrite, h]

@[simp] theorem inv_hereBytes (s ps) : (hereBytes s ps).2.Inv ↔ s.Inv := by
  refine inv_foldl_of Prod.snd (fun a p => ?_) _ _
  simp only [drawBytes]
  repeat' split
  all_goals simp

@[simp] theorem inv_hereWrite (s ps l) (h : s.Inv) : (hereWrite s ps l).Inv := by
  induction ps generalizing s l with
  | nil => exact h
  | cons p t ih => simp [hereWrite, ih, h]

@[simp] theorem inv_trEvent (s d j i) : (trEvent s d j i).Inv ↔ s.Inv := by simp [trEvent]
@[simp] theorem inv_updTrain (s t f) : (updTrain s t f).Inv ↔ s.Inv := by simp [updTrain]
@[simp] theorem inv_putTrain (s t) : (putTrain s t).Inv ↔ s.Inv := by simp [putTrain]
@[simp] theorem inv_xlateFirst (s d j) : (xlateFirst s d j).Inv ↔ s.Inv := by simp [xlateFirst]

@[simp] theorem inv_trainFaults (s t f write) : (trainFaults s t f write).Inv ↔ s.Inv := by
  unfold trainFaults
  split <;> simp

@[simp] theorem inv_trainHold (s t f write) : (trainHold s t f write).Inv ↔ s.Inv := by simp [trainHold]

@[simp] theorem inv_trainFree (s t) : (trainFree s t).Inv ↔ s.Inv := by
  unfold trainFree
  split <;> simp

@[simp] theorem inv_walkPages (s d e write l) : (walkPages s d e write l).1.Inv ↔ s.Inv := by
  induction l generalizing s with
  | nil => exact Iff.rfl
  | cons x rest ih =>
    unfold walkPages
    dsimp only
    split <;> simp [ih]

@[simp] theorem inv_trainAhead (s t) : (trainAhead s t).Inv ↔ s.Inv := by
  simp only [trainAhead, inv_ite]
  repeat' split
  all_goals simp

@[simp] theorem inv_preTranslate (s t) : (preTranslate s t).Inv ↔ s.Inv := by simp [preTranslate]

@[simp] theorem inv_trainAsk (s t) : (trainAsk s t).Inv ↔ s.Inv := by
  unfold trainAsk
  dsimp only
  rw [inv_updTrain]
  refine inv_foldl (fun s r => ?_) _ _
  repeat' split
  all_goals simp [drawWord]

@[simp] theorem inv_trainSend (s t stream done) : (trainSend s t stream done).Inv ↔ s.Inv := by simp [trainSend]

@[simp] theorem inv_readOn (fuel s t n) : (readOn fuel s t n).1.Inv ↔ s.Inv := by
  induction fuel generalizing s t n with
  | zero => exact Iff.rfl
  | succ fuel ih =>
    unfold readOn
    dsimp only
    split
    · rfl
    · split <;> simp [ih]

@[simp] theorem inv_writeOn (fuel s t l) (h : s.Inv) : (writeOn fuel s t l).1.Inv := by
  induction fuel generalizing s t with
  | zero => exact h
  | succ fuel ih =>
    unfold writeOn
    dsimp only
    split
    · exact h
    · split <;> simp [ih, h]

@[simp] theorem inv_trainLost (s t a) : (trainLost s t a).Inv ↔ s.Inv := by simp [trainLost]

@[simp] theorem inv_trainAbroad (s t done) : (trainAbroad s t done).Inv ↔ s.Inv := by
  unfold trainAbroad
  repeat' split
  all_goals simp

@[simp] theorem inv_trainMove (s t n) (h : s.Inv) : (trainMove s t n).Inv := by
  simp only [trainMove, inv_ite]
  repeat' split
  all_goals simp [h]

@[simp] theorem inv_trainIssue (s d j op issue ops) (h : s.Inv) : (trainIssue s d j op issue ops).Inv := by
  simp only [trainIssue]
  split <;> simp [h]

@[simp] theorem inv_trainDone (s t held) : (trainDone s t held).Inv ↔ s.Inv := by simp [trainDone]

@[simp] theorem inv_trainSignal (s t) : (trainSignal s t).Inv ↔ s.Inv := by
  unfold trainSignal
  repeat' split
  all_goals simp

@[simp] theorem nextInv_execTrainArrival (d j issue held s) (h : s.Inv) : NextInv (execTrainArrival d j issue held s) := by
  unfold execTrainArrival
  split <;> simp [h]

@[simp] theorem inv_trainCycle (s d j n) (h : s.Inv) : (trainCycle s d j n).Inv := by simp +contextual [trainCycle, h]

@[simp] theorem inv_engineWrites (s d e n) (h : s.Inv) : (engineWrites s d e n).Inv := by
  unfold engineWrites
  split <;> simp [h]

@[simp] theorem nextInv_execOrderWriteCycle (d engines grant s) (h : s.Inv) :
    NextInv (execOrderWriteCycle d engines grant s) := by
  simp +contextual [execOrderWriteCycle, h]

@[simp] theorem inv_trainData (s pos l) (h : s.Inv) : (trainData s pos l).Inv := by
  unfold trainData
  split <;> simp [h]

@[simp] theorem inv_trainRefused (s pos write a) : (trainRefused s pos write a).Inv ↔ s.Inv := by
  simp only [trainRefused]
  split <;> simp

@[simp] theorem inv_trainRetry (s t va) (h : s.Inv) : (trainRetry s t va).Inv := by simp [trainRetry, h]
@[simp] theorem inv_trainFatal (s t va) : (trainFatal s t va).Inv ↔ s.Inv := by simp [trainFatal]
@[simp] theorem inv_trainMissed (s owner) : (trainMissed s owner).Inv ↔ s.Inv := by simp [trainMissed]

/-! ### Bamkan -/

@[simp] theorem inv_bkRefresh (s n) : (bkRefresh s n).Inv ↔ s.Inv := by
  simp only [bkRefresh]
  split <;> simp

@[simp] theorem inv_bkEvent (s n i) : (bkEvent s n i).Inv ↔ s.Inv := by simp [bkEvent]
@[simp] theorem inv_errLog (s n row t j kind) : (errLog s n row t j kind).Inv ↔ s.Inv := by simp [errLog]
@[simp] theorem inv_loseRow (s n t row j) (h : s.Inv) : (loseRow s n t row j).Inv := by simp [loseRow, h]
@[simp] theorem inv_recordSpare (s n i) : (recordSpare s n i).Inv ↔ s.Inv := Iff.rfl
@[simp] theorem inv_setSpare (s n i v) : (setSpare s n i v).Inv ↔ s.Inv := by simp [setSpare]

@[simp] theorem inv_assignSpare (s n t j) : (assignSpare s n t j).Inv ↔ s.Inv := by
  unfold assignSpare
  split <;> simp

@[simp] theorem inv_spareFails (s n i) : (spareFails s n i).Inv ↔ s.Inv := by simp [spareFails]
@[simp] theorem inv_slotFails (s n t j phys) (h : s.Inv) : (slotFails s n t j phys).Inv := by simp [slotFails, h]

@[simp] theorem inv_channelFails (s n phys) (h : s.Inv) : (channelFails s n phys).Inv := by
  unfold channelFails
  split <;> simp [h]

@[simp] theorem inv_countUe (s n phys) (h : s.Inv) : (countUe s n phys).Inv := by simp [countUe, h]

@[simp] theorem inv_meetUe (s n t row bad) (h : s.Inv) : (meetUe s n t row bad).Inv := by
  unfold meetUe
  split
  · exact h
  · refine inv_foldl_imp (fun s c h => inv_countUe s n c h) _ ?_
    split <;> simp [h]

@[simp] theorem inv_repairCause (s n o) : (repairCause s n o).Inv ↔ s.Inv := by simp [repairCause]
@[simp] theorem inv_serve (s n t booked o) (h : s.Inv) : (serve s n t booked o).Inv := by simp [serve, h]

@[simp] theorem inv_useGrant (s n t granted) : (useGrant s n t granted).2.Inv ↔ s.Inv := by
  simp only [useGrant]
  repeat' split
  all_goals simp

@[simp] theorem inv_bkMissed (s n t repair x1) : (bkMissed s n t repair x1).Inv ↔ s.Inv := by
  unfold bkMissed
  split <;> simp

@[simp] theorem inv_setBusy (s n t b) : (setBusy s n t b).Inv ↔ s.Inv := Iff.rfl
@[simp] theorem inv_takeGranted (s n t o) (h : s.Inv) : (takeGranted s n t o).Inv := by simp [takeGranted, h]
@[simp] theorem inv_takeLate (s n t o rest) (h : s.Inv) : (takeLate s n t o rest).Inv := by simp [takeLate, h]
@[simp] theorem inv_takeUnbooked (s n t o rest) (h : s.Inv) : (takeUnbooked s n t o rest).Inv := by
  simp +contextual [takeUnbooked, h]
@[simp] theorem inv_fillQueue (s n t q) : (fillQueue s n t q).Inv ↔ s.Inv := Iff.rfl
@[simp] theorem inv_countSlot (s n t) : (countSlot s n t).Inv ↔ s.Inv := by simp [countSlot]
@[simp] theorem inv_throttleGrant (s n t g) : (throttleGrant s n t g).Inv ↔ s.Inv := by simp [throttleGrant]

@[simp] theorem nextInv_execBamkanSlot (n t granted arrive s) (h : s.Inv) : NextInv (execBamkanSlot n t granted arrive s) := by
  simp only [execBamkanSlot, nextInv_next, inv_ite]
  repeat' split
  all_goals simp [h]

@[simp] theorem nextInv_execBamkanRefresh (n s) (h : s.Inv) : NextInv (execBamkanRefresh n s) := by simp [execBamkanRefresh, h]

@[simp] theorem inv_noAnswer (s n phys row) (h : s.Inv) : (noAnswer s n phys row).Inv := by
  unfold noAnswer
  split <;> simp [h]

@[simp] theorem inv_reissue (s n booked o) : (reissue s n booked o).Inv ↔ s.Inv := by simp [reissue]
@[simp] theorem nextInv_execChannelNoAnswer (n chans out s) (h : s.Inv) : NextInv (execChannelNoAnswer n chans out s) := by
  simp +contextual [execChannelNoAnswer, h]
@[simp] theorem inv_rebuildDone (s n t i) : (rebuildDone s n t i).Inv ↔ s.Inv := by simp [rebuildDone]

@[simp] theorem nextInv_execRebuildStep (n t ue ce s) (h : s.Inv) : NextInv (execRebuildStep n t ue ce s) := by
  unfold execRebuildStep
  split <;> simp [h]

@[simp] theorem nextInv_execMarginSweepStart (n v s) (h : s.Inv) : NextInv (execMarginSweepStart n v s) := by
  simp [execMarginSweepStart, h]
@[simp] theorem nextInv_execMarginSweepDone (n low high s) (h : s.Inv) : NextInv (execMarginSweepDone n low high s) := by
  simp [execMarginSweepDone, h]

/-! ### Chawen -/

@[simp] theorem nextInv_execTMessageDue (src dst s) (h : s.Inv) : NextInv (execTMessageDue src dst s) := by
  simp [execTMessageDue, h]
@[simp] theorem inv_setCwDelayed (s a b l) : (setCwDelayed s a b l).Inv ↔ s.Inv := Iff.rfl
@[simp] theorem inv_cwMissed (s a b owner) : (cwMissed s a b owner).Inv ↔ s.Inv := by simp [cwMissed]

@[simp] theorem nextInv_execChawenSlot (src dst k phase booked claims s) (h : s.Inv) :
    NextInv (execChawenSlot src dst k phase booked claims s) := by
  simp only [execChawenSlot, nextInv_next, inv_ite]
  repeat' split
  all_goals simp [h]

@[simp] theorem nextInv_execTMessage (d s) (h : s.Inv) : NextInv (execTMessage d s) := by
  unfold execTMessage
  split <;> simp [h]

@[simp] theorem inv_cwEvent (s d i) : (cwEvent s d i).Inv ↔ s.Inv := by simp [cwEvent]
@[simp] theorem inv_setErased (s d e b l) : (setErased s d e b l).Inv ↔ s.Inv := by simp [setErased]
@[simp] theorem inv_useSpare (s d e b n w) : (useSpare s d e b n w).Inv ↔ s.Inv := by simp [useSpare]

@[simp] theorem inv_remapBundle (s d e b) : (remapBundle s d e b).Inv ↔ s.Inv := by
  refine inv_foldl (fun s w => ?_) _ _
  split <;> simp

@[simp] theorem inv_remapBlock (s d entries) : (remapBlock s d entries).Inv ↔ s.Inv := by simp [remapBlock]
@[simp] theorem inv_remapDie (s d) : (remapDie s d).Inv ↔ s.Inv := by simp [remapDie]
@[simp] theorem inv_cwLate (s d) : (cwLate s d).Inv ↔ s.Inv := by simp [cwLate]
@[simp] theorem inv_cwTransient (s d) : (cwTransient s d).Inv ↔ s.Inv := by simp [cwTransient]
@[simp] theorem nextInv_execChawenParityMismatch (d e b g s) (h : s.Inv) : NextInv (execChawenParityMismatch d e b g s) := by
  simp [execChawenParityMismatch, h]
@[simp] theorem nextInv_execReplayArrival (d e b ok s) (h : s.Inv) : NextInv (execReplayArrival d e b ok s) := by
  simp [execReplayArrival, h]
@[simp] theorem inv_wireFault (s d e b w) : (wireFault s d e b w).Inv ↔ s.Inv := by simp [wireFault]
@[simp] theorem nextInv_execProbeDone (d e b wires s) (h : s.Inv) : NextInv (execProbeDone d e b wires s) := by
  simp [execProbeDone, h]
@[simp] theorem nextInv_execChawenClockFault (d e b p s) (h : s.Inv) : NextInv (execChawenClockFault d e b p s) := by
  simp [execChawenClockFault, h]
@[simp] theorem inv_tapLoad (s ir act lands) : (tapLoad s ir act lands).Inv ↔ s.Inv := Iff.rfl
@[simp] theorem inv_tapGated (s ir act lands) : (tapGated s ir act lands).Inv ↔ s.Inv := by simp [tapGated]
@[simp] theorem nextInv_execSamplePreload (levels preload s) (h : s.Inv) : NextInv (execSamplePreload levels preload s) := by
  simp [execSamplePreload, h]
@[simp] theorem nextInv_execBypass (code s) (h : s.Inv) : NextInv (execBypass code s) := by simp [execBypass, h]
@[simp] theorem nextInv_execTapReset (s) (h : s.Inv) : NextInv (execTapReset s) := by simp [execTapReset, h]

/-! ### Coherence -/

@[simp] theorem inv_dirMakeRoom (s l) (h : s.Inv) : (dirMakeRoom s l).Inv := by
  simp only [dirMakeRoom, inv_ite]
  repeat' split
  all_goals simp [h]

@[simp] theorem inv_evictLine (s d l) (h : s.Inv) : (evictLine s d l).Inv := by simp [evictLine, h]
@[simp] theorem inv_jMakeRoom (s d l) (h : s.Inv) : (jMakeRoom s d l).Inv := by simp [jMakeRoom, h]
@[simp] theorem inv_ownLine (s d l f) (h : s.Inv) : (ownLine s d l f).Inv := by simp [ownLine, h]
@[simp] theorem inv_shareLine (s d l) (h : s.Inv) : (shareLine s d l).Inv := by simp [shareLine, h]
@[simp] theorem inv_otherAgent (s l mask) : (otherAgent s l mask).Inv ↔ s.Inv := by simp [otherAgent]

@[simp] theorem inv_coherentRequest (s l r) (h : s.Inv) : (coherentRequest s l r).Inv := by
  unfold coherentRequest
  split <;> simp [h]

@[simp] theorem inv_answerSnoop (s d l invalidate) (h : s.Inv) : (answerSnoop s d l invalidate).Inv := by simp [answerSnoop, h]
@[simp] theorem nextInv_execSnoop (d line invalidate s) (h : s.Inv) : NextInv (execSnoop d line invalidate s) := by
  simp [execSnoop, h]

@[simp] theorem inv_answerDeferred (s q) (h : s.Inv) : (answerDeferred s q).Inv := by
  unfold answerDeferred
  split <;> simp [h]

@[simp] theorem nextInv_execSnoopDeferExpiry (d line s) (h : s.Inv) : NextInv (execSnoopDeferExpiry d line s) := by
  simp +contextual [execSnoopDeferExpiry, h]

@[simp] theorem inv_hostSnoop (s l kind) (h : s.Inv) : (hostSnoop s l kind).Inv := by
  unfold hostSnoop
  split
  · exact h
  · extract_lets m s1
    have h1 : s1.Inv := by
      unfold s1 m
      split <;> simp [h]
    repeat' split
    all_goals exact h1

@[simp] theorem nextInv_execCxlCacheEnable (s) (h : s.Inv) : NextInv (execCxlCacheEnable s) := nextInv_next.2 h
@[simp] theorem nextInv_execCxlCacheDisable (s) (h : s.Inv) : NextInv (execCxlCacheDisable s) := by
  simp +contextual [execCxlCacheDisable, h]

@[simp] theorem inv_deliverMsi (s a data) : (deliverMsi s a data).Inv ↔ s.Inv := by
  unfold deliverMsi
  split <;> simp

@[simp] theorem nextInv_execMsiDelivery (sender s) (h : s.Inv) : NextInv (execMsiDelivery sender s) := by
  simp only [execMsiDelivery, nextInv_next]
  split <;> simp [h]

/-! ### Collective -/

@[simp] theorem inv_sendColl (s q k pieces) : (sendColl s q k pieces).Inv ↔ s.Inv := by simp [sendColl]
@[simp] theorem inv_sendParts (s q) : (sendParts s q).Inv ↔ s.Inv := by simp [sendParts]

@[simp] theorem inv_collShare (s d) : (collShare s d).Inv ↔ s.Inv := by
  unfold collShare
  repeat' split
  all_goals simp

@[simp] theorem inv_collReceive (s path src pl) : (collReceive s path src pl).Inv ↔ s.Inv := by simp [collReceive]
@[simp] theorem nextInv_execCeColl (d issue ops s) (h : s.Inv) : NextInv (execCeColl d issue ops s) := by simp [execCeColl, h]
@[simp] theorem inv_orCeFlags (s d g f) : (orCeFlags s d g f).Inv ↔ s.Inv := by simp [orCeFlags]

@[simp] theorem inv_collSettle (s d issue) : (collSettle s d issue).Inv ↔ s.Inv := by
  unfold collSettle
  split <;> simp

@[simp] theorem inv_collClean (s q me) (h : s.Inv) : (collClean s q me).Inv := by simp [collClean, h]

@[simp] theorem nextInv_execCollectiveEnd (d issue held s) (h : s.Inv) : NextInv (execCollectiveEnd d issue held s) := by
  simp only [execCollectiveEnd, nextInv_next]
  repeat' split
  all_goals simp [h]

@[simp] theorem nextInv_execCollectiveWindowExpiry (d issue s) (h : s.Inv) : NextInv (execCollectiveWindowExpiry d issue s) := by
  simp only [execCollectiveWindowExpiry, nextInv_next]
  split <;> simp [h]

/-! ### HostPort -/

@[simp] theorem nextInv_execHpDoorbell (d s) (h : s.Inv) : NextInv (execHpDoorbell d s) := by simp [execHpDoorbell, h]
@[simp] theorem nextInv_execSlotRead (written s) (h : s.Inv) : NextInv (execSlotRead written s) := by simp [execSlotRead, h]
@[simp] theorem inv_commandAccept (s) : (commandAccept s).Inv ↔ s.Inv := by simp [commandAccept]

@[simp] theorem inv_startCmd {k} (hk : ∀ b s, s.Inv → (k b s).Inv) {s} (h : s.Inv) (q op form) :
    (startCmd s q op form k).Inv := by
  unfold startCmd
  split <;> simp [hk, h]

@[simp] theorem inv_postCompletion (s c status written) : (postCompletion s c status written).Inv ↔ s.Inv := by
  simp [postCompletion]
@[simp] theorem inv_dropCmd (s q) : (dropCmd s q).Inv ↔ s.Inv := Iff.rfl
@[simp] theorem inv_writeResult (s c) (h : s.Inv) : (writeResult s c).Inv := by simp [writeResult, h]

@[simp] theorem inv_completion (s q) (h : s.Inv) : (completion s q).Inv := by
  unfold completion
  split <;> simp [h]

@[simp] theorem inv_landDeny (s off reason) : (landDeny s off reason).Inv ↔ s.Inv := by simp [landDeny]

@[simp] theorem nextInv_execLandingWrite (off data s) (h : s.Inv) : NextInv (execLandingWrite off data s) := by
  simp only [execLandingWrite, nextInv_next, inv_ite]
  repeat' split
  all_goals simp [h]

@[simp] theorem nextInv_execLandingDenied (t s) (h : s.Inv) : NextInv (execLandingDenied t s) := by simp [execLandingDenied, h]
@[simp] theorem nextInv_execBar4Read (_off s) (h : s.Inv) : NextInv (execBar4Read _off s) := by simp [execBar4Read, h]
@[simp] theorem nextInv_execHpNoticeCtrlWrite (v s) (h : s.Inv) : NextInv (execHpNoticeCtrlWrite v s) := by
  simp [execHpNoticeCtrlWrite, h]
@[simp] theorem nextInv_execHpNoticeHeadWrite (v s) (h : s.Inv) : NextInv (execHpNoticeHeadWrite v s) := by
  simp [execHpNoticeHeadWrite, h]

@[simp] theorem nextInv_execNoticeWrite (s) (h : s.Inv) : NextInv (execNoticeWrite s) := by
  unfold execNoticeWrite
  split <;> simp [h]

@[simp] theorem nextInv_execMsixMessage (t s) (h : s.Inv) : NextInv (execMsixMessage t s) := by simp [execMsixMessage, h]
@[simp] theorem nextInv_execHpWake (v s) (h : s.Inv) : NextInv (execHpWake v s) := by simp [execHpWake, h]
@[simp] theorem nextInv_execHpLandWrite (size v s) (h : s.Inv) : NextInv (execHpLandWrite size v s) := by
  simp [execHpLandWrite, h]
@[simp] theorem nextInv_execHpRtPost (v s) (h : s.Inv) : NextInv (execHpRtPost v s) := by simp [execHpRtPost, h]
@[simp] theorem inv_renameWaits (s) : (renameWaits s).Inv ↔ s.Inv := by simp [renameWaits]
@[simp] theorem inv_portReset (s kind) : (portReset s kind).Inv ↔ s.Inv := by simp [portReset]
@[simp] theorem nextInv_execHostPortReset (kind s) (h : s.Inv) : NextInv (execHostPortReset kind s) := by
  simp [execHostPortReset, h]
@[simp] theorem inv_noteDrain (s k on) : (noteDrain s k on).Inv ↔ s.Inv := by simp [noteDrain]
@[simp] theorem inv_functionNotice (s kind index old new withdrawn) :
    (functionNotice s kind index old new withdrawn).Inv ↔ s.Inv := by simp [functionNotice]
@[simp] theorem inv_setHostFunc (s st withdrawn) : (setHostFunc s st withdrawn).Inv ↔ s.Inv := by simp [setHostFunc]
@[simp] theorem nextInv_execHostFunctionDisable (s) (h : s.Inv) : NextInv (execHostFunctionDisable s) := by
  simp [execHostFunctionDisable, h]
@[simp] theorem nextInv_execHostFunctionEnable (s) (h : s.Inv) : NextInv (execHostFunctionEnable s) := by
  simp [execHostFunctionEnable, h]
@[simp] theorem inv_hostDrainEnd (s) : (hostDrainEnd s).Inv ↔ s.Inv := by simp [hostDrainEnd]
@[simp] theorem nextInv_execDoeSession (hostKey s) (h : s.Inv) : NextInv (execDoeSession hostKey s) := by
  simpa only [execDoeSession, nextInv_next, inv_ite, inv_drawBytes, inv_mk, storesWf_eta, ite_self] using h

@[simp] theorem nextInv_execIdeKm (authentic s) (h : s.Inv) : NextInv (execIdeKm authentic s) := by
  unfold execIdeKm
  split <;> simp [h]

/-! ### SealEngine -/

@[simp] theorem inv_jobRefused (s va n write st) : (jobRefused s va n write st).Inv ↔ s.Inv := by
  simp only [jobRefused, inv_ite]
  repeat' split
  all_goals simp

@[simp] theorem inv_jobRead (s va n) : (jobRead s va n).2.2.Inv ↔ s.Inv := by
  unfold jobRead
  repeat' split
  all_goals simp

theorem inv_eq_of_jobRead {s va n st l u} (h : jobRead s va n = (st, l, u)) : u.Inv ↔ s.Inv := by
  simpa [h] using inv_jobRead s va n

@[simp] theorem inv_jobWrite (s va l) (h : s.Inv) : (jobWrite s va l).2.Inv := by
  unfold jobWrite
  split
  · simp [h]
  · exact inv_foldl_imp_of Prod.fst (fun a p ha => inv_cohWrite _ _ _ ha) _ (by simp [h])

@[simp] theorem inv_ringRefused (s pa n) : (ringRefused s pa n).Inv ↔ s.Inv := by simp [ringRefused]
@[simp] theorem inv_ringWrite (s pa l) (h : s.Inv) : (ringWrite s pa l).Inv := by simp [ringWrite, h]
@[simp] theorem inv_counterTake (s src c) : (counterTake s src c).Inv ↔ s.Inv := Iff.rfl
@[simp] theorem inv_npEvent (s i) : (npEvent s i).Inv ↔ s.Inv := by simp [npEvent]
@[simp] theorem nextInv_execNpSealRegionWrite (size v s) (h : s.Inv) : NextInv (execNpSealRegionWrite size v s) := by
  simp [execNpSealRegionWrite, h]
@[simp] theorem nextInv_execNpPeerWrite (r high v s) (h : s.Inv) : NextInv (execNpPeerWrite r high v s) := by
  simp [execNpPeerWrite, h]
@[simp] theorem inv_npDone (s st) (h : s.Inv) : (npDone s st).Inv := by simp [npDone, h]

@[simp] theorem nextInv_execSealFrame (s) (h : s.Inv) : NextInv (execSealFrame s) := by
  unfold execSealFrame
  rw [nextInv_next]
  split
  · exact h
  iterate 4 (split; · simp [h])
  split
  · simp [h]
  split
  all_goals
    rename_i hr
    have hr := (inv_eq_of_jobRead hr).2 h
    simp [hr]

@[simp] theorem nextInv_execOpenFrame (opened s) (h : s.Inv) : NextInv (execOpenFrame opened s) := by
  simp only [execOpenFrame, nextInv_next]
  repeat' split
  all_goals simp [h]

@[simp] theorem nextInv_execNportInboundRequest (n pa len write s) (h : s.Inv) :
    NextInv (execNportInboundRequest n pa len write s) := by
  unfold execNportInboundRequest
  repeat' split
  all_goals simp [h]

@[simp] theorem nextInv_execNportLinkUp (n ide flit s) (h : s.Inv) : NextInv (execNportLinkUp n ide flit s) := by
  simp [execNportLinkUp, h]
@[simp] theorem inv_nportDown (s n) : (nportDown s n).Inv ↔ s.Inv := by simp [nportDown]
@[simp] theorem nextInv_execNportLinkDown (n s) (h : s.Inv) : NextInv (execNportLinkDown n s) := by simp [execNportLinkDown, h]

/-! ### Depot -/

@[simp] theorem inv_sendReq (s d agent dst owner op form window addr operand name data) :
    (sendReq s d agent dst owner op form window addr operand name data).1.Inv ↔ s.Inv := by
  unfold sendReq
  split <;> simp

@[simp] theorem inv_sendResp (s d f status value data) : (sendResp s d f status value data).Inv ↔ s.Inv := by simp [sendResp]
@[simp] theorem inv_dpEvent (s i) : (dpEvent s i).Inv ↔ s.Inv := by simp [dpEvent]
@[simp] theorem inv_setDepot (s st) : (setDepot s st).Inv ↔ s.Inv := by simp [setDepot]
@[simp] theorem inv_depotSizes (s) : (depotSizes s).Inv ↔ s.Inv := by simp [depotSizes]
@[simp] theorem inv_putObj (s o) : (putObj s o).Inv ↔ s.Inv := by simp [putObj]
@[simp] theorem inv_dropObjs (s p) : (dropObjs s p).Inv ↔ s.Inv := by simp [dropObjs]

@[simp] theorem inv_objBytes (s o off n) : (objBytes s o off n).2.Inv ↔ s.Inv := by
  unfold objBytes
  split <;> simp

@[simp] theorem inv_objCommit (s o flags buddy) : (objCommit s o flags buddy).Inv ↔ s.Inv := by simp [objCommit]
@[simp] theorem inv_rqStart (s i b st data ids) : (rqStart s i b st data ids).Inv ↔ s.Inv := Iff.rfl

@[simp] theorem inv_rqTake {k} (hk : ∀ i b s, s.Inv → (k i b s).Inv) {s} (h : s.Inv) (op) : (rqTake s op k).Inv := by
  unfold rqTake
  split <;> simp [hk, h]

@[simp] theorem inv_applyWrite (s b data) : (applyWrite s b data).Inv ↔ s.Inv := by simp [applyWrite]

@[simp] theorem inv_applyCommit (s b) : (applyCommit s b).Inv ↔ s.Inv := by
  unfold applyCommit
  split <;> simp

@[simp] theorem nextInv_execObjWrite (s) (h : s.Inv) : NextInv (execObjWrite s) := by
  refine nextInv_next.2 (inv_rqTake (fun i b s h => ?_) h _)
  dsimp only
  repeat' split
  all_goals simp [h]
  all_goals exact (inv_eq_of_jobRead ‹_›).2 h

@[simp] theorem nextInv_execObjCommit (s) (h : s.Inv) : NextInv (execObjCommit s) := by
  refine nextInv_next.2 (inv_rqTake (fun i b s h => ?_) h _)
  dsimp only
  repeat' split
  all_goals simp [h]

@[simp] theorem inv_climb (s x) : (climb s x).Inv ↔ s.Inv := by simp [climb]
@[simp] theorem inv_damage (s o) : (damage s o).Inv ↔ s.Inv := by simp [damage]
@[simp] theorem inv_askReplica (s i b got) : (askReplica s i b got).1.Inv ↔ s.Inv := by simp [askReplica]

@[simp] theorem nextInv_execObjRead (x s) (h : s.Inv) : NextInv (execObjRead x s) := by
  refine nextInv_next.2 (inv_rqTake (fun i b s h => ?_) h _)
  dsimp only
  repeat' split
  all_goals simp [h]

@[simp] theorem nextInv_execObjStat (s) (h : s.Inv) : NextInv (execObjStat s) := by
  refine nextInv_next.2 (inv_rqTake (fun i b s h => ?_) h _)
  dsimp only
  repeat' split
  all_goals simp [h]

@[simp] theorem nextInv_execObjDelete (s) (h : s.Inv) : NextInv (execObjDelete s) := by simp [execObjDelete, h]

@[simp] theorem inv_pageCheck (s pa n) : (pageCheck s pa n).2.Inv ↔ s.Inv := by
  unfold pageCheck
  repeat' split
  all_goals simp

theorem inv_eq_of_pageCheck {s pa n st u} (h : pageCheck s pa n = (st, u)) : u.Inv ↔ s.Inv := by
  simpa [h] using inv_pageCheck s pa n

@[simp] theorem inv_dropPage (s k) : (dropPage s k).Inv ↔ s.Inv := by simp [dropPage]

@[simp] theorem nextInv_execPageOut (s) (h : s.Inv) : NextInv (execPageOut s) := by
  refine nextInv_next.2 (inv_rqTake (fun i b s h => ?_) h _)
  dsimp only
  repeat' split
  all_goals simp [h]
  all_goals exact (inv_eq_of_pageCheck ‹_›).2 h

@[simp] theorem nextInv_execPageIn (x s) (h : s.Inv) : NextInv (execPageIn x s) := by
  refine nextInv_next.2 (inv_rqTake (fun i b s h => ?_) h _)
  dsimp only
  split
  · simp [h]
  split
  all_goals
    rename_i hp
    have hp := (inv_eq_of_pageCheck hp).2 h
  · split <;> simp [hp]
  · simp [hp]

@[simp] theorem nextInv_execPageDrop (s) (h : s.Inv) : NextInv (execPageDrop s) := by simp [execPageDrop, h]
@[simp] theorem inv_rqComplete (s i st) (h : s.Inv) : (rqComplete s i st).Inv := by simp [rqComplete, h]

@[simp] theorem nextInv_execDepotRequestComplete (ix s) (h : s.Inv) : NextInv (execDepotRequestComplete ix s) := by
  unfold execDepotRequestComplete
  repeat' split
  all_goals simp [h]

@[simp] theorem inv_rqSettle (s i st) : (rqSettle s i st).Inv ↔ s.Inv := by simp [rqSettle]
@[simp] theorem inv_dropDepotReqs (s i) : (dropDepotReqs s i).Inv ↔ s.Inv := Iff.rfl
@[simp] theorem nextInv_execBuddyTimeout (ix t s) (h : s.Inv) : NextInv (execBuddyTimeout ix t s) := by simp [execBuddyTimeout, h]
@[simp] theorem inv_rqHeard (s r data) : (rqHeard s r data).Inv ↔ s.Inv := by simp [rqHeard]

@[simp] theorem inv_depotReply (s i status data last) (h : s.Inv) : (depotReply s i status data last).Inv := by
  unfold depotReply
  split <;> simp [h]

@[simp] theorem inv_replicaWrite (s f) : (replicaWrite s f).Inv ↔ s.Inv := by simp [replicaWrite]

@[simp] theorem inv_replicaCommit (s f) : (replicaCommit s f).Inv ↔ s.Inv := by
  simp only [replicaCommit]
  split <;> simp

@[simp] theorem inv_replicaRead (s f) : (replicaRead s f).Inv ↔ s.Inv := by
  simp only [replicaRead]
  split <;> simp

@[simp] theorem nextInv_execDpRingBaseWrite (v s) (h : s.Inv) : NextInv (execDpRingBaseWrite v s) := by
  simp [execDpRingBaseWrite, h]
@[simp] theorem inv_setNand (s k f) : (setNand s k f).Inv ↔ s.Inv := by simp [setNand]

@[simp] theorem inv_loseData (s x1) : (loseData s x1).Inv ↔ s.Inv := by
  unfold loseData
  repeat' split
  all_goals simp

@[simp] theorem nextInv_execPatrolRead (x strong oldest of s) (h : s.Inv) : NextInv (execPatrolRead x strong oldest of s) := by
  simp [execPatrolRead, h]
@[simp] theorem inv_lunFail (s ch lun) : (lunFail s ch lun).Inv ↔ s.Inv := by simp [lunFail]

@[simp] theorem inv_takeSpare (s ch) : (takeSpare s ch).Inv ↔ s.Inv := by
  simp only [takeSpare]
  split <;> simp

@[simp] theorem inv_retireBlock (s ch lun block) : (retireBlock s ch lun block).Inv ↔ s.Inv := by simp [retireBlock]

@[simp] theorem nextInv_execBlockRefresh (ch lun block step4 s) (h : s.Inv) :
    NextInv (execBlockRefresh ch lun block step4 s) := by
  simp [execBlockRefresh, h]

@[simp] theorem nextInv_execWearLevelMove (ch lun block dst s) (h : s.Inv) : NextInv (execWearLevelMove ch lun block dst s) := by
  simp [execWearLevelMove, h]

@[simp] theorem nextInv_execNandOperationFailure (ch lun block s) (h : s.Inv) :
    NextInv (execNandOperationFailure ch lun block s) := by
  simp [execNandOperationFailure, h]

@[simp] theorem nextInv_execLunTimeout (ch lun s) (h : s.Inv) : NextInv (execLunTimeout ch lun s) := by simp [execLunTimeout, h]
@[simp] theorem nextInv_execLunRebuildDone (ch lun s) (h : s.Inv) : NextInv (execLunRebuildDone ch lun s) := by
  simp [execLunRebuildDone, h]
@[simp] theorem nextInv_execStripeRewriteDone (ch s) (h : s.Inv) : NextInv (execStripeRewriteDone ch s) := nextInv_next.2 h

/-! ### VectorCluster -/

@[simp] theorem inv_laneMismatch (s d c l issue) : (laneMismatch s d c l issue).Inv ↔ s.Inv := by simp [laneMismatch]
@[simp] theorem inv_vcIssue (s d c op issue ops) (h : s.Inv) : (vcIssue s d c op issue ops).Inv := by simp [vcIssue, h]
@[simp] theorem inv_vcLaneIssue (s d c op issue ops bad) (h : s.Inv) : (vcLaneIssue s d c op issue ops bad).Inv := by
  simp [vcLaneIssue, h]
@[simp] theorem inv_winHeld (s d c w f) : (winHeld s d c w f).Inv ↔ s.Inv := by simp [winHeld]

@[simp] theorem inv_winWalk (s d c) : (winWalk s d c).Inv ↔ s.Inv := by
  unfold winWalk
  repeat' split
  all_goals simp

@[simp] theorem inv_rangeStart (s r) : (rangeStart s r).Inv ↔ s.Inv := by simp [rangeStart]
@[simp] theorem inv_winIssue (s d c op issue ops) (h : s.Inv) : (winIssue s d c op issue ops).Inv := by simp [winIssue, h]
@[simp] theorem inv_gsIssue (s d c op issue ops bad) (h : s.Inv) : (gsIssue s d c op issue ops bad).Inv := by simp [gsIssue, h]
@[simp] theorem inv_winWork (s d c w) (h : s.Inv) : (winWork s d c w).Inv := by simp +contextual [winWork, h]
@[simp] theorem inv_winClose (s d c) : (winClose s d c).Inv ↔ s.Inv := by simp [winClose]

@[simp] theorem nextInv_execGatherWindowEnd (d c finished s) (h : s.Inv) : NextInv (execGatherWindowEnd d c finished s) := by
  simp only [execGatherWindowEnd, nextInv_next]
  repeat' split
  all_goals simp [h]

@[simp] theorem nextInv_execGatherWorkDone (d c s) (h : s.Inv) : NextInv (execGatherWorkDone d c s) := by
  unfold execGatherWorkDone
  repeat' split
  all_goals simp [h]

@[simp] theorem nextInv_execStreamCacheFill (d c va s) (h : s.Inv) : NextInv (execStreamCacheFill d c va s) := by
  simp only [execStreamCacheFill, nextInv_next, inv_ite]
  repeat' split
  all_goals simp [h]

@[simp] theorem nextInv_execVcScCfgWrite (d c v s) (h : s.Inv) : NextInv (execVcScCfgWrite d c v s) := by
  unfold execVcScCfgWrite
  extract_lets free s1 s2 lo
  have h1 : s1.Inv := inv_scFlush s _ h
  have h2 : s2.Inv := (inv_wr s1 _ _).2 h1
  rw [nextInv_next]
  split
  · exact (inv_scRefresh _ _).2 (storesWf_eraseMem h2 _ _)
  · simp [h]

@[simp] theorem nextInv_execVcScRangeCmd (d c v s) (h : s.Inv) : NextInv (execVcScRangeCmd d c v s) := by
  simp [execVcScRangeCmd, h]

@[simp] theorem nextInv_execRangeDone (d c s) (h : s.Inv) : NextInv (execRangeDone d c s) := by
  unfold execRangeDone
  split <;> simp [h]

@[simp] theorem nextInv_execPlatformWindowAccess (hart d off len write s) (h : s.Inv) :
    NextInv (execPlatformWindowAccess hart d off len write s) := by
  unfold execPlatformWindowAccess
  repeat' split
  all_goals simp +contextual [h]

/-! ### SetMode -/

@[simp] theorem inv_updCall (s d c f) : (updCall s d c f).Inv ↔ s.Inv := by simp [updCall]
@[simp] theorem inv_smEvent (s d c i) : (smEvent s d c i).Inv ↔ s.Inv := by simp [smEvent]
@[simp] theorem inv_smChoice (s d c) : (smChoice s d c).Inv ↔ s.Inv := by simp [smChoice]
@[simp] theorem inv_smRefresh (s d c) : (smRefresh s d c).Inv ↔ s.Inv := by simp [smRefresh]
@[simp] theorem inv_dropAsks (s ks) : (dropAsks s ks).Inv ↔ s.Inv := by simp [dropAsks]
@[simp] theorem inv_stopThreads (s d c) : (stopThreads s d c).Inv ↔ s.Inv := by simp [stopThreads]
@[simp] theorem inv_smKill (s d c cause who pc addr) : (smKill s d c cause who pc addr).Inv ↔ s.Inv := by simp [smKill]
@[simp] theorem inv_smKillAt (s d c k slot key cause addr) :
    (smKillAt s d c k slot key cause addr).Inv ↔ s.Inv := by simp [smKillAt]
@[simp] theorem nextInv_execSmCall (d issue ops s) (h : s.Inv) : NextInv (execSmCall d issue ops s) := by simp [execSmCall, h]

@[simp] theorem nextInv_execCallWindowOpen (d c waited s) (h : s.Inv) : NextInv (execCallWindowOpen d c waited s) := by
  unfold execCallWindowOpen
  split <;> simp [h]

@[simp] theorem nextInv_execFigureStart (d c seat s) (h : s.Inv) : NextInv (execFigureStart d c seat s) := by
  simp only [execFigureStart, nextInv_next]
  repeat' split
  all_goals simp [h]

@[simp] theorem inv_countInstr (s d c) : (countInstr s d c).Inv ↔ s.Inv := by simp [countInstr]
@[simp] theorem inv_retire (s k h) : (retire s k h).Inv ↔ s.Inv := by simp [retire]

@[simp] theorem inv_onRow {act} (hk : ∀ i w s, s.Inv → (act i w s).Inv) {s} (h : s.Inv) (d c slot row) :
    (onRow s d c slot row act).Inv := by
  unfold onRow
  repeat' split
  all_goals simp [hk, h]

@[simp] theorem inv_doStop (s d c slot k x) : (doStop s d c slot k x).Inv ↔ s.Inv := by
  unfold doStop
  split <;> simp

@[simp] theorem inv_setPlain (s d c slot cycles) : (setPlain s d c slot cycles).Inv ↔ s.Inv := by
  unfold setPlain
  split
  · rfl
  · extract_lets k first s1 env
    split
    · simp
    · split
      · extract_lets rs bad
        clear_value bad
        have h1 : s1.Inv ↔ s.Inv := by simp [s1]
        split
        · simp [h1]
        · refine (inv_foldl (fun s r => ?_) _ _).trans h1
          split <;> simp
      · simp
      · rfl

@[simp] theorem nextInv_execSetInstruction (d c slot cycles bad s) (h : s.Inv) :
    NextInv (execSetInstruction d c slot cycles bad s) := by
  unfold execSetInstruction
  split <;> simp [h]

@[simp] theorem inv_threadLoad (s d c slot a n) (h : s.Inv) : (threadLoad s d c slot a n).2.Inv := by
  refine inv_foldl_imp_of Prod.snd (fun x p hx => ?_) _ h
  split <;> simp [hx]

@[simp] theorem inv_threadStore (s d c slot a n v) (h : s.Inv) : (threadStore s d c slot a n v).Inv := by
  refine inv_foldl_imp (fun s p h => ?_) _ h
  dsimp only
  split <;> simp [h]

@[simp] theorem nextInv_execSetMemoryAccess (d c slot s) (h : s.Inv) : NextInv (execSetMemoryAccess d c slot s) := by
  refine nextInv_next.2 (inv_onRow (fun i w s h => ?_) h _ _ _ _)
  dsimp only
  repeat' split
  all_goals simp +contextual [h]

@[simp] theorem inv_orderedStart (s d c a n write) (h : s.Inv) : (orderedStart s d c a n write).1.Inv := by
  unfold orderedStart
  split <;> simp [h]

@[simp] theorem inv_orderedPut (s pa n v) (h : s.Inv) : (orderedPut s pa n v).Inv := by simp [orderedPut, h]
@[simp] theorem inv_orderedEnd (s pa n) (h : s.Inv) : (orderedEnd s pa n).Inv := by simp [orderedEnd, h]

@[simp] theorem inv_orderedNote (s d c slot key kind) : (orderedNote s d c slot key kind).Inv ↔ s.Inv := by
  unfold orderedNote
  split <;> simp

@[simp] theorem inv_giveAll (s w ks vals fl) : (giveAll s w ks vals fl).Inv ↔ s.Inv := by simp [giveAll]

@[simp] theorem inv_combineAt (s d c slot w ks a kind f) (h : s.Inv) : (combineAt s d c slot w ks a kind f).Inv := by
  have hstart := inv_orderedStart s d c a (amoSize w) true h
  simp [combineAt, inv_orderedEnd _ _ _ (inv_orderedPut _ _ _ _ hstart)]

@[simp] theorem nextInv_execSetAmoCombine (d c slot s) (h : s.Inv) : NextInv (execSetAmoCombine d c slot s) := by
  refine nextInv_next.2 (inv_onRow (fun i w s h => ?_) h _ _ _ _)
  repeat' split
  all_goals simp +contextual [h]

@[simp] theorem nextInv_execSmFadd (d c slot s) (h : s.Inv) : NextInv (execSmFadd d c slot s) := by
  refine nextInv_next.2 (inv_onRow (fun i w s h => ?_) h _ _ _ _)
  repeat' split
  all_goals simp +contextual [h]

@[simp] theorem inv_serialOne (s d c slot w k) (h : s.Inv) : (serialOne s d c slot w k).Inv := by simp [serialOne, h]

@[simp] theorem nextInv_execSetSerialAtomic (d c slot s) (h : s.Inv) : NextInv (execSetSerialAtomic d c slot s) := by
  refine nextInv_next.2 (inv_onRow (fun i w s h => ?_) h _ _ _ _)
  dsimp only
  repeat' split
  all_goals simp +contextual [h]

@[simp] theorem inv_casOne (s d c slot w k) (h : s.Inv) : (casOne s d c slot w k).Inv := by
  have hstart := inv_orderedStart s d c (amoAddr w (thread s k)) (amoSize w) true h
  have hput (v : Nat) := inv_orderedPut _ (orderedStart s d c (amoAddr w (thread s k)) (amoSize w) true).2 (amoSize w) v hstart
  simp only [casOne, inv_orderedNote]
  refine inv_orderedEnd _ _ _ ?_
  split
  · exact hput _
  · exact hstart

@[simp] theorem nextInv_execSmCas (d c slot s) (h : s.Inv) : NextInv (execSmCas d c slot s) := by
  refine nextInv_next.2 (inv_onRow (fun i w s h => ?_) h _ _ _ _)
  repeat' split
  all_goals simp +contextual [h]

@[simp] theorem inv_checkBarrier (s d c slot key pc k) : (checkBarrier s d c slot key pc k).Inv ↔ s.Inv := by simp [checkBarrier]
@[simp] theorem nextInv_execSmBarrier (d c slot s) (h : s.Inv) : NextInv (execSmBarrier d c slot s) := by simp [execSmBarrier, h]

@[simp] theorem nextInv_execBarrierRelease (d c slot s) (h : s.Inv) : NextInv (execBarrierRelease d c slot s) := by
  unfold execBarrierRelease
  split <;> simp [h]

@[simp] theorem nextInv_execSmExit (d c slot s) (h : s.Inv) : NextInv (execSmExit d c slot s) := by
  refine nextInv_next.2 (inv_onRow (fun i w s h => ?_) h _ _ _ _)
  dsimp only
  repeat' split
  all_goals simp [h]

@[simp] theorem nextInv_execSmAccrd (d c slot s) (h : s.Inv) : NextInv (execSmAccrd d c slot s) := by
  refine nextInv_next.2 (inv_onRow (fun i w s h => ?_) h _ _ _ _)
  dsimp only
  repeat' split
  all_goals simp [h]

@[simp] theorem nextInv_execSmPrefetch (d c slot s) (h : s.Inv) : NextInv (execSmPrefetch d c slot s) := by
  simp [execSmPrefetch, h]

@[simp] theorem inv_setSignal (s d c slot op) (h : s.Inv) : (setSignal s d c slot op).Inv := by
  refine inv_onRow (fun i w s h => ?_) h _ _ _ _
  dsimp only
  repeat' split
  all_goals simp [h]

@[simp] theorem inv_setWait (s d c slot op) (h : s.Inv) : (setWait s d c slot op).Inv := by
  refine inv_onRow (fun i w s h => ?_) h _ _ _ _
  dsimp only
  repeat' split
  all_goals simp [h]

@[simp] theorem nextInv_execStreamCacheWritebackDone (d c late s) (h : s.Inv) :
    NextInv (execStreamCacheWritebackDone d c late s) := by
  unfold execStreamCacheWritebackDone
  split <;> simp [h]

@[simp] theorem inv_callSettle (s d c) : (callSettle s d c).Inv ↔ s.Inv := by
  unfold callSettle
  split <;> simp

@[simp] theorem nextInv_execCallEnd (d c held s) (h : s.Inv) : NextInv (execCallEnd d c held s) := by
  unfold execCallEnd
  split <;> simp [h]

@[simp] theorem nextInv_execCallWindowExpiry (d c s) (h : s.Inv) : NextInv (execCallWindowExpiry d c s) := by
  unfold execCallWindowExpiry
  split <;> simp [h]

@[simp] theorem nextInv_execCallGraceExpiry (d c s) (h : s.Inv) : NextInv (execCallGraceExpiry d c s) := by
  unfold execCallGraceExpiry
  split <;> simp [h]

/-! ### Faults -/

@[simp] theorem inv_gatherRelease (s d c) : (gatherRelease s d c).Inv ↔ s.Inv := by simp [gatherRelease]
@[simp] theorem inv_setsRelease (s d c k) : (setsRelease s d c k).Inv ↔ s.Inv := by simp [setsRelease]
@[simp] theorem inv_resolveIgnored (s d) : (resolveIgnored s d).Inv ↔ s.Inv := by simp [resolveIgnored]
@[simp] theorem inv_resolveRetry (s d i) (h : s.Inv) : (resolveRetry s d i).Inv := by simp +contextual [resolveRetry, h]

@[simp] theorem inv_resolveFatal (s d i) : (resolveFatal s d i).Inv ↔ s.Inv := by
  unfold resolveFatal
  split
  · extract_lets k window va w s1 s2 s3
    have h2 : s2.Inv ↔ s1.Inv := by
      refine inv_foldl (fun s c => ?_) _ _
      split <;> simp
    have h3 : s3.Inv ↔ s2.Inv := inv_foldl (fun s t => by simp) _ _
    simp [h3, h2, s1]
  · simp

@[simp] theorem inv_broadcastFence (s hart va asid) : (broadcastFence s hart va asid).Inv ↔ s.Inv := by simp [broadcastFence]
@[simp] theorem inv_hartWaits (s hart ids) : (hartWaits s hart ids).Inv ↔ s.Inv := by simp [hartWaits]
@[simp] theorem nextInv_execSfenceVma (hart va asid s) (h : s.Inv) : NextInv (execSfenceVma hart va asid s) := by
  simp [execSfenceVma, h]
@[simp] theorem nextInv_execSinvalVma (hart va asid s) (h : s.Inv) : NextInv (execSinvalVma hart va asid s) := by
  simp [execSinvalVma, h]
@[simp] theorem nextInv_execSfenceInvalIr (hart s) (h : s.Inv) : NextInv (execSfenceInvalIr hart s) := by
  simp [execSfenceInvalIr, h]

@[simp] theorem nextInv_execFenceAck (d id s) (h : s.Inv) : NextInv (execFenceAck d id s) := by
  unfold execFenceAck
  split
  · simp [h]
  · extract_lets s1 s2 fs waiting src s3
    have h1 : s1.Inv := by
      refine inv_foldl_imp (fun s c h => ?_) _ h
      extract_lets cl is s1
      have h1 : s1.Inv := inv_foldl_imp (fun s i h => by simp [h]) _ h
      split <;> simp [h1]
    have h2 : s2.Inv := (inv_inc s1 _).2 h1
    clear_value s2
    exact nextInv_next.2 ((inv_wrB s3 _ _ _).2 (inv_mk.2 h2))

/-! ### Update -/

@[simp] theorem inv_upEvent (s d i) : (upEvent s d i).Inv ↔ s.Inv := by simp [upEvent]
@[simp] theorem inv_usIssue (s d op issue ops) (h : s.Inv) : (usIssue s d op issue ops).Inv := by simp [usIssue, h]
@[simp] theorem nextInv_execUpRuleWrite (d j w v s) (h : s.Inv) : NextInv (execUpRuleWrite d j w v s) := by
  simp [execUpRuleWrite, h]

@[simp] theorem inv_upRun (s u) (h : s.Inv) : (upRun s u).1.Inv := by
  unfold upRun
  extract_lets _ _ _ _ _ _ _ s1
  have h1 : s1.Inv := by
    unfold s1
    split
    · exact h
    · exact inv_foldl_imp (fun s x h => inv_wrBytes _ _ _ h) _ h
  exact inv_foldl_imp (fun s x h => inv_wrBytes _ _ _ h) _ h1

@[simp] theorem inv_mixLeavings (s u) (h : s.Inv) : (mixLeavings s u).Inv := by simp +contextual [mixLeavings, h]
@[simp] theorem nextInv_execUpApply (d issue ops s) (h : s.Inv) : NextInv (execUpApply d issue ops s) := by simp [execUpApply, h]

@[simp] theorem nextInv_execUpdateWindowOpen (d waited s) (h : s.Inv) : NextInv (execUpdateWindowOpen d waited s) := by
  unfold execUpdateWindowOpen
  split
  · simp [h]
  · extract_lets es free s1 v s2
    have h1 : s1.Inv := by
      refine inv_foldl_imp (fun s e h => ?_) _ h
      split <;> simp [h]
    have h2 : s2.Inv := inv_letGo _ _ _ h1
    rw [nextInv_next]
    repeat' split
    all_goals simp [h, h2]

@[simp] theorem inv_updSettle (s d issue) : (updSettle s d issue).Inv ↔ s.Inv := by
  unfold updSettle
  split <;> simp

@[simp] theorem nextInv_execUpdateEnd (d issue held s) (h : s.Inv) : NextInv (execUpdateEnd d issue held s) := by
  unfold execUpdateEnd
  split <;> simp [h]

@[simp] theorem nextInv_execUpdateWindowExpiry (d issue s) (h : s.Inv) : NextInv (execUpdateWindowExpiry d issue s) := by
  simp [execUpdateWindowExpiry, h]

/-! ### Timetable -/

@[simp] theorem inv_setTtState (s d st) : (setTtState s d st).Inv ↔ s.Inv := by simp [setTtState]
@[simp] theorem inv_showSeen (s d) : (showSeen s d).Inv ↔ s.Inv := by simp [showSeen]
@[simp] theorem inv_noteSeen (s d k src) : (noteSeen s d k src).Inv ↔ s.Inv := by simp [noteSeen]
@[simp] theorem inv_noteRemote (s d k) : (noteRemote s d k).Inv ↔ s.Inv := by simp [noteRemote]
@[simp] theorem inv_portReport (s unit departure k mtc) : (portReport s unit departure k mtc).Inv ↔ s.Inv := Iff.rfl
@[simp] theorem inv_showFlush (s) : (showFlush s).Inv ↔ s.Inv := by simp [showFlush]
@[simp] theorem inv_possBegin (s p) : (possBegin s p).Inv ↔ s.Inv := by simp [possBegin]
@[simp] theorem inv_possStart (s k) : (possStart s k).Inv ↔ s.Inv := by simp [possStart]
@[simp] theorem inv_possEnd (s p) : (possEnd s p).Inv ↔ s.Inv := by simp [possEnd]
@[simp] theorem inv_possLeave (s d k) : (possLeave s d k).Inv ↔ s.Inv := by simp [possLeave]
@[simp] theorem inv_flushHome (s d base granules) (h : s.Inv) : (flushHome s d base granules).Inv := by
  simp +contextual [flushHome, h]
@[simp] theorem inv_dieArrive (s d named) : (dieArrive s d named).Inv ↔ s.Inv := by simp [dieArrive]
@[simp] theorem nextInv_execEngineArrival (d e named s) (h : s.Inv) : NextInv (execEngineArrival d e named s) := by
  simp [execEngineArrival, h]

@[simp] theorem nextInv_execArrivalMessage (d src s) (h : s.Inv) : NextInv (execArrivalMessage d src s) := by
  unfold execArrivalMessage
  split <;> simp [h]

@[simp] theorem inv_packageArrival (s src k die n) : (packageArrival s src k die n).Inv ↔ s.Inv := by simp [packageArrival]
@[simp] theorem inv_lateDeparture (s d k beats) : (lateDeparture s d k beats).Inv ↔ s.Inv := by simp [lateDeparture]
@[simp] theorem inv_reportDeparture (s d k beat) : (reportDeparture s d k beat).Inv ↔ s.Inv := by simp [reportDeparture]

@[simp] theorem inv_preTranslateAll (s d) : (preTranslateAll s d).Inv ↔ s.Inv := by
  refine inv_foldl (fun s x => ?_) _ _
  split <;> simp

@[simp] theorem inv_slotsAgain (s d) : (slotsAgain s d).Inv ↔ s.Inv := by simp [slotsAgain]
@[simp] theorem inv_departDie (s d k) : (departDie s d k).Inv ↔ s.Inv := by simp [departDie]
@[simp] theorem inv_releaseHeld (s) : (releaseHeld s).Inv ↔ s.Inv := by simp [releaseHeld]
@[simp] theorem nextInv_execDeparture (d t s) (h : s.Inv) : NextInv (execDeparture d t s) := by simp [execDeparture, h]
@[simp] theorem nextInv_execStationTimeout (d t s) (h : s.Inv) : NextInv (execStationTimeout d t s) := by
  simp [execStationTimeout, h]
@[simp] theorem nextInv_execDepartureOverdue (d t s) (h : s.Inv) : NextInv (execDepartureOverdue d t s) := by
  simp [execDepartureOverdue, h]

/-! ### Load -/

@[simp] theorem inv_loadResult (s d f) : (loadResult s d f).Inv ↔ s.Inv := by simp [loadResult]
@[simp] theorem inv_unload (s) : (unload s).Inv ↔ s.Inv := by simp [unload]

@[simp] theorem inv_armAbort (s status detail) (h : s.Inv) : (armAbort s status detail).Inv := by
  unfold armAbort
  repeat' split
  all_goals simp [h]

@[simp] theorem inv_clearAtLoad (s d) : (clearAtLoad s d).Inv ↔ s.Inv := by
  simp only [clearAtLoad, inv_foldl, inv_wr, inv_wrF, inv_setEng, inv_mk,
    storesWf_eta, implies_true]

@[simp] theorem inv_loadPoss (s t) : (loadPoss s t).Inv ↔ s.Inv := by simp [loadPoss]

@[simp] theorem inv_installLoad (s d t) : (installLoad s d t).Inv ↔ s.Inv := by
  simp only [installLoad, inv_foldl, inv_clearAtLoad, inv_setDie, inv_wr, inv_setTtState,
    inv_wrB, inv_loadResult, inv_ttEvent, inv_loadPoss, inv_mk, storesWf_eta,
    implies_true]

@[simp] theorem nextInv_execTtLoad (d v s) (h : s.Inv) : NextInv (execTtLoad d v s) := by simp [execTtLoad, h]

/-! ### Power -/

@[simp] theorem inv_pwUpd (s d f) : (pwUpd s d f).Inv ↔ s.Inv := Iff.rfl
@[simp] theorem inv_pwEvent (s d i) : (pwEvent s d i).Inv ↔ s.Inv := by simp [pwEvent]

@[simp] theorem nextInv_execBudgetPeriod (fixed watts energy s) (h : s.Inv) :
    NextInv (execBudgetPeriod fixed watts energy s) := by
  simp [execBudgetPeriod, h]

@[simp] theorem inv_setDuties (s d) : (setDuties s d).Inv ↔ s.Inv := by simp [setDuties]

@[simp] theorem nextInv_execGrantApply (d dutyC dutyM dutyL procMult withheld slots s) (h : s.Inv) :
    NextInv (execGrantApply d dutyC dutyM dutyL procMult withheld slots s) := by
  unfold execGrantApply
  split <;> simp [h]

@[simp] theorem nextInv_execDroop (d cycles s) (h : s.Inv) : NextInv (execDroop d cycles s) := by simp [execDroop, h]
@[simp] theorem inv_thermMove (s d tl ts) : (thermMove s d tl ts).Inv ↔ s.Inv := by simp [thermMove]
@[simp] theorem nextInv_execThermalStep (d logic stack t s) (h : s.Inv) : NextInv (execThermalStep d logic stack t s) := by
  simp [execThermalStep, h]
@[simp] theorem nextInv_execThermalTrip (d s) (h : s.Inv) : NextInv (execThermalTrip d s) := by simp [execThermalTrip, h]
@[simp] theorem inv_storedLeakage (s) : (storedLeakage s).Inv ↔ s.Inv := by simp [storedLeakage]
@[simp] theorem nextInv_execLeakageLearned (d leak t s) (h : s.Inv) : NextInv (execLeakageLearned d leak t s) := by
  simp [execLeakageLearned, h]
@[simp] theorem nextInv_execBMessageDue (d r s) (h : s.Inv) : NextInv (execBMessageDue d r s) := by simp [execBMessageDue, h]
@[simp] theorem nextInv_execBMessage (d msg s) (h : s.Inv) : NextInv (execBMessage d msg s) := by simp [execBMessage, h]
@[simp] theorem inv_writeBackAll (s) (h : s.Inv) : (writeBackAll s).Inv := by simp +contextual [writeBackAll, h]

/-! ### Jobs -/

@[simp] theorem inv_jobIgnored (s) : (jobIgnored s).Inv ↔ s.Inv := by simp [jobIgnored]
@[simp] theorem nextInv_execHpJobManifestWrite (v s) (h : s.Inv) : NextInv (execHpJobManifestWrite v s) := by
  simp [execHpJobManifestWrite, h]

@[simp] theorem inv_landRead (s src n) : (landRead s src n).2.2.Inv ↔ s.Inv := by
  simp only [landRead]
  repeat' split
  all_goals simp

theorem inv_eq_of_landRead {s off n st l u} (h : landRead s off n = (st, l, u)) : u.Inv ↔ s.Inv := by
  simpa [h] using inv_landRead s off n

@[simp] theorem inv_authRefused (s) : (authRefused s).Inv ↔ s.Inv := by simp [authRefused]
@[simp] theorem inv_newArmKey (s) : (newArmKey s).Inv ↔ s.Inv := by simp [newArmKey]
@[simp] theorem inv_consumeArmKey (s) : (consumeArmKey s).Inv ↔ s.Inv := by simp [consumeArmKey]
@[simp] theorem inv_zeroJobState (s) (h : s.Inv) : (zeroJobState s).Inv := by simp +contextual [zeroJobState, h]
@[simp] theorem inv_armReset (s) (h : s.Inv) : (armReset s).Inv := by simp [armReset, h]

@[simp] theorem inv_enterArming (s q m) (h : s.Inv) : (enterArming s q m).Inv := by
  have hreset : (armReset (applyStep s)).Inv := by simp [h]
  simpa only [enterArming, inv_setSelf, inv_wrF, inv_wr, inv_setJob, inv_mk, storesWf_eta] using
    inv_foldl_imp (fun s r h => inv_forgetGranules s _ _ h) _ hreset

@[simp] theorem inv_installKeys (s b) : (installKeys s b).Inv ↔ s.Inv := by simp [installKeys]

@[simp] theorem inv_armCopied (s q m sigOk bundle) (h : s.Inv) : (armCopied s q m sigOk bundle).Inv := by
  unfold armCopied
  repeat' split
  all_goals simp [h]

@[simp] theorem nextInv_execArmJob (seq sigOk bundle s) (h : s.Inv) : NextInv (execArmJob seq sigOk bundle s) := by
  refine nextInv_next.2 (inv_startCmd (fun b s h => ?_) h _ _ _)
  dsimp only
  iterate 4 (split; · simp [h])
  split
  all_goals
    rename_i hr
    have hr := (inv_eq_of_landRead hr).2 h
    simp [hr]

@[simp] theorem inv_announceArmed (s) : (announceArmed s).Inv ↔ s.Inv := by simp [announceArmed]

@[simp] theorem inv_tryArmed (s) (h : s.Inv) : (tryArmed s).Inv := by
  unfold tryArmed
  repeat' split
  all_goals simp [h]

@[simp] theorem nextInv_execArmDone (s) (h : s.Inv) : NextInv (execArmDone s) := by simp [execArmDone, h]

@[simp] theorem nextInv_execPossessionFlushDone (d base s) (h : s.Inv) : NextInv (execPossessionFlushDone d base s) := by
  unfold execPossessionFlushDone
  split <;> simp [h]

@[simp] theorem nextInv_execTtLoadComplete (d s) (h : s.Inv) : NextInv (execTtLoadComplete d s) := by
  unfold execTtLoadComplete
  repeat' split
  all_goals simp [h]

@[simp] theorem nextInv_execMainRelock (s) (h : s.Inv) : NextInv (execMainRelock s) := by simp [execMainRelock, h]
@[simp] theorem nextInv_execFail (s) (h : s.Inv) : NextInv (execFail s) := by simp [execFail, h]
@[simp] theorem nextInv_execArmLimitExpiry (t s) (h : s.Inv) : NextInv (execArmLimitExpiry t s) := by simp [execArmLimitExpiry, h]
@[simp] theorem nextInv_execArmedAnnounce (t s) (h : s.Inv) : NextInv (execArmedAnnounce t s) := by simp [execArmedAnnounce, h]
@[simp] theorem nextInv_execRightAway (seq s) (h : s.Inv) : NextInv (execRightAway seq s) := by simp [execRightAway, h]

@[simp] theorem inv_noteNotClear (s) : (noteNotClear s).Inv ↔ s.Inv := by
  unfold noteNotClear
  split <;> simp

@[simp] theorem inv_departAll (s) : (departAll s).Inv ↔ s.Inv := by simp [departAll]
@[simp] theorem inv_lineAgain (s) : (lineAgain s).Inv ↔ s.Inv := by simp [lineAgain]
@[simp] theorem nextInv_execRightAwayReached (t s) (h : s.Inv) : NextInv (execRightAwayReached t s) := by
  simp [execRightAwayReached, h]
@[simp] theorem inv_stopEngines (s) : (stopEngines s).Inv ↔ s.Inv := by simp [stopEngines]

@[simp] theorem nextInv_execTeardown (seq s) (h : s.Inv) : NextInv (execTeardown seq s) := by
  refine nextInv_next.2 (inv_startCmd (fun b s h => ?_) h _ _ _)
  dsimp only
  repeat' split
  all_goals simp [h]

@[simp] theorem inv_withdrawWork (s) (h : s.Inv) : (withdrawWork s).Inv := by simp +contextual [withdrawWork, h]
@[simp] theorem nextInv_execTeardownWithdraw (t s) (h : s.Inv) : NextInv (execTeardownWithdraw t s) := by
  simp [execTeardownWithdraw, h]
@[simp] theorem inv_sendLinkLocal (s ctrl tag) : (sendLinkLocal s ctrl tag).Inv ↔ s.Inv := by simp [sendLinkLocal]

@[simp] theorem inv_dropJobLines (s) (h : s.Inv) : (dropJobLines s).Inv := by
  unfold dropJobLines
  extract_lets hit ls s1 mine s2
  have h1 : s1.Inv := inv_foldl_imp (fun s l h => inv_invalidateLine _ _ _ h) _ h
  clear_value s1
  have h2 : s2.Inv := by
    refine inv_foldl_imp (fun s cl h => ?_) _ (inv_mk.2 h1)
    split <;> simp [h]
  clear_value s2
  exact (inv_foldl (fun s cl => inv_scRefresh s cl) _ _).2 (inv_mk.2 h2)

@[simp] theorem inv_teardownSteps (s) (h : s.Inv) : (teardownSteps s).Inv := by
  unfold teardownSteps
  extract_lets s1 s2 s3 s4 s5 src s6 s7
  have h1 : s1.Inv := (inv_sendLinkLocal s 2 s.job.tag).2 h
  have h2 : s2.Inv := inv_dropJobLines _ ((inv_foldl inv_possEnd _ s1).2 h1)
  clear_value s2
  have h3 : s3.Inv := inv_mk.2 (storesWf_eraseMem h2 _ _)
  have h4 : s4.Inv := inv_zeroJobState s3 h3
  clear_value s4
  have h5 : s5.Inv := (inv_foldl (fun s d => inv_wr s _ _) _ s4).2 h4
  clear_value s5
  have h6 : s6.Inv := inv_mk.2 h5
  exact inv_destroyKeys _ ((inv_wr s6 _ _).2 h6)

@[simp] theorem inv_quarantineAdd (s tag) : (quarantineAdd s tag).Inv ↔ s.Inv := by simp [quarantineAdd]
@[simp] theorem inv_quarantineDrop (s tag) : (quarantineDrop s tag).Inv ↔ s.Inv := Iff.rfl

@[simp] theorem nextInv_execTeardownComplete (s) (h : s.Inv) : NextInv (execTeardownComplete s) := by
  simp only [execTeardownComplete, nextInv_next, inv_ite]
  repeat' split
  all_goals simp [h]

@[simp] theorem inv_enterIdle (s) : (enterIdle s).Inv ↔ s.Inv := by simp [enterIdle]
@[simp] theorem nextInv_execTagCleared (s) (h : s.Inv) : NextInv (execTagCleared s) := by simp [execTagCleared, h]
@[simp] theorem nextInv_execClearTimeout (t s) (h : s.Inv) : NextInv (execClearTimeout t s) := by simp [execClearTimeout, h]
@[simp] theorem nextInv_execQuarantineExpiry (tag t s) (h : s.Inv) : NextInv (execQuarantineExpiry tag t s) := by
  simp [execQuarantineExpiry, h]
@[simp] theorem inv_noteArmed (s src pl) : (noteArmed s src pl).Inv ↔ s.Inv := by simp [noteArmed]

/-! ### Functions -/

@[simp] theorem inv_holdNport (s n low) : (holdNport s n low).Inv ↔ s.Inv := by simp [holdNport]
@[simp] theorem inv_setFunc (s kind i st withdrawn) : (setFunc s kind i st withdrawn).Inv ↔ s.Inv := by simp [setFunc]

@[simp] theorem inv_endSetFunction (s kind i) : (endSetFunction s kind i).Inv ↔ s.Inv := by
  unfold endSetFunction
  split <;> simp

@[simp] theorem inv_requestDisable (s kind i) : (requestDisable s kind i).1.Inv ↔ s.Inv := by
  unfold requestDisable
  repeat' split
  all_goals simp

theorem inv_eq_of_requestDisable {s kind i u st} (h : requestDisable s kind i = (u, st)) : u.Inv ↔ s.Inv := by
  simpa [h] using inv_requestDisable s kind i

@[simp] theorem inv_stripesBehind (s i) : (stripesBehind s i).Inv ↔ s.Inv := Iff.rfl

@[simp] theorem inv_requestEnable (s kind i) : (requestEnable s kind i).1.Inv ↔ s.Inv := by
  unfold requestEnable
  repeat' split
  all_goals simp

@[simp] theorem nextInv_execSetFunctionDisable (seq s) (h : s.Inv) : NextInv (execSetFunctionDisable seq s) := by
  refine nextInv_next.2 (inv_startCmd (fun b s hs => ?_) h _ _ _)
  split
  · simp [hs]
  · split
    all_goals
      rename_i hd
      simp [(inv_eq_of_requestDisable hd).2 hs]

@[simp] theorem nextInv_execSetFunctionEnable (seq s) (h : s.Inv) : NextInv (execSetFunctionEnable seq s) := by
  simp [execSetFunctionEnable, h]
@[simp] theorem nextInv_execOmCtrlDisable (p s) (h : s.Inv) : NextInv (execOmCtrlDisable p s) := by simp [execOmCtrlDisable, h]
@[simp] theorem nextInv_execOmCtrlEnable (p s) (h : s.Inv) : NextInv (execOmCtrlEnable p s) := by simp [execOmCtrlEnable, h]
@[simp] theorem inv_reqWithdrawn (s r) (h : s.Inv) : (reqWithdrawn s r).Inv := by simp [reqWithdrawn, h]
@[simp] theorem inv_ommetDown (s p) : (ommetDown s p).Inv ↔ s.Inv := by simp [ommetDown]
@[simp] theorem inv_sendPortDisable (s p) : (sendPortDisable s p).Inv ↔ s.Inv := by simp [sendPortDisable]
@[simp] theorem inv_drainEnd (s kind i nand) (h : s.Inv) : (drainEnd s kind i nand).Inv := by simp +contextual [drainEnd, h]
@[simp] theorem nextInv_execFunctionDrained (f s) (h : s.Inv) : NextInv (execFunctionDrained f s) := by
  simp [execFunctionDrained, h]
@[simp] theorem nextInv_execFunctionDrainExpiry (f t nand s) (h : s.Inv) : NextInv (execFunctionDrainExpiry f t nand s) := by
  simp [execFunctionDrainExpiry, h]
@[simp] theorem inv_portFault (s p) : (portFault s p).Inv ↔ s.Inv := by simp [portFault]

/-! ### Lands -/

@[simp] theorem inv_wipe (s) (h : s.Inv) : (wipe s).Inv := by
  simp only [wipe, inv_wr]
  exact ⟨Store.wf_nil _, h.2.1, h.2.2.1, Store.wf_nil _⟩

@[simp] theorem inv_beginStart (s) : (beginStart s).Inv ↔ s.Inv := by simp [beginStart]
@[simp] theorem nextInv_execVauxValid (serviceHigh s) (h : s.Inv) : NextInv (execVauxValid serviceHigh s) := by
  simp [execVauxValid, h]
@[simp] theorem nextInv_execVinValid (s) (h : s.Inv) : NextInv (execVinValid s) := nextInv_next.2 h
@[simp] theorem nextInv_execRailsInRegulation (t s) (h : s.Inv) : NextInv (execRailsInRegulation t s) := by
  simp [execRailsInRegulation, h]
@[simp] theorem nextInv_execVinLoss (s) (h : s.Inv) : NextInv (execVinLoss s) := by simp [execVinLoss, h]
@[simp] theorem nextInv_execVauxLoss (s) (h : s.Inv) : NextInv (execVauxLoss s) := by simp [execVauxLoss, h]
@[simp] theorem nextInv_execManagementReady (s) (h : s.Inv) : NextInv (execManagementReady s) := by simp [execManagementReady, h]
@[simp] theorem nextInv_execRestart (s) (h : s.Inv) : NextInv (execRestart s) := by simp [execRestart, h]
@[simp] theorem inv_mgmtDo (s f) : (mgmtDo s f).Inv ↔ s.Inv := by simp [mgmtDo]
@[simp] theorem nextInv_execEntdaa (addr s) (h : s.Inv) : NextInv (execEntdaa addr s) := by simp [execEntdaa, h]
@[simp] theorem nextInv_execSetdasa (target addr s) (h : s.Inv) : NextInv (execSetdasa target addr s) := by simp [execSetdasa, h]
@[simp] theorem nextInv_execGetstatus (s) (h : s.Inv) : NextInv (execGetstatus s) := by simp [execGetstatus, h]

@[simp] theorem nextInv_execManagementIndexWrite (bytes s) (h : s.Inv) : NextInv (execManagementIndexWrite bytes s) := by
  unfold execManagementIndexWrite
  split <;> simp [h]

@[simp] theorem nextInv_execManagementPrivateRead (s) (h : s.Inv) : NextInv (execManagementPrivateRead s) := by
  unfold execManagementPrivateRead
  split <;> simp [h]

@[simp] theorem nextInv_execCoreFault (p site s) (h : s.Inv) : NextInv (execCoreFault p site s) := nextInv_next.2 h

/-! ### Images -/

@[simp] theorem inv_applyCfg (s l) : (applyCfg s l).Inv ↔ s.Inv := by simp [applyCfg]

/-! ### Commands -/

@[simp] theorem nextInv_execIdentify (seq s) (h : s.Inv) : NextInv (execIdentify seq s) := by simp [execIdentify, h]
@[simp] theorem nextInv_execGetStatus (seq s) (h : s.Inv) : NextInv (execGetStatus seq s) := by simp [execGetStatus, h]
@[simp] theorem nextInv_execMapLanding (seq s) (h : s.Inv) : NextInv (execMapLanding seq s) := by simp [execMapLanding, h]

@[simp] theorem inv_putFrame (s b) : (putFrame s b).2.2.Inv ↔ s.Inv := by
  unfold putFrame
  split <;> simp

theorem inv_eq_of_putFrame {s b st l u} (h : putFrame s b = (st, l, u)) : u.Inv ↔ s.Inv := by
  simpa [h] using inv_putFrame s b

@[simp] theorem nextInv_execPut (seq opened s) (h : s.Inv) : NextInv (execPut seq opened s) := by
  refine nextInv_next.2 (inv_startCmd (fun b s h => ?_) h _ _ _)
  dsimp only
  iterate 3 (split; · simp [h])
  split
  all_goals
    rename_i hf
    have hf := (inv_eq_of_putFrame hf).2 h
  · split
    · simp [hf]
    · split <;> simp [hf]
  · simp [hf]

@[simp] theorem nextInv_execGet (seq s) (h : s.Inv) : NextInv (execGet seq s) := by
  refine nextInv_next.2 (inv_startCmd (fun b s h => ?_) h _ _ _)
  dsimp only
  repeat' split
  all_goals simp [h]
  all_goals exact (inv_eq_of_jobRead ‹_›).2 h

@[simp] theorem nextInv_execSignalRead (seq s) (h : s.Inv) : NextInv (execSignalRead seq s) := by simp [execSignalRead, h]
@[simp] theorem inv_hostSignal (s seq b add) : (hostSignal s seq b add).Inv ↔ s.Inv := by simp [hostSignal]
@[simp] theorem nextInv_execSignalSet (seq s) (h : s.Inv) : NextInv (execSignalSet seq s) := by simp [execSignalSet, h]
@[simp] theorem nextInv_execSignalAdd (seq s) (h : s.Inv) : NextInv (execSignalAdd seq s) := by simp [execSignalAdd, h]
@[simp] theorem nextInv_execStable (seq s) (h : s.Inv) : NextInv (execStable seq s) := by simp [execStable, h]

@[simp] theorem inv_landFile (s src n) : (landFile s src n).2.2.Inv ↔ s.Inv := by
  unfold landFile
  split <;> simp

theorem inv_eq_of_landFile {s src n st l u} (h : landFile s src n = (st, l, u)) : u.Inv ↔ s.Inv := by
  simpa [h] using inv_landFile s src n

@[simp] theorem inv_newChallenge (s) : (newChallenge s).Inv ↔ s.Inv := by simp [newChallenge]
@[simp] theorem nextInv_execMaintenanceEnter (seq sigOk s) (h : s.Inv) : NextInv (execMaintenanceEnter seq sigOk s) := by
  simp +contextual [execMaintenanceEnter, h]
@[simp] theorem nextInv_execMaintenanceRestart (seq s) (h : s.Inv) : NextInv (execMaintenanceRestart seq s) := by
  simp [execMaintenanceRestart, h]

@[simp] theorem inv_update (s seq target check readBackOk store) (h : s.Inv) :
    (update s seq target check readBackOk store).Inv := by
  refine inv_startCmd (fun b s h => ?_) h _ _ _
  split
  all_goals
    rename_i hl
    have hl := (inv_eq_of_landFile hl).2 h
  · repeat' split
    all_goals simp [hl]
  · simp [hl]

@[simp] theorem nextInv_execUpdateFirmware (seq sigOk readBackOk s) (h : s.Inv) :
    NextInv (execUpdateFirmware seq sigOk readBackOk s) := by
  simp [execUpdateFirmware, h]

@[simp] theorem nextInv_execUpdateConfiguration (seq sigOk readBackOk s) (h : s.Inv) :
    NextInv (execUpdateConfiguration seq sigOk readBackOk s) := by simp [execUpdateConfiguration, h]
@[simp] theorem nextInv_execAttest (seq s) (h : s.Inv) : NextInv (execAttest seq s) := by simp [execAttest, h]

@[simp] theorem nextInv_execHeartbeatMiss (x1 s) (h : s.Inv) : NextInv (execHeartbeatMiss x1 s) := by
  unfold execHeartbeatMiss
  split <;> simp [h]

/-! ### Lanes -/

@[simp] theorem inv_sendLink (s p link logical phys delay) :
    (sendLink s p link logical phys delay).Inv ↔ s.Inv := by simp [sendLink]
@[simp] theorem inv_askLane (s p n delay) : (askLane s p n delay).Inv ↔ s.Inv := by simp [askLane]
@[simp] theorem nextInv_execPartnerDetect (p s) (h : s.Inv) : NextInv (execPartnerDetect p s) := by simp [execPartnerDetect, h]

@[simp] theorem nextInv_execTrainingDone (p lanes partner s) (h : s.Inv) : NextInv (execTrainingDone p lanes partner s) := by
  unfold execTrainingDone
  repeat' split
  all_goals simp [h]

@[simp] theorem inv_laneFails (s p lane delay) : (laneFails s p lane delay).Inv ↔ s.Inv := by
  simp only [laneFails, inv_ite]
  repeat' split
  all_goals simp

@[simp] theorem inv_declareLane (s p lane) : (declareLane s p lane).Inv ↔ s.Inv := by simp [declareLane]
@[simp] theorem inv_fecCorrect (s p corr) : (fecCorrect s p corr).Inv ↔ s.Inv := by simp [fecCorrect]
@[simp] theorem inv_nakedOut (s p) : (nakedOut s p).Inv ↔ s.Inv := by simp [nakedOut]

@[simp] theorem nextInv_execLaneChangeEffect (p delay s) (h : s.Inv) : NextInv (execLaneChangeEffect p delay s) := by
  simp only [execLaneChangeEffect, nextInv_next]
  repeat' split
  all_goals simp [h]

@[simp] theorem inv_laneChange (s p pl) : (laneChange s p pl).Inv ↔ s.Inv := by simp [laneChange]
@[simp] theorem inv_laneAck (s p pl) : (laneAck s p pl).Inv ↔ s.Inv := by simp [laneAck]
@[simp] theorem nextInv_execOrEntryWrite (d g v s) (h : s.Inv) : NextInv (execOrEntryWrite d g v s) := by
  simp [execOrEntryWrite, h]

/-! ### MainArray -/

@[simp] theorem inv_cubeMismatch (s d row col issue) : (cubeMismatch s d row col issue).Inv ↔ s.Inv := by simp [cubeMismatch]
@[simp] theorem inv_maIssue (s d op issue ops) (h : s.Inv) : (maIssue s d op issue ops).Inv := by simp [maIssue, h]
@[simp] theorem nextInv_execMaMma (d issue ops bad s) (h : s.Inv) : NextInv (execMaMma d issue ops bad s) := by
  simp [execMaMma, h]

/-! ### TimeTransfer -/

@[simp] theorem inv_partnerPos (s p) : (partnerPos s p).2.Inv ↔ s.Inv := by
  simp only [partnerPos]
  split <;> simp

@[simp] theorem nextInv_execTimeTransferRequest (t s) (h : s.Inv) : NextInv (execTimeTransferRequest t s) := by
  simp [execTimeTransferRequest, h]

@[simp] theorem inv_stampTime (s p dst ts pl) : (stampTime s p dst ts pl).2.Inv ↔ s.Inv := by
  simp only [stampTime]
  repeat' split
  all_goals simp

@[simp] theorem inv_timeDiscard (s) : (timeDiscard s).Inv ↔ s.Inv := by simp [timeDiscard]

@[simp] theorem inv_timeResponse (s t1 t4 pl) : (timeResponse s t1 t4 pl).Inv ↔ s.Inv := by
  simp only [timeResponse, inv_ite]
  repeat' split
  all_goals simp

@[simp] theorem inv_timeReceive (s p f) : (timeReceive s p f).Inv ↔ s.Inv := by
  simp only [timeReceive, inv_ite]
  repeat' split
  all_goals simp

/-! ### Slots -/

@[simp] theorem inv_takeCounter (s f) : (takeCounter s f).2.Inv ↔ s.Inv := by
  unfold takeCounter
  repeat' split
  all_goals simp

@[simp] theorem inv_sendPick (s p ts x1) : (sendPick s p ts x1).Inv ↔ s.Inv := by
  simp only [sendPick]
  repeat' split
  all_goals simp

@[simp] theorem inv_slotMissed (s p cause path) : (slotMissed s p cause path).Inv ↔ s.Inv := by
  unfold slotMissed
  split <;> simp

@[simp] theorem nextInv_execOmmetPayloadSlot (p can ts corr s) (h : s.Inv) : NextInv (execOmmetPayloadSlot p can ts corr s) := by
  simp [execOmmetPayloadSlot, h]

/-! ### Ommet -/

@[simp] theorem inv_awayFill (s d form window a) : (awayFill s d form window a).Inv ↔ s.Inv := by simp [awayFill]

@[simp] theorem inv_awayWrite (s d form window a booked tag data) (h : s.Inv) :
    (awayWrite s d form window a booked tag data).1.Inv := by
  refine inv_foldl_imp_of Prod.fst (fun r b hr => ?_) _ h
  dsimp only
  split <;> simp [hr]

@[simp] theorem inv_awayRead (s d form window a n booked tag) :
    (awayRead s d form window a n booked tag).2.2.2.Inv ↔ s.Inv := by
  refine inv_foldl_of (fun r : List Byte × Bool × Option Nat × State => r.2.2.2) (fun r b => ?_) _ _
  simp only [drawBytes]
  repeat' split
  all_goals simp

@[simp] theorem inv_trainResp (s d src op st addr last data) :
    (trainResp s d src op st addr last data).Inv ↔ s.Inv := by simp [trainResp]
@[simp] theorem inv_bookedWrite (s p f) (h : s.Inv) : (bookedWrite s p f).Inv := by simp [bookedWrite, h]

@[simp] theorem inv_bookedRead (s p f) : (bookedRead s p f).Inv ↔ s.Inv := by
  simp only [bookedRead]
  split <;> simp

@[simp] theorem inv_bookedSignal (s p f add) : (bookedSignal s p f add).Inv ↔ s.Inv := by simp [bookedSignal]

@[simp] theorem inv_bookedReceive (s p f) (h : s.Inv) : (bookedReceive s p f).Inv := by
  unfold bookedReceive
  split <;> simp [h]

@[simp] theorem inv_reqRead (s p f) : (reqRead s p f).Inv ↔ s.Inv := by simp [reqRead]
@[simp] theorem inv_reqWrite (s p f) (h : s.Inv) : (reqWrite s p f).Inv := by simp [reqWrite, h]
@[simp] theorem inv_reqSignal (s f add) : (reqSignal s f add).Inv ↔ s.Inv := by simp [reqSignal]

@[simp] theorem inv_reqReceive (s p f) (h : s.Inv) : (reqReceive s p f).Inv := by
  unfold reqReceive
  split <;> simp [h]

@[simp] theorem inv_respReceive (s f) (h : s.Inv) : (respReceive s f).Inv := by
  simp only [respReceive, inv_ite]
  repeat' split
  all_goals simp [h]

@[simp] theorem inv_ctrlReceive (s f) : (ctrlReceive s f).Inv ↔ s.Inv := by
  unfold ctrlReceive
  split <;> simp

@[simp] theorem inv_linkReceive (s p f) : (linkReceive s p f).Inv ↔ s.Inv := by
  unfold linkReceive
  split <;> simp

@[simp] theorem inv_flitEffect (s p f) (h : s.Inv) : (flitEffect s p f).Inv := by
  unfold flitEffect
  split <;> simp [h]

@[simp] theorem inv_tagDrop (s p) : (tagDrop s p).Inv ↔ s.Inv := by simp [tagDrop]
@[simp] theorem inv_pairTake (s f) : (pairTake s f).Inv ↔ s.Inv := by simp [pairTake]
@[simp] theorem inv_authDrop (s p f) : (authDrop s p f).Inv ↔ s.Inv := by simp [authDrop]
@[simp] theorem inv_deliverFlit (s p f) (h : s.Inv) : (deliverFlit s p f).Inv := by simp [deliverFlit, h]

@[simp] theorem inv_drainHeld (fuel s p) (h : s.Inv) : (drainHeld fuel s p).Inv := by
  induction fuel generalizing s with
  | zero => exact h
  | succ fuel ih =>
    unfold drainHeld
    split <;> simp [ih, h]

@[simp] theorem inv_linkWordIn (s p ack lack) : (linkWordIn s p ack lack).Inv ↔ s.Inv := by simp [linkWordIn]
@[simp] theorem inv_fecBad (s p lseq) : (fecBad s p lseq).Inv ↔ s.Inv := by simp [fecBad]
@[simp] theorem inv_takeFlit (s p f) (h : s.Inv) : (takeFlit s p f).Inv := by simp [takeFlit, h]
@[simp] theorem inv_flitIn (s p f) (h : s.Inv) : (flitIn s p f).Inv := by simp [flitIn, h]
@[simp] theorem inv_flitRow (p f k op s) (h : s.Inv) : (flitRow p f k op s).Inv := by simp [flitRow, h]
@[simp] theorem nextInv_execReservedKindFlit (p f s) (h : s.Inv) : NextInv (execReservedKindFlit p f s) := by
  simp [execReservedKindFlit, h]
@[simp] theorem nextInv_execFlitFecFailure (p lseq s) (h : s.Inv) : NextInv (execFlitFecFailure p lseq s) := by
  simp [execFlitFecFailure, h]
@[simp] theorem nextInv_execLinkAck (p lack s) (h : s.Inv) : NextInv (execLinkAck p lack s) := by simp [execLinkAck, h]
@[simp] theorem nextInv_execLinkNak (p lack s) (h : s.Inv) : NextInv (execLinkNak p lack s) := by simp [execLinkNak, h]

/-! ### Registers -/

@[simp] theorem inv_writeResolve (s d v) (h : s.Inv) : (writeResolve s d v).Inv := by simp [writeResolve, h]
@[simp] theorem inv_writeA (s d o v same) (h : s.Inv) : (writeA s d o v same).Inv := by simp [writeA, h]
@[simp] theorem inv_writeP (s d o v same) : (writeP s d o v same).Inv ↔ s.Inv := by simp [writeP]
@[simp] theorem inv_writeX (s o v same) : (writeX s o v same).Inv ↔ s.Inv := by simp [writeX]
@[simp] theorem inv_writeBar (s o v same) : (writeBar s o v same).Inv ↔ s.Inv := by simp [writeBar]
@[simp] theorem inv_writeWhole (s d o v same) (h : s.Inv) : (writeWhole s d o v same).Inv := by simp [writeWhole, h]

@[simp] theorem nextInv_execRegisterWrite (die off len v same s) (h : s.Inv) :
    NextInv (execRegisterWrite die off len v same s) := by
  simp [execRegisterWrite, h]

/-! ### Start -/

@[simp] theorem inv_nextStep (s) : (nextStep s).Inv ↔ s.Inv := by simp [nextStep]
@[simp] theorem inv_logStart (s) : (logStart s).Inv ↔ s.Inv := Iff.rfl
@[simp] theorem inv_startFail (s result detail) (h : s.Inv) : (startFail s result detail).Inv := by simp [startFail, h]
@[simp] theorem inv_startRom (s) : (startRom s).Inv ↔ s.Inv := by simp [startRom]

@[simp] theorem inv_repairBundle (s d e b wires) : (repairBundle s d e b wires).1.Inv ↔ s.Inv := by
  unfold repairBundle
  dsimp only
  refine (inv_foldl (fun s w => ?_) _ _).trans (by simp)
  repeat' split
  all_goals simp

@[simp] theorem inv_repairAll (s faulty) : (repairAll s faulty).1.Inv ↔ s.Inv := by
  refine inv_foldl_of Prod.fst (fun a x => ?_) _ _
  simp

theorem inv_eq_of_repairAll {s faulty u r} (h : repairAll s faulty = (u, r)) : u.Inv ↔ s.Inv := by
  simpa [h] using inv_repairAll s faulty

@[simp] theorem inv_startWires (s faulty deadClocks) (h : s.Inv) : (startWires s faulty deadClocks).Inv := by
  unfold startWires
  extract_lets s1 r
  have h1 : s1.Inv ↔ s.Inv := inv_foldl (fun s d => by simp) _ _
  have hr : r.1.Inv := by simp [r, h1, h]
  split <;> simp [hr]

@[simp] theorem inv_dropMarks (s lo hi) : (dropMarks s lo hi).Inv ↔ s.Inv := Iff.rfl
@[simp] theorem inv_forgetHistory (s records) : (forgetHistory s records).Inv ↔ s.Inv := by simp [forgetHistory]
@[simp] theorem inv_formatDepot (s) : (formatDepot s).Inv ↔ s.Inv := by simp [formatDepot]
@[simp] theorem inv_populateDepot (s luns lunBytes blocks spares) :
    (populateDepot s luns lunBytes blocks spares).Inv ↔ s.Inv := by simp [populateDepot]

@[simp] theorem inv_startDepot (s partsOk super luns lunBytes blocks spares records) (h : s.Inv) :
    (startDepot s partsOk super luns lunBytes blocks spares records).Inv := by
  unfold startDepot
  dsimp only
  split
  · simp [h]
  · split
    all_goals
      rename_i hr
      simp [inv_eq_of_repairAll hr, h]

theorem inv_eq_of_sideArray {s d u} (h : sideArray s d = some u) : u.Inv ↔ s.Inv := by
  obtain ⟨q, _, rfl⟩ := Option.map_eq_some_iff.mp h
  simp

theorem inv_eq_of_sideLanes {s d c u} (h : sideLanes s d c = some u) : u.Inv ↔ s.Inv := by
  unfold sideLanes at h
  extract_lets bad good out s1 at h
  split at h
  · simp at h
  · obtain rfl := Option.some.inj h
    simp [s1]

@[simp] theorem inv_mapOut (s n t j) : (mapOut s n t j).Inv ↔ s.Inv := by simp [mapOut]
@[simp] theorem inv_trainChannel (s n phys eyes centres) : (trainChannel s n phys eyes centres).Inv ↔ s.Inv := by
  simp [trainChannel]

@[simp] theorem inv_showEyes (s n phys eyes) : (showEyes s n phys eyes).Inv ↔ s.Inv := by
  unfold showEyes
  split <;> simp

theorem inv_of_mem_foldl {α : Type} {f : Option State → α → Option State} {s : State}
    (h : ∀ a x, (∀ v ∈ a, v.Inv ↔ s.Inv) → ∀ v ∈ f a x, v.Inv ↔ s.Inv) (l : List α) {a : Option State}
    (ha : ∀ v ∈ a, v.Inv ↔ s.Inv) : ∀ v ∈ l.foldl f a, v.Inv ↔ s.Inv := by
  induction l generalizing a with
  | nil => exact ha
  | cons x l ih => exact ih (h a x ha)

theorem inv_eq_of_sideStack {s n u} (h : sideStack s n = some u) : u.Inv ↔ s.Inv := by
  unfold sideStack at h
  extract_lets bad s1 r at h
  have hs : s1.Inv ↔ s.Inv := by simp [s1]
  have hr : ∀ v ∈ r, v.Inv ↔ s.Inv := by
    refine inv_of_mem_foldl (fun a p ha v hv => ?_) _ (by simp [hs])
    obtain ⟨w, hw, hv'⟩ := Option.bind_eq_some_iff.mp hv
    have ha := ha w hw
    split at hv'
    · obtain rfl := Option.some.inj hv'
      simp [ha]
    · split at hv'
      · simp at hv'
      · obtain rfl := Option.some.inj hv'
        simp [ha]
  obtain ⟨v, hv, rfl⟩ := Option.map_eq_some_iff.mp h
  simp [hr v hv]

theorem inv_eq_of_sideCores {s p u} (h : sideCores s p = some u) : u.Inv ↔ s.Inv := by
  unfold sideCores at h
  extract_lets good m at h
  split at h
  · simp at h
  · obtain rfl := Option.some.inj h
    rfl

theorem inv_sideAll {f} (h : ∀ s i u, f s i = some u → (u.Inv ↔ s.Inv)) (s n) :
    (sideAll s n f).1.Inv ↔ s.Inv := by
  refine inv_foldl_of Prod.fst (fun a i => ?_) _ _
  split
  · exact h _ _ _ ‹_›
  all_goals exact Iff.rfl

theorem inv_eq_of_sideAll {f} (h : ∀ s i u, f s i = some u → (u.Inv ↔ s.Inv)) {s n u r}
    (hs : sideAll s n f = (u, r)) : u.Inv ↔ s.Inv := by
  simpa [hs] using inv_sideAll h s n

@[simp] theorem inv_startTests (s cubes lanes cores trained) (h : s.Inv) :
    (startTests s cubes lanes cores trained).Inv := by
  unfold startTests
  extract_lets mark m1 m2 sites dev s1 s2
  have h2 : s2.Inv := by simp [s2, s1, h]
  split
  all_goals
    rename_i ha
    have ha := (inv_eq_of_sideAll (fun _ _ _ => inv_eq_of_sideArray) ha).2 h2
  · simp [ha]
  split
  all_goals
    rename_i hl
    have hl := (inv_eq_of_sideAll (fun _ _ _ => inv_eq_of_sideLanes) hl).2 ha
  · simp [hl]
  split
  all_goals
    rename_i hs
    have hs := (inv_eq_of_sideAll (fun _ _ _ => inv_eq_of_sideStack) hs).2 hl
  · simp [hs]
  extract_lets s3
  have h3 : s3.Inv := by simp [s3, hs]
  split
  all_goals
    rename_i hc
    have hc := (inv_eq_of_sideAll (fun _ _ _ => inv_eq_of_sideCores) hc).2 h3
  · simp [hc]
  · simp [hc]

@[simp] theorem inv_startMemory (s) (h : s.Inv) : (startMemory s).Inv := by simp [startMemory, h]
@[simp] theorem inv_releaseNports (s) : (releaseNports s).Inv ↔ s.Inv := by simp [releaseNports]
@[simp] theorem inv_startRuntime (s storeOk rebuiltOk) (h : s.Inv) : (startRuntime s storeOk rebuiltOk).Inv := by
  simp [startRuntime, h]
@[simp] theorem inv_startReady (s) : (startReady s).Inv ↔ s.Inv := by simp [startReady]
@[simp] theorem nextInv_execStartStepTimeout (format t s) (h : s.Inv) : NextInv (execStartStepTimeout format t s) := by
  simp [execStartStepTimeout, h]
@[simp] theorem nextInv_execStableEntryDone (s) (h : s.Inv) : NextInv (execStableEntryDone s) := by simp [execStableEntryDone, h]

@[simp] theorem nextInv_execWakeStep (ok bad s) (h : s.Inv) : NextInv (execWakeStep ok bad s) := by
  unfold execWakeStep
  split <;> simp +contextual [h]

/-! ### The commands -/

theorem inv_startImages (s octal fw cfg cert fwSigOk cfgSigOk caOk groupKey) (h : s.Inv) :
    (startImages s octal fw cfg cert fwSigOk cfgSigOk caOk groupKey).Inv := by
  unfold startImages
  split
  · simp [h]
  extract_lets r g s1 s2 hash g3 s3 s4 s5 l key s6 g7
  have h2 : s2.Inv := by simp [s2, s1, h]
  split
  · simp [h2]
  · simp [s6, s5, s4, s3, h2]

theorem nextInv_execStartStepDone (found t s) (h : s.Inv) : NextInv (execStartStepDone found t s) := by
  unfold execStartStepDone
  extract_lets s1
  have h1 : s1.Inv := (inv_advance s t).2 h
  clear_value s1
  rw [nextInv_next]
  split
  · exact h1
  split
  · exact inv_startFail _ _ _ h1
  match startStep s1 with
  | 0 => cases found <;> exact h1
  | 1 =>
    cases found with
    | rom => exact (inv_startRom _).2 h1
    | _ => exact h1
  | 2 =>
    cases found with
    | images => exact inv_startImages _ _ _ _ _ _ _ _ _ h1
    | _ => exact h1
  | 3 =>
    cases found with
    | wires => exact inv_startWires _ _ _ h1
    | _ => exact h1
  | 4 =>
    cases found with
    | depot => exact inv_startDepot _ _ _ _ _ _ _ _ h1
    | _ => exact h1
  | 5 =>
    cases found with
    | tests => exact inv_startTests _ _ _ _ _ h1
    | _ => exact h1
  | 6 =>
    cases found with
    | cleared => exact inv_startMemory _ h1
    | _ => exact h1
  | 7 =>
    cases found with
    | runtime => exact inv_startRuntime _ _ _ h1
    | _ => exact h1
  | 8 =>
    cases found with
    | ports => exact (inv_startReady _).2 h1
    | _ => exact h1
  | _ + 9 => cases found <;> exact h1

/-- Every command keeps the four byte stores in their canonical form. -/
theorem nextInv_exec (c : Instr) (s : State) (h : s.Inv) : NextInv (exec c s) := by
  cases c with
  | startStepDone found t => exact nextInv_execStartStepDone found t s h
  | _ => simp [h, exec, execTtodMessage, execTppsEdge, execTimeFlit, execTrain, execTrainTranspose, execArrivalFlit,
      execSgValueWrite, execSgAddWrite, execMaOutcfg, execMaScalecfg, execMaZero, execMaDrain, execMaLoad, execVcfg,
      execVbase, execVcvt, execVadd, execVsub, execVmul, execVfma, execVmin, execVmax, execVcmp, execVsel, execVlogic,
      execVunary, execVdiv, execVsqrt, execVrecip, execVrsqrt, execVfunc, execVpow, execVred, execVdotl, execVgemv, execVacc,
      execVlsadd, execVperm, execVshuf, execVpack, execVunpack, execVslexp, execVslice, execVrecomb, execVgather,
      execVscatter, execVscop, execSmSigSet, execSmSigAdd, execSmSigWaitGe, execSmSigWaitEq, execSmSigWaitMask, execUpAddr,
      execUpShape, execUpRule, execWalkComplete, execTuResolveRetry, execTuResolveFatal, execCoherentRequest,
      execLineEviction, execSnpdata, execSnpinv, execSnpcur, execIdcode, execExtest, execClamp, execHighz, execDiechain,
      execLaneFailed, execLaneChange, execLaneAck, execPortDisable, execBookedWrite, execReadReq, execReadData,
      execBookedSignalSet, execBookedSignalAdd, execCollFlit, execReqRead, execReqWrite, execReqSignalSet, execReqSignalAdd,
      execMessageFlit, execReplicaWrite, execReplicaCommit, execRespFlit, execArmedFlit, execTeardownFlit, execClearFlit,
      execNpRingTailWrite, execCommandAccept, execCompletion, execDpRingTailWrite, execRstdaa, execGetpid, execGetbcr,
      execGetdcr, execEnec, execDisec, execRailRecovery]

/-- A cycle of the MTC domain on an empty queue keeps the invariant. -/
theorem inv_idleTick (s : State) (h : s.Inv) : (idleTick s).Inv := by
  unfold idleTick
  extract_lets s1
  have h1 : s1.Inv := by simp [s1, mtcTick, h]
  split <;> simp [h1]

theorem inv_of_step {s u : State} (h : s.Inv) (hu : step s = .next u) : u.Inv := by
  unfold step at hu
  split at hu
  · obtain rfl := Host.Outcome.next.inj hu
    exact inv_idleTick s h
  · exact nextInv_exec _ _ (inv_mk.2 h) u hu

end Sys2Proof.Machine

open Sys2Proof Sys2Proof.Machine

/-- Settles O3: a command's next state is canonical by the law of each operation that it runs (`nextInv_exec`), and a cycle of the empty
queue writes no store. -/
theorem everyStepKeepsInvariant : Obligations.EveryStepKeepsInvariant := fun _ _ h hu => inv_of_step h hu
end

section
/-! The registers of the eight translation units: writes of the same register of every unit, and a unit's event. -/

namespace Sys2Proof.Machine

theorem tu_inj {d e a b : Nat} (ha : a < 0x1000000) (hb : b < 0x1000000) : tu d a = tu e b ↔ d = e ∧ a = b := by
  unfold tu
  rw [key_inj (by omega) (by omega)]
  omega

theorem tu_ne_of_off {d e a b : Nat} (h : a ≠ b) (ha : a < 0x1000000 := by omega) (hb : b < 0x1000000 := by omega) :
    tu d a ≠ tu e b := fun eq => h ((tu_inj ha hb).1 eq).2

theorem mem_upTo_of_aDie (x : ADie) : x.val ∈ upTo 8 := List.mem_range.2 x.isLt

theorem raised_tuEvent (s : State) (d : ADie) {i : Nat} (hi : i < 64) : Raised s (tuEvent s d i) d 0x5000060 i :=
  raised_raise s _ _ _ _ (by omega) (by decide) hi
    (by rw [mtc, ne_eq, key_inj (by decide) (by decide)]; omega)

theorem regsBut_tuEvent (s : State) (d i : Nat) : RegsBut (tu d 0x60 :: noticeKeys) s (tuEvent s d i) :=
  regsBut_raise s d 0x5000060 i _ _ _ _

/-- What a write that a translation unit refuses leaves: its event alone. -/
theorem tuEvent_shows (s : State) (d : ADie) {i : Nat} (hi : i < 64) :
    Raised s (tuEvent s d i) d 0x5000060 i ∧ RegsBut (tu d 0x60 :: noticeKeys) s (tuEvent s d i)
      ∧ Same [.regs, .port] s (tuEvent s d i) :=
  ⟨raised_tuEvent s d hi, regsBut_tuEvent s d i, same_tuEvent s d i⟩

theorem rdB_wrB_other (s : State) {k j : Nat} (h : j ≠ k) (i i' : Nat) (b : Bool) : rdB (wrB s k i b) j i' = rdB s j i' :=
  (regsBut_wrB s k i b).rdB (by simpa using h) i'

/-- A fold whose steps each leave the registers off `ks` leaves them. -/
theorem regsBut_foldl_mem {f : State → Nat → State} {ks l : List Nat} (h : ∀ s, ∀ x ∈ l, RegsBut ks s (f s x)) (s : State) :
    RegsBut ks s (l.foldl f s) := by
  induction l generalizing s with
  | nil => exact RegsBut.refl ks s
  | cons x l ih => exact (h s x (by simp)).comp (ih (fun t y hy => h t y (by simp [hy])) _)

/-- A fold that writes one register of each unit leaves all others. -/
theorem regsBut_foldl_map {f : State → Nat → State} {r : Nat → Nat} (h : ∀ s x, RegsBut [r x] s (f s x)) (l : List Nat) (s : State) :
    RegsBut (l.map r) s (l.foldl f s) :=
  regsBut_foldl_mem (fun t x hx => (h t x).mono (by simpa using ⟨x, hx, rfl⟩)) s

/-- Write bit `i` of the register at `off` of every translation unit. -/
def flagAll (s : State) (off i : Nat) (b : Bool) : State := (upTo 8).foldl (fun s x => wrB s (tu x off) i b) s

theorem flagAll_shows (s : State) {off i : Nat} (b : Bool) (ho : off < 0x1000000) (hi : i < 64) :
    (∀ x : ADie, rdB (flagAll s off i b) (tu x off) i = b)
      ∧ RegsBut ((upTo 8).map (fun x => tu x off)) s (flagAll s off i b) ∧ Same [.regs] s (flagAll s off i b) := by
  refine ⟨fun x => ?_, regsBut_foldl_map (fun t x => regsBut_wrB t _ i b) _ s, Same.foldl _ (fun t x => same_wrB t _ i b) _ s⟩
  refine foldl_establishes (P := fun y u => rdB u (tu y off) i = b) (fun t y => rdB_wrB_same t _ i b hi) (fun t y z h => ?_)
    (upTo 8) s x (.inl (mem_upTo_of_aDie x))
  by_cases e : z = y
  · exact e ▸ rdB_wrB_same t _ i b hi
  · exact (rdB_wrB_other t (fun eq => e ((tu_inj ho ho).1 eq).1) i i b).trans h

/-- A write of the same value to the register at `off` of every translation unit. -/
theorem writeAll_shows (s : State) {off : Nat} (v : W64) (ho : off < 0x1000000) :
    let u := (upTo 8).foldl (fun s x => wr s (tu x off) v) s
    (∀ x : ADie, rd u (tu x off) = v) ∧ RegsBut ((upTo 8).map (fun x => tu x off)) s u ∧ Same [.regs] s u := by
  refine ⟨fun x => ?_, regsBut_foldl_map (fun t x => regsBut_wr t _ v) _ s, Same.foldl _ (fun t x => same_wr t _ v) _ s⟩
  refine foldl_establishes (P := fun y u => rd u (tu y off) = v) (fun t y => rd_wr_same t _ v) (fun t y z h => ?_)
    (upTo 8) s x (.inl (mem_upTo_of_aDie x))
  by_cases e : z = y
  · exact e ▸ rd_wr_same t _ v
  · exact (rd_wr_ne t (fun eq => e ((tu_inj ho ho).1 eq).1) v).trans h

/-! ### Fences of the harts (R317, R318) -/

/-- What the broadcast of fence `f` leaves: no entry that it names, the fence last of those open, and a debt of every unit. -/
def FenceBroadcast (s u : State) (hart : Nat) (va : Option W64) (asid : Option (BitVec 16)) : Prop :=
  u.trans.tlb = s.trans.tlb.filter (fun e => !fenceHits s va asid e)
    ∧ (∃ f, u.trans.fences = s.trans.fences ++ [f] ∧ f.id = s.trans.nextFence ∧ f.hart = hart ∧ f.va = va ∧ f.asid = asid
        ∧ f.pendingDies = 0xFF)
    ∧ (∀ a : ADie, rdB u (tu a 8) 11 = true) ∧ RegsBut ((upTo 8).map (fun a => tu a 8)) s u ∧ Same [.trans, .regs] s u

theorem fenceBroadcast_shows (s : State) (hart : Nat) (va : Option W64) (asid : Option (BitVec 16)) :
    FenceBroadcast s (broadcastFence s hart va asid) hart va asid
      ∧ (broadcastFence s hart va asid).trans.waiting = s.trans.waiting := by
  let f : Fence := { id := s.trans.nextFence, hart := hart, va := va, asid := asid, pendingDies := 0xFF
                     removed := (s.trans.tlb.filter (fenceHits s va asid)).map (fun e => (e.die, e.base, e.size)) }
  let t : State := { s with trans := { s.trans with tlb := s.trans.tlb.filter (fun e => !fenceHits s va asid e)
                                                    fences := s.trans.fences ++ [f], nextFence := s.trans.nextFence + 1 } }
  have hu : broadcastFence s hart va asid = flagAll t 8 11 true := rfl
  obtain ⟨hbit, hregs, hsame⟩ := flagAll_shows t (off := 8) (i := 11) true (by decide) (by decide)
  have htrans : (flagAll t 8 11 true).trans = t.trans := hsame .trans (by decide)
  rw [hu]
  exact ⟨⟨by rw [htrans], ⟨f, by rw [htrans], rfl, rfl, rfl, rfl, rfl⟩, hbit,
    ((regsBut_of_regs (s := s) (t := t) rfl).trans hregs).mono (by simp), (same_trans s t.trans).trans hsame⟩, by rw [htrans]⟩

theorem fenceBroadcast_of_trans {s u : State} {hart : Nat} {va : Option W64} {asid : Option (BitVec 16)} {x : TransX}
    (h : FenceBroadcast s u hart va asid) (ht : x.tlb = u.trans.tlb) (hf : x.fences = u.trans.fences) :
    FenceBroadcast s { u with trans := x } hart va asid := by
  obtain ⟨htlb, ⟨f, hfs, hfields⟩, hbit, hregs, hsame⟩ := h
  exact ⟨ht.trans htlb, ⟨f, hf.trans hfs, hfields⟩, hbit,
    (hregs.trans (regsBut_of_regs (s := u) (t := { u with trans := x }) rfl)).mono (by simp),
    (hsame.trans (same_trans u x)).mono (by simp)⟩

section
variable {s : State} {hart : Fin 144} (hfree : s.trans.waiting.any (fun w => decide (w.1 = hart.val)) = false)
include hfree

theorem execSfenceVma_free (va : Option W64) (asid : Option (BitVec 16)) : execSfenceVma hart va asid s =
    .next (hartWaits (broadcastFence s hart va asid) hart [s.trans.nextFence]) := by
  simp [execSfenceVma, hfree]

theorem execSinvalVma_free (va : Option W64) (asid : Option (BitVec 16)) : execSinvalVma hart va asid s =
    .next (broadcastFence s hart va asid) := by
  simp [execSinvalVma, hfree]

theorem execSfenceInvalIr_free : execSfenceInvalIr hart s =
    .next (hartWaits s hart ((s.trans.fences.filter (fun f => decide (f.hart = hart.val))).map Fence.id)) := by
  simp [execSfenceInvalIr, hfree]

end

theorem hartWaits_shows (s : State) (hart : Nat) (ids : List Nat) : Same [.trans] s (hartWaits s hart ids)
    ∧ (hartWaits s hart ids).trans.waiting = s.trans.waiting ++ (if ids = [] then [] else [(hart, ids)]) := by
  unfold hartWaits
  cases ids with
  | nil => exact ⟨Same.refl _ s, by simp⟩
  | cons i ids => exact ⟨same_trans s _, rfl⟩

/-- One die's acknowledgement clears its bit in fence `f`, and the fence is gone with its last. -/
def ackOf (f : Fence) (d : ADie) : Fence := { f with pendingDies := putBit f.pendingDies d false }

theorem ackOf_last_iff {f : Fence} {d : ADie} (hd : f.pendingDies.getLsbD d = true) :
    (ackOf f d).pendingDies = 0 ↔ f.pendingDies = BitVec.ofNat 8 (2 ^ d.val) := by
  have hbit (j : Nat) : (putBit f.pendingDies d false).getLsbD j = (decide (j ≠ d) && f.pendingDies.getLsbD j) := by
    rw [getLsbD_putBit]
    by_cases e : j = d.val <;> simp [e]
  have hone (j : Nat) : (BitVec.ofNat 8 (2 ^ d.val)).getLsbD j = (decide (j < 8) && decide (d.val = j)) := by
    rw [BitVec.getLsbD_ofNat, Nat.testBit_two_pow]
  constructor
  · intro h
    refine BitVec.eq_of_getLsbD_eq fun j hj => ?_
    have hj' := congrArg (fun w => w.getLsbD j) (show putBit f.pendingDies d false = 0 from h)
    simp only [hbit] at hj'
    rw [hone]
    by_cases e : j = d.val
    · subst e; simp [hd]
    · simpa [e, Ne.symm e] using hj'
  · intro h
    refine BitVec.eq_of_getLsbD_eq fun j hj => ?_
    show (putBit f.pendingDies d false).getLsbD j = _
    rw [hbit, h, hone]
    by_cases e : j = d.val
    · simp [e]
    · simp [e, Ne.symm e]

theorem ackOf_answered (f : Fence) (d : ADie) : (ackOf f d).pendingDies.getLsbD d = false := by
  rw [ackOf, getLsbD_putBit, if_pos rfl, Bool.and_false]

/-- The fences that stay open after die `d` has acknowledged `f`, the only one. -/
def openAfter (f : Fence) (d : ADie) : List Fence := if (ackOf f d).pendingDies = 0 then [] else [ackOf f d]

/-- The waits of harts that stay: each for the fences among `fs` alone. -/
def waitsFor (fs : List Fence) (ws : List (Nat × List Nat)) : List (Nat × List Nat) :=
  (ws.map (fun w => (w.1, w.2.filter (fun n => fs.any (fun g => decide (g.id = n)))))).filter (fun w => !w.2.isEmpty)

theorem openAfter_answered (f : Fence) (d : ADie) : (openAfter f d).any (fun g => g.pendingDies.getLsbD d) = false := by
  unfold openAfter
  split
  · rfl
  · simpa using ackOf_answered f d

/-- A die without stream-cache entries owes a fence nothing but its acknowledgement. -/
theorem execFenceAck_alone {s : State} {f : Fence} {d : ADie} (hf : s.trans.fences = [f]) (hd : f.pendingDies.getLsbD d = true)
    (hsc : s.scEntries = []) :
    execFenceAck d f.id s = .next (wrB { inc s (tu d 0x50) with
      trans := { s.trans with fences := openAfter f d, waiting := waitsFor (openAfter f d) s.trans.waiting } } (tu d 8) 11 false) := by
  have hnone (cl i : Nat) : (scGet s cl i).valid = 0 := by rw [scGet, hsc]; rfl
  have hwork : (upTo 8).foldl (fun s c =>
      let cl := clIx d c
      let is := (upTo 48).filter (fun i => !decide ((scGet s cl i).valid = 0) && fenceCovers s d f (scGet s cl i).page)
      let s := is.foldl (fun s i => scDrop (scWriteBack s cl i (fun _ => true)) cl i (fun _ => true)) s
      if is.isEmpty then s else scRefresh s cl) s = s := by
    refine foldl_keeps (fun t => t = s) _ (fun t c h => ?_) _ s rfl
    subst h
    simp [hnone]
  have hfs : (([f].map (fun g => if g.id = f.id then { g with pendingDies := putBit g.pendingDies d false } else g)).filter
      (fun g => !decide (g.pendingDies = 0))) = openAfter f d := by
    unfold openAfter
    by_cases h : (ackOf f d).pendingDies = 0
    · rw [if_pos h]
      simpa [ackOf] using h
    · rw [if_neg h]
      simpa [ackOf] using h
  have htrans : (inc s (tu d 0x50)).trans = s.trans := rfl
  unfold execFenceAck
  rw [hf]
  simp only [List.find?_cons, hd, decide_true, Bool.and_true]
  rw [hwork, htrans, hf, hfs, openAfter_answered]
  rfl

theorem fenceAck_shows {s : State} {f : Fence} {d : ADie} (hart : Nat) (hf : s.trans.fences = [f]) (hd : f.pendingDies.getLsbD d = true)
    (hsc : s.scEntries = []) : Runs (.fenceAck d f.id) s (fun u =>
      (f.pendingDies = BitVec.ofNat 8 (2 ^ d.val) → s.trans.waiting = [(hart, [f.id])] → u.trans.fences = [] ∧ u.trans.waiting = [])
      ∧ (f.pendingDies ≠ BitVec.ofNat 8 (2 ^ d.val) → s.trans.waiting = [(hart, [f.id])] →
          u.trans.waiting = s.trans.waiting ∧ u.trans.fences = [{ f with pendingDies := putBit f.pendingDies d false }])
      ∧ rdB u (tu d 8) 11 = false ∧ rd u (tu d 0x50) = satInc (rd s (tu d 0x50)) ∧ RegsBut [tu d 8, tu d 0x50] s u
      ∧ Same [.trans, .regs] s u) := by
  refine ⟨_, execFenceAck_alone hf hd hsc, fun hlast hw => ?_, fun hmore hw => ?_, rdB_wrB_same _ _ _ _ (by decide), ?_, ?_, ?_⟩
  · have ho : openAfter f d = [] := if_pos ((ackOf_last_iff hd).2 hlast)
    simp only [ho, hw]
    exact ⟨rfl, rfl⟩
  · have ho : openAfter f d = [ackOf f d] := if_neg (fun h => hmore ((ackOf_last_iff hd).1 h))
    simp only [ho, hw]
    exact ⟨by simp [wrB, upd, wr, waitsFor, ackOf], rfl⟩
  · rw [regsBut_wrB _ _ _ _ _ (by simpa using tu_ne_of_off (by decide) (by decide) (by decide))]
    exact (inc_shows s _).1
  · exact (((inc_shows s (tu d 0x50)).2.1.trans (regsBut_of_regs rfl)).trans (regsBut_wrB _ _ _ _)).mono (by simp)
  · exact (((inc_shows s (tu d 0x50)).2.2.trans (same_trans _ _)).trans (same_wrB _ _ _ _)).mono (by simp)

theorem sfence_shows {s : State} {hart : Fin 144} (hfree : s.trans.waiting.any (fun w => decide (w.1 = hart.val)) = false)
    (va : Option W64) (asid : Option (BitVec 16)) :
    Runs (.sfenceVma hart va asid) s (fun u => FenceBroadcast s u hart va asid
        ∧ u.trans.waiting = s.trans.waiting ++ [(hart.val, [s.trans.nextFence])])
      ∧ Runs (.sinvalVma hart va asid) s (fun u => FenceBroadcast s u hart va asid ∧ u.trans.waiting = s.trans.waiting)
      ∧ Runs (.sfenceInvalIr hart) s (fun u => Same [.trans] s u
        ∧ u.trans.waiting = s.trans.waiting ++ (let l := (s.trans.fences.filter (fun f => decide (f.hart = hart.val))).map Fence.id
          if l = [] then [] else [(hart.val, l)])) := by
  obtain ⟨hshown, hwaits⟩ := fenceBroadcast_shows s hart va asid
  refine ⟨⟨_, execSfenceVma_free hfree va asid, fenceBroadcast_of_trans hshown rfl rfl, ?_⟩,
    ⟨_, execSinvalVma_free hfree va asid, hshown, hwaits⟩, _, execSfenceInvalIr_free hfree, hartWaits_shows s _ _⟩
  rw [← hwaits]
  rfl

theorem owWindowWrite_taken {s : State} {d : ADie} (recv : Bool) (w : Byte) (v : W64) (hd : d.val = 0)
    (hj : s.job.state = .idle ∨ s.job.state = .arming) : execOwWindowWrite d recv w v s =
      .next ((upTo 8).foldl (fun s x => wr s (tu x ((if recv then 0x1800 else 0x1000) + 8 * w.toNat)) (v &&& owMask recv)) s) := by
  rcases hj with h | h <;> simp [execOwWindowWrite, hd, h]

theorem owWindowWrite_refused {s : State} {d : ADie} (recv : Bool) (w : Byte) (v : W64)
    (h : d.val ≠ 0 ∨ (s.job.state ≠ .idle ∧ s.job.state ≠ .arming)) : execOwWindowWrite d recv w v s = .next (tuEvent s d 3) := by
  rcases h with h | ⟨h1, h2⟩
  · simp [execOwWindowWrite, h]
  · simp [execOwWindowWrite, h1, h2]

theorem tuWinfence_shows (s : State) (d : ADie) {v : W64} (hv : bitOf v 0 = true) : Runs (.tuWinfence d v) s (fun u =>
    u.trans.winCache = [] ∧ rdB u (tu d 0x28) 0 = true ∧ (∀ x : ADie, rdB u (tu x 8) 12 = true)
      ∧ RegsBut (tu d 0x28 :: (upTo 8).map (fun x => tu x 8)) s u ∧ Same [.trans, .regs] s u) := by
  let t : State := wrB { s with trans := { s.trans with winCache := [] } } (tu d 0x28) 0 true
  obtain ⟨hbit, hregs, hsame⟩ := flagAll_shows t (off := 8) (i := 12) true (by decide) (by decide)
  have hoff : tu d 0x28 ∉ (upTo 8).map (fun x => tu x 8) := by
    simp only [List.mem_map, not_exists, not_and]
    exact fun x _ => tu_ne_of_off (by decide) (by decide) (by decide)
  refine ⟨flagAll t 8 12 true, ?_, ?_, ?_, hbit, ?_, ?_⟩
  · show execTuWinfence d v s = _
    simp only [execTuWinfence, hv, if_true]
    rfl
  · rw [show (flagAll t 8 12 true).trans = t.trans from hsame .trans (by decide)]
    rfl
  · rw [hregs.rdB hoff 0]
    exact rdB_wrB_same _ _ _ _ (by decide)
  · exact ((regsBut_of_regs (s := s) rfl).trans ((regsBut_wrB _ _ _ _).trans hregs)).mono (by simp)
  · exact ((same_trans s _).trans ((same_wrB _ _ _ _).trans hsame)).mono (by simp)

/-- One unit's part of WINFENCE_DONE. -/
def winfenceCleared (s : State) (x : Nat) : State := wrB (wrB s (tu x 0x28) 0 false) (tu x 8) 12 false

theorem winfenceCleared_bits (s : State) (x : Nat) :
    rdB (winfenceCleared s x) (tu x 8) 12 = false ∧ rdB (winfenceCleared s x) (tu x 0x28) 0 = false := by
  refine ⟨rdB_wrB_same _ _ _ _ (by decide), ?_⟩
  rw [winfenceCleared, rdB_wrB_other _ (tu_ne_of_off (by decide) (by decide) (by decide))]
  exact rdB_wrB_same _ _ _ _ (by decide)

theorem regsBut_winfenceCleared (s : State) (x : Nat) : RegsBut [tu x 0x28, tu x 8] s (winfenceCleared s x) :=
  (regsBut_wrB s _ _ _).trans (regsBut_wrB _ _ _ _)

theorem winfenceDone_shows (s : State) : Runs .winfenceDone s (fun u =>
    (∀ x : ADie, rdB u (tu x 8) 12 = false ∧ rdB u (tu x 0x28) 0 = false)
      ∧ RegsBut ((upTo 8).map (fun x => tu x 8) ++ (upTo 8).map (fun x => tu x 0x28)) s u ∧ Same [.regs] s u) := by
  refine ⟨(upTo 8).foldl winfenceCleared s, rfl, fun x => ?_, ?_, ?_⟩
  · refine foldl_establishes (P := fun y u => rdB u (tu y 8) 12 = false ∧ rdB u (tu y 0x28) 0 = false) winfenceCleared_bits
      (fun t y z h => ?_) (upTo 8) s x (.inl (mem_upTo_of_aDie x))
    by_cases e : z = y
    · exact e ▸ winfenceCleared_bits t z
    · have hoff {a b : Nat} (ha : a < 0x1000000) (hb : b < 0x1000000) : tu z a ≠ tu y b := fun eq => e ((tu_inj ha hb).1 eq).1
      rw [(regsBut_winfenceCleared t y).rdB (by simp [hoff]) 12, (regsBut_winfenceCleared t y).rdB (by simp [hoff]) 0]
      exact h
  · refine regsBut_foldl_mem (fun t x hx => (regsBut_winfenceCleared t x).mono ?_) s
    simp only [List.forall_mem_cons, List.mem_append, List.mem_map]
    exact ⟨.inr ⟨x, hx, rfl⟩, .inl ⟨x, hx, rfl⟩, by simp⟩
  · exact Same.foldl _ (fun t x => ((same_wrB t _ _ _).trans (same_wrB _ _ _ _)).mono (by simp)) _ s

end Sys2Proof.Machine

open Sys2Proof Sys2Proof.Machine

/-- Settles O36: a broadcast's debt and an acknowledgement are writes of one bit of each unit's register, and the window registers
are written by a fold over the units, each of which touches its own die's keys alone. -/
theorem fencesAndWindowRegisters : Obligations.FencesAndWindowRegisters := by
  intro s d hart va asid id recv w v off busy
  have hoff : off < 0x1000000 := by
    have := w.isLt
    show (if recv then 0x1800 else 0x1000) + 8 * w.toNat < _
    split <;> omega
  refine ⟨fun hfree => sfence_shows hfree va asid, fun f hf hid hd hsc => hid ▸ fenceAck_shows hart hf hd hsc,
    fun hd hj => ⟨_, owWindowWrite_taken recv w v hd hj, writeAll_shows s _ hoff⟩,
    fun h => ⟨_, owWindowWrite_refused recv w v h, tuEvent_shows s d (by decide)⟩, fun hv => tuWinfence_shows s d hv,
    winfenceDone_shows s⟩
end

section
/-! The one line of the host-line cache under snoops and write-back (R337, R338), and an MSI write that reaches its file (R345). -/

namespace Sys2Proof.Machine

theorem hostBytes_putBytes (s : State) (a : Nat) (l : List Byte) :
    hostBytes { s with hostMem := putBytes s.hostMem a l } a l.length = l := by
  refine List.ext_getElem (by simp) fun i h1 h2 => ?_
  simp only [hostBytes, upTo, List.getElem_map, List.getElem_range, get_putBytes]
  rw [if_pos (by omega), Nat.add_sub_cancel_left, List.getD_eq_getElem _ _ h2]

/-- Host memory once line `l` with value `h` has been written back, if it is dirty. -/
def writtenBack (m : Store Byte) (l : Nat) (h : HostLine) : Store Byte :=
  if h.dirty then putBytes m (64 * l) (leBytes 64 h.data.toNat) else m

section
variable {s u : State} {l : Nat} {h : HostLine} (hu : u.hostMem = writtenBack s.hostMem l h)
include hu

theorem hostBytes_of_writtenBack (hd : h.dirty = true) : hostBytes u (64 * l) 64 = leBytes 64 h.data.toNat := by
  have hm : u.hostMem = putBytes s.hostMem (64 * l) (leBytes 64 h.data.toNat) := by rw [hu, writtenBack, if_pos hd]
  have := hostBytes_putBytes s (64 * l) (leBytes 64 h.data.toNat)
  rw [length_leBytes] at this
  rw [← this, hostBytes, hostBytes, hm]

theorem hostMem_of_clean (hd : h.dirty = false) : u.hostMem = s.hostMem := by
  rw [hu, writtenBack, if_neg (by simp [hd])]

end

theorem same_hostMem_hostLines (s : State) (m : Store Byte) (ls : List (Nat × HostLine)) :
    Same [.hostMem, .hostLines] s { s with hostMem := m, hostLines := ls } :=
  (same_hostMem s m).trans (same_hostLines _ ls)

section
variable {s : State} {l : Nat} {h : HostLine} (hl : s.hostLines = [(l, h)])
include hl

theorem hostLine?_only : hostLine? s l = some h := by simp [hostLine?, hl]

theorem hostLines_erase_only : Store.erase l s.hostLines = [] := by simp [Store.erase, hl]

theorem hostSnoop_data : hostSnoop s l 0 =
    { s with hostMem := writtenBack s.hostMem l h, hostLines := [(l, { h with dirty := false, shared := true })] } := by
  rw [hostSnoop, hostLine?_only hl]
  simp [hostLines_erase_only hl, Store.insert, writtenBack]

theorem hostSnoop_invalidate : hostSnoop s l 1 = { s with hostMem := writtenBack s.hostMem l h, hostLines := [] } := by
  rw [hostSnoop, hostLine?_only hl]
  simp [hostLines_erase_only hl, writtenBack]

theorem hostSnoop_current : hostSnoop s l 2 = s := by
  rw [hostSnoop, hostLine?_only hl]
  simp

theorem dirtyEvict_only : dirtyEvict s l = { s with hostMem := writtenBack s.hostMem l h, hostLines := [] } := by
  rw [dirtyEvict, hostLine?_only hl]
  simp [hostLines_erase_only hl, writtenBack]

end

/-! ### Message interrupts (R343, R345) -/

theorem execMsiDelivery_die {s : State} {sender : Fin 9} (h8 : sender.val ≠ 8) {a : W64} {data : W32}
    (hm : s.msis.find? (fun m => decide (m.1 = sender.val)) = some (sender.val, a, data)) :
    execMsiDelivery sender s = .next (deliverMsi { s with msis := s.msis.erase (sender.val, a, data) } a data) := by
  simp only [execMsiDelivery, if_neg h8, hm]

theorem deliverMsi_file {s : State} {a : W64} {data : W32} {p : Nat × Nat} (hp : imsicFile a.toNat = some p) (h0 : 0 < data.toNat)
    (h1 : data.toNat < 256) : deliverMsi s a data =
      let f := key p.1 p.2
      { s with imsic := Store.set (fun _ => 0) s.imsic f (putBit (Store.get (fun _ => 0) s.imsic f) data.toNat true) } := by
  simp only [deliverMsi, hp, h0, h1, and_self, if_true]

theorem deliverMsi_nowhere {s : State} {a : W64} {data : W32} (hp : imsicFile a.toNat = none) :
    deliverMsi s a data = inc s (ic 8 0x880000) := by
  simp only [deliverMsi, hp]

/-- A bit set in one file: there, and nowhere else. -/
theorem imsic_bit_set (st : Store (BitVec 256)) (f id : Nat) (hid : id < 256) :
    let st' := Store.set (fun _ => 0) st f (putBit (Store.get (fun _ => 0) st f) id true)
    (Store.get (fun _ => 0) st' f).getLsbD id = true
      ∧ ∀ k i, (k, i) ≠ (f, id) → (Store.get (fun _ => 0) st' k).getLsbD i = (Store.get (fun _ => 0) st k).getLsbD i := by
  refine ⟨by rw [Store.get_set_same, getLsbD_putBit]; simp [hid], fun k i hki => ?_⟩
  by_cases hk : k = f
  · subst hk
    rw [Store.get_set_same, getLsbD_putBit, if_neg (fun e => hki (by rw [e]))]
  · rw [Store.get_set_ne (h := hk)]

end Sys2Proof.Machine

open Sys2Proof Sys2Proof.Machine

/-- Settles O38: with one line held, a snoop and the disabling are one write of host memory and one of the line, and a delivered
message is one bit of one file. -/
theorem hostLinesAndMessageInterrupts : Obligations.HostLinesAndMessageInterrupts := by
  intro s line h sender a data l back
  have hback (ls : List (Nat × HostLine)) : back { s with hostMem := writtenBack s.hostMem l h, hostLines := ls } :=
    ⟨hostBytes_of_writtenBack rfl, hostMem_of_clean rfl, same_hostMem_hostLines s _ _⟩
  refine ⟨fun hl => ⟨⟨_, congrArg Host.Outcome.next (hostSnoop_data hl), hback _, rfl⟩,
    ⟨_, congrArg Host.Outcome.next (hostSnoop_invalidate hl), hback _, rfl⟩,
    ⟨_, congrArg Host.Outcome.next (hostSnoop_current hl), rfl⟩, ?_⟩,
    ⟨_, rfl, rfl, same_port s _⟩, fun h8 hm => ⟨fun p hp h0 h1 => ?_, fun hp => ?_⟩⟩
  · have he : execCxlCacheDisable s = .next { s with hostMem := writtenBack s.hostMem l h, hostLines := []
                                                     port := { s.port with cxlCache := false } } := by
      rw [execCxlCacheDisable, hl]
      simp only [List.map_cons, List.map_nil, List.foldl_cons, List.foldl_nil, dirtyEvict_only hl]
    exact ⟨_, he, rfl, rfl, hostBytes_of_writtenBack rfl,
      (same_hostMem_hostLines s _ []).trans (same_port _ { s.port with cxlCache := false })⟩
  · refine ⟨_, (execMsiDelivery_die h8 hm).trans (congrArg _ (deliverMsi_file hp h0 h1)), rfl, ?_⟩
    obtain ⟨hset, hrest⟩ := imsic_bit_set s.imsic (key p.1 p.2) data.toNat h1
    exact ⟨hset, hrest, (same_msis s _).trans (same_imsic _ _)⟩
  · refine ⟨_, (execMsiDelivery_die h8 hm).trans (congrArg _ (deliverMsi_nowhere hp)), rfl, ?_⟩
    obtain ⟨hcount, hregs, hsame⟩ := inc_shows { s with msis := s.msis.erase (sender.val, a, data) } (ic 8 0x880000)
    exact ⟨hcount, hregs, (same_msis s _).trans hsame⟩
end

section
/-! Walks of the translation units: what a walk depends on, the TLB entries that a leaf leaves, and the registers that a walk touches
(R314, R315). -/

namespace Sys2Proof.Machine

/-! ### What a translation depends on -/

theorem lineValue_congr {s u : State} (hj : u.jlines = s.jlines) (hm : u.mem = s.mem) (l : Nat) : lineValue u l = lineValue s l := by
  have hget (d : Nat) : jGet u d l = jGet s d l := by simp only [jGet, hj]
  have howner : ownerOf u l = ownerOf s l := by simp only [ownerOf, hget]
  have hline : memLine u l = memLine s l := by simp only [memLine, rdNat, rdBytes, rdByte, hm]
  unfold lineValue
  rw [howner]
  cases ownerOf s l with
  | none => exact hline
  | some d => exact congrArg JLine.data (hget d)

theorem cohBytes_congr {s u : State} (hj : u.jlines = s.jlines) (hm : u.mem = s.mem) (a n : Nat) : cohBytes u a n = cohBytes s a n := by
  simp only [cohBytes, lineValue_congr hj hm]

/-- Two states in which every walk and every TLB of die `d` answers alike. -/
structure SameWalks (d : Nat) (s u : State) : Prop where
  jlines : u.jlines = s.jlines
  mem : u.mem = s.mem
  possMap : u.possMap = s.possMap
  poisoned : u.poisoned = s.poisoned
  tlb : u.trans.tlb = s.trans.tlb
  satp : rd u (tu d 0) = rd s (tu d 0)

namespace SameWalks
variable {d : Nat} {s u : State} (h : SameWalks d s u)
include h

theorem walkFrom (va : Nat) (write : Bool) (levels : List Nat) (tab : Nat) :
    walkFrom u va write levels tab = walkFrom s va write levels tab := by
  induction levels generalizing tab with
  | nil => rfl
  | cons lvl rest ih =>
    have hp (a n : Nat) : possessed u a n = possessed s a n := by simp only [possessed, h.possMap]
    have hq (a n : Nat) : poisonedRange u a n = poisonedRange s a n := by simp only [poisonedRange, h.poisoned]
    simp only [Machine.walkFrom, hp, hq, cohBytes_congr h.jlines h.mem, ih]

theorem walkOut (va : W64) (write : Bool) : walkOut u d va write = walkOut s d va write := by
  simp only [Machine.walkOut, h.satp, h.walkFrom]

theorem walk (va : W64) (write : Bool) : walk u d va write = walk s d va write := by simp only [Machine.walk, h.walkOut]

theorem tlbHit (e : Nat) (va : W64) (write : Bool) : tlbHit u d e va write = tlbHit s d e va write := by
  simp only [Machine.tlbHit, h.tlb]

theorem translate (e : Nat) (va : W64) (write : Bool) : translate u d e va write = translate s d e va write := by
  simp only [Machine.translate, h.walk, h.tlbHit]

theorem winFault (c : Nat) (w : GatherWin) : winFault u d c w = winFault s d c w := by
  simp only [Machine.winFault, gsFault, virtPieces, h.translate]

end SameWalks

/-! ### Causes (R314) -/

theorem error_of_ite {α : Type} {p : Prop} [Decidable p] {a c : Nat} {r : Except Nat α}
    (h : (if p then .error a else r) = .error c) : a = c ∨ r = .error c := by
  split at h
  · exact .inl (Except.error.inj h)
  · exact .inr h

theorem leafCheck_error_lt {pte lvl va c : Nat} {write : Bool} (h : leafCheck pte lvl va write = .error c) : c < 16 := by
  unfold leafCheck at h
  rcases error_of_ite h with rfl | h
  · decide
  rcases error_of_ite h with rfl | h
  · decide
  rcases error_of_ite h with rfl | h
  · decide
  rcases error_of_ite h with rfl | h
  · decide
  rcases error_of_ite h with rfl | h
  · decide
  · cases h

theorem walkFrom_error_lt {s : State} {va c : Nat} {write : Bool} (levels : List Nat) (tab : Nat)
    (h : (walkFrom s va write levels tab).leaf = .error c) : c < 16 := by
  induction levels generalizing tab with
  | nil => exact Except.error.inj h ▸ by decide
  | cons lvl rest ih =>
    unfold walkFrom at h
    extract_lets pa pte b w at h
    split at h
    · exact Except.error.inj h ▸ by decide
    split at h
    · exact Except.error.inj h ▸ by decide
    split at h
    · exact Except.error.inj h ▸ by decide
    split at h
    · exact leafCheck_error_lt h
    split at h
    · exact Except.error.inj h ▸ by decide
    · exact ih _ h

theorem walk_error_lt {s : State} {d c : Nat} {va : W64} {write : Bool} (h : walk s d va write = .error c) : c < 16 := by
  unfold walk walkOut at h
  extract_lets satp at h
  split at h
  · exact Except.error.inj h ▸ by decide
  · exact walkFrom_error_lt _ _ h

/-! ### TLB entries (R315) -/

theorem mem_tlbPut_self (l : List TlbEntry) (x : TlbEntry) : x ∈ tlbPut l x := by
  unfold tlbPut
  extract_lets l1 mine cap l2
  simp

/-- An entry of another set than the new one's stays. -/
theorem mem_tlbPut_of_mem {l : List TlbEntry} {x y : TlbEntry} (hy : y ∈ l) (h : y.holder ≠ x.holder) : y ∈ tlbPut l x := by
  unfold tlbPut
  extract_lets l1 mine cap l2
  have h1 : y ∈ l1 := by simp [l1, hy, h]
  refine List.mem_append_left _ ?_
  show y ∈ l2
  unfold l2
  split
  · exact h1
  · split
    · next v hv =>
      have hv' : v ∈ mine := List.mem_of_getElem? hv
      have hh : v.holder = x.holder := by simp [mine] at hv'; exact hv'.2.2
      exact (List.mem_erase_of_ne (fun e => h (by rw [e, hh]))).2 h1
    · exact h1

theorem mem_of_mem_tlbPut {l : List TlbEntry} {x y : TlbEntry} (h : y ∈ tlbPut l x) : y = x ∨ y ∈ l := by
  unfold tlbPut at h
  extract_lets l1 mine cap l2 at h
  rcases List.mem_append.1 h with h | h
  · right
    have hsub : y ∈ l1 := by
      unfold l2 at h
      split at h
      · exact h
      · split at h
        · exact List.mem_of_mem_erase h
        · exact h
    exact (List.mem_filter.1 hsub).1
  · exact .inl (List.mem_singleton.1 h)

/-- The shared TLB entry of a leaf. -/
def leafEntry (d : Nat) (va : W64) (l : Leaf) : TlbEntry :=
  { die := d, holder := none, base := va.toNat / l.size * l.size, size := l.size, pa := l.base
    readable := l.readable, writable := l.writable, global := l.global }

/-- The TLB after a leaf of engine `e` entered it: the shared entry and the engine's own. -/
def leafEntered (tlb : List TlbEntry) (x : TlbEntry) (e : Nat) : List TlbEntry := tlbPut (tlbPut tlb x) { x with holder := some e }

theorem leafEntered_shows (tlb : List TlbEntry) {x : TlbEntry} (e : Nat) (hx : x.holder = none) :
    x ∈ leafEntered tlb x e ∧ { x with holder := some e } ∈ leafEntered tlb x e
      ∧ ∀ y ∈ leafEntered tlb x e, y = x ∨ y = { x with holder := some e } ∨ y ∈ tlb := by
  refine ⟨mem_tlbPut_of_mem (mem_tlbPut_self _ _) (by simp [hx]), mem_tlbPut_self _ _, fun y hy => ?_⟩
  rcases mem_of_mem_tlbPut hy with h | h
  · exact .inr (.inl h)
  · rcases mem_of_mem_tlbPut h with h | h
    · exact .inl h
    · exact .inr (.inr h)

/-! ### What a walk leaves -/

/-- A register of no translation unit, nor the machine count. -/
def offUnits (k : Nat) : Prop := ¬ (k < 8 * 2 ^ 30 ∧ 0x5000000 ≤ k % 2 ^ 30 ∧ k % 2 ^ 30 < 0x6000000) ∧ k ≠ mtc 0

theorem not_offUnits_tu {x off : Nat} (hx : x < 8) (ho : off < 0x1000000) : ¬ offUnits (tu x off) := by
  unfold offUnits tu key
  omega

theorem not_offUnits_count : ¬ offUnits (mtc 0) := fun h => h.2 rfl

theorem offUnits_key {x off : Nat} (ho : off < 0x5000000) (h : off ≠ 0x4000000) : offUnits (key x off) := by
  unfold offUnits mtc key
  omega

theorem offUnits_notice : ∀ k ∈ noticeKeys, offUnits k := by
  intro k hk
  simp only [noticeKeys, List.mem_cons, List.not_mem_nil, or_false] at hk
  rcases hk with rfl | rfl <;> unfold bar0 offUnits mtc key <;> omega

/-- What a walk of die `d` changes of the registers: those off the units, and TU_WALKS. -/
def walkKey (d k : Nat) : Prop := offUnits k ∨ k = tu d 0x30

theorem walkKey_key {d x off : Nat} (ho : off < 0x5000000) (h : off ≠ 0x4000000) : walkKey d (key x off) := .inl (offUnits_key ho h)

theorem walkKey_count (d : Nat) : walkKey d (tu d 0x30) := .inr rfl

theorem regsIn_inc {K : Nat → Prop} (s : State) {k : Nat} (h : K k) : RegsIn K s (inc s k) := inc_wr s k ▸ regsIn_wr s _ h

theorem walkOnly_denyAt (s : State) (d h pa die kind : Nat) : RegsIn (walkKey d) s (denyAt s h pa die kind) := by
  unfold denyAt
  refine ((regsIn_inc s (walkKey_key (by decide) (by decide))).trans (regsIn_wr _ _ (walkKey_key (by decide) (by decide)))).trans
    (.of_regsBut (regsBut_ttEvent _ h 4) fun k hk => ?_)
  rcases List.mem_cons.1 hk with rfl | hk
  · exact walkKey_key (by decide) (by decide)
  · exact .inl (offUnits_notice k hk)

theorem walkOnly_dirRefresh (s : State) (d l : Nat) : RegsIn (walkKey d) s (dirRefresh s l) := by
  unfold dirRefresh
  extract_lets hs
  split
  · exact .of_regs (same_dir s _ .regs (by decide))
  · split
    · exact .refl _ s
    · exact (RegsIn.of_regs (same_dir_dirAge s _ _ .regs (by decide))).trans (regsIn_wr _ _ (walkKey_key (by decide) (by decide)))

theorem walkOnly_snoopReadLine (s : State) (d l : Nat) : RegsIn (walkKey d) s (snoopReadLine s l) := by
  unfold snoopReadLine
  extract_lets hs
  split
  · exact .refl _ s
  · exact (RegsIn.of_regs (Same.foldl _ (fun t d => same_jPut t d l _) hs s .regs (by decide))).trans (walkOnly_dirRefresh _ d l)

/-- The PTE reads of a translation that missed, counted. -/
def pteReads (s : State) (d : Nat) (va : W64) (write : Bool) : State :=
  inc ((walkOut s d va write).reads.foldl (fun s a => cohTouch s a 8) s) (tu d 0x30)

theorem same_pteReads (s : State) (d : Nat) (va : W64) (write : Bool) :
    Same [.jlines, .dir, .dirAge, .regs] s (pteReads s d va write) :=
  ((Same.foldl _ (fun t a => same_cohTouch t a 8) _ s).trans (same_inc _ _)).mono (by simp)

theorem walkOnly_pteReads (s : State) (d : Nat) (va : W64) (write : Bool) : RegsIn (walkKey d) s (pteReads s d va write) :=
  (RegsIn.foldl (fun t _ _ => RegsIn.foldl (fun t' x _ => walkOnly_snoopReadLine t' d x) t) s).trans (regsIn_inc _ (walkKey_count d))

theorem afterTranslate_of_miss {s : State} {d e : Nat} {va : W64} {write : Bool} (hmiss : tlbHit s d e va write = none) :
    afterTranslate s d e va write = (match walk s d va write with
      | .ok l => { pteReads s d va write with
          trans := { (pteReads s d va write).trans with
            tlb := let q := tlbPut (pteReads s d va write).trans.tlb (leafEntry d va l)
              if e < noEngine then tlbPut q { leafEntry d va l with holder := some e } else q } }
      | .error _ => match (walkOut s d va write).refused with
        | some a => deny (pteReads s d va write) a d 3
        | none => pteReads s d va write) := by
  unfold afterTranslate
  simp only [hmiss, Option.isSome_none, Bool.false_eq_true, if_false]
  rfl

theorem walkOnly_afterTranslate (s : State) (d e : Nat) (va : W64) (write : Bool) :
    RegsIn (walkKey d) s (afterTranslate s d e va write) := by
  have hreads := walkOnly_pteReads s d va write
  cases hmiss : tlbHit s d e va write with
  | some x =>
    rw [show afterTranslate s d e va write = s by simp [afterTranslate, hmiss]]
    exact .refl _ s
  | none =>
    rw [afterTranslate_of_miss hmiss]
    split
    · exact hreads.trans (.of_regs rfl)
    · split
      · exact hreads.trans (walkOnly_denyAt _ d _ _ d 3)
      · exact hreads

section
variable {s : State} {d e : Nat} {va : W64} {write : Bool} (hmiss : tlbHit s d e va write = none)
include hmiss

theorem trans_afterTranslate_of_leaf {l : Leaf} (hl : walk s d va write = .ok l) (he : e < 15) :
    (afterTranslate s d e va write).trans = { s.trans with tlb := leafEntered s.trans.tlb (leafEntry d va l) e } := by
  have ht : (pteReads s d va write).trans = s.trans := same_pteReads s d va write .trans (by decide)
  rw [afterTranslate_of_miss hmiss, hl]
  simp only [ht, if_pos (show e < noEngine from he)]
  rfl

theorem trans_afterTranslate_of_fault {c : Nat} (hc : walk s d va write = .error c) :
    (afterTranslate s d e va write).trans = s.trans := by
  have ht : (pteReads s d va write).trans = s.trans := same_pteReads s d va write .trans (by decide)
  rw [afterTranslate_of_miss hmiss, hc]
  dsimp only
  split
  · exact Eq.trans (same_denyAt (pteReads s d va write) _ _ d 3 .trans (by decide)) ht
  · exact ht

end

/-! ### The end of a walk (R314) -/

/-- The walk is in progress no more. -/
def walkTaken (s : State) (w : Walk) : State := { s with trans := { s.trans with walks := s.trans.walks.erase w } }

theorem sameWalks_walkTaken (s : State) (d : Nat) (w : Walk) : SameWalks d s (walkTaken s w) := ⟨rfl, rfl, rfl, rfl, rfl, rfl⟩

/-- What the walk has touched, its count as it was at the start. -/
def walked (s : State) (d e : Nat) (w : Walk) : State :=
  wr (afterTranslate (walkTaken s w) d e w.va w.write) (tu d 0x30) (rd s (tu d 0x30))

theorem same_walked (s : State) (d e : Nat) (w : Walk) : Same [.jlines, .dir, .dirAge, .regs, .trans, .port] s (walked s d e w) :=
  (((same_trans s _).trans (same_afterTranslate (walkTaken s w) d e w.va w.write)).trans (same_wr _ _ _)).mono (by simp)

theorem offUnits_walked (s : State) (d e : Nat) (w : Walk) : RegsIn offUnits s (walked s d e w) := by
  intro k hk
  by_cases h : k = tu d 0x30
  · exact h ▸ rd_wr_same _ _ _
  · rw [walked, rd_wr_ne _ h, walkOnly_afterTranslate _ d e w.va w.write k (by simp [walkKey, h, hk])]
    rfl

/-- An engine whose open gather or scatter window waits for the record of key `k` (R223). -/
def waitsForRecord (k : W64) (x : Engine) : Engine :=
  { x with win := x.win.map (fun g => if g.wait.isNone ∧ fld g.order 24 8 ≠ 0xB2 then { g with wait := some k } else g) }

section
variable {s : State} {d e : Nat} {w : Walk}
  (hw : s.trans.walks.find? (fun w => decide (w.die = d) && decide (w.engine = e)) = some w)
include hw

theorem walkComplete_of_leaf {l : Leaf} (hl : walk s d w.va w.write = .ok l) : walkComplete s d e = walked s d e w := by
  have hl' : walk (walkTaken s w) d w.va w.write = .ok l := (sameWalks_walkTaken s d w).walk _ _ ▸ hl
  unfold walkComplete
  rw [hw]
  dsimp only
  change (match walk (walkTaken s w) d w.va w.write with | .ok _ => _ | .error c => _) = _
  rw [hl']
  rfl

theorem walkComplete_of_fault {c : Nat} (hc : walk s d w.va w.write = .error c) :
    let k := faultKey (walked s d e w) d w.va
    walkComplete s d e = setEng (faultRecord (walked s d e w) d e k false c w.write w.va) d e (waitsForRecord k) := by
  have hc' : walk (walkTaken s w) d w.va w.write = .error c := (sameWalks_walkTaken s d w).walk _ _ ▸ hc
  unfold walkComplete
  rw [hw]
  dsimp only
  change (match walk (walkTaken s w) d w.va w.write with | .ok _ => _ | .error c => _) = _
  rw [hc']
  rfl

end

/-! ### Fault records (R319, R321) -/

theorem recKey_inj {d x i j v w : Nat} (hi : i < 1024) (hj : j < 1024) (hv : v < 4) (hw : w < 4) :
    recKey d i v = recKey x j w ↔ d = x ∧ i = j ∧ v = w := by
  unfold recKey
  rw [tu_inj (by omega) (by omega)]
  omega

theorem recKey_ne_tu {d x i v off : Nat} (hi : i < 1024) (hv : v < 4) (ho : off < 0x10000) : recKey d i v ≠ tu x off :=
  tu_ne_of_off (by omega)

/-- The register that holds the valid bit of record `i`. -/
def validKey (d i : Nat) : Nat := tu d (0x80 + 8 * (i / 64))

/-- The registers of record `i` of die `d`: its words, the count of records and the valid bits. -/
def recordKeys (d i : Nat) : List Nat :=
  [recKey d i 0, recKey d i 1, recKey d i 2, recKey d i 3, tu d 8, validKey d i]

/-- Record `i` with its four words. -/
def recordWords (s : State) (d i : Nat) (k info t va : W64) : State :=
  wr (wr (wr (wr s (recKey d i 0) k) (recKey d i 1) info) (recKey d i 2) t) (recKey d i 3) va

theorem regsBut_recordWords (s : State) (d i : Nat) (k info t va : W64) :
    RegsBut [recKey d i 0, recKey d i 1, recKey d i 2, recKey d i 3] s (recordWords s d i k info t va) :=
  (((regsBut_wr s _ _).trans (regsBut_wr _ _ _)).trans (regsBut_wr _ _ _)).trans (regsBut_wr _ _ _)

theorem rd_recordWords_tu (s : State) (d : Nat) {i x off : Nat} (k info t va : W64) (hi : i < 1024) (ho : off < 0x10000) :
    rd (recordWords s d i k info t va) (tu x off) = rd s (tu x off) :=
  regsBut_recordWords s d i k info t va _ (by simp [(recKey_ne_tu hi _ ho).symm])

/-- Record `i` with its four words, the count of valid records and the record's valid bit. -/
def recordSet (s : State) (d i : Nat) (k info t va : W64) (count : Nat) (b : Bool) : State :=
  wrB (wrF (recordWords s d i k info t va) (tu d 8) 0 11 count) (validKey d i) (i % 64) b

theorem same_recordSet (s : State) (d i : Nat) (k info t va : W64) (count : Nat) (b : Bool) :
    Same [.regs] s (recordSet s d i k info t va count b) :=
  ((((((same_wr s _ _).trans (same_wr _ _ _)).trans (same_wr _ _ _)).trans (same_wr _ _ _)).trans (same_wrF _ _ _ _ _)).trans
    (same_wrB _ _ _ _)).mono (by simp)

theorem regsBut_recordSet (s : State) (d i : Nat) (k info t va : W64) (count : Nat) (b : Bool) :
    RegsBut (recordKeys d i) s (recordSet s d i k info t va count b) :=
  (((regsBut_recordWords s d i k info t va).trans (regsBut_wrF _ _ _ _ _)).trans (regsBut_wrB _ _ _ _)).mono (by simp [recordKeys])

theorem recordSet_shows (s : State) (d : Nat) {i : Nat} (k info t va : W64) (count : Nat) (b : Bool) (hi : i < 1024) :
    let u := recordSet s d i k info t va count b
    rd u (recKey d i 0) = k ∧ rd u (recKey d i 1) = info ∧ rd u (recKey d i 2) = t ∧ rd u (recKey d i 3) = va
      ∧ rdF u (tu d 8) 0 11 = count % 2048 ∧ rdB u (validKey d i) (i % 64) = b := by
  have hv {w : Nat} (hw : w < 4) : recKey d i w ≠ validKey d i := recKey_ne_tu hi hw (by omega)
  have hc {w : Nat} (hw : w < 4) : recKey d i w ≠ tu d 8 := recKey_ne_tu hi hw (by omega)
  have hw {v w : Nat} (h : v ≠ w) (hv : v < 4) (hw : w < 4) : recKey d i v ≠ recKey d i w :=
    fun e => h ((recKey_inj hi hi hv hw).1 e).2.2
  have hcv : tu d 8 ≠ validKey d i := tu_ne_of_off (by omega)
  have hrest {w : Nat} (h4 : w < 4) : rd (recordSet s d i k info t va count b) (recKey d i w)
      = rd (recordWords s d i k info t va) (recKey d i w) := by
    rw [recordSet, regsBut_wrB _ _ _ _ _ (by simpa using hv h4), regsBut_wrF _ _ _ _ _ _ (by simpa using hc h4)]
  refine ⟨?_, ?_, ?_, ?_, ?_, rdB_wrB_same _ _ _ _ (by omega)⟩
  · simp [hrest, recordWords, rd_wr, hw]
  · simp [hrest, recordWords, rd_wr, hw]
  · simp [hrest, recordWords, rd_wr, hw]
  · simp [hrest, recordWords]
  · exact ((regsBut_wrB _ _ _ _).rdF (by simpa using hcv) _ _).trans (rdF_wrF_same _ _ _ _ _ (by decide))

/-- Word 1 of a new record (R319). -/
def recordInfo (e cause : Nat) (write window sib : Bool) : W64 :=
  BitVec.ofNat 64 (cause + (if write then 2 ^ 5 else 2 ^ 4) + 2 ^ 6 * b2n sib + 2 ^ 7 * b2n window + 2 ^ (8 + e) + 2 ^ 63)

theorem recordInfo_shows {e cause : Nat} (write window sib : Bool) (he : e < 15) (hc : cause < 16) :
    let v := recordInfo e cause write window sib
    fld v 0 4 = cause ∧ bitOf v 5 = write ∧ bitOf v 4 = !write ∧ bitOf v (8 + e) = true ∧ bitOf v 63 = true := by
  intro v
  -- the low byte is CAUSE, the kinds of access, SIBLING and WINDOW; above it one bit for the engine, and VALID
  let low := cause + (if write then 2 ^ 5 else 2 ^ 4) + 2 ^ 6 * b2n sib + 2 ^ 7 * b2n window
  have hv : v = BitVec.ofNat 64 (2 ^ 8 * (2 ^ e + 2 ^ 55) + low) := by
    refine congrArg (BitVec.ofNat 64) ?_
    rw [Nat.pow_add]
    omega
  have hlow : low < 2 ^ 8 ∧ low % 16 = cause ∧ low.testBit 5 = write ∧ low.testBit 4 = !write := by
    have h5 : low.testBit 5 = decide (low / 32 % 2 = 1) := Nat.testBit_eq_decide_div_mod_eq
    have h4 : low.testBit 4 = decide (low / 16 % 2 = 1) := Nat.testBit_eq_decide_div_mod_eq
    rw [h5, h4]
    cases write <;> cases sib <;> cases window <;> simp [low, b2n] <;> omega
  obtain ⟨hlt, hcause, h5, h4⟩ := hlow
  have hbit (i : Nat) (hi : i < 64) : bitOf v i = if i < 8 then low.testBit i else (2 ^ e + 2 ^ 55).testBit (i - 8) := by
    rw [hv, bitOf, BitVec.getLsbD_ofNat, Nat.testBit_two_pow_mul_add _ hlt]
    simp [hi]
  refine ⟨?_, by rw [hbit 5 (by decide), if_pos (by decide), h5], by rw [hbit 4 (by decide), if_pos (by decide), h4], ?_, ?_⟩
  · rw [hv, fld_ofNat (by decide)]
    omega
  · rw [hbit _ (by omega), if_neg (by omega), Nat.add_sub_cancel_left, Nat.testBit_two_pow_add_eq, Nat.testBit_two_pow]
    simp
    omega
  · rw [hbit _ (by decide), if_neg (by decide), Nat.add_comm (2 ^ e), Nat.testBit_two_pow_add_eq, Nat.testBit_two_pow]
    simp
    omega

theorem findRec_congr {s u : State} {d : Nat} (h : RegsIn offUnits s u) (hd : d < 8) (k : W64) (window : Bool) :
    findRec u d k window = findRec s d k window := by
  unfold findRec
  refine List.find?_congr fun i hi => ?_
  have hi' : i < 1024 := List.mem_range.1 hi
  have hk {w : Nat} (hw : w < 4) : ¬ offUnits (recKey d i w) := not_offUnits_tu hd (by omega)
  unfold recValid
  rw [h.rdB (hk (by decide)), h _ (hk (by decide)), h.rdB (hk (by decide))]

theorem freeRecord_congr {s u : State} {d : Nat} (h : RegsIn offUnits s u) (hd : d < 8) :
    (upTo 1024).find? (fun i => !recValid u d i) = (upTo 1024).find? (fun i => !recValid s d i) := by
  refine List.find?_congr fun i hi => ?_
  have hi' : i < 1024 := List.mem_range.1 hi
  unfold recValid
  rw [h.rdB (k := recKey d i 1) (not_offUnits_tu hd (by omega))]

theorem faultKey_congr {s u : State} {d : Nat} (h : rd u (tu d 0) = rd s (tu d 0)) (va : W64) : faultKey u d va = faultKey s d va := by
  unfold faultKey rdF
  rw [h]

/-- Another die's record of the same key whose notice has arrived before the record is made (R320). -/
def siblingKnown (s : State) (d : Nat) (k : W64) (window : Bool) : Bool :=
  (upTo 8).any (fun x => decide (x ≠ d) && (findRec s x k window).isSome
    && !s.trans.keysSent.any (fun q => decide (q.1 = d) && decide (q.2.1 = x) && decide (q.2.2.1 = k)))

/-- A new record's MSI and its key to the other dies, on their way. -/
def recordSent (s : State) (d : Nat) (k : W64) (window : Bool) : State :=
  { s with msis := s.msis ++ [(d, rd s (tu d 0x10), BitVec.setWidth 32 (rd s (tu d 0x18)))]
           trans := { s.trans with
             keysSent := s.trans.keysSent ++ ((upTo 8).filter (fun x => decide (x ≠ d))).map (fun x => (x, d, k, window)) } }

/-- A die that has made its first record since the job armed. -/
def firstSeen (s : State) (d : Nat) : State := { s with trans := { s.trans with seenFirst := putBit s.trans.seenFirst d true } }

/-- The first record of a die since the job armed raises its event. -/
def firstRecordEvent (s : State) (d : Nat) : State := if s.trans.seenFirst.getLsbD d then s else tuEvent (firstSeen s d) d 0

theorem firstRecordEvent_shows (s : State) (d : Nat) : RegsBut (tu d 0x60 :: noticeKeys) s (firstRecordEvent s d)
    ∧ (firstRecordEvent s d).trans.walks = s.trans.walks ∧ (firstRecordEvent s d).msis = s.msis := by
  unfold firstRecordEvent
  split
  · exact ⟨.refl _ s, rfl, rfl⟩
  · have h := same_tuEvent (firstSeen s d) d 0
    have htrans : (tuEvent (firstSeen s d) d 0).trans = (firstSeen s d).trans := h .trans (by decide)
    exact ⟨((regsBut_of_regs (s := s) (t := firstSeen s d) rfl).trans (regsBut_tuEvent _ d 0)).mono (by simp), by rw [htrans]; rfl,
      h .msis (by decide)⟩

/-- A new record `n` with its words, counted. -/
def recordNew (s : State) (d e n : Nat) (k : W64) (window : Bool) (cause : Nat) (write : Bool) (va : W64) : State :=
  inc (recordSet s d n k (recordInfo e cause write window (siblingKnown s d k window)) (now s) va (rdF s (tu d 8) 0 11 + 1) true)
    (tu d 0x38)

theorem recordNew_shows (s : State) (d e : Nat) {n : Nat} (k : W64) (window : Bool) (cause : Nat) (write : Bool) (va : W64)
    (hn : n < 1024) : let r := recordNew s d e n k window cause write va
    rd r (recKey d n 0) = k ∧ rd r (recKey d n 1) = recordInfo e cause write window (siblingKnown s d k window)
      ∧ rd r (recKey d n 2) = now s ∧ rd r (recKey d n 3) = va ∧ rdF r (tu d 8) 0 11 = (rdF s (tu d 8) 0 11 + 1) % 2048
      ∧ rd r (tu d 0x38) = satInc (rd s (tu d 0x38)) ∧ RegsBut (tu d 0x38 :: recordKeys d n) s r := by
  have hrec {w : Nat} (hw : w < 4) : recKey d n w ∉ [tu d 0x38] := by simpa using recKey_ne_tu hn hw (by decide)
  unfold recordNew
  have hset := regsBut_recordSet s d n k (recordInfo e cause write window (siblingKnown s d k window)) (now s) va
    (rdF s (tu d 8) 0 11 + 1) true
  obtain ⟨h0, h1, h2, h3, hcount, -⟩ := recordSet_shows s d k (recordInfo e cause write window (siblingKnown s d k window)) (now s) va
    (rdF s (tu d 8) 0 11 + 1) true hn
  generalize recordSet s d n k _ _ _ _ _ = t at hset h0 h1 h2 h3 hcount ⊢
  obtain ⟨hwalks, hregs, -⟩ := inc_shows t (tu d 0x38)
  have hoff : tu d 0x38 ∉ recordKeys d n := by
    simp only [recordKeys, validKey, List.mem_cons, List.not_mem_nil, or_false, not_or]
    exact ⟨(recKey_ne_tu hn (by decide) (by decide)).symm, (recKey_ne_tu hn (by decide) (by decide)).symm,
      (recKey_ne_tu hn (by decide) (by decide)).symm, (recKey_ne_tu hn (by decide) (by decide)).symm,
      tu_ne_of_off (by decide), tu_ne_of_off (by omega)⟩
  exact ⟨(hregs _ (hrec (by decide))).trans h0, (hregs _ (hrec (by decide))).trans h1, (hregs _ (hrec (by decide))).trans h2,
    (hregs _ (hrec (by decide))).trans h3, (hregs.rdF (by simpa using tu_ne_of_off (by decide)) _ _).trans hcount,
    by rw [hwalks, hset _ hoff], (hset.trans hregs).mono (by simp [or_comm])⟩

/-- A fault with a key of its own fills the lowest free record `n` (R319). -/
theorem faultRecord_new {s : State} {d e n cause : Nat} {k va : W64} {window write : Bool} (hk : findRec s d k window = none)
    (hn : (upTo 1024).find? (fun i => !recValid s d i) = some n) (hlt : n < 1024) :
    faultRecord s d e k window cause write va
      = firstRecordEvent (recordSent (recordNew s d e n k window cause write va) d k window) d := by
  have hcount (info : W64) : rdF (recordWords s d n k info (now s) va) (tu d 8) 0 11 = rdF s (tu d 8) 0 11 :=
    congrArg (fld · 0 11) (rd_recordWords_tu s d k info (now s) va hlt (by decide))
  unfold faultRecord
  split
  · next h => rw [hk] at h; cases h
  split
  · next h => rw [hn] at h; cases h
  next i hi =>
  obtain rfl : n = i := Option.some.inj (hn.symm.trans hi)
  extract_lets sib info s1 s2 sends x s3
  have h1 : s1 = recordWords s d n k (recordInfo e cause write window (siblingKnown s d k window)) (now s) va := rfl
  have h2 : s2 = recordNew s d e n k window cause write va := by
    rw [recordNew, recordSet, ← hcount (recordInfo e cause write window (siblingKnown s d k window)), ← h1]
    rfl
  have h3 : s3 = recordSent s2 d k window := rfl
  rw [← h2, ← h3]
  rfl

/-- A record freed while no unit waits for a free one. -/
theorem freeRec_alone {s : State} {d i : Nat} (h : s.trans.fullHolds = []) (hi : i < 1024) :
    freeRec s d i = recordSet s d i 0 0 0 0 (rdF s (tu d 8) 0 11 - 1) false := by
  have hcount : rdF (recordWords s d i 0 0 0 0) (tu d 8) 0 11 = rdF s (tu d 8) 0 11 :=
    congrArg (fld · 0 11) (rd_recordWords_tu s d 0 0 0 0 hi (by decide))
  unfold freeRec
  extract_lets s1 s2
  have h1 : s1 = recordWords s d i 0 0 0 0 := rfl
  have h2 : s2 = recordSet s d i 0 0 0 0 (rdF s (tu d 8) 0 11 - 1) false := by
    rw [recordSet, ← hcount, ← h1]
    rfl
  have hnone : s2.trans.fullHolds = [] := by
    rw [h2, same_recordSet s d i 0 0 0 0 _ _ .trans (by decide), h]
  rw [hnone, List.find?_nil]
  exact h2

theorem same_recordNew (s : State) (d e n : Nat) (k : W64) (window : Bool) (cause : Nat) (write : Bool) (va : W64) :
    Same [.regs] s (recordNew s d e n k window cause write va) :=
  ((same_recordSet s _ _ _ _ _ _ _ _).trans (same_inc _ _)).mono (by simp)

/-- The registers of the MSI are none of those that a new record writes. -/
theorem msiKey_not_mem {d n off : Nat} (hlt : n < 1024) (ho : off = 0x10 ∨ off = 0x18) : tu d off ∉ tu d 0x38 :: recordKeys d n := by
  have hv {w : Nat} (hw : w < 4) : tu d off ≠ recKey d n w := (recKey_ne_tu hlt hw (by omega)).symm
  have hs {o : Nat} (h : o ≠ off) (hb : o < 0x1000000) : tu d off ≠ tu d o := tu_ne_of_off h.symm
  simp only [recordKeys, validKey, List.mem_cons, List.not_mem_nil, or_false, not_or]
  exact ⟨hs (by omega) (by omega), hv (by decide), hv (by decide), hv (by decide), hv (by decide), hs (by omega) (by omega),
    hs (by omega) (by omega)⟩

/-- What a new record leaves once it is filled: its notices, and the event of a die's first. -/
theorem recordSent_shows (s : State) (d : Nat) (k : W64) (window : Bool) : let u := firstRecordEvent (recordSent s d k window) d
    RegsBut (tu d 0x60 :: noticeKeys) s u
      ∧ u.msis = s.msis ++ [(d, rd s (tu d 0x10), BitVec.setWidth 32 (rd s (tu d 0x18)))] ∧ u.trans.walks = s.trans.walks := by
  have hsent : RegsBut [] s (recordSent s d k window) := regsBut_of_regs rfl
  obtain ⟨hregs, hwalks, hmsis⟩ := firstRecordEvent_shows (recordSent s d k window) d
  exact ⟨hsent.trans hregs, hmsis, hwalks⟩

/-- Record `n` of die `d` has been filled with a new fault: its words, the count of records, the event count and the MSI. -/
structure RecordFilled (s u : State) (d e n : Nat) (k : W64) (window : Bool) (cause : Nat) (write : Bool) (va : W64) : Prop where
  key : rd u (recKey d n 0) = k
  info : ∃ sib, rd u (recKey d n 1) = recordInfo e cause write window sib
  time : rd u (recKey d n 2) = now s
  address : rd u (recKey d n 3) = va
  count : rdF u (tu d 8) 0 11 = (rdF s (tu d 8) 0 11 + 1) % 2048
  events : rd u (tu d 0x38) = satInc (rd s (tu d 0x38))
  msis : u.msis = s.msis ++ [(d, rd s (tu d 0x10), BitVec.setWidth 32 (rd s (tu d 0x18)))]
  walks : u.trans.walks = s.trans.walks

theorem recordFilled_faultRecord {s : State} {d e n cause : Nat} {k va : W64} {window write : Bool} (hd : d < 8)
    (hk : findRec s d k window = none) (hn : (upTo 1024).find? (fun i => !recValid s d i) = some n) :
    RecordFilled s (faultRecord s d e k window cause write va) d e n k window cause write va := by
  have hlt : n < 1024 := List.mem_range.1 (List.mem_of_find?_eq_some hn)
  rw [faultRecord_new hk hn hlt]
  obtain ⟨h0, h1, h2, h3, hcount, hevents, hrest⟩ := recordNew_shows s d e k window cause write va hlt
  have hsame := same_recordNew s d e n k window cause write va
  have hmsis0 : (recordNew s d e n k window cause write va).msis = s.msis := hsame .msis (by decide)
  have htrans0 : (recordNew s d e n k window cause write va).trans = s.trans := hsame .trans (by decide)
  obtain ⟨hregs, hmsis, hwalks⟩ := recordSent_shows (recordNew s d e n k window cause write va) d k window
  have hoff {off : Nat} (ho : off < 0x1000000) (h : off ≠ 0x60) : tu d off ∉ tu d 0x60 :: noticeKeys := by
    rw [List.mem_cons, not_or]
    exact ⟨tu_ne_of_off h, not_mem_noticeKeys (by omega) (by omega)⟩
  have hword {w : Nat} (hw : w < 4) := hregs (recKey d n w) (hoff (by omega) (by omega))
  rw [hrest _ (msiKey_not_mem hlt (.inl rfl)), hrest _ (msiKey_not_mem hlt (.inr rfl)), hmsis0] at hmsis
  exact {
    key := (hword (by decide)).trans h0
    info := ⟨_, (hword (by decide)).trans h1⟩
    time := (hword (by decide)).trans h2
    address := (hword (by decide)).trans h3
    count := (hregs.rdF (hoff (by decide) (by decide)) _ _).trans hcount
    events := (hregs _ (hoff (by decide) (by decide))).trans hevents
    msis := hmsis
    walks := by rw [hwalks, htrans0] }

/-! ### What each command leaves -/

theorem walkComplete_leaf_shows {s : State} {d : ADie} {e : EngineIx} {w : Walk} {l : Leaf}
    (hw : s.trans.walks.find? (fun w => decide (w.die = d.val) && decide (w.engine = e.val)) = some w)
    (hl : walk s d w.va w.write = .ok l) (hmiss : tlbHit s d e w.va w.write = none) : Runs (.walkComplete d e) s (fun u =>
      u.trans.walks = s.trans.walks.erase w
      ∧ (let x := leafEntry d w.va l
         x ∈ u.trans.tlb ∧ { x with holder := some e.val } ∈ u.trans.tlb
           ∧ ∀ y ∈ u.trans.tlb, y = x ∨ y = { x with holder := some e.val } ∨ y ∈ s.trans.tlb)
      ∧ rd u (tu d 0x30) = rd s (tu d 0x30) ∧ u.mem = s.mem) := by
  have hwalks := sameWalks_walkTaken s d w
  have htrans : (walked s d e w).trans = { (walkTaken s w).trans with tlb := leafEntered s.trans.tlb (leafEntry d w.va l) e } :=
    trans_afterTranslate_of_leaf ((hwalks.tlbHit _ _ _).trans hmiss) ((hwalks.walk _ _).trans hl) e.isLt
  refine ⟨walked s d e w, congrArg Host.Outcome.next (walkComplete_of_leaf hw hl), ?_, ?_, rd_wr_same _ _ _,
    same_walked s d e w .mem (by decide)⟩
  · rw [htrans]
    rfl
  · rw [htrans]
    exact leafEntered_shows _ _ rfl

theorem walkComplete_fault_shows {s : State} {d : ADie} {e : EngineIx} {w : Walk} {c n : Nat}
    (hw : s.trans.walks.find? (fun w => decide (w.die = d.val) && decide (w.engine = e.val)) = some w)
    (hc : walk s d w.va w.write = .error c) (hmiss : tlbHit s d e w.va w.write = none)
    (hk : findRec s d (faultKey s d w.va) false = none) (hn : (upTo 1024).find? (fun n => !recValid s d n) = some n) :
    Runs (.walkComplete d e) s (fun u =>
      u.trans.walks = s.trans.walks.erase w ∧ rd u (recKey d n 0) = faultKey s d w.va ∧ recValid u d n = true
      ∧ rdF u (recKey d n 1) 0 4 = c ∧ rdB u (recKey d n 1) 5 = w.write ∧ rdB u (recKey d n 1) 4 = !w.write
      ∧ rdB u (recKey d n 1) (8 + e) = true ∧ rd u (recKey d n 2) = now s ∧ rd u (recKey d n 3) = w.va
      ∧ rdF u (tu d 8) 0 11 = (rdF s (tu d 8) 0 11 + 1) % 2048 ∧ rd u (tu d 0x38) = satInc (rd s (tu d 0x38))
      ∧ u.msis = s.msis ++ [(d.val, rd s (tu d 0x10), BitVec.setWidth 32 (rd s (tu d 0x18)))] ∧ u.mem = s.mem) := by
  have hwalks := sameWalks_walkTaken s d w
  have hkept := offUnits_walked s d e w
  have hsame := same_walked s d e w
  have htrans : (walked s d e w).trans = (walkTaken s w).trans :=
    trans_afterTranslate_of_fault ((hwalks.tlbHit _ _ _).trans hmiss) ((hwalks.walk _ _).trans hc)
  have hend := walkComplete_of_fault hw hc
  dsimp only at hend
  -- from here on only what the walk has kept matters
  generalize walked s d e w = t at hkept hsame htrans hend
  have htu {off : Nat} (ho : off < 0x1000000) : rd t (tu d off) = rd s (tu d off) := hkept _ (not_offUnits_tu d.isLt ho)
  have hnow : now t = now s := hkept _ not_offUnits_count
  have hcount : rdF t (tu d 8) 0 11 = rdF s (tu d 8) 0 11 := hkept.rdF (not_offUnits_tu d.isLt (by decide)) _ _
  rw [faultKey_congr (htu (by decide))] at hend
  have hfill := recordFilled_faultRecord (e := e) (cause := c) (va := w.va) (write := w.write) d.isLt
    ((findRec_congr hkept d.isLt _ _).trans hk) ((freeRecord_congr hkept d.isLt).trans hn)
  have hmem := same_faultRecord t d e (faultKey s d w.va) false c w.write w.va .mem (by decide)
  refine ⟨_, congrArg Host.Outcome.next hend, ?_⟩
  have heng := same_setEng (faultRecord t d e (faultKey s d w.va) false c w.write w.va) d e (waitsForRecord (faultKey s d w.va))
  generalize faultRecord t d e (faultKey s d w.va) false c w.write w.va = r at hfill hmem heng ⊢
  obtain ⟨sib, hinfo⟩ := hfill.info
  obtain ⟨hcause, h5, h4, hengine, hvalid⟩ := recordInfo_shows w.write false sib e.isLt (walk_error_lt hc)
  have hrd (k : Nat) : rd (setEng r d e (waitsForRecord (faultKey s d w.va))) k = rd r k := rd_congr (heng .regs (by decide)) k
  have hbit (i : Nat) : rdB (setEng r d e (waitsForRecord (faultKey s d w.va))) (recKey d n 1) i
      = bitOf (recordInfo e c w.write false sib) i := by rw [rdB, hrd, hinfo]
  have hwalksU : (setEng r d e (waitsForRecord (faultKey s d w.va))).trans.walks = s.trans.walks.erase w := by
    rw [heng .trans (by decide), hfill.walks, htrans]
    rfl
  have hmsis0 : t.msis = s.msis := hsame .msis (by decide)
  have hmem0 : t.mem = s.mem := hsame .mem (by decide)
  refine ⟨hwalksU, (hrd _).trans hfill.key, (hbit 63).trans hvalid, ?_, (hbit 5).trans h5, (hbit 4).trans h4, (hbit _).trans hengine,
    ?_, (hrd _).trans hfill.address, ?_, ?_, ?_, ?_⟩
  · rw [rdF, hrd, hinfo, hcause]
  · rw [hrd, hfill.time, hnow]
  · rw [rdF, hrd, ← hcount]
    exact hfill.count
  · rw [hrd, hfill.events, htu (by decide)]
  · rw [← htu (off := 0x10) (by decide), ← htu (off := 0x18) (by decide), ← hmsis0]
    exact hfill.msis
  · exact Eq.trans hmem hmem0

/-- A key on its way that has arrived. -/
def keyTaken (s : State) (q : Nat × Nat × W64 × Bool) : State :=
  { s with trans := { s.trans with keysSent := s.trans.keysSent.erase q } }

theorem execFaultKeyArrival_both {s : State} {d x : ADie} {k : W64} {window : Bool} {a b : Nat}
    (hq : (d.val, x.val, k, window) ∈ s.trans.keysSent) (ha : findRec s d k window = some a) (hb : findRec s x k window = some b) :
    execFaultKeyArrival d x k window s
      = .next (wrB (wrB (keyTaken s (d, x, k, window)) (recKey d a 1) 6 true) (recKey x b 1) 6 true) := by
  have hkept : RegsIn offUnits s (keyTaken s (d, x, k, window)) := .of_regs rfl
  have ha' := (findRec_congr hkept d.isLt k window).trans ha
  have hb' := (findRec_congr hkept x.isLt k window).trans hb
  unfold execFaultKeyArrival
  dsimp only
  rw [if_pos (List.contains_iff_mem.2 hq)]
  split
  · next i j hi hj =>
    rw [Option.some.inj (hi.symm.trans ha'), Option.some.inj (hj.symm.trans hb')]
    rfl
  · next h => exact (h a b ha' hb').elim

theorem faultKeyArrival_shows {s : State} {d x : ADie} {k : W64} {window : Bool} {a b : Nat}
    (hq : (d.val, x.val, k, window) ∈ s.trans.keysSent) (ha : findRec s d k window = some a) (hb : findRec s x k window = some b) :
    Runs (.faultKeyArrival d x k window) s (fun u => rdB u (recKey d a 1) 6 = true ∧ rdB u (recKey x b 1) 6 = true
      ∧ u.trans.keysSent = s.trans.keysSent.erase (d.val, x.val, k, window) ∧ RegsBut [recKey d a 1, recKey x b 1] s u
      ∧ Same [.trans, .regs] s u) := by
  have hexec : exec (.faultKeyArrival d x k window) s = execFaultKeyArrival d x k window s := rfl
  refine ⟨_, hexec.trans (execFaultKeyArrival_both hq ha hb), ?_, rdB_wrB_same _ _ _ _ (by decide), rfl,
    ((regsBut_of_regs (s := s) (t := keyTaken s (d, x, k, window)) rfl).trans
      ((regsBut_wrB _ _ _ _).trans (regsBut_wrB _ _ _ _))).mono (by simp),
    ((same_trans s _).trans ((same_wrB _ _ _ _).trans (same_wrB _ _ _ _))).mono (by simp)⟩
  by_cases e : recKey d a 1 = recKey x b 1
  · rw [e]
    exact rdB_wrB_same _ _ _ _ (by decide)
  · rw [rdB_wrB_other _ e]
    exact rdB_wrB_same _ _ _ _ (by decide)

/-! ### The resolution of a record (R321) -/

/-- Record `i` of die `d` is free. -/
def RecordFree (u : State) (d i : Nat) : Prop :=
  recValid u d i = false ∧ rd u (recKey d i 0) = 0 ∧ rdB u (validKey d i) (i % 64) = false

/-- The state with record `i` freed, while no unit waits for a free one. -/
def recordFreed (s : State) (d i : Nat) : State := recordSet s d i 0 0 0 0 (rdF s (tu d 8) 0 11 - 1) false

theorem recordFree_recordFreed (s : State) (d : Nat) {i : Nat} (hi : i < 1024) : RecordFree (recordFreed s d i) d i := by
  obtain ⟨h0, h1, -, -, -, hb⟩ := recordSet_shows s d 0 0 0 0 (rdF s (tu d 8) 0 11 - 1) false hi
  refine ⟨?_, h0, hb⟩
  rw [recValid, rdB, recordFreed, h1]
  rfl

theorem RecordFree.of_regs {d i : Nat} {s u : State} (h : RecordFree s d i) (hr : u.regs = s.regs) : RecordFree u d i := by
  unfold RecordFree recValid at h ⊢
  rwa [rdB_congr hr, rd_congr hr, rdB_congr hr]

theorem RecordFree.of_unit {d i : Nat} {s u : State} (h : RecordFree s d i) (hi : i < 1024) (hd : d < 8) (hr : RegsIn abortKey s u) :
    RecordFree u d i := by
  have hk {off : Nat} (h0 : 0 < off) (ho : off < 0x1000000) : ¬ abortKey (tu d off) := by
    unfold abortKey tu key
    omega
  obtain ⟨hvalid, hkey, hbit⟩ := h
  exact ⟨(hr.rdB (hk (by omega) (by omega)) _).trans hvalid, (hr _ (hk (by omega) (by omega))).trans hkey,
    (hr.rdB (hk (by omega) (by omega)) _).trans hbit⟩

theorem same_recordFreed (s : State) (d i : Nat) : Same [.regs] s (recordFreed s d i) := same_recordSet s d i 0 0 0 0 _ _

theorem regsBut_recordFreed (s : State) (d i : Nat) : RegsBut (recordKeys d i) s (recordFreed s d i) :=
  regsBut_recordSet s d i 0 0 0 0 _ _

/-- The clusters whose gathers wait for key `k` of die `d` (R319). -/
def gathersOn (s : State) (d : Nat) (k : W64) (window : Bool) : List Nat := (waitersOf s d k window).gathers

section
variable {s : State} {d i : Nat} (hv : recValid s d i = true) (hi : i < 1024) (hfull : s.trans.fullHolds = [])
  (htrains : s.trains = []) (hcalls : s.calls = [])
include hv hi hfull htrains hcalls

theorem resolveRetry_alone : resolveRetry s d i
    = (gathersOn s d (rd s (recKey d i 0)) (rdB s (recKey d i 1) 7)).foldl (fun s c => gatherRelease s d c) (recordFreed s d i) := by
  unfold resolveRetry
  rw [if_pos hv, recordFreed, ← freeRec_alone hfull hi]
  simp [waitersOf, htrains, hcalls, gathersOn]

theorem resolveFatal_alone : resolveFatal s d i
    = (gathersOn s d (rd s (recKey d i 0)) (rdB s (recKey d i 1) 7)).foldl (fun s _ => failJob s stFault) (recordFreed s d i) := by
  unfold resolveFatal
  rw [if_pos hv, recordFreed, ← freeRec_alone hfull hi]
  simp [waitersOf, htrains, hcalls, gathersOn]

end

theorem gathersOn_none {s : State} {d : Nat} (k : W64) (window : Bool) (h : ∀ c < 8, (eng s d (1 + c)).win = none) :
    gathersOn s d k window = [] := by
  refine List.filter_eq_nil_iff.2 fun c hc => ?_
  rw [h c (List.mem_range.1 hc)]
  simp

theorem gathersOn_first {s : State} {d : Nat} {k : W64} {w : GatherWin} (hw : (eng s d 1).win = some w) (hk : w.wait = some k)
    (h : ∀ c < 7, (eng s d (2 + c)).win = none) : gathersOn s d k false = [0] := by
  have hp : ∀ c ∈ upTo 8, (!false && (match (eng s d (1 + c)).win with
      | some w => decide (w.wait = some k)
      | none => false)) = decide (c = 0) := by
    intro c hc
    cases c with
    | zero => simp [hw, hk]
    | succ c =>
      have hc' : c < 7 := Nat.lt_of_succ_lt_succ (List.mem_range.1 hc)
      rw [show 1 + (c + 1) = 2 + c by omega, h c hc']
      simp
  exact (List.filter_congr hp).trans (by decide)

/-! A gather goes on when its record is freed (R223). -/

/-- The window of cluster 0 waits for no record, and its record is free. -/
def gatherFreed (s : State) (d i : Nat) : State :=
  setEng (recordFreed s d i) d 1 (fun e => { e with win := e.win.map (fun w => { w with wait := none }) })

theorem same_gatherFreed (s : State) (d i : Nat) : Same [.engines, .regs] s (gatherFreed s d i) :=
  ((same_recordFreed s d i).trans (same_setEng _ d 1 _)).mono (by simp)

theorem regs_gatherFreed (s : State) (d i : Nat) : (gatherFreed s d i).regs = (recordFreed s d i).regs :=
  same_setEng _ d 1 _ .regs (by decide)

theorem satp_gatherFreed (s : State) (d : Nat) {i : Nat} (hi : i < 1024) : rd (gatherFreed s d i) (tu d 0) = rd s (tu d 0) := by
  rw [rd_congr (regs_gatherFreed s d i)]
  refine regsBut_recordFreed s d i _ ?_
  simp only [recordKeys, validKey, List.mem_cons, List.not_mem_nil, or_false, not_or]
  exact ⟨(recKey_ne_tu hi (by decide) (by decide)).symm, (recKey_ne_tu hi (by decide) (by decide)).symm,
    (recKey_ne_tu hi (by decide) (by decide)).symm, (recKey_ne_tu hi (by decide) (by decide)).symm, tu_ne_of_off (by decide),
    tu_ne_of_off (by omega)⟩

theorem sameWalks_gatherFreed (s : State) (d : Nat) {i : Nat} (hi : i < 1024) : SameWalks d s (gatherFreed s d i) := by
  have h := same_gatherFreed s d i
  exact ⟨h .jlines (by decide), h .mem (by decide), h .possMap (by decide), h .poisoned (by decide),
    congrArg TransX.tlb (h .trans (by decide)), satp_gatherFreed s d hi⟩

section
variable {s : State} {d i : Nat} {w : GatherWin} (hw : (eng s d 1).win = some w)
include hw

theorem win_gatherFreed : (eng (gatherFreed s d i) d 1).win = some { w with wait := none } := by
  rw [gatherFreed, eng_setEng_same, (same_recordFreed s d i).eng (by decide), hw]
  rfl

variable (hi : i < 1024)
include hi

theorem winWalk_goes (h : winFault s d 0 w = none) : winWalk (gatherFreed s d i) d 0 = gatherFreed s d i := by
  have hf : winFault (gatherFreed s d i) d 0 { w with wait := none } = none := ((sameWalks_gatherFreed s d hi).winFault 0 _).trans h
  have hwin : (eng (gatherFreed s d i) d (1 + 0)).win = some { w with wait := none } := win_gatherFreed hw
  simp only [winWalk, hwin, hf]

theorem winWalk_holds {x : Nat × Nat} (h : winFault s d 0 w = some x) :
    winWalk (gatherFreed s d i) d 0 = winHeld (gatherFreed s d i) d 0 { w with wait := none } x := by
  have hf : winFault (gatherFreed s d i) d 0 { w with wait := none } = some x := ((sameWalks_gatherFreed s d hi).winFault 0 _).trans h
  have hwin : (eng (gatherFreed s d i) d (1 + 0)).win = some { w with wait := none } := win_gatherFreed hw
  simp only [winWalk, hwin, hf]

end

theorem winHeld_shows (s : State) {d : Nat} (hd : d < 8) (w : GatherWin) (x : Nat × Nat) :
    (eng (winHeld s d 0 w x) d 1).win = some { w with wait := some (faultKey s d (BitVec.ofNat 64 x.2)) }
      ∧ (winHeld s d 0 w x).mem = s.mem := by
  unfold winHeld
  extract_lets va write t k r
  have hsatp : ¬ walkKey d (tu d 0) := fun h => h.elim (not_offUnits_tu hd (by decide)) (tu_ne_of_off (by decide))
  have hkey : k = faultKey s d va := faultKey_congr (walkOnly_afterTranslate s d (1 + 0) va write _ hsatp) va
  have hmem : r.mem = s.mem :=
    ((same_afterTranslate s d (1 + 0) va write).trans (same_faultRecord t d (1 + 0) k false x.1 write va)) .mem (by decide)
  clear_value r
  refine ⟨?_, hmem⟩
  rw [← hkey, Nat.add_zero, eng_setEng_same]

section
variable {s : State} {d : ADie} {i : BitVec 10} (hv : recValid s d i.toNat = true) (hfull : s.trans.fullHolds = [])
  (htrains : s.trains = []) (hcalls : s.calls = [])
include hv hfull htrains hcalls

theorem resolve_without_waiters (h : ∀ c < 8, (eng s d (1 + c)).win = none) :
    ∀ a ∈ [Instr.tuResolveRetry d i, Instr.tuResolveFatal d i], Runs a s (fun u =>
      RecordFree u d i.toNat ∧ RegsBut (recordKeys d i.toNat) s u ∧ Same [.regs] s u) := by
  have hshown : RecordFree (recordFreed s d i.toNat) d i.toNat ∧ RegsBut (recordKeys d i.toNat) s (recordFreed s d i.toNat)
      ∧ Same [.regs] s (recordFreed s d i.toNat) :=
    ⟨recordFree_recordFreed s d i.isLt, regsBut_recordFreed s d _, same_recordFreed s d _⟩
  intro a ha
  simp only [List.mem_cons, List.not_mem_nil, or_false] at ha
  rcases ha with rfl | rfl
  · have hexec : resolveRetry s d i.toNat = recordFreed s d i.toNat := by
      rw [resolveRetry_alone hv i.isLt hfull htrains hcalls, gathersOn_none _ _ h, List.foldl_nil]
    exact ⟨_, congrArg Host.Outcome.next hexec, hshown⟩
  · have hexec : resolveFatal s d i.toNat = recordFreed s d i.toNat := by
      rw [resolveFatal_alone hv i.isLt hfull htrains hcalls, gathersOn_none _ _ h, List.foldl_nil]
    exact ⟨_, congrArg Host.Outcome.next hexec, hshown⟩

section
variable {w : GatherWin} (hw : (eng s d 1).win = some w) (hk : w.wait = some (rd s (recKey d i.toNat 0)))
  (hwin : rdB s (recKey d i.toNat 1) 7 = false) (h : ∀ c < 7, (eng s d (2 + c)).win = none)
include hw hk hwin h

theorem resolveRetry_gather : resolveRetry s d i.toNat = winWalk (gatherFreed s d i.toNat) d 0 := by
  rw [resolveRetry_alone hv i.isLt hfull htrains hcalls, hwin, gathersOn_first hw hk h]
  rfl

theorem resolveRetry_goes (hf : winFault s d 0 w = none) : Runs (.tuResolveRetry d i) s (fun u =>
    RecordFree u d i.toNat ∧ (eng u d 1).win = some { w with wait := none } ∧ Same [.engines, .regs] s u) :=
  ⟨gatherFreed s d i.toNat,
    congrArg Host.Outcome.next ((resolveRetry_gather hv hfull htrains hcalls hw hk hwin h).trans (winWalk_goes hw i.isLt hf)),
    (recordFree_recordFreed s d i.isLt).of_regs (regs_gatherFreed s d _), win_gatherFreed hw, same_gatherFreed s d _⟩

theorem resolveRetry_holds {x : Nat × Nat} (hf : winFault s d 0 w = some x) : Runs (.tuResolveRetry d i) s (fun u =>
    (eng u d 1).win = some { w with wait := some (faultKey s d (BitVec.ofNat 64 x.2)) } ∧ u.mem = s.mem) := by
  obtain ⟨hwait, hmem⟩ := winHeld_shows (gatherFreed s d i.toNat) d.isLt { w with wait := none } x
  have hmem0 := same_gatherFreed s d i.toNat .mem (by decide)
  rw [faultKey_congr (satp_gatherFreed s d i.isLt)] at hwait
  exact ⟨_, congrArg Host.Outcome.next ((resolveRetry_gather hv hfull htrains hcalls hw hk hwin h).trans (winWalk_holds hw i.isLt hf)),
    hwait, Eq.trans hmem hmem0⟩

theorem resolveFatal_gather (hlive : jobLive s = true) : Runs (.tuResolveFatal d i) s (fun u =>
    RecordFree u d i.toNat ∧ u.job.state = .failed) := by
  have hexec : resolveFatal s d i.toNat = failJob (recordFreed s d i.toNat) stFault := by
    rw [resolveFatal_alone hv i.isLt hfull htrains hcalls, hwin, gathersOn_first hw hk h]
    rfl
  have hlive' : jobLive (recordFreed s d i.toNat) = true := by
    rw [jobLive, same_recordFreed s d i.toNat .job (by decide)]
    exact hlive
  refine ⟨_, congrArg Host.Outcome.next hexec, ?_, (failJob_shows hlive' stFault).1⟩
  exact (recordFree_recordFreed s d i.isLt).of_unit i.isLt d.isLt (regsIn_failJob _ _)

end
end

end Sys2Proof.Machine

open Sys2Proof Sys2Proof.Machine

theorem tuSatpWrite_taken {s : State} (d : ADie) (v : W64) (h : s.job.state = .arming) : Runs (.tuSatpWrite d v) s (fun u =>
    rd u (tu d 0) = v ∧ RegsBut [tu d 0] s u ∧ Same [.regs] s u) :=
  ⟨_, congrArg Host.Outcome.next (if_pos h), rd_wr_same _ _ _, regsBut_wr _ _ _, same_wr _ _ _⟩

theorem translationWalk_shows {s : State} {d : ADie} {e : EngineIx} {va : W64} {write : Bool} (hlive : jobLive s = true)
    (hmiss : tlbHit s d e va write = none) : Runs (.translationWalk d e va write) s (fun u =>
      u.trans.walks = s.trans.walks ++ [{ die := d, engine := e, va := va, write := write }]
      ∧ rd u (tu d 0x30) = satInc (rd s (tu d 0x30)) ∧ RegsBut [tu d 0x30] s u ∧ Same [.trans, .regs] s u) := by
  let t : State := { s with
    trans := { s.trans with walks := s.trans.walks ++ [{ die := d, engine := e, va := va, write := write }] } }
  obtain ⟨hcount, hregs, hsame⟩ := inc_shows t (tu d 0x30)
  refine ⟨inc t (tu d 0x30), congrArg Host.Outcome.next (if_pos ?_), rfl, hcount, ?_, (same_trans s t.trans).trans hsame⟩
  · simp [hlive, hmiss]
  · exact (regsBut_of_regs (s := s) (t := t) rfl).trans hregs

theorem resolve_ignored {s : State} {d : ADie} {i : BitVec 10} (h : recValid s d i.toNat = false) :
    ∀ a ∈ [Instr.tuResolveRetry d i, Instr.tuResolveFatal d i], Runs a s (fun u =>
      Raised s u d 0x5000060 2 ∧ RegsBut (tu d 0x60 :: noticeKeys) s u ∧ Same [.regs, .port] s u) := by
  have hn : ¬ recValid s d i.toNat = true := by simp [h]
  intro a ha
  simp only [List.mem_cons, List.not_mem_nil, or_false] at ha
  rcases ha with rfl | rfl
  · exact ⟨_, congrArg Host.Outcome.next (if_neg hn), tuEvent_shows s d (by decide)⟩
  · exact ⟨_, congrArg Host.Outcome.next (if_neg hn), tuEvent_shows s d (by decide)⟩

/-- A whole write of TU_RESOLVE is the resolve that it names. -/
theorem exec_resolveWrite (s : State) (d : ADie) (k : W64) :
    exec (.registerWrite (Fin.castLE (by decide) d) 0x5000020 8 k 0) s = .next (writeResolve s d k) := by
  have hlt : (Fin.castLE (by decide : 8 ≤ 15) d).val < 8 := d.isLt
  rw [exec_registerWrite_whole s _ _ k 0 (by decide), writeWhole_aDie s _ k 0 hlt]
  rfl

theorem resolveWrite_resolves {s : State} {d : ADie} {k : W64} {i : BitVec 10} (hi : fld k 0 10 = i.toNat)
    (h : fld k 10 2 = 1 ∨ fld k 10 2 = 2) :
    exec (if fld k 10 2 = 1 then .tuResolveRetry d i else .tuResolveFatal d i) s = .next (writeResolve s d k) := by
  rcases h with h | h
  · rw [if_pos h, writeResolve, if_pos h, hi]
    rfl
  · rw [if_neg (by omega), writeResolve, if_neg (by omega), if_pos h, hi]
    rfl

theorem resolveWrite_refused {s : State} {d : ADie} {k : W64} (h : fld k 10 2 = 0 ∨ fld k 10 2 = 3) :
    writeResolve s d k = tuEvent s d 2 := by
  rw [writeResolve, if_neg (by omega), if_neg (by omega), resolveIgnored]

/-- Settles O35: a walk keeps every register of the units but its own count, so what its end leaves is read off the one TLB entry or
the one record that it writes; a resolve frees one record, and its only waiters here are gathers, by the hypotheses. -/
theorem translationWalksAndFaults : Obligations.TranslationWalksAndFaults := by
  intro s d x e va v k write window i
  refine ⟨tuSatpWrite_taken d v, fun h => ⟨_, congrArg Host.Outcome.next (if_neg h), tuEvent_shows s d (by decide)⟩,
    translationWalk_shows, fun w hw => ⟨fun l hl hmiss => walkComplete_leaf_shows hw hl hmiss,
      fun c n hc hmiss hk hn => walkComplete_fault_shows hw hc hmiss hk hn⟩,
    fun a b hq ha hb => faultKeyArrival_shows hq ha hb,
    fun hv hfull htrains hcalls => ⟨resolve_without_waiters hv hfull htrains hcalls,
      fun w hw hk hwin h => ⟨resolveRetry_goes hv hfull htrains hcalls hw hk hwin h,
        fun x hf => resolveRetry_holds hv hfull htrains hcalls hw hk hwin h hf,
        resolveFatal_gather hv hfull htrains hcalls hw hk hwin h⟩⟩,
    fun hi h => ⟨_, exec_resolveWrite s d k, resolveWrite_resolves hi h⟩, fun h => ⟨_, exec_resolveWrite s d k, ?_⟩, resolve_ignored⟩
  rw [resolveWrite_refused h]
  exact tuEvent_shows s d (by decide)
end
